-- ==== Sys2Proof/Word.lean ====
section
/-!
DEFINITION. The word types, their plainest arithmetic and the plain data that commands carry as operands.
-/

namespace Sys2Proof

/-- A register word is 32 bits (R7). -/
abbrev Word := BitVec 32
/-- One byte of memory or of a stream. -/
abbrev Byte := BitVec 8
/-- A SHA-384 value, a nonce of 48 bytes or a coordinate of a brainpoolP384r1 point. -/
abbrev Hash := BitVec 384

/-- Round a quotient up. -/
def ceilDiv (a b : Nat) : Nat := (a + b - 1) / b

/-- The exponent of the power of two at or above n (0 for n ≤ 1). -/
def log2Up (n : Nat) : Nat := if n ≤ 1 then 0 else Nat.log2 (n - 1) + 1

/-- Bits [hi:lo] of a natural number (R7: bit 0 is the least significant). -/
def bits (v hi lo : Nat) : Nat := (v >>> lo) % 2 ^ (hi + 1 - lo)

/-- One bit of a natural number. -/
def bit (v n : Nat) : Bool := v.testBit n

/-- Two's-complement reading of the low `w` bits of v. -/
def signed (w v : Nat) : Int :=
  let x := v % 2 ^ w
  if x < 2 ^ (w - 1) then (x : Int) else (x : Int) - (2 ^ w : Nat)

/-- Two's-complement encoding of an integer in `w` bits. -/
def unsigned (w : Nat) (v : Int) : Nat := (v % ((2 ^ w : Nat) : Int)).toNat

/-- A statistics value that sticks at its maximum. -/
def stick (max n : Nat) : Nat := if n < max then n else max

/-- Little-endian value of a list of bytes (R7). -/
def leNat : List Byte → Nat
  | [] => 0
  | b :: t => b.toNat + 256 * leNat t

/-- The n low bytes of v, least significant first (R7). -/
def leBytes : Nat → Nat → List Byte
  | 0, _ => []
  | n + 1, v => BitVec.ofNat 8 v :: leBytes n (v / 256)

/-- The n low bytes of v, most significant first (keys and signatures, R314, R373). -/
def beBytes (n v : Nat) : List Byte := (leBytes n v).reverse

/-- The three sources of register access (R381). -/
inductive Source
  | portA
  | portB
  | monitor
deriving DecidableEq, Repr

namespace Source
/-- Source number: 0 port A, 1 port B, 2 monitor (R382). -/
def num : Source → Nat
  | .portA => 0
  | .portB => 1
  | .monitor => 2
end Source

/-- Roles of a session (R371): code as in ROL.SESS_STATE. -/
inductive Role
  | none
  | operator
  | installer
  | maker
deriving DecidableEq, Repr

namespace Role
/-- Code of Table 11.11. -/
def code : Role → Nat
  | .none => 0
  | .operator => 1
  | .installer => 2
  | .maker => 3
end Role

/-- Requests to a host port outside its BAR0 pages (R455). -/
inductive OtherRequest
  | io
  | atomicOp
  | unimplemented
  | poisonedWrite
deriving DecidableEq, Repr

/-- Why a stage-1 converter or a stage-2 phase fails (R493, R497). -/
inductive StageCause
  | overCurrent
  | busLow
  | overTemperature
  | stopped
  | retired
deriving DecidableEq, Repr

/-- Why a lane fails (R304). -/
inductive LaneCause
  | lockLost
  | symbolErrors
  | eyeMargin
  | retired
deriving DecidableEq, Repr

/-- Functions of the wide unit's evaluators (R111). -/
inductive WideFn
  | exp
  | exp2
  | ln
  | recip
  | sqrt
  | rsqrt
  | tanh
  | sigmoid
  | softplus
deriving DecidableEq, Repr

/-- One operation of a wide program over the values formed so far (R110 to R112). Operands are indices of
earlier values; the input elements come first. The spec gives no encoding of a wide program (log 12). -/
inductive WideInsn
  | const (v : Word)
  | add (a b : Nat)
  | mul (a b : Nat)
  | fma (a b c : Nat)
  | min (a b : Nat)
  | max (a b : Nat)
  | less (a b : Nat)
  | fn (f : WideFn) (a : Nat)
  | sum (first n : Nat)
  | maximum (first n : Nat)
deriving DecidableEq, Repr

/-- A wide program: its operations and the values that form the result, in order. -/
structure WideProg where
  ops  : List WideInsn
  outs : List Nat
deriving DecidableEq, Repr

/-- A tub header as it arrives (Table 9.2); `hcrc` is the byte received at 0x0F. -/
structure Tub where
  cls   : Nat
  fin   : Bool
  detour : Bool
  dateline : Bool
  key   : Nat
  lseq  : Nat
  lack  : Nat
  cred  : Nat
  vc    : Nat
  dest  : Nat
  src   : Nat
  msg   : Nat
  index : Nat
  hcrc  : Nat
deriving DecidableEq, Repr

/-- A role-table entry (R324). -/
structure RoleEntry where
  role   : Nat
  member : Nat
  epoch  : Nat
deriving DecidableEq, Repr

/-- A role table as it travels: its entries, and the signed public agreement keys of the members (R324, R392). -/
structure RoleTable where
  entries : List RoleEntry
  keys    : List (Nat × List Byte)
deriving DecidableEq, Repr

/-- What a JOIN states beside the member and its identity: the partner on each of its ports and its signed public agreement key
(R318, R392). -/
structure JoinContent where
  adjacent : List (Nat × Nat)
  pub      : List Byte
deriving DecidableEq, Repr

/-- What a seal decision states beside its mask: the epoch after the seal and the step numbers of the jobs, as (job number, step)
(R174, R188). -/
structure SealNumbers where
  epoch : Nat
  steps : List (Nat × Nat)
deriving DecidableEq, Repr

/-- The root of a part of a divided tile as it arrives: its work unit, and whether the copies of the combination agree (R94, R98). -/
structure PartArrival where
  unit  : Nat
  dupOk : Bool
deriving DecidableEq, Repr

/-- A hop of a block over the mesh: the stopes at which it enters and leaves, how many routers it has passed, and whether it is
relay traffic (R23, R25). -/
structure MeshHop where
  src   : Nat
  dst   : Nat
  hop   : Nat
  relay : Bool
deriving DecidableEq, Repr

/-- A SOUND or UNSOUND notice (Table 10.4). -/
structure Notice where
  gen      : Nat
  claim    : Nat
  tensor   : Nat
  inst     : Nat
  first    : Nat
  count    : Nat
  stope    : Nat
  member   : Nat
  epoch    : Nat
deriving DecidableEq, Repr

/-- A whole message as the destination sees it (Table 9.4). `tagOk`: its AES-256-GCM tag verifies. -/
structure Message where
  cls       : Nat
  key       : Nat
  src       : Nat
  mseq      : Nat
  destRole  : Nat
  destEpoch : Nat
  srcRole   : Nat
  tag       : Nat
  epoch     : Nat
  headEpoch : Nat
  first     : Nat
  blocks    : List (List Byte)
  checksOk  : Bool
  content   : List Byte
  tagOk     : Bool
deriving DecidableEq, Repr

/-- A HELLO as it is received and the outcome of its cryptographic checks (Table 9.6, steps 2 and 3). -/
structure Hello where
  member      : Nat
  port        : Nat
  identity    : Hash
  rosterVer   : Nat
  ephemeral   : List Byte
  chainOk     : Bool
  sigOk       : Bool
deriving DecidableEq, Repr

/-- A candidate's announcement (R317). -/
structure Cand where
  member  : Nat
  ref     : Bool
  pref    : Nat
  epoch   : Nat
deriving DecidableEq, Repr

/-- The converter readings of one column at one range: sums of 16 codes at the two probe currents,
before and after trimming (R290, R291). -/
structure ConvMeas where
  col     : Nat
  range   : Nat
  old1    : Int
  old2    : Int
  new1    : Int
  new2    : Int
  trimmed : Bool
deriving DecidableEq, Repr

/-- The cell readings of one weight column: for each row, the sum of 8 codes at range code 0 (R292). -/
structure CellMeas where
  col  : Nat
  sums : List (Nat × Int)
deriving DecidableEq, Repr

/-- What one array's assay measures (R290): converter fits, cell fits, drift probes (sum of 16 reads of each
row group over the four witness columns, in 1/16 level-units) and the ageing readings of Table 8.4. -/
structure AssayMeas where
  conv   : List ConvMeas
  cells  : List CellMeas
  probes : List Int
  sigma  : Nat
  rho    : Int
deriving DecidableEq, Repr

/-- Results of the eight charge-balancing converters over one window (R502, R503). -/
structure MainsReading where
  inMv     : Nat
  inMa     : Nat
  busMv    : Nat
  outMa    : Nat
  s2inMa   : Nat
  polMa    : Nat
  depMa    : Nat
  coreW    : Nat
  rippleMv : Nat
  periodNs : Nat
deriving DecidableEq, Repr

/-- Where a series record, a claim address or a unit must lie is checked in WellFormed.lean. -/
structure SeriesRec where
  tally  : Nat
  series : Nat
  value  : Word
deriving DecidableEq, Repr

end Sys2Proof
end

