-- ==== Sys2Proof/Syntax.lean ====
section
/-!
DEFINITION. The commands: one constructor for each row of spec/opcode_table.json: in the table's order,
those with operands first, then those without.

Operand names: c claim (0 to 63); e index of an entry of the claim's hoist table; p physical stope (0 to 1,055);
lp logical stope; k array of a stope (0 to 16), or a unit's number; cb, rb column and row block of a layer;
vec vector of a pass; mb micro-batch; src the source of an access; v the value written (for a guarded write, the
value V of the completed pair); n claim page. Analogue readings, arrivals from partners and the outcomes of
physical checks are operands: they come from outside the block.
-/

namespace Sys2Proof

/-- The commands of the block. -/
inductive Instr
  /-- IDLE (R182): A fixed IDLE hoist launches at its tally offset and holds its targets idle for its duration. -/
  | idle (c e : Nat)
  /-- IDLE_END (R180): The duration of an IDLE hoist elapses and the hoist completes. -/
  | idleEnd (c e : Nat)
  /-- SEAM_PASS (R68): A SEAM_PASS hoist starts on its seams, or on the hewers for a hewer-only layer or a reference pass, and runs its vectors one pass at a time per seam. -/
  | seamPass (c e : Nat)
  /-- VECTOR_READ (R66): A seam starts reading an input vector, driving its non-zero magnitude planes from 6 down to 0 in eight slots each. -/
  | vectorRead (p k : Nat)
  /-- VECTOR_READ_DONE (R55): The last read of a vector ends, and the collar forms the exact column values and completes the witness checks. -/
  | vectorReadDone (p k : Nat) (codes : List (List Int))
  /-- SPLIT_PART_READ (R54): A split part of a saturated vector is read, and its accumulation is added or halved again if it saturates. -/
  | splitPartRead (p k : Nat) (codes : List (List Int))
  /-- CHAIN_PARTIAL (R56): A partial block of column values from another seam of a chain reaches the head collar and is added exactly. -/
  | chainPartial (c layer cb rb vec : Nat)
  /-- HEAD_COLLAR_OUTPUT (R57): With all partials present, the head collar applies scale and bias, activation, pooling and output conversion and writes outputs and stockpile data. -/
  | headCollarOutput (c layer cb vec : Nat) (dupOk : Bool)
  /-- RANGE_RECHECK (R347): Once free digital columns are available, the collars recompute an excursion exactly and release the value or fail the pass. -/
  | rangeRecheck (c layer cb vec : Nat)
  /-- ZERO_VECTOR (R63): An all-zero vector takes no read, and the collar emits the activation of the bias at most once per 32 ns. -/
  | zeroVector (p k : Nat)
  /-- STASH_WRITE (R227): A training pass writes its stash, spilling older stashes or dropping the stash as recompute when the stockpile is full. -/
  | stashWrite (c layer mb : Nat)
  /-- SPILL_COMPLETE (R227): Every block of a spilled stash is written and checked in the slow tier, and the fast copy is freed. -/
  | spillComplete (c layer mb : Nat)
  /-- RECOMPUTE_RUN (R229): The device starts a run of generated forward tiles that regenerates the planes of the highest marked layers of a segment. -/
  | recomputeRun (c mb : Nat)
  /-- HEW_DX (R94): A HEW_DX hoist divides the input-gradient product into work units among the claim's hewers. -/
  | hewDx (c e : Nat)
  /-- HEW_DW (R94): A HEW_DW hoist divides the weight- and bias-gradient product into work units among the claim's hewers. -/
  | hewDw (c e : Nat)
  /-- TILE_START (R109): A hewer starts issuing a tile's leaves at a tile boundary, when the governor admits it. -/
  | tileStart (p : Nat)
  /-- LEAF_END (R97): A leaf's products are complete, its exact check sums are compared and its values are pushed to the node stacks. -/
  | leafEnd (p : Nat) (dev : List (Nat × Nat × Int)) (dupOk : Bool)
  /-- PART_ROOT_ARRIVAL (R94): The root node of another part of a divided tile reaches the stope holding part 0 and is combined in the reference tree. -/
  | partRootArrival (c e : Nat) (part : PartArrival)
  /-- TILE_DRAIN (R100): After the fence, the hewer drains a tile's root nodes row by row through rounding, derivative and conversion to the buffer. -/
  | tileDrain (p : Nat) (dupOk : Bool)
  /-- HEWER_RELIEF_TILE (R283): The claim's hewers compute exact relief tiles for a CLOSED seam and send them to the head collar as partial blocks. -/
  | hewerReliefTile (c layer cb rb vec : Nat)
  /-- WIDE_OP (R110): A WIDE_OP hoist runs its binary32 program on the wide unit's lanes. -/
  | wideOp (c e : Nat) (prog : WideProg) (checkOk : Bool)
  /-- SEND (R308): A SEND hoist sends a tensor as sealed messages to the member holding the destination role. -/
  | send (c e : Nat)
  /-- RECV (R183): A RECV hoist completes when every tub has landed and been released, or makes the step unsound as LATE_RECV. -/
  | recv (c e : Nat)
  /-- REDUCE (R329): A REDUCE hoist exchanges node words with its partner and combines them at the next tree level. -/
  | reduce (c e : Nat) (words : List Nat)
  /-- MILL_PUSH (R244): A MILL_PUSH hoist sends a gradient and the step number to the mill for a master set. -/
  | millPush (c e : Nat)
  /-- PUSH_ACCEPT (R244): When every gradient block has been released and the step checks pass, the mill accepts the push and the hoist completes. -/
  | pushAccept (c set : Nat)
  /-- SET_UPDATE (R249): The mill takes an accepted push and updates the set's masters and moments into the staged bank. -/
  | setUpdate (agree : Bool)
  /-- BRIDGE_BLOCK (R236): A tensor block crosses the mill bridge, its check is verified, and it is resent on failure up to three times. -/
  | bridgeBlock (c addr fails : Nat)
  /-- VERDICT_ARRIVAL (R188): A downstream member's verdict arrives and is combined by OR up the marker tree. -/
  | verdictArrival (member : Nat) (mask : BitVec 64)
  /-- DECISION_HOLD (R188): The standby receives the seal decision, holds it and acknowledges. -/
  | decisionHold (mask : BitVec 64) (after : SealNumbers)
  /-- DECISION_RECEIVE (R188): A member receives the seal decision, writes its numerics copies and stages mill, seam and page state. -/
  | decisionReceive (mask : BitVec 64) (after : SealNumbers)
  /-- ASSAY_SLOT (R289): An ASSAY_SLOT reserves its target stopes and assays arrays in place while they read no vectors. -/
  | assaySlot (c e : Nat)
  /-- ASSAY_SLOT_END (R289): The duration of an ASSAY_SLOT elapses and its stopes return to reading vectors. -/
  | assaySlotEnd (c e : Nat)
  /-- TEST_SLOT (R361): At a TEST_SLOT launch, one due stope per row hands its work to its prepared relief and runs its tests. -/
  | testSlot (c e : Nat)
  /-- TEST_SLOT_END (R361): At the end of a test slot the buffers are zeroised and copied back and the stope serves again. -/
  | testSlotEnd (c e : Nat) (ends : List (Nat × Option (Nat × Nat)))
  /-- PROBE_STEP (R145): The first step of a cold start runs one micro-batch forward through every layer to set the scales. -/
  | probeStep (c : Nat)
  /-- LOAD (R176): LOAD checks the job descriptor, hoist table, placement and numerics settings and reads READY or REFUSED. -/
  | load (src : Source)
  /-- START (R175): START moves a READY job to STARTING, restoring a checkpoint or initialising its sets. -/
  | start (src : Source)
  /-- JOB_RUN_BEGIN (R175): A started job begins at the first step slot for which every member holding part of it reports READY. -/
  | jobRunBegin (c : Nat)
  /-- STOP (R177): STOP lets a RUNNING job run to its next seal and then read READY. -/
  | stop (src : Source)
  /-- SWAP (R177): SWAP checks a new descriptor for a running job to take effect at a later seal. -/
  | swap (src : Source)
  /-- UNLOAD (R177): UNLOAD returns a READY or REFUSED job to NONE, leaving claim memory untouched. -/
  | unload (src : Source)
  /-- ABORT (R178): A guarded write to HOI.ABORT makes the job's current step unsound and discards its in-flight work. -/
  | abort (src : Source) (v : Word)
  /-- GOV_WINDOW (R193): Every 8 µs the governor forms p_est and adjusts the giver's and keeper's admission ratios. -/
  | govWindow (vcore icore : List Nat)
  /-- TALLY_MARKER (R168): A member receives a tally marker, echoes it, corrects its tally by the measured delay and forwards it. -/
  | tallyMarker (port value epoch hops : Nat) (refSource : Bool) (delay : Nat) (tagOk : Bool)
  /-- REF_PPS_EDGE (R165): An accepted PPS edge advances the headframe's acquisition and corrects its tally onto the whole second. -/
  | refPpsEdge (err : Int)
  /-- REF_CLK_REJECT (R165): REF_CLK leaves ±50 ppm of 25 MHz and the headframe falls to FREE holding its correction. -/
  | refClkReject (ppm : Int)
  /-- TALLY_SET (R166): A guarded write to TAL.TALLY_SET sets calendar time on the headframe or is refused. -/
  | tallySet (src : Source) (v : Word)
  /-- GRID_SET (R173): A guarded write to HOI.GRID_SET accepts or refuses a new step grid. -/
  | gridSet (src : Source) (v : Word)
  /-- QUEUE_WINDOW (R212): At each 1 ms window the tier's controllers measure queue depths and count channels over. -/
  | queueWindow (slow : Bool) (depths : List Nat) (busiest : Nat)
  /-- MIGRATE_STRIPE (R213): A stripe's copy under the new mapping completes and the stripe table points at the new row. -/
  | migrateStripe (slow : Bool)
  /-- CHAN_RETIRE (R214): A guarded write to FTC.CHAN_RETIRE retires a fast-tier channel and migrates every claim. -/
  | chanRetire (src : Source) (stack : Nat) (v : Word)
  /-- SLOW_STACK_RETIRE (R214): A guarded write to MIL.CHAN_RETIRE retires a slow-tier stack and migrates every claim. -/
  | slowStackRetire (src : Source) (page : Nat) (v : Word)
  /-- BLOCK_ARRIVAL (R340): A tensor block reaches a unit, which recomputes its check before passing it on or storing it. -/
  | blockArrival (way : MeshHop) (c addr fails : Nat)
  /-- SCRUB_READ (R344): The tier's scrubber reads and checks an allocated block. -/
  | scrubRead (c addr fails : Nat)
  /-- REBUILD_DONE (R342): A damaged block's rebuild completes and waiting work proceeds. -/
  | rebuildDone (c addr : Nat)
  /-- SCRUB_PASS_END (R343): At the end of a scrub pass the device fills free lost-list entries with unlisted LOST blocks. -/
  | scrubPassEnd (slow : Bool)
  /-- RESYNC (R247): The headframe's committed step number arrives and the mill compares it with NEXT for each set. -/
  | resync (c step : Nat)
  /-- FREEZE_DONE (R261): The mill completes freezing a checkpoint image into its freeze area and starts sending it. -/
  | freezeDone (c : Nat)
  /-- CKPT_SEND_DONE (R262): The buddy holds a complete, checked image and discards the older one. -/
  | ckptSendDone (c : Nat)
  /-- WRITE_LIST_BLOCK (R282): A write-list block reaches the stope and is applied to the relief seam or to the seam. -/
  | writeListBlock (lp k : Nat)
  /-- SEAM_QUIET (R282): Every pass of the slot that reads a seam completes and its in-place write begins. -/
  | seamQuiet (lp k : Nat)
  /-- WRITE_ROW_SIDE (R271): A write channel programs one row side with verify reads and up to four pulses. -/
  | writeRowSide (p k row : Nat) (neg : Bool) (before after : List (Nat × Int)) (more : List (List (Nat × Int)))
  /-- RELIEF_COPY_DONE (R277): The relief seam's copy and assay complete and the cycle reads STAGED. -/
  | reliefCopyDone (p : Nat) (window : Nat)
  /-- DRIFT_PROBE (R285): A drift probe reads a row group's witness columns and forms its drift and refresh estimate. -/
  | driftProbe (p k group : Nat) (sum : Int)
  /-- ASSAY_DUE (R288): A stope's assay becomes due by temperature change or MAX_INTERVAL. -/
  | assayDue (p : Nat) (temp : Int)
  /-- ASSAY_OVERDUE (R288): A stope's round has not completed MAX_INTERVAL plus 60 s after the last began. -/
  | assayOverdue (p : Nat)
  /-- ASSAY_FORCE (R288): A guarded write to ASY.ASSAY_FORCE makes the named stope's assay due at once. -/
  | assayForce (src : Source) (v : Word)
  /-- ARRAY_ASSAY (R290): An array's assay starts: trims, converter fits, cell fits, drift probes and ageing measurements. -/
  | arrayAssay (p k : Nat)
  /-- ARRAY_ASSAY_DONE (R289): An array's assay completes and its fitted coefficients become targets. -/
  | arrayAssayDone (p k : Nat) (meas : AssayMeas)
  /-- WRITE_EFFORT_REPLAN (R298): At each 65,536th row-side write the pulse amplitude step is re-planned. -/
  | writeEffortReplan (p k : Nat)
  /-- LANE_FAIL (R304): A drift lane fails and the two ends move the spare into its place and relock. -/
  | laneFail (port lane : Nat) (cause : LaneCause)
  /-- EYE_MEASURE (R305): Every 10 s each lane's eye margin is measured, and a weak active lane rotates with the spare. -/
  | eyeMeasure (port lane eye : Nat)
  /-- LANE_RETRAIN (R305): A failed lane retrains every 60 s and becomes the spare once it holds margin. -/
  | laneRetrain (port lane eye held : Nat)
  /-- LANE_RETIRE (R304): A guarded write to DRF.LANE_RETIRE fails the named lane. -/
  | laneRetire (src : Source) (port : Nat) (v : Word)
  /-- TUB_RECEIVE (R307): A tub arrives, its HCRC and LSEQ order are checked and credits and acknowledgements are taken. -/
  | tubReceive (port : Nat) (tub : Tub)
  /-- RETRY (R312): A RETRY on LINK_CTL makes the sender resend from the missing LSEQ. -/
  | retry (port lseq : Nat)
  /-- ACK_TIMEOUT (R312): A sender without acknowledgement for 4 µs resends from its oldest unacknowledged tub. -/
  | ackTimeout (port : Nat)
  /-- MESSAGE_RECEIVE (R309): A whole message arrives and is accepted after tag, MSEQ, epoch and role checks. -/
  | messageReceive (port : Nat) (m : Message)
  /-- STALE_ROLE_REPLY (R326): A sender receives STALE_ROLE and resends once to the current holder. -/
  | staleRoleReply (port : Nat) (r : RoleEntry) (mseq : Nat)
  /-- NOTICE_SOUND (R349): A SOUND notice arrives and the pending blocks it names are released. -/
  | noticeSound (n : Notice)
  /-- NOTICE_UNSOUND (R350): An UNSOUND notice arrives and the receiver discards the blocks it names. -/
  | noticeUnsound (n : Notice)
  /-- ROSTER_COMMIT (R314): A guarded write to CAS.ROSTER_COMMIT validates and commits the staged roster. -/
  | rosterCommit (src : Source) (v : Word)
  /-- ROSTER_RECEIVE (R314): A member receives a roster from a partner and keeps it if valid and newer. -/
  | rosterReceive (port : Nat) (bytes : List Byte)
  /-- LINK_TRAINED (R316): A drift's lanes train and lock and the port reads LINKED. -/
  | linkTrained (port lanes : Nat)
  /-- HELLO (R316): A HELLO is received and verified, taking the port to UP or QUARANTINED. -/
  | hello (port : Nat) (h : Hello)
  /-- AUTH_TIMEOUT (R316): Authentication not complete within 50 ms of AUTH quarantines the port. -/
  | authTimeout (port : Nat)
  /-- QUARANTINE_RETRY (R316): After 10 s a quarantined port re-attempts the HELLO exchange. -/
  | quarantineRetry (port : Nat)
  /-- CANDIDATE (R317): A headframe candidate's announcement is received and compared with the member's own. -/
  | candidate (k : Cand)
  /-- JOIN (R318): The headframe receives a JOIN and admits or refuses the member. -/
  | join (member : Nat) (identity : Hash) (content : JoinContent)
  /-- ADMIT (R318): A joining member receives ADMIT, steps its tally and becomes MEMBER. -/
  | admitMember (member : Nat) (cascade epoch tallyNow stateEpoch : Nat) (roles : RoleTable) (routes : List (Nat × Nat × Nat)) (period origin sealW : Nat)
  /-- REFUSE (R318): A joining member receives a REFUSE and waits to retry. -/
  | refuse (reason : Nat)
  /-- STANDBY_TAKEOVER (R319): With no headframe marker for 100 µs and a majority answering, the standby takes over as headframe. -/
  | standbyTakeover (answers : Nat)
  /-- HEAD_MOVE (R320): A guarded write to CAS.HEAD_MOVE requests or is refused a headframe handover. -/
  | headMove (src : Source) (v : Word)
  /-- ROUTE_TABLE (R323): A member receives a new route table from the headframe. -/
  | routeTable (version : Nat) (routes : List (Nat × Nat × Nat))
  /-- ROLE_UPDATE (R325): A member receives new role-table entries that take effect at the named commit tally. -/
  | roleUpdate (roles : RoleTable) (atTally : Nat)
  /-- PORT_DOWN (R330): No sync codeword for 10 µs takes a port DOWN, discards its queue and changes routes. -/
  | portDown (port : Nat)
  /-- UNCORR_WINDOW (R330): Uncorrectable codewords above 16 per ms for 10 ms quarantine the port. -/
  | uncorrWindow (port count : Nat)
  /-- PORT_DISABLE (R330): A guarded write to DRF.PORT_DISABLE takes the port DOWN and holds it, or releases it. -/
  | portDisable (src : Source) (port : Nat) (v : Word)
  /-- MEMBER_EVICT (R331): A guarded write to CAS.MEMBER_EVICT treats the named member as lost. -/
  | memberEvict (src : Source) (v : Word)
  /-- RESTART (R331): A member receives RESTART(j, n), stops and fetches its checkpoint image of n from its buddy. -/
  | restart (job step : Nat)
  /-- IMAGE_FETCH_DONE (R331): A fetched checkpoint image is in claim memory and the member STARTs from it. -/
  | imageFetchDone (c base : Nat)
  /-- PENDING_READ_ABORT (R348): A host read of a pending block held for 40 µs completes with Completer Abort. -/
  | pendingReadAbort (src : Source)
  /-- WATCH_WINDOW_END (R354): A WATCHED stope's window ends and it returns to IN SERVICE or starts a new window. -/
  | watchWindowEnd (p : Nat)
  /-- TEST_DUE (R362): A stope's test interval elapses and it becomes due for test. -/
  | testDue (p : Nat)
  /-- TEST_OVERDUE (R362): A stope's last complete test becomes older than twice its interval. -/
  | testOverdue (p : Nat)
  /-- RELIEF_PREP (R360): An idle relief stope starts preparing for a stope of its row by testing itself, copying codes and assaying. -/
  | reliefPrep (p : Nat) (target : Nat) (testOk : Bool)
  /-- RELIEF_PREP_DONE (R360): A relief stope's preparation completes and it reads PREPARED. -/
  | reliefPrepDone (p : Nat)
  /-- STOPE_RETIRE (R355): A guarded write to INT.STOPE_RETIRE proposes the named stope for retirement. -/
  | stopeRetire (src : Source) (v : Word)
  /-- STOPE_TEST (R362): A guarded write to INT.STOPE_TEST makes the named stope due for test. -/
  | stopeTest (src : Source) (v : Word)
  /-- FULL_TEST (R362): A guarded write to INT.FULL_TEST tests every stope at once, or is refused while a job runs. -/
  | fullTest (src : Source) (v : Word)
  /-- CANARY_COMMIT (R359): A guarded write to INT.CANARY_COMMIT verifies and installs the staged canary pack. -/
  | canaryCommit (src : Source) (v : Word)
  /-- CANARY_REMOVE (R359): A guarded write to INT.CANARY_REMOVE removes an installed pack. -/
  | canaryRemove (src : Source) (v : Word)
  /-- CAPTURE_RELEASE (R358): A guarded write to INT.CAPTURE_RELEASE adds a copy of a record's capture sealed to the maker. -/
  | captureRelease (src : Source) (v : Word)
  /-- HEARTBEAT_LOSS (R366): Three missing heartbeats put the stope in FAULT and propose it for retirement. -/
  | heartbeatLoss (p : Nat)
  /-- CORE_TAKEOVER (R365): A lockstep disagreement or stopped core lets the standby core take over within 40 µs. -/
  | coreTakeover (lockstep : Bool)
  /-- ROUTER_TAKEOVER (R365): A router twin disagreement or loss leaves the survivor routing alone within 40 µs. -/
  | routerTakeover (p : Nat)
  /-- APPLY (R377): A guarded write to CLM n.APPLY checks and stages the claim's asks or refuses them. -/
  | apply (src : Source) (n : Nat) (v : Word)
  /-- STRIPE_FILL_DONE (R377): Added stripes finish zero-filling and appear in the claim's grant. -/
  | stripeFillDone (n : Nat)
  /-- BIND (R378): A guarded write to CLM n.BIND binds the staged operator key and makes the claim OPEN. -/
  | bind (src : Source) (n : Nat) (v : Word)
  /-- DESTROY (R379): The DESTROY command ends sessions, aborts the job and clears the claim to EMPTY. -/
  | destroy (src : Source) (n : Nat) (v : Word)
  /-- UNBIND (R379): The UNBIND command clears the claim to RESERVED, keeping its resources. -/
  | unbind (src : Source) (n : Nat) (v : Word)
  /-- WIPE (R379): The WIPE command clears the claim and renews its keys, keeping binding and resources. -/
  | wipe (src : Source) (n : Nat) (v : Word)
  /-- CLEAR_DONE (R398): A claim's clearing completes, CLEAR_PENDING clears and the claim enters its next state. -/
  | clearDone (n : Nat)
  /-- VOLATILE (R380): A guarded write to CLM n.VOLATILE sets or clears the claim's volatility. -/
  | volatile (src : Source) (n : Nat) (v : Word)
  /-- SESS_REQ (R382): A write to SESS_REQ ends any current session, issues a fresh nonce and reads CHALLENGED. -/
  | sessReq (src : Source) (v : Word)
  /-- SESS_PROVE (R383): A write to SESS_PROVE verifies the staged proof and opens the session or fails. -/
  | sessProve (src : Source) (v : Word)
  /-- SESS_END (R384): A write to SESS_END ends the source's session. -/
  | sessEnd (src : Source) (v : Word)
  /-- SESSION_IDLE (R384): SESS_IDLE elapses without access and the session ends. -/
  | sessionIdle (src : Source)
  /-- BLOCKED_END (R383): A blocked source's 60 s block expires. -/
  | blockedEnd (src : Source)
  /-- INST_ENROL (R373): A guarded write of 1 to ROL 3.INST_ENROL enrols or replaces the installer key. -/
  | instEnrol (src : Source) (v : Word)
  /-- INST_WITHDRAW (R373): A guarded write of 2 to ROL 3.INST_ENROL withdraws the installer while all claims are EMPTY. -/
  | instWithdraw (src : Source) (v : Word)
  /-- ATTEST_REQ (R409): A write to ROL 3.ATTEST_REQ starts signing an attestation report for the source. -/
  | attestReq (src : Source) (v : Word)
  /-- ATTEST_READY (R409): The signed report is ready to read and ATTEST_STATE.READY is set. -/
  | attestReady (src : Source)
  /-- MAKER_GATE (R405): A guarded write to ROL 3.MAKER_GATE opens or closes the gate, ending maker sessions on closing. -/
  | makerGate (src : Source) (v : Word)
  /-- DIAG_OPEN (R407): A guarded write to ROL 3.DIAG_OPEN opens the diagnostic functions that the consents allow. -/
  | diagOpen (src : Source) (v : Word)
  /-- CONSENT_EXPIRY (R408): A consent reaches NOT_AFTER and the function relying on it closes. -/
  | consentExpiry (claim : Nat)
  /-- IDE_KEY_COMMIT (R394): A guarded write to ROL 3.IDE_KEY_COMMIT programs the staged IDE key set. -/
  | ideKeyCommit (src : Source) (v : Word)
  /-- IDE_REQUIRE (R395): A guarded write to ROL 3.IDE_REQUIRE sets which ports require link IDE for sessions. -/
  | ideRequire (src : Source) (v : Word)
  /-- STAGE_BEGIN (R411): A write of 1 to DEP.STAGE_CMD empties the staging store for a new firmware image. -/
  | stageBegin (src : Source) (v : Word)
  /-- STAGE_DISCARD (R411): A write of 2 to DEP.STAGE_CMD discards a staged image. -/
  | stageDiscard (src : Source) (v : Word)
  /-- FW_COMMIT (R412): A guarded write to DEP.FW_COMMIT makes the standby boot the new image and take state handover. -/
  | fwCommit (src : Source) (v : Word)
  /-- FLASH_WRITE_DONE (R414): A flash write is read back and verified, or after retries the state reads FLASH_STALE. -/
  | flashWriteDone (retries : Nat)
  /-- FW_REVERT (R413): A guarded write to DEP.FW_REVERT returns to the old image during probation. -/
  | fwRevert (src : Source) (v : Word)
  /-- FUSE_BURN (R415): A guarded write to DEP.FUSE_BURN raises the fused firmware floor to the running version. -/
  | fuseBurn (src : Source) (v : Word)
  /-- REGISTER_WRITE (R9): A write to a register that has no behaviour of its own takes effect by its access code or is refused and recorded. -/
  | registerWrite (src : Source) (addr : Nat) (v : Word) (be : Nat)
  /-- GUARD_PAIR_OPEN (R437): A write to an RWG register opens a guarded pair for its source and page. -/
  | guardPairOpen (src : Source) (addr : Nat) (v : Word)
  /-- GUARD_PAIR_TIMEOUT (R437): A guarded pair with no closing write within 1 µs is discarded with GUARD_FAIL. -/
  | guardPairTimeout (src : Source) (page : Nat)
  /-- COMPLEMENT_WRITE (R436): A write to a complement that closes no pair is discarded and recorded. -/
  | complementWrite (src : Source) (addr : Nat) (v : Word)
  /-- ENABLE_CLEAR (R432): Clearing CONTROL.ENABLE puts the page into DRAINING. -/
  | enableClear (src : Source) (page : Nat)
  /-- ENABLE_SET (R432): Setting CONTROL.ENABLE brings the page through STARTING to ON. -/
  | enableSet (src : Source) (page : Nat)
  /-- DRAIN_COMPLETE (R432): A draining page's drain completes and it reads OFF. -/
  | drainComplete (page : Nat)
  /-- EVT_FLAG_CLEAR (R433): A W1C write to EVT_FLAG clears the source's latched events and its interrupt or alert follows. -/
  | evtFlagClear (src : Source) (page : Nat) (v : Word)
  /-- CAPTURE_READ (R441): A read of a 64-bit quantity's low word captures all 64 bits in the source's buffer. -/
  | captureRead (src : Source) (addr : Nat)
  /-- BIT_ALIAS_WRITE (R440): A write to a bit alias acts on one bit by its field's access code. -/
  | bitAliasWrite (src : Source) (addr : Nat) (v : Word)
  /-- STREAM_WRITE_START (R444): Writing MODE 1 starts a write transfer of STREAM_LEN bytes at STREAM_ADDR. -/
  | streamWriteStart (src : Source) (page : Nat)
  /-- STREAM_READ_START (R444): Writing MODE 2 starts a read transfer of STREAM_LEN bytes at STREAM_ADDR. -/
  | streamReadStart (src : Source) (page : Nat)
  /-- STREAM_ABANDON (R447): Writing MODE 0 during a transfer abandons it with ERROR 9. -/
  | streamAbandon (src : Source) (page : Nat)
  /-- STREAM_WINDOW_WRITE (R445): A word written to the stream window fills its place in the current lap and completes laps and transfers. -/
  | streamWindowWrite (src : Source) (page x : Nat) (v : Word) (be : Nat)
  /-- STREAM_WINDOW_READ (R445): A read of the stream window takes data from its place in the current lap. -/
  | streamWindowRead (src : Source) (page x : Nat)
  /-- STREAM_READ_TIMEOUT (R446): A stream read held 40 µs for data completes with Completer Abort and ends the transfer with ERROR 4. -/
  | streamReadTimeout (src : Source) (page : Nat)
  /-- PERST (R459): Assertion of PERST returns the port's own state to reset and ends its session. -/
  | perst (port : Nat)
  /-- HOT_RESET (R459): A Hot Reset returns the port's own state to reset. -/
  | hotReset (port : Nat)
  /-- FUNCTION_LEVEL_RESET (R459): A Function Level Reset returns the port's own state to reset. -/
  | functionLevelReset (port : Nat)
  /-- LINK_UP (R453): The port enters DL_Active at the best rate and width and notes degradation. -/
  | linkUp (port speed width : Nat) (flit : Bool)
  /-- HOST_LOST (R463): A link out of DL_Active for 50 ms declares the host lost. -/
  | hostLost (port : Nat)
  /-- D3HOT_ENTRY (R460): The port enters D3hot and answers only configuration requests. -/
  | d3hotEntry (port : Nat)
  /-- D0_RETURN (R460): The port returns to D0 and BAR access is restored. -/
  | d0Return (port : Nat)
  /-- UNSUPPORTED_REQUEST (R455): An I/O request, AtomicOp or access to unimplemented BAR space completes with Unsupported Request. -/
  | unsupportedRequest (port : Nat) (kind : OtherRequest) (addr : Nat)
  /-- MSI_HOLDOFF_END (R458): A vector's holdoff elapses and one message is sent if the group still holds a pending bit. -/
  | msiHoldoffEnd (port vec : Nat)
  /-- BIND_SET (R462): A guarded write to HPx.BIND_SET binds or unbinds a claim to the port. -/
  | bindSet (src : Source) (port : Nat) (v : Word)
  /-- IDE_FAIL (R465): An IDE integrity failure discards the TLP, takes IDE insecure and ends sessions that require it. -/
  | ideFail (port sub : Nat)
  /-- INPUT_STATE_CHANGE (R489): The input voltage moves between NORMAL, LOW and HIGH and the budget ceiling follows. -/
  | inputStateChange (mv : Nat)
  /-- INPUT_OVER (R489): The input above 84 V for 100 µs stops stage 1 until it returns to 80 V. -/
  | inputOver (mv : Nat)
  /-- POWER_FAIL (R490): The input below 46 V for 20 µs declares POWER_FAIL, holds all work and stores MRAM state. -/
  | powerFail (mv draw : Nat)
  /-- CONV_FAIL (R493): A stage-1 converter fails and the spare takes its load share. -/
  | convFail (k : Nat) (cause : StageCause)
  /-- CONV_RETIRE (R493): A guarded write to PWR.CONV_RETIRE fails the named converter. -/
  | convRetire (src : Source) (v : Word)
  /-- SPARE_ROTATE (R494): Every 168 h, or on low efficiency, the spare converter role moves. -/
  | spareRotate (k : Nat) (lowEfficiency : Bool)
  /-- PHASE_FAIL (R497): A stage-2 phase fails and its band's spare takes its row. -/
  | phaseFail (k : Nat) (cause : StageCause)
  /-- PHASE_RETIRE (R497): A guarded write to PWR.PHASE_RETIRE fails the named phase. -/
  | phaseRetire (src : Source) (v : Word)
  /-- SENSOR_INVALID (R501): A housekeeping channel implausible for 8 readings becomes invalid. -/
  | sensorInvalid (p ch : Nat)
  /-- SENSOR_VALID (R501): A channel is valid again after 64 plausible readings. -/
  | sensorValid (p ch : Nat)
  /-- MAINS_WINDOW (R503): A mains window ends and the charge-balancing results give P_cyc, η1 and η2. -/
  | mainsWindow (r : MainsReading)
  /-- THERMAL_WARN (R506): A sensor crosses its warning threshold and its state changes. -/
  | thermalWarn (cls inst : Nat) (temp : Int)
  /-- THERMAL_CLAMP (R507): A stope above its clamp threshold is thermally clamped, or a memory or die starts the clamp. -/
  | thermalClamp (cls inst : Nat) (temp : Int)
  /-- THERMAL_TRIP (R509): A sensor above trip twice asserts THERM_TRIP_N and removes the rails after VDEP. -/
  | thermalTrip (cls inst : Nat) (temp : Int)
  /-- TRIP_CLEAR (R509): A guarded write to PWR.TRIP_CLEAR releases the trip and restores the rails from VDRIFT. -/
  | tripClear (src : Source) (v : Word)
  /-- GOV_BUDGET (R495): A guarded write to PWR.GOV_BUDGET sets the governor budget. -/
  | govBudget (src : Source) (v : Word)
  /-- INPUT_LIMIT (R495): A guarded write to PWR.INPUT_LIMIT sets the input power limit. -/
  | inputLimit (src : Source) (v : Word)
  /-- BRINGUP_STEP (R518): A bring-up step of Table 16.1 completes and the next begins. -/
  | bringupStep (ms : Nat) (imageOk : Bool)
  /-- RECOVERY_IMAGE (R522): A passing image arrives, is written to flash and bring-up restarts at step 2. -/
  | recoveryImage (image : List Byte)
  /-- DEVICE_RESET (R525): A guarded write to DEV.RESET removes the rails and reruns bring-up from step 2, or is refused. -/
  | deviceReset (src : Source) (v : Word)
  /-- PROSPECT_CLEAR (R528): A guarded write to DEV.PROSPECT_CLEAR clears the prospector's stopes and memory. -/
  | prospectClear (src : Source) (v : Word)
  /-- SERIES_RECORD (R530): A series record from the PRO stream is placed in its quarter-hour slot or refused. -/
  | seriesRecord (r : SeriesRec)
  /-- FC_CMD (R532): A write to PRO.FC_CMD requests forecasts for a range of series. -/
  | fcCmd (src : Source) (v : Word)
  /-- FORECAST_DONE (R532): The forecast request completes and FC_STATE reads DONE. -/
  | forecastDone (values : List (List Word))
  /-- COMMAND_LINE (R543): Bobel receives a whole command line, or rejects it with error 7. -/
  | commandLine (chars : Nat) (overrun framing : Bool)
  /-- HELP (R547): The help command prints command names or one command's syntax. -/
  | help (command : Nat)
  /-- LOGIN (R545): The login command requests a session and prints the nonce. -/
  | login (role : Role) (claim : Nat) (chain : List Byte)
  /-- LOGIN_SIGNATURE (R545): The signature digits complete and Bobel proves the session. -/
  | loginSignature (sig : List Byte)
  /-- PEEK (R547): The peek command reads and prints up to 64 words. -/
  | peek (addr n : Nat)
  /-- POKE (R548): The poke command writes a word, or a value and its complement as a guarded pair. -/
  | poke (addr : Nat) (v : Word) (complement : Option Word)
  /-- LOG (R547): The log command prints recorder records from either view. -/
  | log (seq : Option Nat) (n : Nat) (sec : Bool)
  /-- ASSAY (R547): The assay command prints a stope's and an array's upkeep state. -/
  | assay (p k : Nat)
  /-- MON_ASSAY_FORCE (R549): assay force forms the guarded write to ASY.ASSAY_FORCE. -/
  | monAssayForce (p : Nat)
  /-- MON_CANARY_TEST (R549): canary test forms the guarded write to INT.STOPE_TEST. -/
  | monCanaryTest (p : Nat)
  /-- STOPE (R547): The stope command prints a stope's status and integrity state. -/
  | stope (p : Nat)
  /-- MON_STOPE_RETIRE (R549): stope retire forms the guarded write to INT.STOPE_RETIRE. -/
  | monStopeRetire (p : Nat)
  /-- DRIFT (R547): The drift command prints the state of one port or all. -/
  | drift (port : Option Nat)
  /-- MON_DRIFT_DISABLE (R549): drift disable forms the guarded write of 1 to DRF.PORT_DISABLE. -/
  | monDriftDisable (port : Nat)
  /-- MON_DRIFT_ENABLE (R549): drift enable forms the guarded write of 0 to DRF.PORT_DISABLE. -/
  | monDriftEnable (port : Nat)
  /-- MON_POWER_BUDGET (R549): power budget forms the guarded write to PWR.GOV_BUDGET. -/
  | monPowerBudget (w : Nat)
  /-- BAUD (R541): A write to MON.BAUD changes the serial rate after the response in progress. -/
  | baud (src : Source) (v : Word)
  /-- ALERT (R551): Between responses Bobel prints an alert line for a page with enabled events or a FAULT. -/
  | alert (page : Nat)
  /-- TEST_COMPLETE (R363): A test run outside a TEST_SLOT, on a stope that no running job owns or under FULL_TEST, reaches its last pattern or first mismatch and passes or fails. -/
  | testComplete (p : Nat) (failed : Option (Nat × Nat))
  /-- LINK_DOWN (R459): A host port's link leaves DL_Active or is disabled, returning the port's own state to reset and starting the 50 ms wait of R463. -/
  | linkDown (port : Nat)
  /-- PERST_RELEASE (R461): PERST is deasserted, the port leaves reset, trains its link and answers configuration requests within 1 s. -/
  | perstRelease (port : Nat)
  /-- THERMAL_CLAMP_END (R506): A sensor falls 5 °C below its clamp threshold, so its stope is no longer thermally clamped, or its thermal cause of the module clamp ends. -/
  | thermalClampEnd (cls inst : Nat) (temp : Int)
  /-- BRINGUP_STEP_LATE (R519): A bring-up step passes its bound of Table 16.1 without completing; the unit concerned takes FAULT, or HOLD is set, and bring-up goes on. -/
  | bringupStepLate (unit : Nat)
  /-- SEAL (R188): The SEAL hoist launches, no further slot work starts, in-flight work is discarded after its fence and unfinished work is marked. -/
  | sealLaunch
  /-- VERDICT (R188): At T+1,500 the deputy forms the member's verdict mask and sends it upstream. -/
  | verdict
  /-- VERDICT_DEADLINE (R188): At its verdict deadline the headframe forms the seal decision and sends it to the standby. -/
  | verdictDeadline
  /-- DECISION_ACK (R188): The headframe receives the standby's acknowledgement and broadcasts the decision. -/
  | decisionAck
  /-- DECISION_DEADLINE (R189): A member that holds no decision at the decision deadline stops all work and is handled as lost. -/
  | decisionDeadline
  /-- SEAL_COMMIT (R190): At the commit tally every committed job's sealed changes come into force, discarded jobs keep the previous state and the epoch advances. -/
  | sealCommit
  /-- MARKER_SEND (R168): The headframe sends a tally marker on every drift every 1 µs. -/
  | markerSend
  /-- MARKER_LOSS (R170): After 100 µs without any marker the member's tally enters FREE. -/
  | markerLoss
  /-- PPS_MISSING (R165): Three consecutive PPS edges are missing or rejected and the headframe leaves REF for FREE. -/
  | ppsMissing
  /-- TALLY_STORE (R167): Once a second the deputy stores the member's tally in MRAM. -/
  | tallyStore
  /-- GRID_TAKES_EFFECT (R173): An accepted grid takes effect at its origin on every member. -/
  | gridTakesEffect
  /-- AGEING_COPY (R276): Once an hour the deputy copies the ageing state to the firmware store. -/
  | ageingCopy
  /-- HEADFRAME_ELECT (R317): A candidate that hears no better one for 200 ms becomes headframe and names a standby. -/
  | headframeElect
  /-- JOIN_RETRY (R318): A refused member retries its join after 10 s. -/
  | joinRetry
  /-- FW_VERIFY (R411): When BYTES have arrived the deputy verifies the image and reads STAGED or VERIFY_FAILED. -/
  | fwVerify
  /-- STANDBY_BOOTED (R412): The standby holds the handover and takes service alone while the pair restarts with the new image. -/
  | standbyBooted
  /-- STANDBY_BOOT_TIMEOUT (R413): A standby not reaching takeover within 10 s abandons the commit. -/
  | standbyBootTimeout
  /-- PAIR_CURRENT (R412): The restarted pair holds current state and takes service in lockstep, entering PROBATION. -/
  | pairCurrent
  /-- PROBATION_END (R412): Sixty seconds of probation end and the image is written to flash. -/
  | probationEnd
  /-- RECORD_ADMIT (R474): The deputy admits a queued record under its rate limit, gives it the next SEQ and writes it to the ring. -/
  | recordAdmit
  /-- ARCHIVE_SEGMENT (R478): With the security region over three quarters full, the deputy moves its oldest records to an archive segment. -/
  | archiveSegment
  /-- POWER_ON (R518): The 72 V input rises through 54 V and bring-up begins with stage-1 soft start. -/
  | powerOn
  /-- RECOVERY_ASK (R522): Every 10 s in recovery the ROM asks UP partners in port order for an image. -/
  | recoveryAsk
  /-- VER (R547): The ver command prints versions and identity from an attestation report. -/
  | ver
  /-- WHO (R547): The who command prints the session states of the three sources. -/
  | who
  /-- LOGIN_TIMEOUT (R545): No signature arrives within 60 s of the nonce and login ends with err 6. -/
  | loginTimeout
  /-- LOGIN_END (R545): login end writes ROL 2.SESS_END. -/
  | loginEnd
  /-- TALLY (R547): The tally command prints the member's tally state. -/
  | tally
  /-- CANARY (R547): The canary command prints the installed packs and test time. -/
  | canary
  /-- POWER (R547): The power command prints the input, budget and converter state. -/
  | power
  /-- BREAK (R542): A break on MON_RX resets the rate, discards the partial line and ends the monitor's session. -/
  | breakCond
  /-- INPUT_OVER_END (R489): After OVER the input returns to 80 V or below, and the module starts as after power is applied. -/
  | inputOverEnd
deriving DecidableEq, Repr

end Sys2Proof
end

