-- ==== Sys2Proof/Decode.lean ====
section
/-!
DEFINITION. The command that a word spells by the table's bits. spec/opcode_table.json gives none of its rows any bits
(every row's list of fields is empty), so no word spells a command.
-/

namespace Sys2Proof

/-- The command spelled by a word of `nbits` bits: the table gives bits to no row. -/
def decodeTableWord (_nbits _w : Nat) : Option Instr := none

end Sys2Proof
end

