-- ==== Sys2Proof/Config.lean ====
section
/-!
DEFINITION. What an implementation fixes, and the free values: constants without a body, of which no proof can learn a
value. The cryptographic functions that the spec cites by name (R371 to R410) are such constants: a statement about
them holds whatever they answer (log 5).
-/

namespace Sys2Proof.Config

/-- Free value number n of w bits: what the spec leaves open, and every random draw of the deputy (log 2). -/
opaque freeBits : (w n : Nat) → BitVec w

/-- ECDSA over brainpoolP384r1 with SHA-384: does `sig` (r then s, 96 bytes) over `msg` verify under `key`? -/
opaque ecdsaVerify : (key msg sig : List Byte) → Bool

/-- The identity key's signature over a message. -/
opaque identitySign : (msg : List Byte) → List Byte

/-- SHA-384; byte k of the value is bits 8k + 7 to 8k. -/
opaque sha384 : (msg : List Byte) → Hash

/-- Does a 97-byte uncompressed point lie on the curve (R373)? -/
opaque onCurve : (point : List Byte) → Bool

/-- The certified key of a chain that reaches the maker's root, for a purpose: 0 session, 1 firmware, 2 canary pack
(R371). -/
opaque chainKey : (purpose : Nat) → (chain : List Byte) → Option (List Byte)

/-- Length of the certificate chain that a list of bytes begins with: DER certificates carry their own lengths (R372). -/
opaque derLength : (bytes : List Byte) → Nat

/-- AES-256-GCM under a capture key (R390). A claim's capture key changes with its BIND_COUNT alone (R388, R398), so the two name it:
claim, BIND_COUNT, nonce, additional data and plaintext. -/
opaque sealCapture : (claim bindCount : Nat) → (nonce aad plain : List Byte) → List Byte

/-- The maker's copy of a released capture: ephemeral public key, ciphertext and tag (R390, R483). -/
opaque sealMaker : (draw : Nat) → (plain : List Byte) → List Byte

/-- The identity public key and the length of its certificate chain (R372). -/
opaque identityKey : List Byte
opaque identityChain : List Byte

/-- The key under which a roster's signature verifies, where the member has no installer key to hold it against (R315 does
not say how the key travels, log 19). -/
opaque rosterSigner : (roster : List Byte) → Option (List Byte)

/-- Free value: the physical row that a stripe of a claim was given with, which the spec does not lay down (R208, log 74). -/
opaque stripeRow : (claim : Nat) → (slow : Bool) → (stripe : Nat) → Nat

/-- Busy time of one step slot in microseconds, estimated from the placement (R221 states no formula): the number of
hewer-only layers, the layers and the vectors are its arguments. -/
opaque estStep : (hewerOnly layers vectors : Nat) → Nat

/-- A fused value of manufacture, by number (R15): 1 the boot ROM version, 2 the lifecycle (Table 11.8), 3 the version of the
built-in pack 0, 4 the run time of pack 0 on one stope in nanoseconds (R359 states neither), 5 the
silicon stepping of the drift die (R454). -/
opaque fuse : (name : Nat) → Nat

/-- The public key of the agreement key pair of a draw, signed by the identity key (R392). -/
opaque agreePublic : (draw : Nat) → List Byte

/-- The x-coordinate of the ECDH of the key pair of a draw with a public point (R388, R392). -/
opaque ecdhX : (draw : Nat) → (point : List Byte) → List Byte

/-- HKDF-SHA-384 of RFC 5869: input keying material, salt, info and length (R388). -/
opaque hkdf : (ikm salt info : List Byte) → (len : Nat) → List Byte

/-- HKDF-Expand of RFC 5869: key, info and length (R388). -/
opaque hkdfExpand : (key info : List Byte) → (len : Nat) → List Byte

/-- AES-256-XTS of IEEE 1619 over one data unit, and its inverse: key, tweak and unit (R389, R391). -/
opaque xts : (key : List Byte) → (tweak : Nat) → (unit : List Byte) → List Byte
opaque xtsOpen : (key : List Byte) → (tweak : Nat) → (unit : List Byte) → List Byte

/-- Does a signed public key of a member verify under the identity hash given (R392)? -/
opaque agreeValid : (identity : Nat) → (pub : List Byte) → Bool

end Sys2Proof.Config
end

