-- ==== Sys2Proof/Machine/RegTable.lean ====
section
/-!
DEFINITION. Page types, register offsets, access codes and reset values (R9, R12, R428 and the register table of each
page's chapter), and the page decoding of Tables 12.1 and 12.2.
-/

namespace Sys2Proof.Machine

/-- Access codes of Table 0.6 (R9). -/
inductive Acc
  | ro
  | rw
  | rwg
  | w1c
  | wo
  | rl
  | rsv
deriving DecidableEq, Repr

/-- Page types of Table 12.1; ROL 3, and the claim table beside the claim pages, have maps of their own. -/
inductive PType
  | dev
  | tal
  | hp
  | rol
  | rol3
  | ftc
  | mil
  | drf
  | cas
  | hoi
  | int
  | asy
  | recorder
  | pwr
  | sns
  | mon
  | pro
  | dep
  | clmt
  | clm
  | stm
  | stp
  | stx
deriving DecidableEq, Repr

/-- One row of a register table: first and last offset, access code, reset value, the writable bits, and whether its
value follows stored state at power-up (a dash in the Reset column, R12). -/
structure RegRow where
  lo    : Nat
  hi    : Nat
  acc   : Acc
  reset : Nat
  mask  : Nat
  keep  : Bool
deriving DecidableEq, Repr

namespace Reg.HDR
abbrev PAGE_ID : Nat := 0x0
abbrev PAGE_LAYOUT : Nat := 0x4
abbrev PAGE_CAPS : Nat := 0x8
abbrev PAGE_CLAIM : Nat := 0xc
abbrev STATUS : Nat := 0x10
abbrev CONTROL : Nat := 0x14
abbrev EVT_FLAG : Nat := 0x18
abbrev EVT_ENABLE : Nat := 0x1c
abbrev EVT_RAW : Nat := 0x20
abbrev SEQ : Nat := 0x24
abbrev STREAM_CTL : Nat := 0x28
abbrev STREAM_LEVEL : Nat := 0x2c
abbrev STREAM_ADDR_LO : Nat := 0x30
abbrev STREAM_ADDR_HI : Nat := 0x34
abbrev STREAM_LEN : Nat := 0x38
abbrev STREAM_CHECK : Nat := 0x3c
end Reg.HDR

namespace Reg.STP
abbrev STOPE_MAP : Nat := 0x40
abbrev SEAM_STATE : Nat := 0x44
abbrev SEAM_PLAN : Nat := 0x48
abbrev PASS_COUNT_LO : Nat := 0x50
abbrev PASS_COUNT_HI : Nat := 0x54
abbrev PLANE_READS_LO : Nat := 0x58
abbrev PLANE_READS_HI : Nat := 0x5c
abbrev PLANES_SKIPPED_LO : Nat := 0x60
abbrev PLANES_SKIPPED_HI : Nat := 0x64
abbrev ZERO_VECTORS : Nat := 0x68
abbrev SPLIT_VECTORS : Nat := 0x6c
abbrev WIT_FAILS : Nat := 0x70
abbrev A8_CLAMPS : Nat := 0x74
abbrev CTR_OVF : Nat := 0x78
abbrev HEADROOM_LIMIT : Nat := 0x7c
abbrev RANGE : Nat := 0x80
abbrev HEW_MACS_LO : Nat := 0x180
abbrev HEW_MACS_HI : Nat := 0x184
abbrev HEW_BUSY_LO : Nat := 0x188
abbrev HEW_BUSY_HI : Nat := 0x18c
abbrev DX_TILES : Nat := 0x190
abbrev DW_TILES : Nat := 0x194
abbrev FWD_TILES : Nat := 0x198
abbrev LEAVES_SKIPPED : Nat := 0x19c
abbrev CHECK_FAILS : Nat := 0x1a0
abbrev ACC_SATS : Nat := 0x1a4
abbrev DUP_FAILS : Nat := 0x1a8
abbrev WIDE_FAILS : Nat := 0x1ac
abbrev WIDE_NANS : Nat := 0x1b0
abbrev TILES_ABANDONED : Nat := 0x1b4
end Reg.STP

namespace Reg.STX
abbrev STOPE_ROLE : Nat := 0x40
abbrev RELIEF_SEAM : Nat := 0x44
abbrev SEAM_LIVE : Nat := 0x48
abbrev UNFIT_SEAMS : Nat := 0x4c
abbrev WIT_TOL : Nat := 0x50
abbrev WIT_LAST : Nat := 0x54
abbrev ROT_WAITS : Nat := 0x58
abbrev SPLIT_PARTS : Nat := 0x5c
abbrev CTR_OVF : Nat := 0x60
abbrev HEW_STATE : Nat := 0x80
abbrev HEW_UNIT : Nat := 0x84
abbrev CHECK_LAST : Nat := 0x88
abbrev ACC_SAT_LAST : Nat := 0x8c
abbrev DUP_LAST : Nat := 0x90
abbrev FENCE_MAX : Nat := 0x94
end Reg.STX

namespace Reg.TAL
abbrev STATUS : Nat := 0x10
abbrev TALLY_LO : Nat := 0x40
abbrev TALLY_HI : Nat := 0x44
abbrev OFFSET : Nat := 0x48
abbrev FREQ_ADJ : Nat := 0x4c
abbrev PATH_DELAY : Nat := 0x50
abbrev UPSTREAM : Nat := 0x54
abbrev AGREE_BOUND : Nat := 0x58
abbrev PPS_TALLY_LO : Nat := 0x60
abbrev PPS_TALLY_HI : Nat := 0x64
abbrev SET_SECOND_LO : Nat := 0x68
abbrev SET_SECOND_HI : Nat := 0x6c
abbrev MARKER_LOSSES : Nat := 0x70
abbrev REF_FAULTS : Nat := 0x74
abbrev CTR_OVF : Nat := 0x78
abbrev TALLY_SET : Nat := 0x100
end Reg.TAL

namespace Reg.HOI
abbrev JOB_SELECT : Nat := 0x40
abbrev JOB_STATE : Nat := 0x44
abbrev JOB_CMD : Nat := 0x48
abbrev EST_STEP : Nat := 0x4c
abbrev JOB_STEP_LO : Nat := 0x50
abbrev JOB_STEP_HI : Nat := 0x54
abbrev JOB_DISCARDED : Nat := 0x58
abbrev LAST_UNSOUND : Nat := 0x5c
abbrev LATE_HOISTS : Nat := 0x60
abbrev SEAL_MARGIN : Nat := 0x64
abbrev GRID_PERIOD_LO : Nat := 0x68
abbrev GRID_PERIOD_HI : Nat := 0x6c
abbrev GRID_ORIGIN_LO : Nat := 0x70
abbrev GRID_ORIGIN_HI : Nat := 0x74
abbrev GRID_SEAL_W : Nat := 0x78
abbrev PERIOD_LO : Nat := 0x80
abbrev PERIOD_HI : Nat := 0x84
abbrev ORIGIN_LO : Nat := 0x88
abbrev ORIGIN_HI : Nat := 0x8c
abbrev SEAL_W : Nat := 0x90
abbrev GOV_STATE : Nat := 0x94
abbrev GOV_FLOOR : Nat := 0x98
abbrev GOV_WITHHELD_HEW : Nat := 0x9c
abbrev GOV_WITHHELD_SEAM : Nat := 0xa0
abbrev FIXED_LOADED : Nat := 0xa4
abbrev CTR_OVF : Nat := 0xa8
abbrev ABORT : Nat := 0x100
abbrev GRID_SET : Nat := 0x104
end Reg.HOI

namespace Reg.FTC
abbrev CHAN_RETIRED : Nat := 0x40
abbrev STACK_TEMP : Nat := 0x44
abbrev READ_BLOCKS_LO : Nat := 0x48
abbrev READ_BLOCKS_HI : Nat := 0x4c
abbrev WRITE_BLOCKS_LO : Nat := 0x50
abbrev WRITE_BLOCKS_HI : Nat := 0x54
abbrev ECC_CORRECTED : Nat := 0x58
abbrev CHECK_FAILS : Nat := 0x5c
abbrev QUEUE_WORST : Nat := 0x60
abbrev QUEUE_MEAN : Nat := 0x64
abbrev IMBAL_RUN : Nat := 0x68
abbrev MIGRATE : Nat := 0x6c
abbrev MIGRATE_LEFT : Nat := 0x70
abbrev REKEYS : Nat := 0x74
abbrev CTR_OVF : Nat := 0x78
abbrev CLAIM_SELECT : Nat := 0x7c
abbrev STOCK_USABLE : Nat := 0xc0
abbrev STOCK_HIGH : Nat := 0xc4
abbrev STOCK_OCC : Nat := 0xc8
abbrev STOCK_PEAK : Nat := 0xcc
abbrev SPILL_QUOTA : Nat := 0xd0
abbrev SPILL_OCC : Nat := 0xd4
abbrev SPILLS : Nat := 0xd8
abbrev RECOMPUTES : Nat := 0xdc
abbrev PLACE_STATE : Nat := 0xe0
abbrev FAST_SHORT : Nat := 0xe4
abbrev SLOW_SHORT : Nat := 0xe8
abbrev CHAN_RETIRE : Nat := 0x100
end Reg.FTC

namespace Reg.MIL
abbrev CHAN_RETIRED : Nat := 0x40
abbrev STACK_TEMP_A : Nat := 0x44
abbrev STACK_TEMP_B : Nat := 0x48
abbrev STACK_TEMP_C : Nat := 0x4c
abbrev READ_BLOCKS_LO : Nat := 0x50
abbrev READ_BLOCKS_HI : Nat := 0x54
abbrev WRITE_BLOCKS_LO : Nat := 0x58
abbrev WRITE_BLOCKS_HI : Nat := 0x5c
abbrev ECC_CORRECTED : Nat := 0x60
abbrev CHECK_FAILS : Nat := 0x64
abbrev QUEUE_WORST : Nat := 0x68
abbrev QUEUE_MEAN : Nat := 0x6c
abbrev IMBAL_RUN : Nat := 0x70
abbrev MIGRATE : Nat := 0x74
abbrev MIGRATE_LEFT : Nat := 0x78
abbrev CTR_OVF : Nat := 0x7c
abbrev MILL_STATE : Nat := 0x80
abbrev BRIDGE_RETRIES : Nat := 0x84
abbrev PUSHES : Nat := 0x88
abbrev CLAIM_SELECT : Nat := 0x8c
abbrev SET_SELECT : Nat := 0x90
abbrev SET_INFO : Nat := 0x94
abbrev SET_NEXT_LO : Nat := 0x98
abbrev SET_NEXT_HI : Nat := 0x9c
abbrev SET_STEPS_LO : Nat := 0xa0
abbrev SET_STEPS_HI : Nat := 0xa4
abbrev SET_WRITES : Nat := 0xa8
abbrev SET_HELD : Nat := 0xac
abbrev MISMATCHES : Nat := 0xb0
abbrev SKIPS : Nat := 0xb4
abbrev CKPT_STEP_LO : Nat := 0xb8
abbrev CKPT_STEP_HI : Nat := 0xbc
abbrev CKPT_STATE : Nat := 0xc0
abbrev SLOW_REQ : Nat := 0xc4
abbrev CHAN_RETIRE : Nat := 0x100
end Reg.MIL

namespace Reg.ASY
abbrev DTEMP : Nat := 0x40
abbrev MIN_INTERVAL : Nat := 0x44
abbrev MAX_INTERVAL : Nat := 0x48
abbrev REFRESH_TOL : Nat := 0x4c
abbrev FIT_DET_MIN : Nat := 0x50
abbrev WINDOW_MIN : Nat := 0x54
abbrev SELECT : Nat := 0x58
abbrev STOPE_UPKEEP : Nat := 0x5c
abbrev STOPE_TEMP : Nat := 0x60
abbrev STOPE_AGEING : Nat := 0x64
abbrev SEAM_UPKEEP : Nat := 0x68
abbrev SEAM_DRIFT : Nat := 0x6c
abbrev SEAM_AGEING : Nat := 0x70
abbrev ROWGROUP_WRITES : Nat := 0x74
abbrev ASSAY_ROUNDS : Nat := 0x78
abbrev REFRESHES : Nat := 0x7c
abbrev ROTATIONS : Nat := 0x80
abbrev HEWER_RELIEFS : Nat := 0x84
abbrev STUBBORN : Nat := 0x88
abbrev REPLANS : Nat := 0x8c
abbrev WRITE_LATE : Nat := 0x90
abbrev UNFIT_NOW : Nat := 0x94
abbrev CTR_OVF : Nat := 0x98
abbrev ASSAY_FORCE : Nat := 0x100
end Reg.ASY

namespace Reg.DRF
abbrev PORT_STATE : Nat := 0x40
abbrev LANE_MAP : Nat := 0x44
abbrev EYE_A : Nat := 0x48
abbrev EYE_B : Nat := 0x4c
abbrev FEC_CORR_LO : Nat := 0x50
abbrev FEC_CORR_HI : Nat := 0x54
abbrev FEC_UNCORR : Nat := 0x58
abbrev RETRIES : Nat := 0x5c
abbrev TX_TUBS_LO : Nat := 0x60
abbrev TX_TUBS_HI : Nat := 0x64
abbrev RX_TUBS_LO : Nat := 0x68
abbrev RX_TUBS_HI : Nat := 0x6c
abbrev AUTH_FAILS : Nat := 0x70
abbrev REPLAYS : Nat := 0x74
abbrev STALE_ROLES : Nat := 0x78
abbrev LANE_SWAPS : Nat := 0x7c
abbrev LINK_DELAY : Nat := 0x80
abbrev CREDITS : Nat := 0x84
abbrev SYM_ERRORS : Nat := 0x88
abbrev CTR_OVF : Nat := 0x8c
abbrev PORT_DISABLE : Nat := 0x100
abbrev LANE_RETIRE : Nat := 0x104
end Reg.DRF

namespace Reg.CAS
abbrev STATE : Nat := 0x40
abbrev CASCADE_ID_LO : Nat := 0x44
abbrev CASCADE_ID_HI : Nat := 0x48
abbrev HEADFRAME : Nat := 0x4c
abbrev HEAD_EPOCH : Nat := 0x50
abbrev MEMBERS : Nat := 0x54
abbrev TOPO : Nat := 0x58
abbrev DIAMETER : Nat := 0x5c
abbrev ROSTER_VER_LO : Nat := 0x60
abbrev ROSTER_VER_HI : Nat := 0x64
abbrev ROLE_SELECT : Nat := 0x68
abbrev ROLE_MEMBER : Nat := 0x6c
abbrev ROLE_EPOCH : Nat := 0x70
abbrev JOB_ROLE : Nat := 0x74
abbrev CKPT_SHARE : Nat := 0x78
abbrev MEMBER_SELECT : Nat := 0x7c
abbrev MEMBER_INFO : Nat := 0x80
abbrev JOIN_REFUSALS : Nat := 0x84
abbrev LOST_MEMBERS : Nat := 0x88
abbrev RESTARTS : Nat := 0x8c
abbrev CTR_OVF : Nat := 0x90
abbrev ROSTER_COMMIT : Nat := 0x100
abbrev HEAD_MOVE : Nat := 0x104
abbrev MEMBER_EVICT : Nat := 0x108
end Reg.CAS

namespace Reg.INT
abbrev RANGE_CTL : Nat := 0x40
abbrev TEST_PERIOD : Nat := 0x44
abbrev WATCH_WINDOW : Nat := 0x48
abbrev SCRUB_PERIOD : Nat := 0x4c
abbrev TEST_TIME : Nat := 0x50
abbrev STOPE_SELECT : Nat := 0x54
abbrev STOPE_INTEG : Nat := 0x58
abbrev STOPE_LAST_FAIL : Nat := 0x5c
abbrev RELIEF_PREP : Nat := 0x60
abbrev STATES : Nat := 0x64
abbrev NOTICES_UNSOUND : Nat := 0x68
abbrev RECOMPUTES : Nat := 0x6c
abbrev RECOMPUTE_FAILS : Nat := 0x70
abbrev HOP_FAILS : Nat := 0x74
abbrev STORE_FAILS : Nat := 0x78
abbrev BLOCKS_REBUILT : Nat := 0x7c
abbrev BLOCKS_LOST : Nat := 0x80
abbrev EXCURSIONS : Nat := 0x84
abbrev TESTS_PASSED : Nat := 0x88
abbrev TESTS_FAILED : Nat := 0x8c
abbrev TAKEOVERS : Nat := 0x90
abbrev CTR_OVF : Nat := 0x94
abbrev CLAIM_SELECT : Nat := 0x98
abbrev LOST_COUNT : Nat := 0x9c
abbrev LOST_ADDR_LO : Nat := 0xa0
abbrev LOST_ADDR_HI : Nat := 0xa4
abbrev PACKS : Nat := 0xa8
abbrev PACK_SELECT : Nat := 0xac
abbrev PACK_ID : Nat := 0xb0
abbrev PACK_VERSION : Nat := 0xb4
abbrev SCRUB_DONE : Nat := 0xb8
abbrev STOPE_RETIRE : Nat := 0x100
abbrev STOPE_TEST : Nat := 0x104
abbrev FULL_TEST : Nat := 0x108
abbrev CANARY_COMMIT : Nat := 0x10c
abbrev CANARY_REMOVE : Nat := 0x110
abbrev CAPTURE_RELEASE : Nat := 0x114
end Reg.INT

namespace Reg.ROL
abbrev SESS_STATE : Nat := 0x40
abbrev SESS_REQ : Nat := 0x44
abbrev SESS_PROVE : Nat := 0x48
abbrev SESS_END : Nat := 0x4c
abbrev NONCE : Nat := 0x50
abbrev OPENED_LO : Nat := 0x80
abbrev OPENED_HI : Nat := 0x84
abbrev IDLE_LEFT : Nat := 0x88
end Reg.ROL

namespace Reg.ROL3
abbrev ENROL_STATE : Nat := 0x40
abbrev STAGE_KIND : Nat := 0x44
abbrev ATTEST_REQ : Nat := 0x48
abbrev ATTEST_STATE : Nat := 0x4c
abbrev SESS_IDLE : Nat := 0x50
abbrev IDE_SELECT : Nat := 0x54
abbrev IDE_STATE : Nat := 0x58
abbrev CERT_BYTES : Nat := 0x5c
abbrev INST_KEY_HASH : Nat := 0x60
abbrev INST_ENROL : Nat := 0x100
abbrev MAKER_GATE : Nat := 0x104
abbrev DIAG_OPEN : Nat := 0x108
abbrev IDE_KEY_COMMIT : Nat := 0x10c
abbrev IDE_REQUIRE : Nat := 0x110
end Reg.ROL3

namespace Reg.CLMT
abbrev CLAIM_STATES : Nat := 0x40
abbrev FREE_STOPES : Nat := 0x60
abbrev FAST_FREE_LO : Nat := 0x64
abbrev FAST_FREE_HI : Nat := 0x68
abbrev SLOW_FREE_LO : Nat := 0x6c
abbrev SLOW_FREE_HI : Nat := 0x70
abbrev DRIFT_FREE : Nat := 0x74
abbrev HOIST_FREE : Nat := 0x78
end Reg.CLMT

namespace Reg.CLM
abbrev CLAIM_STATE : Nat := 0x40
abbrev BIND_COUNT : Nat := 0x44
abbrev FAST_GRANT_LO : Nat := 0x48
abbrev FAST_GRANT_HI : Nat := 0x4c
abbrev SLOW_GRANT_LO : Nat := 0x50
abbrev SLOW_GRANT_HI : Nat := 0x54
abbrev FAST_ASK_LO : Nat := 0x58
abbrev FAST_ASK_HI : Nat := 0x5c
abbrev SLOW_ASK_LO : Nat := 0x60
abbrev SLOW_ASK_HI : Nat := 0x64
abbrev DRIFT_ASK : Nat := 0x68
abbrev DRIFT_SHARE : Nat := 0x6c
abbrev HOIST_ASK : Nat := 0x70
abbrev HOIST_SHARE : Nat := 0x74
abbrev STOPE_COUNT : Nat := 0x78
abbrev OP_KEY_HASH : Nat := 0x80
abbrev APPLY : Nat := 0x100
abbrev BIND : Nat := 0x104
abbrev CLAIM_CMD : Nat := 0x108
abbrev VOLATILE : Nat := 0x10c
abbrev STOPES_ASK : Nat := 0x180
abbrev STOPES_OWNED : Nat := 0x200
end Reg.CLM

namespace Reg.DEP
abbrev FW_STATE : Nat := 0x40
abbrev FW_VERSION_LO : Nat := 0x44
abbrev FW_VERSION_HI : Nat := 0x48
abbrev STAGED_VERSION_LO : Nat := 0x4c
abbrev STAGED_VERSION_HI : Nat := 0x50
abbrev FW_FLOOR_LO : Nat := 0x54
abbrev FW_FLOOR_HI : Nat := 0x58
abbrev STAGE_BYTES : Nat := 0x5c
abbrev FLASH_WRITES : Nat := 0x60
abbrev FETCHES : Nat := 0x64
abbrev CTR_OVF : Nat := 0x68
abbrev STAGE_CMD : Nat := 0x6c
abbrev FW_COMMIT : Nat := 0x100
abbrev FW_REVERT : Nat := 0x104
abbrev FUSE_BURN : Nat := 0x108
end Reg.DEP

namespace Reg.STM
abbrev BYTES_IN_LO : Nat := 0x40
abbrev BYTES_IN_HI : Nat := 0x44
abbrev BYTES_OUT_LO : Nat := 0x48
abbrev BYTES_OUT_HI : Nat := 0x4c
abbrev ERRORS : Nat := 0x50
abbrev CTR_OVF : Nat := 0x54
end Reg.STM

namespace Reg.HP
abbrev LINK_STATE : Nat := 0x40
abbrev LINK_UPS : Nat := 0x44
abbrev LINK_LOSSES : Nat := 0x48
abbrev RECOVERIES : Nat := 0x4c
abbrev CORR_ERRORS : Nat := 0x50
abbrev UNCORR_ERRORS : Nat := 0x54
abbrev ABORTS : Nat := 0x58
abbrev IDE_FAILS : Nat := 0x5c
abbrev BOUND_A : Nat := 0x60
abbrev BOUND_B : Nat := 0x64
abbrev MSI_HOLDOFF : Nat := 0x68
abbrev CTR_OVF : Nat := 0x6c
abbrev CLM_PEND_A : Nat := 0x70
abbrev CLM_PEND_B : Nat := 0x74
abbrev STM_PEND_A : Nat := 0x78
abbrev STM_PEND_B : Nat := 0x7c
abbrev STP_ROWS : Nat := 0x80
abbrev STX_ROWS : Nat := 0x84
abbrev STX_COL32 : Nat := 0x88
abbrev ROW_SELECT : Nat := 0x8c
abbrev STP_ROW_PEND : Nat := 0x90
abbrev STX_ROW_PEND : Nat := 0x94
abbrev BIND_SET : Nat := 0x100
end Reg.HP

namespace Reg.REC
abbrev FIRST_SEQ : Nat := 0x40
abbrev LAST_SEQ : Nat := 0x44
abbrev SEC_FIRST_SEQ : Nat := 0x48
abbrev ARCH_FIRST_SEQ : Nat := 0x4c
abbrev RING_FILL : Nat := 0x50
abbrev SEC_FILL : Nat := 0x54
abbrev ARCH_FILL : Nat := 0x58
abbrev QUEUE : Nat := 0x5c
abbrev ADMITTED_LO : Nat := 0x60
abbrev ADMITTED_HI : Nat := 0x64
abbrev SUPPRESSED_LO : Nat := 0x68
abbrev SUPPRESSED_HI : Nat := 0x6c
abbrev OVERWRITTEN_LO : Nat := 0x70
abbrev OVERWRITTEN_HI : Nat := 0x74
abbrev DAMAGED_LO : Nat := 0x78
abbrev DAMAGED_HI : Nat := 0x7c
abbrev ARCH_DISCARDS_LO : Nat := 0x80
abbrev ARCH_DISCARDS_HI : Nat := 0x84
end Reg.REC

namespace Reg.PWR
abbrev INPUT_STATE : Nat := 0x40
abbrev INPUT_V : Nat := 0x44
abbrev INPUT_I : Nat := 0x48
abbrev INPUT_P : Nat := 0x4c
abbrev INPUT_P_1S : Nat := 0x50
abbrev BUS_V : Nat := 0x54
abbrev EFFICIENCY : Nat := 0x58
abbrev WINDOW : Nat := 0x5c
abbrev ENERGY_LO : Nat := 0x60
abbrev ENERGY_HI : Nat := 0x64
abbrev BUDGET_IN_FORCE : Nat := 0x68
abbrev CAPACITY : Nat := 0x6c
abbrev CONV_MAP : Nat := 0x70
abbrev CONV_SELECT : Nat := 0x74
abbrev CONV_INFO : Nat := 0x78
abbrev PHASE_SELECT : Nat := 0x7c
abbrev PHASE_INFO : Nat := 0x80
abbrev PHASES_FAILED : Nat := 0x84
abbrev CLAMP_MS : Nat := 0x88
abbrev STAGE_FAULTS : Nat := 0x8c
abbrev POWER_FAILS : Nat := 0x90
abbrev CTR_OVF : Nat := 0x94
abbrev GOV_BUDGET : Nat := 0x100
abbrev INPUT_LIMIT : Nat := 0x104
abbrev CONV_RETIRE : Nat := 0x108
abbrev PHASE_RETIRE : Nat := 0x10c
abbrev TRIP_CLEAR : Nat := 0x110
end Reg.PWR

namespace Reg.SNS
abbrev STOPE_SELECT : Nat := 0x40
abbrev STOPE_TEMP : Nat := 0x44
abbrev STOPE_CORE : Nat := 0x48
abbrev STOPE_REF : Nat := 0x4c
abbrev STOPE_ARR : Nat := 0x50
abbrev STOPE_AVG : Nat := 0x54
abbrev STOPE_VOLT : Nat := 0x58
abbrev HOT_STOPE : Nat := 0x5c
abbrev CLAMPED_STOPES : Nat := 0x60
abbrev SENSOR_SELECT : Nat := 0x64
abbrev SENSOR_READ : Nat := 0x68
abbrev SENSOR_AVG : Nat := 0x6c
abbrev WARN_OFFSET : Nat := 0x70
abbrev SENSOR_FAULTS : Nat := 0x74
abbrev THERM_EVENTS : Nat := 0x78
abbrev CTR_OVF : Nat := 0x7c
end Reg.SNS

namespace Reg.DEV
abbrev BRINGUP : Nat := 0x40
abbrev READY_MS : Nat := 0x44
abbrev STATE_EPOCH_LO : Nat := 0x48
abbrev STATE_EPOCH_HI : Nat := 0x4c
abbrev OPSEC : Nat := 0x50
abbrev PWRCYC : Nat := 0x54
abbrev DEV_RESETS : Nat := 0x58
abbrev CTR_OVF : Nat := 0x5c
abbrev RESET : Nat := 0x100
abbrev PROSPECT_CLEAR : Nat := 0x104
end Reg.DEV

namespace Reg.PRO
abbrev PRO_STATE : Nat := 0x40
abbrev SERIES : Nat := 0x44
abbrev RECORDS_LO : Nat := 0x48
abbrev RECORDS_HI : Nat := 0x4c
abbrev REFUSED : Nat := 0x50
abbrev STEPS_LO : Nat := 0x54
abbrev STEPS_HI : Nat := 0x58
abbrev LOSS : Nat := 0x5c
abbrev FC_FIRST : Nat := 0x60
abbrev FC_COUNT : Nat := 0x64
abbrev FC_CMD : Nat := 0x68
abbrev FC_STATE : Nat := 0x6c
abbrev FC_ORIGIN_LO : Nat := 0x70
abbrev FC_ORIGIN_HI : Nat := 0x74
abbrev CTR_OVF : Nat := 0x78
end Reg.PRO

namespace Reg.MON
abbrev MON_STATE : Nat := 0x40
abbrev BAUD : Nat := 0x44
abbrev CONFIG : Nat := 0x48
abbrev LINES : Nat := 0x4c
abbrev FRAMING : Nat := 0x50
abbrev OVERRUNS : Nat := 0x54
abbrev REJECTED : Nat := 0x58
abbrev CTR_OVF : Nat := 0x5c
end Reg.MON

/-- Registers of page HDR (Table 12.4). -/
def headerRows : List RegRow :=
  [⟨0x000, 0x000, .ro, 0x0, 0x0, false⟩,
   ⟨0x004, 0x004, .ro, 0x1, 0x0, false⟩,
   ⟨0x008, 0x008, .ro, 0x0, 0x0, false⟩,
   ⟨0x00c, 0x00c, .ro, 0x0, 0x0, true⟩,
   ⟨0x010, 0x010, .ro, 0x0, 0x0, false⟩,
   ⟨0x014, 0x014, .rw, 0x1, 0x1, false⟩,
   ⟨0x018, 0x018, .w1c, 0x0, 0xffffffff, false⟩,
   ⟨0x01c, 0x01c, .rw, 0x0, 0xffffffff, false⟩,
   ⟨0x020, 0x020, .ro, 0x0, 0x0, false⟩,
   ⟨0x024, 0x024, .ro, 0x0, 0x0, false⟩,
   ⟨0x028, 0x028, .rw, 0x0, 0x3, false⟩,
   ⟨0x02c, 0x02c, .ro, 0x0, 0x0, false⟩,
   ⟨0x030, 0x030, .rw, 0x0, 0xffffffff, false⟩,
   ⟨0x034, 0x034, .rw, 0x0, 0xffffffff, false⟩,
   ⟨0x038, 0x038, .rw, 0x0, 0xffffffff, false⟩,
   ⟨0x03c, 0x03c, .ro, 0x0, 0x0, false⟩]

/-- Registers of page STP (the tables of 02_seams.md R72, 03_hewers.md R121). -/
def stpRows : List RegRow :=
  [⟨0x040, 0x040, .ro, 0x0, 0x0, true⟩,
   ⟨0x044, 0x044, .ro, 0x0, 0x0, true⟩,
   ⟨0x048, 0x048, .ro, 0x0, 0x0, true⟩,
   ⟨0x050, 0x050, .ro, 0x0, 0x0, false⟩,
   ⟨0x054, 0x054, .rl, 0x0, 0x0, false⟩,
   ⟨0x058, 0x058, .ro, 0x0, 0x0, false⟩,
   ⟨0x05c, 0x05c, .rl, 0x0, 0x0, false⟩,
   ⟨0x060, 0x060, .ro, 0x0, 0x0, false⟩,
   ⟨0x064, 0x064, .rl, 0x0, 0x0, false⟩,
   ⟨0x068, 0x068, .ro, 0x0, 0x0, false⟩,
   ⟨0x06c, 0x06c, .ro, 0x0, 0x0, false⟩,
   ⟨0x070, 0x070, .ro, 0x0, 0x0, false⟩,
   ⟨0x074, 0x074, .ro, 0x0, 0x0, false⟩,
   ⟨0x078, 0x078, .w1c, 0x0, 0xfff7f, false⟩,
   ⟨0x07c, 0x07c, .ro, 0x0, 0x0, false⟩,
   ⟨0x080, 0x17c, .ro, 0x0, 0x0, true⟩,
   ⟨0x180, 0x180, .ro, 0x0, 0x0, false⟩,
   ⟨0x184, 0x184, .rl, 0x0, 0x0, false⟩,
   ⟨0x188, 0x188, .ro, 0x0, 0x0, false⟩,
   ⟨0x18c, 0x18c, .rl, 0x0, 0x0, false⟩,
   ⟨0x190, 0x190, .ro, 0x0, 0x0, false⟩,
   ⟨0x194, 0x194, .ro, 0x0, 0x0, false⟩,
   ⟨0x198, 0x198, .ro, 0x0, 0x0, false⟩,
   ⟨0x19c, 0x19c, .ro, 0x0, 0x0, false⟩,
   ⟨0x1a0, 0x1a0, .ro, 0x0, 0x0, false⟩,
   ⟨0x1a4, 0x1a4, .ro, 0x0, 0x0, false⟩,
   ⟨0x1a8, 0x1a8, .ro, 0x0, 0x0, false⟩,
   ⟨0x1ac, 0x1ac, .ro, 0x0, 0x0, false⟩,
   ⟨0x1b0, 0x1b0, .ro, 0x0, 0x0, false⟩,
   ⟨0x1b4, 0x1b4, .ro, 0x0, 0x0, false⟩]

/-- Registers of page STX (the tables of 02_seams.md R74, 03_hewers.md R123). -/
def stxRows : List RegRow :=
  [⟨0x040, 0x040, .ro, 0x0, 0x0, true⟩,
   ⟨0x044, 0x044, .ro, 0x1f, 0x0, false⟩,
   ⟨0x048, 0x048, .ro, 0x0, 0x0, false⟩,
   ⟨0x04c, 0x04c, .ro, 0x0, 0x0, true⟩,
   ⟨0x050, 0x050, .rw, 0x4, 0x3f, false⟩,
   ⟨0x054, 0x054, .ro, 0x0, 0x0, false⟩,
   ⟨0x058, 0x058, .ro, 0x0, 0x0, false⟩,
   ⟨0x05c, 0x05c, .ro, 0x0, 0x0, false⟩,
   ⟨0x060, 0x060, .w1c, 0x0, 0x3, false⟩,
   ⟨0x080, 0x080, .ro, 0x0, 0x0, false⟩,
   ⟨0x084, 0x084, .ro, 0xffffffff, 0x0, false⟩,
   ⟨0x088, 0x088, .ro, 0x0, 0x0, false⟩,
   ⟨0x08c, 0x08c, .ro, 0x0, 0x0, false⟩,
   ⟨0x090, 0x090, .ro, 0x0, 0x0, false⟩,
   ⟨0x094, 0x094, .ro, 0x0, 0x0, false⟩]

/-- Registers of page TAL (the tables of 05_hoists_and_tally.md R198). -/
def talRows : List RegRow :=
  [⟨0x010, 0x010, .ro, 0x0, 0x0, false⟩,
   ⟨0x040, 0x040, .ro, 0x3b9aca00, 0x0, false⟩,
   ⟨0x044, 0x044, .rl, 0x0, 0x0, false⟩,
   ⟨0x048, 0x048, .ro, 0x0, 0x0, false⟩,
   ⟨0x04c, 0x04c, .ro, 0x0, 0x0, false⟩,
   ⟨0x050, 0x050, .ro, 0x0, 0x0, false⟩,
   ⟨0x054, 0x054, .ro, 0xffff, 0x0, false⟩,
   ⟨0x058, 0x058, .ro, 0xc, 0x0, false⟩,
   ⟨0x060, 0x060, .ro, 0x0, 0x0, false⟩,
   ⟨0x064, 0x064, .rl, 0x0, 0x0, false⟩,
   ⟨0x068, 0x068, .rw, 0x0, 0xffffffff, false⟩,
   ⟨0x06c, 0x06c, .rw, 0x0, 0xffffffff, false⟩,
   ⟨0x070, 0x070, .ro, 0x0, 0x0, false⟩,
   ⟨0x074, 0x074, .ro, 0x0, 0x0, false⟩,
   ⟨0x078, 0x078, .w1c, 0x0, 0x3, false⟩,
   ⟨0x100, 0x100, .rwg, 0x0, 0x1, false⟩]

/-- Registers of page HOI (the tables of 05_hoists_and_tally.md R200). -/
def hoiRows : List RegRow :=
  [⟨0x040, 0x040, .rw, 0x0, 0x3f, false⟩,
   ⟨0x044, 0x044, .ro, 0x0, 0x0, false⟩,
   ⟨0x048, 0x048, .wo, 0x0, 0xf, false⟩,
   ⟨0x04c, 0x04c, .ro, 0x0, 0x0, false⟩,
   ⟨0x050, 0x050, .ro, 0x0, 0x0, false⟩,
   ⟨0x054, 0x054, .rl, 0x0, 0x0, false⟩,
   ⟨0x058, 0x058, .ro, 0x0, 0x0, false⟩,
   ⟨0x05c, 0x05c, .ro, 0x0, 0x0, false⟩,
   ⟨0x060, 0x060, .ro, 0x0, 0x0, false⟩,
   ⟨0x064, 0x064, .ro, 0x0, 0x0, false⟩,
   ⟨0x068, 0x068, .rw, 0x0, 0xffffffff, false⟩,
   ⟨0x06c, 0x06c, .rw, 0x0, 0xffffffff, false⟩,
   ⟨0x070, 0x070, .rw, 0x0, 0xffffffff, false⟩,
   ⟨0x074, 0x074, .rw, 0x0, 0xffffffff, false⟩,
   ⟨0x078, 0x078, .rw, 0x0, 0xffffffff, false⟩,
   ⟨0x080, 0x080, .ro, 0xee6b280, 0x0, false⟩,
   ⟨0x084, 0x084, .rl, 0x0, 0x0, false⟩,
   ⟨0x088, 0x088, .ro, 0x0, 0x0, false⟩,
   ⟨0x08c, 0x08c, .rl, 0x0, 0x0, false⟩,
   ⟨0x090, 0x090, .ro, 0x21340, 0x0, false⟩,
   ⟨0x094, 0x094, .ro, 0x13840, 0x0, false⟩,
   ⟨0x098, 0x098, .rw, 0x8, 0x3f, false⟩,
   ⟨0x09c, 0x09c, .ro, 0x0, 0x0, false⟩,
   ⟨0x0a0, 0x0a0, .ro, 0x0, 0x0, false⟩,
   ⟨0x0a4, 0x0a4, .ro, 0x0, 0x0, false⟩,
   ⟨0x0a8, 0x0a8, .w1c, 0x0, 0xf, false⟩,
   ⟨0x100, 0x100, .rwg, 0x0, 0x1, false⟩,
   ⟨0x104, 0x104, .rwg, 0x0, 0x1, false⟩]

/-- Registers of page FTC (the tables of 06_memory_and_stockpile.md R232). -/
def ftcRows : List RegRow :=
  [⟨0x040, 0x040, .ro, 0x0, 0x0, true⟩,
   ⟨0x044, 0x044, .ro, 0x0, 0x0, false⟩,
   ⟨0x048, 0x048, .ro, 0x0, 0x0, false⟩,
   ⟨0x04c, 0x04c, .rl, 0x0, 0x0, false⟩,
   ⟨0x050, 0x050, .ro, 0x0, 0x0, false⟩,
   ⟨0x054, 0x054, .rl, 0x0, 0x0, false⟩,
   ⟨0x058, 0x058, .ro, 0x0, 0x0, false⟩,
   ⟨0x05c, 0x05c, .ro, 0x0, 0x0, false⟩,
   ⟨0x060, 0x060, .ro, 0x0, 0x0, false⟩,
   ⟨0x064, 0x064, .ro, 0x0, 0x0, false⟩,
   ⟨0x068, 0x068, .ro, 0x0, 0x0, false⟩,
   ⟨0x06c, 0x06c, .ro, 0x0, 0x0, false⟩,
   ⟨0x070, 0x070, .ro, 0x0, 0x0, false⟩,
   ⟨0x074, 0x074, .ro, 0x0, 0x0, false⟩,
   ⟨0x078, 0x078, .w1c, 0x0, 0x31f, false⟩,
   ⟨0x07c, 0x07c, .rw, 0x0, 0x3f, false⟩,
   ⟨0x0c0, 0x0c0, .ro, 0x0, 0x0, false⟩,
   ⟨0x0c4, 0x0c4, .ro, 0x0, 0x0, false⟩,
   ⟨0x0c8, 0x0c8, .ro, 0x0, 0x0, false⟩,
   ⟨0x0cc, 0x0cc, .ro, 0x0, 0x0, false⟩,
   ⟨0x0d0, 0x0d0, .ro, 0x0, 0x0, false⟩,
   ⟨0x0d4, 0x0d4, .ro, 0x0, 0x0, false⟩,
   ⟨0x0d8, 0x0d8, .ro, 0x0, 0x0, false⟩,
   ⟨0x0dc, 0x0dc, .ro, 0x0, 0x0, false⟩,
   ⟨0x0e0, 0x0e0, .ro, 0x0, 0x0, false⟩,
   ⟨0x0e4, 0x0e4, .ro, 0x0, 0x0, false⟩,
   ⟨0x0e8, 0x0e8, .ro, 0x0, 0x0, false⟩,
   ⟨0x100, 0x100, .rwg, 0x0, 0x11f, false⟩]

/-- Registers of page MIL (the tables of 07_mill.md R269). -/
def milRows : List RegRow :=
  [⟨0x040, 0x040, .ro, 0x0, 0x0, true⟩,
   ⟨0x044, 0x044, .ro, 0x0, 0x0, false⟩,
   ⟨0x048, 0x048, .ro, 0x0, 0x0, false⟩,
   ⟨0x04c, 0x04c, .ro, 0x0, 0x0, false⟩,
   ⟨0x050, 0x050, .ro, 0x0, 0x0, false⟩,
   ⟨0x054, 0x054, .rl, 0x0, 0x0, false⟩,
   ⟨0x058, 0x058, .ro, 0x0, 0x0, false⟩,
   ⟨0x05c, 0x05c, .rl, 0x0, 0x0, false⟩,
   ⟨0x060, 0x060, .ro, 0x0, 0x0, false⟩,
   ⟨0x064, 0x064, .ro, 0x0, 0x0, false⟩,
   ⟨0x068, 0x068, .ro, 0x0, 0x0, false⟩,
   ⟨0x06c, 0x06c, .ro, 0x0, 0x0, false⟩,
   ⟨0x070, 0x070, .ro, 0x0, 0x0, false⟩,
   ⟨0x074, 0x074, .ro, 0x0, 0x0, false⟩,
   ⟨0x078, 0x078, .ro, 0x0, 0x0, false⟩,
   ⟨0x07c, 0x07c, .w1c, 0x0, 0x33f, false⟩,
   ⟨0x080, 0x080, .ro, 0x0, 0x0, false⟩,
   ⟨0x084, 0x084, .ro, 0x0, 0x0, false⟩,
   ⟨0x088, 0x088, .ro, 0x0, 0x0, false⟩,
   ⟨0x08c, 0x08c, .rw, 0x0, 0x3f, false⟩,
   ⟨0x090, 0x090, .rw, 0x0, 0xfff, false⟩,
   ⟨0x094, 0x094, .ro, 0x0, 0x0, false⟩,
   ⟨0x098, 0x098, .ro, 0x0, 0x0, false⟩,
   ⟨0x09c, 0x09c, .rl, 0x0, 0x0, false⟩,
   ⟨0x0a0, 0x0a0, .ro, 0x0, 0x0, false⟩,
   ⟨0x0a4, 0x0a4, .rl, 0x0, 0x0, false⟩,
   ⟨0x0a8, 0x0a8, .ro, 0x0, 0x0, false⟩,
   ⟨0x0ac, 0x0ac, .ro, 0x0, 0x0, false⟩,
   ⟨0x0b0, 0x0b0, .ro, 0x0, 0x0, false⟩,
   ⟨0x0b4, 0x0b4, .ro, 0x0, 0x0, false⟩,
   ⟨0x0b8, 0x0b8, .ro, 0x0, 0x0, false⟩,
   ⟨0x0bc, 0x0bc, .rl, 0x0, 0x0, false⟩,
   ⟨0x0c0, 0x0c0, .ro, 0xfff0000, 0x0, false⟩,
   ⟨0x0c4, 0x0c4, .ro, 0x0, 0x0, false⟩,
   ⟨0x100, 0x100, .rwg, 0x0, 0x107, false⟩]

/-- Registers of page ASY (the tables of 08_assay_and_upkeep.md R301). -/
def asyRows : List RegRow :=
  [⟨0x040, 0x040, .rw, 0x30, 0x3ff, false⟩,
   ⟨0x044, 0x044, .rw, 0x1, 0x3f, false⟩,
   ⟨0x048, 0x048, .rw, 0x384, 0x3ff, false⟩,
   ⟨0x04c, 0x04c, .rw, 0x23, 0x3f, false⟩,
   ⟨0x050, 0x050, .rw, 0x1000, 0x1ffff, false⟩,
   ⟨0x054, 0x054, .rw, 0x50, 0x7f, false⟩,
   ⟨0x058, 0x058, .rw, 0x0, 0xf1f07ff, false⟩,
   ⟨0x05c, 0x05c, .ro, 0x0, 0x0, false⟩,
   ⟨0x060, 0x060, .ro, 0x0, 0x0, false⟩,
   ⟨0x064, 0x064, .ro, 0x0, 0x0, true⟩,
   ⟨0x068, 0x068, .ro, 0x0, 0x0, true⟩,
   ⟨0x06c, 0x06c, .ro, 0x0, 0x0, false⟩,
   ⟨0x070, 0x070, .ro, 0x464, 0x0, true⟩,
   ⟨0x074, 0x074, .ro, 0x0, 0x0, true⟩,
   ⟨0x078, 0x078, .ro, 0x0, 0x0, false⟩,
   ⟨0x07c, 0x07c, .ro, 0x0, 0x0, false⟩,
   ⟨0x080, 0x080, .ro, 0x0, 0x0, false⟩,
   ⟨0x084, 0x084, .ro, 0x0, 0x0, false⟩,
   ⟨0x088, 0x088, .ro, 0x0, 0x0, false⟩,
   ⟨0x08c, 0x08c, .ro, 0x0, 0x0, false⟩,
   ⟨0x090, 0x090, .ro, 0x0, 0x0, false⟩,
   ⟨0x094, 0x094, .ro, 0x0, 0x0, true⟩,
   ⟨0x098, 0x098, .w1c, 0x0, 0x7f, false⟩,
   ⟨0x100, 0x100, .rwg, 0x0, 0x107ff, false⟩]

/-- Registers of page DRF (the tables of 09_cascade.md R335). -/
def drfRows : List RegRow :=
  [⟨0x040, 0x040, .ro, 0xfff0000, 0x0, false⟩,
   ⟨0x044, 0x044, .ro, 0x4688, 0x0, false⟩,
   ⟨0x048, 0x048, .ro, 0x0, 0x0, false⟩,
   ⟨0x04c, 0x04c, .ro, 0x0, 0x0, false⟩,
   ⟨0x050, 0x050, .ro, 0x0, 0x0, false⟩,
   ⟨0x054, 0x054, .rl, 0x0, 0x0, false⟩,
   ⟨0x058, 0x058, .ro, 0x0, 0x0, false⟩,
   ⟨0x05c, 0x05c, .ro, 0x0, 0x0, false⟩,
   ⟨0x060, 0x060, .ro, 0x0, 0x0, false⟩,
   ⟨0x064, 0x064, .rl, 0x0, 0x0, false⟩,
   ⟨0x068, 0x068, .ro, 0x0, 0x0, false⟩,
   ⟨0x06c, 0x06c, .rl, 0x0, 0x0, false⟩,
   ⟨0x070, 0x070, .ro, 0x0, 0x0, false⟩,
   ⟨0x074, 0x074, .ro, 0x0, 0x0, false⟩,
   ⟨0x078, 0x078, .ro, 0x0, 0x0, false⟩,
   ⟨0x07c, 0x07c, .ro, 0x0, 0x0, false⟩,
   ⟨0x080, 0x080, .ro, 0x0, 0x0, false⟩,
   ⟨0x084, 0x084, .ro, 0x0, 0x0, false⟩,
   ⟨0x088, 0x088, .ro, 0x0, 0x0, false⟩,
   ⟨0x08c, 0x08c, .w1c, 0x0, 0x1ff, false⟩,
   ⟨0x100, 0x100, .rwg, 0x0, 0x1, false⟩,
   ⟨0x104, 0x104, .rwg, 0x0, 0x107, false⟩]

/-- Registers of page CAS (the tables of 09_cascade.md R337). -/
def casRows : List RegRow :=
  [⟨0x040, 0x040, .ro, 0xfff0000, 0x0, false⟩,
   ⟨0x044, 0x044, .ro, 0x0, 0x0, true⟩,
   ⟨0x048, 0x048, .rl, 0x0, 0x0, true⟩,
   ⟨0x04c, 0x04c, .ro, 0xfff0fff, 0x0, false⟩,
   ⟨0x050, 0x050, .ro, 0x0, 0x0, false⟩,
   ⟨0x054, 0x054, .ro, 0x1, 0x0, false⟩,
   ⟨0x058, 0x058, .ro, 0x0, 0x0, true⟩,
   ⟨0x05c, 0x05c, .ro, 0x0, 0x0, false⟩,
   ⟨0x060, 0x060, .ro, 0x0, 0x0, true⟩,
   ⟨0x064, 0x064, .rl, 0x0, 0x0, true⟩,
   ⟨0x068, 0x068, .rw, 0x0, 0xffffffff, false⟩,
   ⟨0x06c, 0x06c, .ro, 0xfff, 0x0, false⟩,
   ⟨0x070, 0x070, .ro, 0x0, 0x0, false⟩,
   ⟨0x074, 0x074, .rw, 0x0, 0x3fffff0, false⟩,
   ⟨0x078, 0x078, .rw, 0x4, 0x3f, false⟩,
   ⟨0x07c, 0x07c, .rw, 0x0, 0xfff, false⟩,
   ⟨0x080, 0x080, .ro, 0x0, 0x0, false⟩,
   ⟨0x084, 0x084, .ro, 0x0, 0x0, false⟩,
   ⟨0x088, 0x088, .ro, 0x0, 0x0, false⟩,
   ⟨0x08c, 0x08c, .ro, 0x0, 0x0, false⟩,
   ⟨0x090, 0x090, .w1c, 0x0, 0x7, false⟩,
   ⟨0x100, 0x100, .rwg, 0x0, 0x1, false⟩,
   ⟨0x104, 0x104, .rwg, 0x0, 0x10fff, false⟩,
   ⟨0x108, 0x108, .rwg, 0x0, 0x10fff, false⟩]

/-- Registers of page INT (the tables of 10_integrity.md R369). -/
def intRows : List RegRow :=
  [⟨0x040, 0x040, .rw, 0x808, 0x1f1f, false⟩,
   ⟨0x044, 0x044, .rw, 0x15180, 0xffffff, false⟩,
   ⟨0x048, 0x048, .rw, 0x3f480, 0xffffff, false⟩,
   ⟨0x04c, 0x04c, .rw, 0x18, 0xff, false⟩,
   ⟨0x050, 0x050, .ro, 0x0, 0x0, true⟩,
   ⟨0x054, 0x054, .rw, 0x0, 0x7ff, false⟩,
   ⟨0x058, 0x058, .ro, 0x0, 0x0, true⟩,
   ⟨0x05c, 0x05c, .ro, 0x0, 0x0, true⟩,
   ⟨0x060, 0x060, .ro, 0x0, 0x0, true⟩,
   ⟨0x064, 0x064, .ro, 0x8000000, 0x0, true⟩,
   ⟨0x068, 0x068, .ro, 0x0, 0x0, false⟩,
   ⟨0x06c, 0x06c, .ro, 0x0, 0x0, false⟩,
   ⟨0x070, 0x070, .ro, 0x0, 0x0, false⟩,
   ⟨0x074, 0x074, .ro, 0x0, 0x0, false⟩,
   ⟨0x078, 0x078, .ro, 0x0, 0x0, false⟩,
   ⟨0x07c, 0x07c, .ro, 0x0, 0x0, false⟩,
   ⟨0x080, 0x080, .ro, 0x0, 0x0, false⟩,
   ⟨0x084, 0x084, .ro, 0x0, 0x0, false⟩,
   ⟨0x088, 0x088, .ro, 0x0, 0x0, false⟩,
   ⟨0x08c, 0x08c, .ro, 0x0, 0x0, false⟩,
   ⟨0x090, 0x090, .ro, 0x0, 0x0, false⟩,
   ⟨0x094, 0x094, .w1c, 0x0, 0x7ff, false⟩,
   ⟨0x098, 0x098, .rw, 0x0, 0x3f, false⟩,
   ⟨0x09c, 0x09c, .ro, 0x0, 0x0, false⟩,
   ⟨0x0a0, 0x0a0, .ro, 0x0, 0x0, false⟩,
   ⟨0x0a4, 0x0a4, .rl, 0x0, 0x0, false⟩,
   ⟨0x0a8, 0x0a8, .ro, 0x1, 0x0, true⟩,
   ⟨0x0ac, 0x0ac, .rw, 0x0, 0xf, false⟩,
   ⟨0x0b0, 0x0b0, .ro, 0x0, 0x0, false⟩,
   ⟨0x0b4, 0x0b4, .ro, 0x0, 0x0, false⟩,
   ⟨0x0b8, 0x0b8, .ro, 0x0, 0x0, false⟩,
   ⟨0x100, 0x100, .rwg, 0x0, 0x107ff, false⟩,
   ⟨0x104, 0x104, .rwg, 0x0, 0x107ff, false⟩,
   ⟨0x108, 0x108, .rwg, 0x0, 0x1, false⟩,
   ⟨0x10c, 0x10c, .rwg, 0x0, 0x1, false⟩,
   ⟨0x110, 0x110, .rwg, 0x0, 0x10f, false⟩,
   ⟨0x114, 0x114, .rwg, 0x0, 0xffffffff, false⟩]

/-- Registers of page ROL (the tables of 11_claims_and_roles.md R417). -/
def rolRows : List RegRow :=
  [⟨0x040, 0x040, .ro, 0x0, 0x0, false⟩,
   ⟨0x044, 0x044, .wo, 0x0, 0x3f03, false⟩,
   ⟨0x048, 0x048, .wo, 0x0, 0x1, false⟩,
   ⟨0x04c, 0x04c, .wo, 0x0, 0x1, false⟩,
   ⟨0x050, 0x07c, .ro, 0x0, 0x0, false⟩,
   ⟨0x080, 0x080, .ro, 0x0, 0x0, false⟩,
   ⟨0x084, 0x084, .rl, 0x0, 0x0, false⟩,
   ⟨0x088, 0x088, .ro, 0xffffff, 0x0, false⟩]

/-- Registers of page ROL3 (the tables of 11_claims_and_roles.md R417). -/
def rol3Rows : List RegRow :=
  [⟨0x040, 0x040, .ro, 0x0, 0x0, true⟩,
   ⟨0x044, 0x044, .rw, 0x0, 0x7, false⟩,
   ⟨0x048, 0x048, .wo, 0x0, 0x1, false⟩,
   ⟨0x04c, 0x04c, .ro, 0x0, 0x0, false⟩,
   ⟨0x050, 0x050, .rw, 0x0, 0xffff, false⟩,
   ⟨0x054, 0x054, .rw, 0x0, 0x1f, false⟩,
   ⟨0x058, 0x058, .ro, 0x0, 0x0, false⟩,
   ⟨0x05c, 0x05c, .ro, 0x0, 0x0, true⟩,
   ⟨0x060, 0x08c, .ro, 0x0, 0x0, true⟩,
   ⟨0x100, 0x100, .rwg, 0x0, 0xffffffff, false⟩,
   ⟨0x104, 0x104, .rwg, 0x0, 0x1, true⟩,
   ⟨0x108, 0x108, .rwg, 0x0, 0xff, false⟩,
   ⟨0x10c, 0x10c, .rwg, 0x0, 0x1, false⟩,
   ⟨0x110, 0x110, .rwg, 0x0, 0x3, true⟩]

/-- Registers of page CLMT (the tables of 11_claims_and_roles.md R419). -/
def clmtRows : List RegRow :=
  [⟨0x040, 0x05c, .ro, 0x0, 0x0, true⟩,
   ⟨0x060, 0x060, .ro, 0x400, 0x0, true⟩,
   ⟨0x064, 0x064, .ro, 0x7c00000, 0x0, true⟩,
   ⟨0x068, 0x068, .rl, 0x0, 0x0, true⟩,
   ⟨0x06c, 0x06c, .ro, 0x16fffff8, 0x0, true⟩,
   ⟨0x070, 0x070, .rl, 0x0, 0x0, true⟩,
   ⟨0x074, 0x074, .ro, 0x40, 0x0, true⟩,
   ⟨0x078, 0x078, .ro, 0x50000, 0x0, true⟩]

/-- Registers of page CLM (the tables of 11_claims_and_roles.md R419). -/
def clmRows : List RegRow :=
  [⟨0x040, 0x040, .ro, 0x0, 0x0, true⟩,
   ⟨0x044, 0x044, .ro, 0x0, 0x0, true⟩,
   ⟨0x048, 0x048, .ro, 0x0, 0x0, true⟩,
   ⟨0x04c, 0x04c, .rl, 0x0, 0x0, true⟩,
   ⟨0x050, 0x050, .ro, 0x0, 0x0, true⟩,
   ⟨0x054, 0x054, .rl, 0x0, 0x0, true⟩,
   ⟨0x058, 0x058, .rw, 0x0, 0xffffffff, false⟩,
   ⟨0x05c, 0x05c, .rw, 0x0, 0xffffffff, false⟩,
   ⟨0x060, 0x060, .rw, 0x0, 0xffffffff, false⟩,
   ⟨0x064, 0x064, .rw, 0x0, 0xffffffff, false⟩,
   ⟨0x068, 0x068, .rw, 0x0, 0x7f, false⟩,
   ⟨0x06c, 0x06c, .ro, 0x0, 0x0, true⟩,
   ⟨0x070, 0x070, .rw, 0x0, 0x7ffff, false⟩,
   ⟨0x074, 0x074, .ro, 0x0, 0x0, true⟩,
   ⟨0x078, 0x078, .ro, 0x0, 0x0, true⟩,
   ⟨0x080, 0x0ac, .ro, 0x0, 0x0, true⟩,
   ⟨0x100, 0x100, .rwg, 0x0, 0x1, false⟩,
   ⟨0x104, 0x104, .rwg, 0x0, 0x1, false⟩,
   ⟨0x108, 0x108, .rwg, 0x0, 0xf, false⟩,
   ⟨0x10c, 0x10c, .rwg, 0x0, 0x1, true⟩,
   ⟨0x180, 0x1fc, .rw, 0x0, 0xffffffff, false⟩,
   ⟨0x200, 0x27c, .ro, 0x0, 0x0, true⟩]

/-- Registers of page DEP (the tables of 11_claims_and_roles.md R421). -/
def depRows : List RegRow :=
  [⟨0x040, 0x040, .ro, 0x0, 0x0, false⟩,
   ⟨0x044, 0x044, .ro, 0x1, 0x0, true⟩,
   ⟨0x048, 0x048, .rl, 0x0, 0x0, true⟩,
   ⟨0x04c, 0x04c, .ro, 0x0, 0x0, false⟩,
   ⟨0x050, 0x050, .rl, 0x0, 0x0, false⟩,
   ⟨0x054, 0x054, .ro, 0x0, 0x0, true⟩,
   ⟨0x058, 0x058, .rl, 0x0, 0x0, true⟩,
   ⟨0x05c, 0x05c, .ro, 0x0, 0x0, false⟩,
   ⟨0x060, 0x060, .ro, 0x0, 0x0, false⟩,
   ⟨0x064, 0x064, .ro, 0x0, 0x0, false⟩,
   ⟨0x068, 0x068, .w1c, 0x0, 0x3, false⟩,
   ⟨0x06c, 0x06c, .wo, 0x0, 0x3, false⟩,
   ⟨0x100, 0x100, .rwg, 0x0, 0x1, false⟩,
   ⟨0x104, 0x104, .rwg, 0x0, 0x1, false⟩,
   ⟨0x108, 0x108, .rwg, 0x0, 0x1, false⟩]

/-- Registers of page STM (the tables of 12_register_pages.md R448). -/
def stmRows : List RegRow :=
  [⟨0x040, 0x040, .ro, 0x0, 0x0, false⟩,
   ⟨0x044, 0x044, .rl, 0x0, 0x0, false⟩,
   ⟨0x048, 0x048, .ro, 0x0, 0x0, false⟩,
   ⟨0x04c, 0x04c, .rl, 0x0, 0x0, false⟩,
   ⟨0x050, 0x050, .ro, 0x0, 0x0, false⟩,
   ⟨0x054, 0x054, .w1c, 0x0, 0x7, false⟩]

/-- Registers of page HP (the tables of 13_host_ports.md R464). -/
def hpRows : List RegRow :=
  [⟨0x040, 0x040, .ro, 0x0, 0x0, false⟩,
   ⟨0x044, 0x044, .ro, 0x0, 0x0, false⟩,
   ⟨0x048, 0x048, .ro, 0x0, 0x0, false⟩,
   ⟨0x04c, 0x04c, .ro, 0x0, 0x0, false⟩,
   ⟨0x050, 0x050, .ro, 0x0, 0x0, false⟩,
   ⟨0x054, 0x054, .ro, 0x0, 0x0, false⟩,
   ⟨0x058, 0x058, .ro, 0x0, 0x0, false⟩,
   ⟨0x05c, 0x05c, .ro, 0x0, 0x0, false⟩,
   ⟨0x060, 0x060, .ro, 0x0, 0x0, true⟩,
   ⟨0x064, 0x064, .ro, 0x0, 0x0, true⟩,
   ⟨0x068, 0x068, .rw, 0x0, 0x3ff, false⟩,
   ⟨0x06c, 0x06c, .w1c, 0x0, 0x7f, false⟩,
   ⟨0x070, 0x070, .ro, 0x0, 0x0, false⟩,
   ⟨0x074, 0x074, .ro, 0x0, 0x0, false⟩,
   ⟨0x078, 0x078, .ro, 0x0, 0x0, false⟩,
   ⟨0x07c, 0x07c, .ro, 0x0, 0x0, false⟩,
   ⟨0x080, 0x080, .ro, 0x0, 0x0, false⟩,
   ⟨0x084, 0x084, .ro, 0x0, 0x0, false⟩,
   ⟨0x088, 0x088, .ro, 0x0, 0x0, false⟩,
   ⟨0x08c, 0x08c, .rw, 0x0, 0x1f, false⟩,
   ⟨0x090, 0x090, .ro, 0x0, 0x0, false⟩,
   ⟨0x094, 0x094, .ro, 0x0, 0x0, false⟩,
   ⟨0x100, 0x100, .rwg, 0x0, 0x1013f, false⟩]

/-- Registers of page REC (the tables of 14_event_recorder.md R487). -/
def recorderRows : List RegRow :=
  [⟨0x040, 0x040, .ro, 0x1, 0x0, true⟩,
   ⟨0x044, 0x044, .ro, 0x0, 0x0, true⟩,
   ⟨0x048, 0x048, .ro, 0x1, 0x0, true⟩,
   ⟨0x04c, 0x04c, .ro, 0x1, 0x0, true⟩,
   ⟨0x050, 0x050, .ro, 0x0, 0x0, true⟩,
   ⟨0x054, 0x054, .ro, 0x0, 0x0, true⟩,
   ⟨0x058, 0x058, .ro, 0x0, 0x0, true⟩,
   ⟨0x05c, 0x05c, .ro, 0x0, 0x0, false⟩,
   ⟨0x060, 0x060, .ro, 0x0, 0x0, true⟩,
   ⟨0x064, 0x064, .rl, 0x0, 0x0, true⟩,
   ⟨0x068, 0x068, .ro, 0x0, 0x0, true⟩,
   ⟨0x06c, 0x06c, .rl, 0x0, 0x0, true⟩,
   ⟨0x070, 0x070, .ro, 0x0, 0x0, true⟩,
   ⟨0x074, 0x074, .rl, 0x0, 0x0, true⟩,
   ⟨0x078, 0x078, .ro, 0x0, 0x0, true⟩,
   ⟨0x07c, 0x07c, .rl, 0x0, 0x0, true⟩,
   ⟨0x080, 0x080, .ro, 0x0, 0x0, true⟩,
   ⟨0x084, 0x084, .rl, 0x0, 0x0, true⟩]

/-- Registers of page PWR (the tables of 15_power_and_sensing.md R514). -/
def pwrRows : List RegRow :=
  [⟨0x040, 0x040, .ro, 0x0, 0x0, false⟩,
   ⟨0x044, 0x044, .ro, 0x0, 0x0, false⟩,
   ⟨0x048, 0x048, .ro, 0x0, 0x0, false⟩,
   ⟨0x04c, 0x04c, .ro, 0x0, 0x0, false⟩,
   ⟨0x050, 0x050, .ro, 0x0, 0x0, false⟩,
   ⟨0x054, 0x054, .ro, 0x0, 0x0, false⟩,
   ⟨0x058, 0x058, .ro, 0x0, 0x0, false⟩,
   ⟨0x05c, 0x05c, .ro, 0x1312d00, 0x0, false⟩,
   ⟨0x060, 0x060, .ro, 0x0, 0x0, true⟩,
   ⟨0x064, 0x064, .rl, 0x0, 0x0, true⟩,
   ⟨0x068, 0x068, .ro, 0xa8c, 0x0, false⟩,
   ⟨0x06c, 0x06c, .ro, 0x1b0c08, 0x0, false⟩,
   ⟨0x070, 0x070, .ro, 0xb7ff000, 0x0, true⟩,
   ⟨0x074, 0x074, .rw, 0x0, 0xf, false⟩,
   ⟨0x078, 0x078, .ro, 0x0, 0x0, false⟩,
   ⟨0x07c, 0x07c, .rw, 0x0, 0x7f, false⟩,
   ⟨0x080, 0x080, .ro, 0x0, 0x0, false⟩,
   ⟨0x084, 0x084, .ro, 0x0, 0x0, true⟩,
   ⟨0x088, 0x088, .ro, 0x0, 0x0, false⟩,
   ⟨0x08c, 0x08c, .ro, 0x0, 0x0, false⟩,
   ⟨0x090, 0x090, .ro, 0x0, 0x0, true⟩,
   ⟨0x094, 0x094, .w1c, 0x0, 0x7, false⟩,
   ⟨0x100, 0x100, .rwg, 0xa8c, 0xfff, false⟩,
   ⟨0x104, 0x104, .rwg, 0xbb8, 0xfff, false⟩,
   ⟨0x108, 0x108, .rwg, 0x0, 0x10f, false⟩,
   ⟨0x10c, 0x10c, .rwg, 0x0, 0x17f, false⟩,
   ⟨0x110, 0x110, .rwg, 0x0, 0x1, false⟩]

/-- Registers of page SNS (the tables of 15_power_and_sensing.md R516). -/
def snsRows : List RegRow :=
  [⟨0x040, 0x040, .rw, 0x0, 0x7ff, false⟩,
   ⟨0x044, 0x044, .ro, 0x0, 0x0, false⟩,
   ⟨0x048, 0x048, .ro, 0x0, 0x0, false⟩,
   ⟨0x04c, 0x04c, .ro, 0x0, 0x0, false⟩,
   ⟨0x050, 0x050, .ro, 0x0, 0x0, false⟩,
   ⟨0x054, 0x054, .ro, 0x0, 0x0, false⟩,
   ⟨0x058, 0x058, .ro, 0x0, 0x0, false⟩,
   ⟨0x05c, 0x05c, .ro, 0x0, 0x0, false⟩,
   ⟨0x060, 0x060, .ro, 0x0, 0x0, false⟩,
   ⟨0x064, 0x064, .rw, 0x0, 0x7ff07, false⟩,
   ⟨0x068, 0x068, .ro, 0x0, 0x0, false⟩,
   ⟨0x06c, 0x06c, .ro, 0x0, 0x0, false⟩,
   ⟨0x070, 0x070, .rw, 0x0, 0xf, false⟩,
   ⟨0x074, 0x074, .ro, 0x0, 0x0, false⟩,
   ⟨0x078, 0x078, .ro, 0x0, 0x0, false⟩,
   ⟨0x07c, 0x07c, .w1c, 0x0, 0x3, false⟩]

/-- Registers of page DEV (the tables of 16_bringup_and_prospector.md R537). -/
def devRows : List RegRow :=
  [⟨0x040, 0x040, .ro, 0x0, 0x0, false⟩,
   ⟨0x044, 0x044, .ro, 0x0, 0x0, false⟩,
   ⟨0x048, 0x048, .ro, 0x0, 0x0, false⟩,
   ⟨0x04c, 0x04c, .rl, 0x0, 0x0, false⟩,
   ⟨0x050, 0x050, .ro, 0x0, 0x0, true⟩,
   ⟨0x054, 0x054, .ro, 0x1, 0x0, true⟩,
   ⟨0x058, 0x058, .ro, 0x0, 0x0, true⟩,
   ⟨0x05c, 0x05c, .w1c, 0x0, 0x1, false⟩,
   ⟨0x100, 0x100, .rwg, 0x0, 0x1, false⟩,
   ⟨0x104, 0x104, .rwg, 0x0, 0x1, false⟩]

/-- Registers of page PRO (the tables of 16_bringup_and_prospector.md R539). -/
def proRows : List RegRow :=
  [⟨0x040, 0x040, .ro, 0x0, 0x0, false⟩,
   ⟨0x044, 0x044, .ro, 0x0, 0x0, false⟩,
   ⟨0x048, 0x048, .ro, 0x0, 0x0, false⟩,
   ⟨0x04c, 0x04c, .rl, 0x0, 0x0, false⟩,
   ⟨0x050, 0x050, .ro, 0x0, 0x0, false⟩,
   ⟨0x054, 0x054, .ro, 0x0, 0x0, false⟩,
   ⟨0x058, 0x058, .rl, 0x0, 0x0, false⟩,
   ⟨0x05c, 0x05c, .ro, 0x0, 0x0, false⟩,
   ⟨0x060, 0x060, .rw, 0x0, 0x3ffffff, false⟩,
   ⟨0x064, 0x064, .rw, 0x1, 0x1ffff, false⟩,
   ⟨0x068, 0x068, .wo, 0x0, 0x1, false⟩,
   ⟨0x06c, 0x06c, .ro, 0x0, 0x0, false⟩,
   ⟨0x070, 0x070, .ro, 0x0, 0x0, false⟩,
   ⟨0x074, 0x074, .rl, 0x0, 0x0, false⟩,
   ⟨0x078, 0x078, .w1c, 0x0, 0x7, false⟩]

/-- Registers of page MON (the tables of 17_bobel_monitor.md R554). -/
def monRows : List RegRow :=
  [⟨0x040, 0x040, .ro, 0x0, 0x0, false⟩,
   ⟨0x044, 0x044, .rw, 0x1c200, 0x3fffff, false⟩,
   ⟨0x048, 0x048, .rw, 0x3, 0x3, false⟩,
   ⟨0x04c, 0x04c, .ro, 0x0, 0x0, false⟩,
   ⟨0x050, 0x050, .ro, 0x0, 0x0, false⟩,
   ⟨0x054, 0x054, .ro, 0x0, 0x0, false⟩,
   ⟨0x058, 0x058, .ro, 0x0, 0x0, false⟩,
   ⟨0x05c, 0x05c, .w1c, 0x0, 0xf, false⟩]

/-- The rows of a page type below its header. -/
def pageRows : PType → List RegRow
  | .dev => devRows
  | .tal => talRows
  | .hp => hpRows
  | .rol => rolRows
  | .rol3 => rol3Rows
  | .ftc => ftcRows
  | .mil => milRows
  | .drf => drfRows
  | .cas => casRows
  | .hoi => hoiRows
  | .int => intRows
  | .asy => asyRows
  | .recorder => recorderRows
  | .pwr => pwrRows
  | .sns => snsRows
  | .mon => monRows
  | .pro => proRows
  | .dep => depRows
  | .clmt => clmtRows
  | .clm => clmRows
  | .stm => stmRows
  | .stp => stpRows
  | .stx => stxRows

/-- The row that holds an offset, header words included; none where the map gives a reserved word. -/
def findRow (t : PType) (off : Nat) : Option RegRow :=
  if off < 0x40 then headerRows.find? (fun r => r.lo ≤ off && off ≤ r.hi)
  else (pageRows t).find? (fun r => r.lo ≤ off && off ≤ r.hi)

/-! Page indices of Table 12.1. -/
namespace Page
abbrev DEV : Nat := 0x000
abbrev TAL : Nat := 0x001
abbrev HP (n : Nat) : Nat := 0x002 + n
abbrev ROL (n : Nat) : Nat := 0x004 + n
abbrev FTC (n : Nat) : Nat := 0x008 + n
abbrev MIL (n : Nat) : Nat := 0x010 + n
abbrev DRF (n : Nat) : Nat := 0x014 + n
abbrev CAS : Nat := 0x020
abbrev HOI : Nat := 0x021
abbrev INT : Nat := 0x022
abbrev ASY : Nat := 0x023
abbrev REC : Nat := 0x024
abbrev PWR : Nat := 0x025
abbrev SNS : Nat := 0x026
abbrev MON : Nat := 0x027
abbrev PRO : Nat := 0x028
abbrev DEP : Nat := 0x029
abbrev CLM (n : Nat) : Nat := 0x040 + n
abbrev STM (n : Nat) : Nat := 0x100 + n
abbrev STP (n : Nat) : Nat := 0x400 + n
abbrev STX (n : Nat) : Nat := 0x800 + n
end Page

/-- The page an index lands on: Table 12.2 applied until it rests (R425). -/
def landPage (i : Nat) : Nat :=
  let i := i % 0x1000
  let i := if 0xC20 ≤ i then i - 0x400 else i
  let i := if 0x200 ≤ i ∧ i < 0x400 then i - 0x200 else i
  let i := if 0x140 ≤ i ∧ i < 0x200 then 0x100 + i % 0x40 else i
  let i := if 0x080 ≤ i ∧ i < 0x100 then i % 0x80 else i
  if 0x02A ≤ i ∧ i < 0x040 then i % 0x20 else i

/-- The page type of a landed index (Table 12.1). -/
def pageType (i : Nat) : PType :=
  if i = 0 then .dev else if i = 1 then .tal else if i ≤ 3 then .hp else if i ≤ 6 then .rol else if i = 7 then .rol3
  else if i ≤ 0x0F then .ftc else if i ≤ 0x13 then .mil else if i ≤ 0x1F then .drf else if i = 0x20 then .cas
  else if i = 0x21 then .hoi else if i = 0x22 then .int else if i = 0x23 then .asy else if i = 0x24 then .recorder
  else if i = 0x25 then .pwr else if i = 0x26 then .sns else if i = 0x27 then .mon else if i = 0x28 then .pro
  else if i = 0x29 then .dep else if i = 0x40 then .clmt else if i < 0x100 then .clm else if i < 0x400 then .stm
  else if i < 0x800 then .stp else .stx

/-- Type codes of Table 12.1. -/
def PType.code : PType → Nat
  | .dev => 1 | .tal => 2 | .hp => 3 | .rol => 4 | .rol3 => 4 | .ftc => 5 | .mil => 6 | .drf => 7 | .cas => 8
  | .hoi => 9 | .int => 10 | .asy => 11 | .recorder => 12 | .pwr => 13 | .sns => 14 | .mon => 15 | .pro => 16 | .dep => 17
  | .clmt => 18 | .clm => 18 | .stm => 19 | .stp => 20 | .stx => 21

/-- Lowest index of a page type (R424). -/
def PType.base : PType → Nat
  | .dev => 0 | .tal => 1 | .hp => 2 | .rol => 4 | .rol3 => 4 | .ftc => 8 | .mil => 0x10 | .drf => 0x14 | .cas => 0x20
  | .hoi => 0x21 | .int => 0x22 | .asy => 0x23 | .recorder => 0x24 | .pwr => 0x25 | .sns => 0x26 | .mon => 0x27 | .pro => 0x28
  | .dep => 0x29 | .clmt => 0x40 | .clm => 0x40 | .stm => 0x100 | .stp => 0x400 | .stx => 0x800

/-- PAGE_CAPS of Table 12.1: bit 0 stream, 1 enable control, 2 guarded ABORT, 3 sealed, 4 per claim (Table 12.5). -/
def PType.caps : PType → Nat
  | .dev => 8 | .tal => 0 | .hp => 0 | .rol => 1 | .rol3 => 1 | .ftc => 16 | .mil => 24 | .drf => 2 | .cas => 9
  | .hoi => 31 | .int => 25 | .asy => 0 | .recorder => 1 | .pwr => 0 | .sns => 0 | .mon => 0 | .pro => 11 | .dep => 1
  | .clmt => 8 | .clm => 9 | .stm => 3 | .stp => 8 | .stx => 0

/-- PAGE_ID of a landed page (R428). -/
def pageId (i : Nat) : Nat :=
  let t := pageType i
  t.code * 2 ^ 24 + (i - t.base) * 2 ^ 12 + i

/-- The key of a register word: the bank of copies, the landed page and the offset. Bank 0 holds the visible word;
banks 0, 1 and 2 the copies of the three sources; the others are named beside their operations in Ops.lean. -/
def regKey (bank page off : Nat) : Nat := (bank * 4096 + page) * 1024 + off

/-- The reset of words that the tables mark with a dash or 'per page' and that depend on the page (logs 3 and 4):
the identification words, the function state STARTING, P and W of the power-up grid (R173), the fuses' designations of R19 with column 32 as relief, and the
owning claim of claim and stream pages. -/
def resetSpecial (page off : Nat) : Option Nat :=
  let t := pageType page
  let i := page - t.base
  if off = Reg.HDR.PAGE_ID then some (pageId page)
  else if off = Reg.HDR.PAGE_CAPS then some t.caps
  else if off = Reg.HDR.PAGE_CLAIM then
    match t with
    | .clm => some i
    | .stm => some i
    | _ => some 0
  else if off = Reg.HDR.STATUS then some 0x10000000
  else
    match t with
    | .hoi => if off = Reg.HOI.PERIOD_LO then some 250000000 else if off = Reg.HOI.SEAL_W then some 136000 else none
    | .stp => if off = Reg.STP.STOPE_MAP then some (33 * (i / 32) + i % 32) else none
    | .stx =>
      if off = Reg.STX.STOPE_ROLE then
        some (if i % 33 = 32 then 1 + 0x7FF * 2 ^ 16 else (32 * (i / 33) + i % 33) * 2 ^ 16)
      else none
    | _ => none

/-- Does a register word keep its value through loss of input (R12, R15): a visible word with a dash, but for the grid in
force, which power-up gives anew (R173)? -/
def keepWord (key : Nat) : Bool :=
  decide (key / 4194304 = 0) && !(pageType (key / 1024 % 4096) == .hoi && decide (0x80 ≤ key % 1024) && decide (key % 1024 ≤ 0x90)) && (match findRow (pageType (key / 1024 % 4096)) (key % 1024) with
    | some r => r.keep
    | none => false)

/-- The value of a register word that nothing has written since reset (R12). -/
def resetWord (key : Nat) : Word :=
  let off := key % 1024
  let page := key / 1024 % 4096
  match resetSpecial page off with
  | some v => BitVec.ofNat 32 v
  | none =>
    match findRow (pageType page) off with
    | some r => BitVec.ofNat 32 r.reset
    | none => 0

end Sys2Proof.Machine
end

