-- ==== Sys2Proof/Machine/Sparse.lean ====
section
/-!
DEFINITION. Sparse data by key: a list of (key, value) pairs in one canonical form, keys strictly rising and no entry
equal to what an unlisted key reads as. Memory, the register words and the state of numbered units are held so.
-/

namespace Sys2Proof.Machine

/-- The value at a key, `d` where the key is not listed. -/
def Sparse.get {α : Type} (d : α) : List (Nat × α) → Nat → α
  | [], _ => d
  | (k', v) :: t, k => if k' = k then v else Sparse.get d t k

/-- Insert a pair in rising order of keys. -/
def Sparse.place {α : Type} (k : Nat) (v : α) : List (Nat × α) → List (Nat × α)
  | [] => [(k, v)]
  | (k', v') :: t => if k < k' then (k, v) :: (k', v') :: t else (k', v') :: Sparse.place k v t

/-- Remove a key. -/
def Sparse.drop {α : Type} (k : Nat) : List (Nat × α) → List (Nat × α)
  | [] => []
  | (k', v') :: t => if k' = k then Sparse.drop k t else (k', v') :: Sparse.drop k t

/-- Write a value: the value `d` of unlisted keys removes the entry. -/
def Sparse.set {α : Type} [DecidableEq α] (d : α) (m : List (Nat × α)) (k : Nat) (v : α) : List (Nat × α) :=
  if v = d then Sparse.drop k m else Sparse.place k v (Sparse.drop k m)

/-- Keys rise strictly from above `lo`, and no entry equals what its key reads as when unlisted. -/
def Sparse.wfFrom {α : Type} [DecidableEq α] (d : Nat → α) : Option Nat → List (Nat × α) → Bool
  | _, [] => true
  | lo, (k, v) :: t => (match lo with | none => true | some l => decide (l < k)) && decide (v ≠ d k) &&
      Sparse.wfFrom d (some k) t

/-- The canonical form. -/
def Sparse.wf {α : Type} [DecidableEq α] (d : Nat → α) (m : List (Nat × α)) : Bool := Sparse.wfFrom d none m

end Sys2Proof.Machine
end

