-- ==== Sys2Proof/Machine/State.lean ====
section
/-!
DEFINITION. The state of the block as plain data, the reasons a step can stop, and the state right after reset.

Every register word of the pages has its one home in `regs` (sparse; an unlisted word reads its reset value,
RegTable.lean). Words that only show other state are computed on reading (Bus.lean). Sparse lists are keyed by the unit
number their comment names and are held in the canonical form of Sparse.lean.
-/

namespace Sys2Proof.Machine

/-! ### Records (R468 to R479) -/

/-- One payload item (R469): identifier, kind, size in bytes and the data as a little-endian number. -/
structure Item where
  id   : Nat
  kind : Nat
  size : Nat
  val  : Nat
deriving DecidableEq, Repr

/-- A record as a unit hands it to the admission queue. `hidden` holds the items of the sealed part (R482) and
`maker` the sequence number whose sealed part travels as a maker copy (R483). -/
structure Rec where
  code   : Nat
  unit   : Nat
  role   : Nat
  source : Nat
  claim  : Option Nat
  tai    : Nat
  items  : List Item
  hidden : List Item
  maker  : List Item
deriving DecidableEq, Repr

/-- An admitted record: its sequence number, operating seconds, power cycle, SUPPRESSED, the BIND_COUNT of its claim's
capture key, its length and whether its CHECK still holds. -/
structure Held where
  seq    : Nat
  opsec  : Nat
  pwrcyc : Nat
  supp   : Nat
  bind   : Nat
  len    : Nat
  body   : Rec
deriving DecidableEq, Repr

/-- The event recorder (R474 to R480): admission queue, ring, security region, archive segments, token buckets (units
and the microsecond they were counted at), pending counts by code, the records withheld for want of a place, and the store whose
newest record the loss of the input tore (R479). -/
structure Recorder where
  queue    : List Rec
  ring     : List Held
  region   : List Held
  archive  : List (List Held)
  damaged  : List (Nat × Nat)
  buckets  : List (Nat × (Nat × Nat))
  pend     : List (Nat × Nat)
  lost     : Nat
  lostCodes : List Nat
  torn     : Option Nat
deriving DecidableEq, Repr

/-! ### Jobs (chapters 4, 5, 6 and 7) -/

/-- Job descriptor (Table 5.2). -/
structure JobDesc where
  train      : Bool
  placement  : Nat
  hoist      : Nat
  fixed      : Nat
  free       : Nat
  seed       : Nat
  zgLimit    : Nat
  offsetUnit : Nat
  tableLayers : Nat
  tableBase  : Nat
  ckptK      : Nat
  micro      : Nat
  startStep  : Nat
  ckptBase   : Nat
deriving DecidableEq, Repr

/-- Hoist entry (Table 5.4). -/
structure HoistE where
  launch : Nat
  action : Nat
  tkind  : Nat
  ref    : Bool
  ideal  : Bool
  serve  : Bool
  recompute : Bool
  notify : Bool
  target : Nat
  a      : Nat
  b      : Nat
  result : Nat
  layer  : Nat
  mb     : Nat
deriving DecidableEq, Repr

/-- Placement header (Table 6.2). -/
structure PlaceH where
  layers  : Nat
  tensors : Nat
  vectors : Nat
  layerBase : Nat
  tensorBase : Nat
  stockBase : Nat
  stockFast : Nat
  stockSpill : Nat
  spillBase : Nat
  stockHigh : Nat
  bufResident : Nat
deriving DecidableEq, Repr

/-- Layer descriptor (Table 6.3). -/
structure LayerD where
  layer   : Nat
  act     : Nat
  bias    : Bool
  stashIn : Bool
  maxPool : Bool
  inputs  : Nat
  outputs : Nat
  pool    : Nat
  outFmt  : Nat
  dwPolicy : Nat
  p0      : Nat
  p1      : Nat
  inT     : Nat
  outT    : Nat
  codesT  : Nat
  coefT   : Nat
  gainT   : Nat
  biasT   : Nat
  gzT     : Nat
  dwT     : Nat
  reuse   : Nat
  seamMapT : Nat
deriving DecidableEq, Repr

/-- Tensor entry (Table 6.4). -/
structure TensorD where
  addr   : Nat
  bytes  : Nat
  dim0   : Nat
  dim1   : Nat
  fmt    : Nat
  orient : Bool
  e      : Int
  stride : Nat
deriving DecidableEq, Repr

/-- Master-set descriptor (Table 7.1). -/
structure SetD where
  id     : Nat
  kind   : Nat
  opt    : Nat
  layer  : Nat
  rows   : Nat
  dim    : Nat
  bank   : Nat
  serveT : Nat
  initT  : Nat
  gradScale : Nat
  beta1  : Nat
  beta2  : Nat
  eps    : Nat
  lambda : Nat
  a0     : Nat
  knots  : List (Nat × Nat)
deriving DecidableEq, Repr

/-- Set state (Table 7.2), with what the last committed and the staged projection leave: write-list entries, weights
held by hysteresis and the L of each output column block (R256). -/
structure SetS where
  cur    : Nat
  skipped : Bool
  resync : Bool
  next   : Nat
  steps  : Nat
  p1     : Nat
  p2     : Nat
  writes : Nat
  held   : Nat
  lastL  : List Nat
  pushed : Bool
  staged : Bool
  sSkip  : Bool
  sP1    : Nat
  sP2    : Nat
  sWrites : Nat
  sHeld  : Nat
  sL     : List Nat
  rowsStaged : List Nat
  rowsLast : List Nat
deriving DecidableEq, Repr

/-- Numerics state of a layer (Table 4.5). Formats: 0 G16E5, 1 G16E8, 2 B16, 3 F32. Maxima are binary32 words. -/
structure NumS where
  gzFmt  : Nat
  dwFmt  : Nat
  cold   : Bool
  dead   : Bool
  widened : Bool
  gzBias : Int
  dwBias : Int
  outBias : Int
  outE   : Int
  gzRun  : Nat
  dwRun  : Nat
  zeroRun : Nat
  step   : Nat
  gzMax  : List Nat
  dwMax  : List Nat
  outMax : List Nat
  gzUnder : List Nat
  gzNon  : List Nat
  dwUnder : List Nat
  dwNon  : List Nat
deriving DecidableEq, Repr

/-- Statistics of one tensor kind in the step under way (R136). -/
structure KindStat where
  max   : Nat
  non   : Nat
  under : Nat
  u5    : Nat
  o5    : Nat
deriving DecidableEq, Repr

/-- What a layer's converters and collars deliver at the seal (R62, R136, R156), and the widenings in force (R154):
the widened format of Gz, Dw and Out, none where the kind is not widened. -/
structure LayerStat where
  gz      : KindStat
  dw      : KindStat
  out     : KindStat
  outMax  : Nat
  trained : Bool
  gathered : Bool
  nonzero : Bool
  wGz     : Option Nat
  wDw     : Option Nat
  wOut    : Option Nat
  ovGz    : Bool
  ovDw    : Bool
  ovOut   : Bool
deriving DecidableEq, Repr

/-- One stash of the stockpile (R223 to R227): blocks of its three planes, whether each is still held, the tier
(0 fast, 1 spill under way, 2 spilled), whether a consumer has begun to read it, and the values themselves. -/
structure Stash where
  layer  : Nat
  mb     : Nat
  inBlk  : Nat
  outBlk : Nat
  posBlk : Nat
  inHeld : Bool
  outHeld : Bool
  posHeld : Bool
  tier   : Nat
  begun  : Bool
  reserve : Bool
  e      : Int
  inData : List Nat
  outData : List Nat
  posData : List Nat
deriving DecidableEq, Repr

/-- A run of a hoist entry in the slot under way. `splits` holds, by stope × 32 + seam, the vectors re-read in parts and the
deepest split (R54). `inst` is the instance of the weights that the hoist uses from its start (R85, R186), `split` and `homes`
the split exponent of R94 and the logical stopes among which its work was divided, and `coefs` the words of its layer's
coefficient images that a commit has replaced while a SERVE pass was in flight. -/
structure HoistRun where
  started  : Bool
  late     : Bool
  complete : Bool
  left     : Nat
  nan      : Bool
  nonfin   : Bool
  reserved : Bool
  splits   : List (Nat × (Nat × Nat))
  again    : Bool
  withheld : Bool
  inst     : Nat
  split    : Nat
  homes    : List Nat
  coefs    : List Nat
deriving DecidableEq, Repr

/-- Column values of one vector of one chain on their way to, or held by, the head collar (R56): claim, entry, layer,
column block, row block, vector, whether they arrived, and the 512 values in units of 2^−19. `band` is the sum of B_j
terms of R157 for each column in units of 2^−64, `again` tells a recomputation (R350), and `inst` is the instance in
force when the vector began (R67). -/
structure Partial where
  entry : Nat
  layer : Nat
  cb    : Nat
  rb    : Nat
  vec   : Nat
  here  : Bool
  failed : Bool
  vals  : List Int
  band  : List Nat
  again : Bool
  inst  : Nat
deriving DecidableEq, Repr

/-- Activated values of one vector waiting for their pooling window (R59), and those waiting for a range recheck
(R347): binary32 words by column. -/
structure ActRow where
  entry : Nat
  layer : Nat
  cb    : Nat
  vec   : Nat
  vals  : List Nat
  wait  : List Nat
deriving DecidableEq, Repr

/-- A root node sent to the stope that holds part 0 of a tile (R94), of a tile that was issued again where `again`. -/
structure PartRoot where
  entry : Nat
  unit  : Nat
  here  : Bool
  nodes : List Nat
  again : Bool
deriving DecidableEq, Repr

/-- A job of one claim as it was loaded, with what its step slot under way holds: hoist runs, stashes and RECOMPUTE marks,
partial sums, activated rows, divided tiles, landed messages; its envelopes (R346); the formats in which repeated serving
passes deliver (R155); the claim's in-service stopes at LOAD in ordinal order (R203); whether the step met a LOST block
and for how many steps running (R343); the format and bias or exponent that each tensor instance was written with (R57), keyed by tensor × 65,536 + instance;
outputs of a recompute run by layer, and the run under way as (micro-batch, layers still to run, targets) (R229); when its last work
completed; whether its START restores an image (R263); and entries of a SWAP whose places serving passes in flight still hold
(R186). `numNext` is the numerics state that the next commit puts in force. -/
structure Job where
  desc    : JobDesc
  entries : List HoistE
  head    : PlaceH
  layers  : List LayerD
  tensors : List TensorD
  maps    : List (List Nat)
  sets    : List SetD
  sstate  : List SetS
  num     : List NumS
  numNext : List NumS
  stat    : List LayerStat
  runs    : List (Nat × HoistRun)
  swap    : Option (JobDesc × List HoistE)
  role    : Nat
  number  : Nat
  first   : Bool
  stopDue : Bool
  abortDue : Bool
  probe   : Bool
  probeDone : Bool
  cause   : Nat
  reporter : Nat
  streak  : Nat
  trainSteps : Nat
  stashes : List Stash
  marks   : List (Nat × Nat)
  spillOcc : Nat
  partials : List Partial
  acts    : List ActRow
  roots   : List PartRoot
  landed  : List (Nat × Nat)
  envelope : List (Nat × (List Nat))
  serveFmt : List (Nat × Nat)
  ords    : List Nat
  lostHit : Bool
  lostRun : Nat
  regen   : List (Nat × (List Nat))
  forms   : List (Nat × (Nat × Int))
  recomp  : Option (Nat × (List Nat) × (List Nat))
  lastWork : Nat
  forceCkpt : Bool
  restoring : Bool
  swapped : List (Nat × HoistE)
deriving DecidableEq, Repr

/-! ### Stopes (chapters 2, 3, 8 and 10) -/

/-- A pass queued or under way on an array: claim, entry, layer, column block, row block, the next vector, the vector at
which it ends, and whether it is the one recomputation of R350. -/
structure SeamJob where
  claim : Nat
  entry : Nat
  layer : Nat
  cb    : Nat
  rb    : Nat
  next  : Nat
  upto  : Nat
  again : Bool
deriving DecidableEq, Repr

/-- A vector being read (R66): its pass, its bytes, the parts still to read as (first row, rows), the depth of the
split, the accumulation of R55 by column (scaled by 2^p already), the terms of R157 by column in units of 2^−64, the
converter coefficients (gain, offset + 512, range code) of the 516 columns at its first read (R67), the values of the
columns that digital columns serve (R294), the instance in force, and the logical stope and seam that it is read for. -/
structure VecRead where
  job   : SeamJob
  vec   : Nat
  bytes : List Nat
  parts : List (Nat × Nat)
  split : Bool
  deepest : Nat
  acc   : List Int
  band  : List Nat
  coefs : List (Nat × (Nat × Nat))
  digital : List (Nat × Int)
  inst  : Nat
  lp    : Nat
  seam  : Nat
deriving DecidableEq, Repr

/-- A node of the reference tree: mantissa and exponent, or non-finite (R146). -/
inductive Node
  | zero
  | num (n : Int) (u : Int)
  | nonfin
deriving DecidableEq, Repr

/-- A work unit of a divided product (R94): claim, entry and unit, and whether its tile is issued again after a failed
check (R350). -/
structure WorkUnit where
  claim : Nat
  entry : Nat
  unit  : Nat
  again : Bool
deriving DecidableEq, Repr

/-- The tile in a hewer (R90 to R101): its unit, product kind, result tile row and column, the first leaf of its part,
the leaves of its part, the next leaf, the leaves issued, the node stack as (level, 4,096 nodes), whether it failed a
check, and the instance of the weights in force when it started. -/
structure Tile where
  unit   : WorkUnit
  kind   : Nat
  row    : Nat
  col    : Nat
  first  : Nat
  leaves : Nat
  next   : Nat
  issued : Nat
  stack  : List (Nat × List Node)
  failed : Bool
  inst   : Nat
deriving DecidableEq, Repr

/-- A row-side write of an array that waits beside those that its target asks for (R274): purpose 0 clearing, 1 write
list, 2 relief copy, 3 restore, 4 refresh; row, line N, and whether it is the repeat of R273. -/
structure RowSide where
  arr     : Nat
  row     : Nat
  neg     : Bool
  purpose : Nat
  again   : Bool
deriving DecidableEq, Repr

/-- A write list of the mill for one seam of a logical stope: entries as (row, column, code), which travel in blocks of at
most 1,020 (Table 7.6); `arrived` counts the blocks that have reached the stope. -/
structure WriteList where
  claim : Nat
  step  : Nat
  seam  : Nat
  full  : Bool
  arrived : Nat
  applied : Bool
  entries : List (Nat × Nat × Nat)
deriving DecidableEq, Repr

/-- What an array keeps (R51, R82, R275, R276, R285 to R298). Cell pairs last written are keyed by row × 512 + column, as
g⁺ + 16 × g⁻; row sides whose witness cells follow the 12-level plan are row × 2 + line; converter coefficients (gain,
offset + 512) are keyed by column × 4 + range, cell coefficients (κ, ω + 512) by column; UNFIT witness columns of the last
assay are a bit mask; stubborn cells, keyed by (row × 2 + line) × 516 + column, count successive writes; write counts,
baselines (sums of 16 probe reads) and refresh estimates in 1/1,024 level are keyed by row group; `pulsed` holds groups not
probed since a pulse, `refresh` groups of the refresh under way and `refreshE` their largest estimate; `effort` counts row
sides, pulses and pulsed cells; `fitDue` tells that a list changed the cells since their last fit, `fitted` a fit not yet
taken at a seal, `jump` that it is taken at once (R296). -/
structure Arr where
  codes   : List (Nat × Nat)
  wit12   : List Nat
  plan12  : Bool
  announced : Bool
  conv    : List (Nat × (Nat × Nat))
  convT   : List (Nat × (Nat × Nat))
  cell    : List (Nat × (Nat × Nat))
  cellT   : List (Nat × (Nat × Nat))
  jump    : Bool
  fitted  : Bool
  fitDue  : Bool
  unfit   : List Nat
  unfitWit : Nat
  stubborn : List (Nat × Nat)
  degraded : Bool
  closed  : Bool
  served  : Nat
  quiet   : Bool
  amp     : Nat
  writes  : List (Nat × Nat)
  base    : List (Nat × Int)
  pulsed  : List Nat
  refresh : List Nat
  refreshE : Nat
  probes  : List (Nat × Nat)
  probed  : Nat
  interval : Nat
  effort  : Nat × Nat × Nat
  assayed : Bool
  assaying : Bool
  low     : List (Nat × Nat)
  job     : List SeamJob
  vec     : Option VecRead
  allow   : Int
deriving DecidableEq, Repr

/-- A packet of the mesh (R22, R23): its plane, the stopes at which it enters and leaves, the claim and the hoist entry that
it belongs to, what it carries (0 partial block of a chain, 1 root of a part of a tile, 2 block of a write list, 3 block of a
landing tensor) with the numbers that tell which, how many tensor blocks it is, and how far it is: 0 waiting at its producer
for landing credits (R351), 1 under way, 2 landed. -/
structure Packet where
  plane  : Nat
  src    : Nat
  dst    : Nat
  claim  : Nat
  entry  : Nat
  kind   : Nat
  tag    : List Nat
  blocks : Nat
  phase  : Nat
deriving DecidableEq, Repr

/-- A physical stope. `tile` is the tile being issued and `drains` the tiles whose leaves are complete, oldest first, on the
two banks of node stacks (R92, R109). routerAlone tells that one of the twins of its mesh router has been lost (R365). Of its upkeep (chapter 8): write lists, row sides that wait, the purpose of its relief cycle (1
degraded, 2 refresh, 3 assay, 4 serving), the seam served, whether the copy's fits are done, the largest row-group count when
the window was measured, the seam out of service under R281, the measured windows as (count, ratio), when the round
under way and the last complete one began, T_a, T and the temperature at the start of the round under way in 1/16 °C, and the
re-plans of the next seal as (kind, array, measurement, old, new). reliefHeld marks a relief seam that served a seam with a
claim's content when the input was lost (R521). -/
structure Stope where
  arrs    : List (Nat × Arr)
  queue   : List WorkUnit
  tile    : Option Tile
  drains  : List Tile
  wide    : Option (Nat × Nat)
  allow   : Int
  lists   : List WriteList
  sides   : List RowSide
  purpose : Nat
  copyFit : Bool
  winAt   : Nat
  outOf   : Nat
  windows : List (Nat × Nat)
  roundAt : Nat
  lastAt  : Nat
  tA      : Int
  tNow    : Int
  tStart  : Int
  due     : Bool
  overdue : Bool
  inSlot  : Bool
  changed : Nat
  sigma   : Nat
  rho     : Int
  guard   : Nat
  range0Off : Bool
  integ   : Nat
  fails   : Nat
  windowAt : Nat
  testOk  : Bool
  lastFail : Nat
  failAt  : Option Nat
  why     : Nat
  testDue : Bool
  overTest : Bool
  proposed : Bool
  fenced  : Bool
  testing : Bool
  testAt  : Nat
  slotted : Bool
  prep    : Option Nat
  prepared : Bool
  selfTest : Bool
  replans : List (List Nat)
  clearing : Option Nat
  clearFail : Bool
  railsOff : Bool
  reliefHeld : Bool
  clamped : Bool
  clampSlots : List (Nat × Nat)
  sensors : List (Nat × Nat)
  invalid : Nat
  routerAlone : Bool
deriving DecidableEq, Repr

/-! ### Mill, tiers, seal, tally, governor -/

/-- A partner's image in the buddy area of a claim (R262), as it arrived under its role's checkpoint key (R391): the partner, its role,
the claim, the half of the area that holds the last complete
image, if any, and the image on its way: its checkpoint step and the blocks that have landed in the other half. -/
structure Hosted where
  member : Nat
  role   : Nat
  claim  : Nat
  whole  : Option Nat
  step   : Nat
  got    : List Nat
deriving DecidableEq, Repr

/-- The mill (R235, R244, R258 to R262): accepted pushes in order as (claim, entry, set, step), pushes waiting for their
blocks as (claim, entry, set), claims whose image is being frozen and claims whose image is being sent, each with its
step, and the images hosted for partners as (member, claim). -/
structure Mill where
  queue   : List (Nat × Nat × Nat × Nat)
  waiting : List (Nat × Nat × Nat)
  freezing : List (Nat × Nat)
  sending : List (Nat × Nat)
  hosting : List Hosted
deriving DecidableEq, Repr

/-- A tier's migrations (R212 to R214): the claim and cause under way and the nanosecond it began, migrations that wait as
(claim, cause, channel over), the claim to re-key at its next seal with the channel over, consecutive windows that each channel
has been over, the spare row (R213), the channels retired, blocks read in the scrub pass, and the damaged blocks of the last
hour as (channel, nanosecond). -/
structure Tier where
  active  : Option (Nat × Nat)
  began   : Nat
  waiting : List (Nat × Nat × Nat)
  rekey   : Option (Nat × Nat)
  runs    : List (Nat × Nat)
  spare   : Nat
  retired : List Nat
  scrub   : Nat
  damage  : List (Nat × Nat)
deriving DecidableEq, Repr

/-- The seal under way (Table 5.7): phase 0 none, 1 launched, 2 verdict formed, 3 decision formed, 4 decision
acknowledged or received; the slot, verdict, verdicts received, decision and new epoch, the one that the
standby holds, and whether the numerics copies have been written. With a decision travel the step numbers of the jobs
(R174), as (job number, step number after the seal). upkeep tells that a check of the upkeep's own work has failed since the last
seal (R187). -/
structure SealCtl where
  phase   : Nat
  slot    : Nat
  verdict : BitVec 64
  got     : List (Nat × BitVec 64)
  decision : Option (BitVec 64 × Nat)
  standby : Option (BitVec 64 × Nat)
  steps   : List (Nat × Nat)
  heldSteps : List (Nat × Nat)
  upkeep  : Bool
  staged  : Bool
deriving DecidableEq, Repr

/-- Reference, markers and stored tally (R163 to R173): consecutive accepted edges and those missed or rejected, a
calendar value that waits for an edge, the stored tally, the last 64 two-way delays in 1/16 ns, the accepted grid that
waits for its origin as (O, P, W), the rate correction in force in 0.001 ppm and what it has not yet moved, in 10^−9 ns, and the own tally at the last marker followed
with the headframe's. -/
structure Clock where
  refRun  : Nat
  miss    : Nat
  setPending : Option Nat
  stored  : Nat
  echoes  : List Nat
  grid    : Option (Nat × Nat × Nat)
  rate    : Int
  frac    : Nat
  marked  : Option (Nat × Nat)
deriving DecidableEq, Repr

/-- The governor (R193 to R195): windows with both ratios at the floor and the power above budget,
and the windows of the last 65 step slots by slot (R507). -/
structure Gov where
  ovf     : Nat
  slots   : List (Nat × Nat)
deriving DecidableEq, Repr

/-- What the stores keep of a tensor block beside its bytes (R340 to R348): damaged (its held check fails), rebuild under way,
LOST, in the lost list, or pending a SOUND notice from a generation; and partial writes that wait for the handling of the
damage, as (offset, bytes) (R206). -/
structure Mark where
  damaged : Bool
  rebuild : Bool
  lost    : Bool
  listed  : Bool
  pending : Option Nat
  waits   : List (Nat × (List Byte))
deriving DecidableEq, Repr

/-! ### Claims, sessions, streams and ports of access (chapters 11, 12 and 13) -/

/-- A mapping of a claim's region in a tier onto channels and rows (R208 to R213): the interleave key, the channels that were
retired when it was made, the stripes that have moved to it, and the rows of those that a migration has placed. -/
structure StripeMap where
  key     : Nat
  retired : List Nat
  moved   : Nat
  rows    : List (Nat × Nat)
deriving DecidableEq, Repr

/-- How a claim's region lies in a tier: its mappings, the newest first; where there are several, a migration is under way and
a stripe that has not moved to a mapping is still found under the next one (R213). `next` is a key drawn and not yet in use. -/
structure Layout where
  maps : List StripeMap
  next : Option Nat
deriving DecidableEq, Repr

/-- A claim beyond its registers (R375 to R398): operator key, the draws that formed its key pair, its layouts in the tiers and
whether it has memory keys, asks staged by APPLY with the stripes still to fill, the clearing under way (command, stopes and blocks
left), and its lost list. -/
structure Claim where
  opKey   : List Byte
  keyDraw : Nat
  fast    : Layout
  slow    : Layout
  keys    : Bool
  applied : Option (List Nat)
  filling : Bool
  removed : List Nat
  added   : List Nat
  command : Nat
  left    : List Nat
  clrBlocks : Nat
  lostList : List Nat
  lostMore : Bool
  jobKey  : Bool
deriving DecidableEq, Repr

/-- A source's session beyond its page (R382 to R384): when the nonce was issued and its draw, the role and claim
requested, whether a proof may use it, times of failures, when a block ends, the last access, consents (claim, functions, NOT_AFTER,
BIND_COUNT), and the sessions and transfers that ended when the port's link left DL_Active, while the 50 ms of R463 run. -/
structure Sess where
  issued  : Nat
  nonce   : Nat
  role    : Nat
  claim   : Nat
  fresh   : Bool
  fails   : List Nat
  blocked : Nat
  access  : Nat
  consents : List (Nat × Nat × Nat × Nat)
  cutOff  : Nat × Nat
deriving DecidableEq, Repr

/-- A stream context (R444 to R447): start address, length, bytes passed before the current lap, the words of the lap
already filled or read, the lap's words, and the object's bytes received or to deliver. -/
structure Stream where
  mode    : Nat
  addr    : Nat
  len     : Nat
  passed  : Nat
  seen    : List Nat
  lap     : List (Nat × Word)
  object  : List Byte
deriving DecidableEq, Repr

/-- An open guarded pair (R437): offset, value and the nanosecond it opened. -/
structure Pair where
  off     : Nat
  val     : Word
  opened  : Nat
deriving DecidableEq, Repr

/-- The capture buffer of a source (R441): page, offset and the 64 bits. -/
structure Capture where
  page    : Nat
  off     : Nat
  val     : Nat
deriving DecidableEq, Repr

/-- The last completion that a source received: status 0 successful, 1 Unsupported Request, 2 Completer Abort,
3 Request Retry, 4 none yet: a stream read held on a block that waits for its notice (R349); the data word; and the source and address of a read that waits. -/
structure Resp where
  status  : Nat
  data    : Word
  addr    : Nat
deriving DecidableEq, Repr

/-- One MSI-X vector of a port (R458): messages sent, nanosecond of the last one, and whether one waits for the end of
the holdoff. -/
structure Msi where
  sent    : Nat
  last    : Nat
  waits   : Bool
deriving DecidableEq, Repr

/-! ### Drifts and the cascade (chapter 9) -/

/-- A message queued on a drift port: class, destination member, roles, key, MSEQ, tag, epoch, first block, the
blocks it carries, the content of a message without blocks, DETOUR (R308, R323), and the claim and hoist entry of a SEND. -/
structure OutMsg where
  cls      : Nat
  dest     : Nat
  destRole : Nat
  destEpoch : Nat
  srcRole  : Nat
  key      : Nat
  mseq     : Nat
  tag      : Nat
  epoch    : Nat
  first    : Nat
  blocks   : List (List Byte)
  content  : List Nat
  detour   : Bool
  origin   : Option (Nat × Nat)
deriving DecidableEq, Repr

/-- A drift port beyond its page (R303 to R316, R330): messages queued, the LSEQ to send next and to expect next, LSEQs
of tubs sent and not acknowledged, the last LSEQ of each message of a SEND with its claim and entry, when the oldest left, tubs of other
members that wait here for credits and, on a wrap link, tubs whose credits are not returned yet (both as virtual channel and DATELINE, R310), the deficits of R311
(64 channel 3, 65 channel 2, below 64 a claim of channel 2), times of going DOWN, windows of uncorrectable codewords, lanes in training with the second their
margin began to hold, when the port last changed state, the partner's identity and roster, and marker state: markers
sent since a tag, the payload of the last marker sent, whether markers are followed, the hop count of the last marker; the draw of the
last HELLO's nonce and ephemeral key, and the link secret (R316, empty without one). -/
structure Port where
  outq     : List OutMsg
  txNext   : Nat
  rxNext   : Nat
  unacked  : List Nat
  sends    : List (Nat × (Nat × Nat))
  sentAt   : Nat
  ctl      : List (Nat × Nat)
  buffered : List (Nat × Bool)
  flight   : List (Nat × Bool)
  drr      : List (Nat × Nat)
  downs    : List Nat
  uncorr   : Nat
  changed  : Nat
  identity : Nat
  follow   : Bool
  hops     : Nat
  marks    : Nat
  marker   : List Nat
  wanted   : Nat
  hello    : Nat
  linkKey  : List Byte
deriving DecidableEq, Repr

/-- What the member knows of another member (R318, R330, R331): MEMBER_INFO state, late steps among the last 100,
identity hash, adjacent (port, member) pairs, verdicts missed in succession, the last step complete at its buddy by
job, times of rejected messages, and whether its messages are dropped. -/
structure Peer where
  info     : Nat
  late     : List Nat
  identity : Nat
  adj      : List (Nat × Nat)
  missed   : Nat
  ckpt     : List (Nat × Nat)
  rejects  : List Nat
  dropped  : Bool
  pub      : List Byte
deriving DecidableEq, Repr

/-- Blocks that a drift has received for the landing area of a stope and that wait in its virtual-channel-2 buffers for landing
credits (R351): claim, tag, source role, first block and the blocks. -/
structure HeldBlocks where
  claim   : Nat
  tag     : Nat
  srcRole : Nat
  first   : Nat
  blocks  : List (List Byte)
deriving DecidableEq, Repr

/-- A member that has reported a started job READY to the headframe (R175): the job's number, the member, and the tally at which
the report was heard. -/
structure ReadyJob where
  number : Nat
  member : Nat
  since  : Nat
deriving DecidableEq, Repr

/-- The cascade functions of the member (R314 to R332): roster in force, role table, route table, candidates heard,
the highest epoch heard, pending head move, role moves with their tally, losses to act on at the next commit
(member, cause), jobs known as (operator key hash, SEED, number), MSEQ sent and accepted by key and member, restarts under
way (job, step), MSEQs whose message was resent after a STALE_ROLE, failed arrivals of a message by source member and MSEQ (R341), READY reports, and the jobs' step numbers that the headframe holds,
as (number, step, 0 no training, 1 training, 2 training that begins with a probe step) (R174, R175), the draw of the member's agreement key pair (R392), the
32-byte key of each cascade job by its number (R391), and
blocks that wait for landing credits (R351). -/
structure Casc where
  roster   : List Byte
  roles    : List RoleEntry
  routes   : List (Nat × Nat × Nat)
  routeVer : Nat
  cands    : List Cand
  heardEpoch : Nat
  headMove : Option Nat
  moves    : List (Nat × RoleEntry)
  losses   : List (Nat × Nat)
  jobs     : List (Nat × Nat × Nat)
  peers    : List (Nat × Peer)
  sentSeq  : List (Nat × Nat)
  gotSeq   : List (Nat × (List Nat))
  restarts : List (Nat × Nat)
  resent   : List Nat
  hopFails : List (Nat × Nat)
  ready    : List ReadyJob
  steps    : List (Nat × Nat × Nat)
  agree    : Nat
  jobKeys  : List (Nat × Nat)
  held     : List HeldBlocks
  sent     : List OutMsg
deriving DecidableEq, Repr

/-! ### Integrity, firmware and secrets (chapters 10 and 11) -/

/-- An installed canary pack (R359). -/
structure Pack where
  id     : Nat
  ver    : Nat
  bytes  : Nat
  minFw  : Nat
  time   : Nat
  digest : Nat
deriving DecidableEq, Repr

/-- A firmware image (R410): version, digest, whole-image hash, ROM_MIN and HANDOVER. -/
structure Image where
  ver      : Nat
  digest   : Nat
  hash     : Nat
  romMin   : Nat
  handover : Nat
  bytes    : Nat
deriving DecidableEq, Repr

/-- Firmware and the management cores (R365, R411 to R415): staging store, whether staging has begun, the verified
image, the running image, the one to return to, the image in flash and whether it still verifies, a commit or revert
under way and its phase (1 standby booting, 2 standby alone in service), and cores out of service. -/
structure Fw where
  store    : List Byte
  staging  : Bool
  staged   : Option Image
  running  : Image
  old      : Option Image
  flash    : Image
  flashOk  : Bool
  reverting : Bool
  phase    : Nat
  lost     : Nat
deriving DecidableEq, Repr

/-- Secrets and enrolment of the deputy (R371 to R409): installer key, staged objects by source and kind, IDE key sets
by port, direction, sub-stream and set, consents held by the maker's session (claim, functions, NOT_AFTER,
BIND_COUNT), and the report a source reads. -/
structure Vault where
  installer : List Byte
  stagedObj : List (Nat × (List Byte))
  ideKeys   : List (Nat × (List Byte))
  consents  : List (Nat × Nat × Nat × Nat)
  reports   : List (Nat × (List Byte))
deriving DecidableEq, Repr

/-! ### Power, bring-up, prospector, monitor (chapters 15, 16 and 17) -/

/-- Power and sensing (R489 to R509): input voltage in mV and its state code, the last mains window (P_cyc in mW, bus
power in mW, S_cyc in mW, stage-2 input power in mW), windows in succession with P_cyc over the limit, windows of
p_est over the limit and below the budget, causes of the clamp, when it began, failed phases, sensors by class × 2048 + instance
as (temperature in 1/16 °C, state, readings above trip), the time under load of each
converter in seconds, whether POWER_FAIL was declared or the rails are off, the windows of the last second (length in ns, input mW, bus mW, core mW, stage-2 mW), energy
not yet shown in mW·ns, and rows whose allowance ratios are capped at 40/64 (R497). -/
structure Pwr where
  mv       : Nat
  pCyc     : Nat
  busMw    : Nat
  eta1     : Nat
  eta2     : Nat
  ceiling  : Nat
  overCyc  : Nat
  overEst  : Nat
  below    : Nat
  causes   : List Nat
  clampAt  : Nat
  phases   : List (Nat × Nat)
  sensors  : List (Nat × (Int × Nat × Nat))
  hours    : List (Nat × Nat)
  failed   : Bool
  tripped  : Bool
  stage1Off : Bool
  wins     : List (List Nat)
  joules   : Nat
  capped   : List Nat
deriving DecidableEq, Repr

/-- Bring-up (R518 to R523): the nanosecond the bring-up began, the steps passed over as late (step, unit), whether
recovery lasts, the next partner port to ask, and the draw of the boot nonce (R388). -/
structure Boot where
  began    : Nat
  faults   : List (Nat × Nat)
  recovery : Bool
  askPort  : Nat
  nonce    : Nat
deriving DecidableEq, Repr

/-- The prospector (R527 to R534): series with a record, each with its newest slot and its filled slots (slot, value);
the steps committed; the request under way and the results of the last one done (series, no-record flag, forecasts);
the draw of its SEED; refusals of the transfer under way and the first one's reason; and for each series its earliest slot and its newest
slot when it last trained. -/
structure Pros where
  series   : List (Nat × (Nat × (List (Nat × Word))))
  request  : Option (Nat × Nat × Nat)
  results  : List (Nat × Bool × (List Word))
  origin   : Nat
  seed     : Nat
  refused  : Nat
  first    : Nat
  spans    : List (Nat × (Nat × Nat))
deriving DecidableEq, Repr

/-- A response of Bobel (R544): the values that the command prints, in order, its status (0 ok, 255 for text without a status line, or a code of Table
17.1), and the role and claim of the prompt that follows. -/
structure Printed where
  values   : List Nat
  err      : Nat
  role     : Nat
  claim    : Nat
deriving DecidableEq, Repr

/-- The monitor (R541 to R551): responses in order, a login under way (role, claim, nanosecond of its nonce), a rate
that waits for the end of the response, alerts already printed (page, nanosecond), and pages in FAULT announced. -/
structure Mon where
  out      : List Printed
  login    : Option (Nat × Nat × Nat)
  baudNext : Option (Nat × Source)
  alerts   : List (Nat × Nat)
  shown    : List (Nat × Nat)
deriving DecidableEq, Repr


/-- The state of the block. -/
structure State where
  pending : List Instr
  osc     : Nat
  fresh   : Nat
  powered : Bool
  tally   : Nat
  regs    : List (Nat × Word)
  sealWords : List (Nat × Word)
  mem     : List Host.Cell
  recorder : Recorder
  jobs    : List (Nat × Job)
  stopes  : List (Nat × Stope)
  mesh    : List Packet
  aged    : List (Nat × Stope)
  mill    : Mill
  fast    : Tier
  slow    : Tier
  sealing : SealCtl
  clock   : Clock
  gov     : Gov
  marks   : List (Nat × Mark)
  claims  : List (Nat × Claim)
  sess    : List (Nat × Sess)
  streams : List (Nat × Stream)
  pairs   : List (Nat × Pair)
  caps    : List (Nat × Capture)
  resp    : List (Nat × Resp)
  msi     : List (Nat × Msi)
  ports   : List (Nat × Port)
  casc    : Casc
  packs   : List (Nat × Pack)
  fw      : Fw
  vault   : Vault
  pwr     : Pwr
  boot    : Boot
  pros    : Pros
  mon     : Mon
deriving DecidableEq, Repr

/-- Why a step stops. -/
inductive Fault
  /-- Raised by every meaning whose command names a unit that the module does not have (WellFormed.lean). Safe: the
  hardware has no such unit, so no such event. -/
  | noSuchUnit
deriving DecidableEq, Repr

/-- Why a command has no meaning. -/
inductive Refusal
  /-- Raised by the dispatch alone, for a command not modelled yet. Safe. -/
  | notModelled (mnemonic : String)
deriving DecidableEq, Repr

/-! ### Values of units that nothing has touched since reset -/

/-- The values of an unlisted array (R396: nominal coefficients, erased cells; logs 3 and 4). -/
def Arr.idle : Arr :=
  { codes := [], wit12 := [], plan12 := false, announced := false, conv := [], convT := [], cell := [], cellT := []
    jump := true, fitted := false, fitDue := false, unfit := [], unfitWit := 0, stubborn := [], degraded := false
    closed := false, served := 0, quiet := false, amp := 4, writes := [], base := [], pulsed := [], refresh := []
    refreshE := 0, probes := [], probed := 0, interval := 60, effort := (0, 0, 0), assayed := false, assaying := false
    low := [], job := [], vec := none, allow := 0 }

/-- An unlisted stope. -/
def Stope.idle : Stope :=
  { arrs := [], queue := [], tile := none, drains := [], wide := none, allow := 0, lists := [], sides := []
    purpose := 0, copyFit := false, winAt := 0, outOf := 31, windows := [], roundAt := 0, lastAt := 0, tA := 0, tNow := 0, tStart := 0, due := false
    overdue := false, inSlot := false, changed := 0, sigma := 0, rho := 0, guard := 0
    range0Off := false, integ := 0, fails := 0, windowAt := 0, testOk := false, lastFail := 0, failAt := none, why := 0, testDue := false, overTest := false
    proposed := false, fenced := false, testing := false, testAt := 0, slotted := false
    prep := none, prepared := false, selfTest := false, replans := [], clearing := none, clearFail := false, railsOff := false, reliefHeld := false
    clamped := false, clampSlots := [], sensors := [], invalid := 0, routerAlone := false }

/-- A block that nothing has marked. -/
def Mark.none : Mark := { damaged := false, rebuild := false, lost := false, listed := false, pending := Option.none, waits := [] }

/-- A region without a mapping. -/
def Layout.empty : Layout := { maps := [], next := none }

/-- A claim as it is before its first APPLY. -/
def Claim.empty : Claim :=
  { opKey := [], keyDraw := 0, fast := Layout.empty, slow := Layout.empty, keys := false, applied := none, filling := false
    removed := [], added := [], command := 0, left := [], clrBlocks := 0, lostList := [], lostMore := false, jobKey := false }

/-- A source without a session. -/
def Sess.none : Sess :=
  { issued := 0, nonce := 0, role := 0, claim := 0, fresh := false, fails := [], blocked := 0, access := 0
    consents := [], cutOff := (0, 0) }

/-- An idle stream context. -/
def Stream.idle : Stream := { mode := 0, addr := 0, len := 0, passed := 0, seen := [], lap := [], object := [] }

/-- A source that has received no completion. -/
def Resp.none : Resp := { status := 0, data := 0, addr := 0 }

/-- A vector that has sent nothing. -/
def Msi.none : Msi := { sent := 0, last := 0, waits := false }

/-- A drift port that nothing has touched. -/
def Port.idle : Port :=
  { outq := [], txNext := 0, rxNext := 0, unacked := [], sends := [], sentAt := 0, ctl := [], buffered := [], flight := [], drr := [], downs := [], uncorr := 0
    changed := 0, identity := 0, follow := true, hops := 255, marks := 0, marker := [], wanted := 0, hello := 0, linkKey := [] }

/-- A member of which nothing is known. -/
def Peer.idle : Peer :=
  { info := 0, late := [], identity := 0, adj := [], missed := 0, ckpt := [], rejects := [], dropped := false, pub := [] }

/-- The machine right after reset: input applied, tally at the stored value plus one second (R167), empty queue, no
register word or memory byte written, no job, no session (logs 3 and 4). -/
def State.reset : State :=
  { pending := [], osc := 0, fresh := 1, powered := true, tally := 1000000000, regs := [], sealWords := [], mem := []
    recorder := { queue := [], ring := [], region := [], archive := [], damaged := [], buckets := [], pend := [], lost := 0, lostCodes := [], torn := none }
    jobs := [], stopes := [], mesh := [], aged := []
    mill := { queue := [], waiting := [], freezing := [], sending := [], hosting := [] }
    fast := { active := none, began := 0, waiting := [], rekey := none, runs := [], spare := 2 ^ 19 - 1, retired := [], scrub := 0, damage := [] }
    slow := { active := none, began := 0, waiting := [], rekey := none, runs := [], spare := 2 ^ 24 - 1, retired := [], scrub := 0, damage := [] }
    sealing := { phase := 0, slot := 0, verdict := 0, got := [], decision := none, standby := none, steps := [], heldSteps := []
                 upkeep := false, staged := false }
    clock := { refRun := 0, miss := 0, setPending := none, stored := 0, echoes := [], grid := none, rate := 0, frac := 0, marked := none }
    gov := { ovf := 0, slots := [] }
    marks := [], claims := [], sess := [], streams := [], pairs := [], caps := [], resp := [], msi := []
    ports := []
    casc := { roster := [], roles := [], routes := [], routeVer := 0, cands := [], heardEpoch := 0, headMove := none
              moves := [], losses := [], jobs := [], peers := [], sentSeq := [], gotSeq := []
              restarts := [], resent := [], hopFails := [], ready := [], steps := [], agree := 0, jobKeys := [], held := [], sent := [] }
    packs := []
    fw := { store := [], staging := false, staged := none
            running := { ver := 1, digest := 0, hash := 0, romMin := 1, handover := 65537, bytes := 0 }, old := none
            flash := { ver := 1, digest := 0, hash := 0, romMin := 1, handover := 65537, bytes := 0 }, flashOk := true
            reverting := false, phase := 0, lost := 0 }
    vault := { installer := [], stagedObj := [], ideKeys := [], consents := [], reports := [] }
    pwr := { mv := 72000, pCyc := 0, busMw := 0, eta1 := 1000, eta2 := 1000, ceiling := 2900, overCyc := 0
             overEst := 0, below := 0, causes := [], clampAt := 0, phases := [], sensors := [], hours := [], failed := false
             tripped := false, stage1Off := false, wins := [], joules := 0, capped := [] }
    boot := { began := 0, faults := [], recovery := false, askPort := 0, nonce := 0 }
    pros := { series := [], request := none, results := [], origin := 0, seed := 0, refused := 0, first := 0, spans := [] }
    mon := { out := [], login := none, baudNext := none, alerts := [], shown := [] }
  }

end Sys2Proof.Machine
end

