-- ==== Sys2Proof/WellFormed.lean ====
section
/-!
DEFINITION. Which commands name units that the module has: claims 0 to 63, physical stopes 0 to 1,055 (R18), logical
stopes 0 to 1,023 (R20), arrays 0 to 16 (R42), drift ports 0 to 11, host ports 0 and 1, converters and phases of
Table 1.1, and the landed pages of BAR0 (R423). A command that is not well formed ends in the fault
noSuchUnit. Addresses that a host or an operator chooses, and the numbers that an operator types on the monitor, are data: a command
with any of them runs (R455, log 86).
-/

namespace Sys2Proof

/-- Every unit that the command names exists. -/
def wellFormed : Instr → Bool
  | .idle c _ => decide (c < 64)
  | .idleEnd c _ => decide (c < 64)
  | .seamPass c _ => decide (c < 64)
  | .vectorRead p k => decide (p < 1056) && decide (k < 17)
  | .vectorReadDone p k _ => decide (p < 1056) && decide (k < 17)
  | .splitPartRead p k _ => decide (p < 1056) && decide (k < 17)
  | .chainPartial c _ _ _ _ => decide (c < 64)
  | .headCollarOutput c _ _ _ _ => decide (c < 64)
  | .rangeRecheck c _ _ _ => decide (c < 64)
  | .zeroVector p k => decide (p < 1056) && decide (k < 17)
  | .stashWrite c _ _ => decide (c < 64)
  | .spillComplete c _ _ => decide (c < 64)
  | .recomputeRun c _ => decide (c < 64)
  | .hewDx c _ => decide (c < 64)
  | .hewDw c _ => decide (c < 64)
  | .tileStart p => decide (p < 1056)
  | .leafEnd p _ _ => decide (p < 1056)
  | .partRootArrival c _ _ => decide (c < 64)
  | .tileDrain p _ => decide (p < 1056)
  | .hewerReliefTile c _ _ _ _ => decide (c < 64)
  | .wideOp c _ _ _ => decide (c < 64)
  | .send c _ => decide (c < 64)
  | .recv c _ => decide (c < 64)
  | .reduce c _ _ => decide (c < 64)
  | .millPush c _ => decide (c < 64)
  | .pushAccept c _ => decide (c < 64)
  | .setUpdate _ => true
  | .bridgeBlock c _ _ => decide (c < 64)
  | .sealLaunch => true
  | .verdict => true
  | .verdictArrival member _ => decide (member < 4096)
  | .verdictDeadline => true
  | .decisionHold _ _ => true
  | .decisionAck => true
  | .decisionReceive _ _ => true
  | .decisionDeadline => true
  | .sealCommit => true
  | .assaySlot c _ => decide (c < 64)
  | .assaySlotEnd c _ => decide (c < 64)
  | .testSlot c _ => decide (c < 64)
  | .testSlotEnd c _ ends => decide (c < 64) && ends.all (fun x => decide (x.1 < 1056))
  | .probeStep c => decide (c < 64)
  | .load _ => true
  | .start _ => true
  | .jobRunBegin c => decide (c < 64)
  | .stop _ => true
  | .swap _ => true
  | .unload _ => true
  | .abort _ _ => true
  | .govWindow _ _ => true
  | .markerSend => true
  | .tallyMarker port _ _ _ _ _ _ => decide (port < 12)
  | .markerLoss => true
  | .refPpsEdge _ => true
  | .ppsMissing => true
  | .refClkReject _ => true
  | .tallyStore => true
  | .tallySet _ _ => true
  | .gridSet _ _ => true
  | .gridTakesEffect => true
  | .queueWindow _ _ _ => true
  | .migrateStripe _ => true
  | .chanRetire _ stack _ => decide (stack < 8)
  | .slowStackRetire _ page _ => decide (page < 4)
  | .blockArrival way c _ _ => decide (way.src < 1056) && decide (way.dst < 1056) && decide (c < 64)
  | .scrubRead c _ _ => decide (c < 64)
  | .rebuildDone c _ => decide (c < 64)
  | .scrubPassEnd _ => true
  | .resync c _ => decide (c < 64)
  | .freezeDone c => decide (c < 64)
  | .ckptSendDone c => decide (c < 64)
  | .writeListBlock lp k => decide (lp < 1024) && decide (k < 17)
  | .seamQuiet lp k => decide (lp < 1024) && decide (k < 17)
  | .writeRowSide p k row _ _ _ _ => decide (p < 1056) && decide (k < 17) && decide (row < 512)
  | .reliefCopyDone p _ => decide (p < 1056)
  | .driftProbe p k group _ => decide (p < 1056) && decide (k < 17) && decide (group < 16)
  | .assayDue p _ => decide (p < 1056)
  | .assayOverdue p => decide (p < 1056)
  | .assayForce _ _ => true
  | .arrayAssay p k => decide (p < 1056) && decide (k < 17)
  | .arrayAssayDone p k _ => decide (p < 1056) && decide (k < 17)
  | .writeEffortReplan p k => decide (p < 1056) && decide (k < 17)
  | .ageingCopy => true
  | .laneFail port lane _ => decide (port < 12) && decide (lane < 5)
  | .eyeMeasure port lane _ => decide (port < 12) && decide (lane < 5)
  | .laneRetrain port lane _ _ => decide (port < 12) && decide (lane < 5)
  | .laneRetire _ port _ => decide (port < 12)
  | .tubReceive port _ => decide (port < 12)
  | .retry port _ => decide (port < 12)
  | .ackTimeout port => decide (port < 12)
  | .messageReceive port _ => decide (port < 12)
  | .staleRoleReply port _ _ => decide (port < 12)
  | .noticeSound _ => true
  | .noticeUnsound _ => true
  | .rosterCommit _ _ => true
  | .rosterReceive port _ => decide (port < 12)
  | .linkTrained port _ => decide (port < 12)
  | .hello port _ => decide (port < 12)
  | .authTimeout port => decide (port < 12)
  | .quarantineRetry port => decide (port < 12)
  | .candidate _ => true
  | .headframeElect => true
  | .join member _ _ => decide (member < 4096)
  | .admitMember member _ _ _ _ _ _ _ _ _ => decide (member < 4096)
  | .refuse _ => true
  | .joinRetry => true
  | .standbyTakeover _ => true
  | .headMove _ _ => true
  | .routeTable _ _ => true
  | .roleUpdate _ _ => true
  | .portDown port => decide (port < 12)
  | .uncorrWindow port _ => decide (port < 12)
  | .portDisable _ port _ => decide (port < 12)
  | .memberEvict _ _ => true
  | .restart _ _ => true
  | .imageFetchDone c _ => decide (c < 64)
  | .pendingReadAbort _ => true
  | .watchWindowEnd p => decide (p < 1056)
  | .testDue p => decide (p < 1056)
  | .testOverdue p => decide (p < 1056)
  | .reliefPrep p target _ => decide (p < 1056) && decide (target < 1056)
  | .reliefPrepDone p => decide (p < 1056)
  | .stopeRetire _ _ => true
  | .stopeTest _ _ => true
  | .fullTest _ _ => true
  | .canaryCommit _ _ => true
  | .canaryRemove _ _ => true
  | .captureRelease _ _ => true
  | .heartbeatLoss p => decide (p < 1056)
  | .coreTakeover _ => true
  | .routerTakeover p => decide (p < 1056)
  | .apply _ n _ => decide (n < 64)
  | .stripeFillDone n => decide (n < 64)
  | .bind _ n _ => decide (n < 64)
  | .destroy _ n _ => decide (n < 64)
  | .unbind _ n _ => decide (n < 64)
  | .wipe _ n _ => decide (n < 64)
  | .clearDone n => decide (n < 64)
  | .volatile _ n _ => decide (n < 64)
  | .sessReq _ _ => true
  | .sessProve _ _ => true
  | .sessEnd _ _ => true
  | .sessionIdle _ => true
  | .blockedEnd _ => true
  | .instEnrol _ _ => true
  | .instWithdraw _ _ => true
  | .attestReq _ _ => true
  | .attestReady _ => true
  | .makerGate _ _ => true
  | .diagOpen _ _ => true
  | .consentExpiry claim => decide (claim < 64)
  | .ideKeyCommit _ _ => true
  | .ideRequire _ _ => true
  | .stageBegin _ _ => true
  | .stageDiscard _ _ => true
  | .fwVerify => true
  | .fwCommit _ _ => true
  | .standbyBooted => true
  | .standbyBootTimeout => true
  | .pairCurrent => true
  | .probationEnd => true
  | .flashWriteDone _ => true
  | .fwRevert _ _ => true
  | .fuseBurn _ _ => true
  | .registerWrite _ _ _ _ => true
  | .guardPairOpen _ _ _ => true
  | .guardPairTimeout _ page => decide (page < 4096)
  | .complementWrite _ _ _ => true
  | .enableClear _ page => decide (page < 4096)
  | .enableSet _ page => decide (page < 4096)
  | .drainComplete page => decide (page < 4096)
  | .evtFlagClear _ page _ => decide (page < 4096)
  | .captureRead _ _ => true
  | .bitAliasWrite _ _ _ => true
  | .streamWriteStart _ page => decide (page < 4096)
  | .streamReadStart _ page => decide (page < 4096)
  | .streamAbandon _ page => decide (page < 4096)
  | .streamWindowWrite _ page _ _ _ => decide (page < 4096)
  | .streamWindowRead _ page _ => decide (page < 4096)
  | .streamReadTimeout _ page => decide (page < 4096)
  | .perst port => decide (port < 2)
  | .hotReset port => decide (port < 2)
  | .functionLevelReset port => decide (port < 2)
  | .linkUp port _ _ _ => decide (port < 2)
  | .hostLost port => decide (port < 2)
  | .d3hotEntry port => decide (port < 2)
  | .d0Return port => decide (port < 2)
  | .unsupportedRequest port _ _ => decide (port < 2)
  | .msiHoldoffEnd port vec => decide (port < 2) && decide (vec < 64)
  | .bindSet _ port _ => decide (port < 2)
  | .ideFail port sub => decide (port < 2) && decide (sub < 3)
  | .recordAdmit => true
  | .archiveSegment => true
  | .inputStateChange _ => true
  | .inputOver _ => true
  | .powerFail _ _ => true
  | .convFail k _ => decide (k < 12)
  | .convRetire _ _ => true
  | .spareRotate k _ => decide (k < 12)
  | .phaseFail k _ => decide (k < 102)
  | .phaseRetire _ _ => true
  | .sensorInvalid p ch => decide (p < 1056) && decide (ch < 8)
  | .sensorValid p ch => decide (p < 1056) && decide (ch < 8)
  | .mainsWindow _ => true
  | .thermalWarn cls inst _ => decide (cls < 8) && decide (inst < 1056)
  | .thermalClamp cls inst _ => decide (cls < 8) && decide (inst < 1056)
  | .thermalTrip cls inst _ => decide (cls < 8) && decide (inst < 1056)
  | .tripClear _ _ => true
  | .govBudget _ _ => true
  | .inputLimit _ _ => true
  | .powerOn => true
  | .bringupStep _ _ => true
  | .recoveryAsk => true
  | .recoveryImage _ => true
  | .deviceReset _ _ => true
  | .prospectClear _ _ => true
  | .seriesRecord _ => true
  | .fcCmd _ _ => true
  | .forecastDone _ => true
  | .commandLine _ _ _ => true
  | .help _ => true
  | .ver => true
  | .who => true
  | .login _ _ _ => true
  | .loginSignature _ => true
  | .loginTimeout => true
  | .loginEnd => true
  | .peek _ _ => true
  | .poke _ _ _ => true
  | .log _ _ _ => true
  | .tally => true
  | .assay _ _ => true
  | .monAssayForce _ => true
  | .canary => true
  | .monCanaryTest _ => true
  | .stope _ => true
  | .monStopeRetire _ => true
  | .drift _ => true
  | .monDriftDisable _ => true
  | .monDriftEnable _ => true
  | .power => true
  | .monPowerBudget _ => true
  | .breakCond => true
  | .baud _ _ => true
  | .alert page => decide (page < 4096)
  | .testComplete p _ => decide (p < 1056)
  | .linkDown port => decide (port < 2)
  | .perstRelease port => decide (port < 2)
  | .inputOverEnd => true
  | .thermalClampEnd cls inst _ => decide (cls < 8) && decide (inst < 1056)
  | .bringupStepLate _ => true

end Sys2Proof
end

