-- ==== Sys2Proof/Machine/Ops.lean ====
section
/-!
DEFINITION. The named operations over the state: register words and fields, claim memory, units by number, free values,
the tally, and the one way in which a command's effect becomes the outcome of a step.
-/

namespace Sys2Proof.Machine

/-- The outcome of a meaning. -/
abbrev Out := Host.Outcome State Fault Refusal

/-- A command's effect `t` on `s`: no part of the module operates while the input is absent (R15), and a command that
names no unit of the module is a fault. -/
def perform (i : Instr) (s t : State) : Out :=
  if wellFormed i then .next (if s.powered then t else s) else .fault .noSuchUnit

/-- The same for the commands that act while the module is without power (the return of the input). -/
def performAlways (i : Instr) (t : State) : Out :=
  if wellFormed i then .next t else .fault .noSuchUnit

/-- A piece of a command's effect that happens under a condition. -/
def State.on (s : State) (b : Bool) (f : State → State) : State := if b then f s else s

/-- Thread a state through a list. -/
def State.each {α : Type} (s : State) (l : List α) (f : State → α → State) : State := l.foldl f s

/-! ### Register words -/

/-- A register word by key. -/
def State.reg (s : State) (k : Nat) : Word := Sparse.get (resetWord k) s.regs k

/-- Write a register word by key. -/
def State.setReg (s : State) (k : Nat) (v : Word) : State := { s with regs := Sparse.set (resetWord k) s.regs k v }

/-- The visible word of a page, as a number. -/
def State.rd (s : State) (page off : Nat) : Nat := (s.reg (regKey 0 page off)).toNat

/-- Write the visible word of a page. -/
def State.wr (s : State) (page off v : Nat) : State := s.setReg (regKey 0 page off) (BitVec.ofNat 32 v)

/-- A word of a bank: the copies of the sources 0 to 2, the staged words of sealed pages (3), and the views of claim c
(16 + c). -/
def State.rdB (s : State) (bank page off : Nat) : Nat := (s.reg (regKey bank page off)).toNat

/-- Write a word of a bank. -/
def State.wrB (s : State) (bank page off v : Nat) : State := s.setReg (regKey bank page off) (BitVec.ofNat 32 v)

/-- The bank of a claim's view (R200, R232, R269). -/
abbrev claimBank (c : Nat) : Nat := 16 + c

/-- Replace bits [hi:lo] of a number. -/
def putBits (w hi lo v : Nat) : Nat := w - bits w hi lo * 2 ^ lo + v % 2 ^ (hi + 1 - lo) * 2 ^ lo

/-- A word whose bit i tells whether a test holds, for the first n numbers. -/
def bitWord (n : Nat) (f : Nat → Bool) : Nat := (List.range n).foldl (fun a i => if f i then a + 2 ^ i else a) 0

/-- A field of a visible word. -/
def State.fld (s : State) (page off hi lo : Nat) : Nat := bits (s.rd page off) hi lo

/-- Write a field of a visible word. -/
def State.setFld (s : State) (page off hi lo v : Nat) : State := s.wr page off (putBits (s.rd page off) hi lo v)

/-- Write a field of a word of a bank. -/
def State.setFldB (s : State) (bank page off hi lo v : Nat) : State :=
  s.wrB bank page off (putBits (s.rdB bank page off) hi lo v)

/-- A 64-bit quantity of a page (R7). -/
def State.rd64 (s : State) (page lo : Nat) : Nat := s.rd page lo + 2 ^ 32 * s.rd page (lo + 4)

/-- Write a 64-bit quantity. -/
def State.wr64 (s : State) (page lo v : Nat) : State := (s.wr page lo v).wr page (lo + 4) (v / 2 ^ 32)

/-- A 64-bit quantity of a bank. -/
def State.rd64B (s : State) (bank page lo : Nat) : Nat := s.rdB bank page lo + 2 ^ 32 * s.rdB bank page (lo + 4)

/-- Write a 64-bit quantity of a bank. -/
def State.wr64B (s : State) (bank page lo v : Nat) : State :=
  (s.wrB bank page lo v).wrB bank page (lo + 4) (v / 2 ^ 32)

/-! ### Claim memory (R202 to R206) -/

/-- The memory key of a claim-relative address. -/
def memKey (claim addr : Nat) : Nat := claim % 64 * 2 ^ 48 + addr % 2 ^ 48

/-- A byte of a claim's memory: a byte that nothing has written reads zero (R377: stripes are zero-filled). -/
def State.rdByte (s : State) (claim addr : Nat) : Byte := Sparse.get 0 s.mem (memKey claim addr)

/-- Write a byte of a claim's memory. -/
def State.wrByte (s : State) (claim addr : Nat) (v : Byte) : State :=
  { s with mem := Sparse.set 0 s.mem (memKey claim addr) v }

/-- n bytes from an address. -/
def State.rdBytes (s : State) (claim addr n : Nat) : List Byte :=
  (List.range n).map (fun i => s.rdByte claim (addr + i))

/-- The little-endian number of n bytes from an address (R7). -/
def State.rdNat (s : State) (claim addr n : Nat) : Nat := leNat (s.rdBytes claim addr n)

/-- Write bytes from an address. -/
def State.wrBytes (s : State) (claim addr : Nat) : List Byte → State
  | [] => s
  | b :: t => (s.wrByte claim addr b).wrBytes claim (addr + 1) t

/-- Write a little-endian number of n bytes. -/
def State.wrNat (s : State) (claim addr n v : Nat) : State := s.wrBytes claim addr (leBytes n v)

/-- Keep the bytes of memory at some keys; the others read zero. -/
def State.keepMem (s : State) (p : Nat → Bool) : State := { s with mem := s.mem.filter (fun e => p e.1) }

/-- Keep the register words at some keys; the others return to reset. -/
def State.keepRegs (s : State) (p : Nat → Bool) : State := { s with regs := s.regs.filter (fun e => p e.1) }

/-- Drop every byte of a claim's memory whose address lies in a range. -/
def State.zeroMem (s : State) (claim lo hi : Nat) : State :=
  s.keepMem (fun k => !(decide (memKey claim lo ≤ k) && decide (k < memKey claim 0 + hi)))

/-- Granted blocks of a claim in a tier; claim 0 owns what no claim has been granted (R210, chapter 16). -/
def State.grant (s : State) (c : Nat) (slow : Bool) : Nat :=
  if c = 0 then
    if slow then s.rd64 (Page.CLM 0) Reg.CLMT.SLOW_FREE_LO else s.rd64 (Page.CLM 0) Reg.CLMT.FAST_FREE_LO
  else if slow then s.rd64 (Page.CLM c) Reg.CLM.SLOW_GRANT_LO else s.rd64 (Page.CLM c) Reg.CLM.FAST_GRANT_LO

/-- Is an address of the fast or slow region within the claim's allocation (R204)? -/
def State.addrOk (s : State) (c addr n : Nat) : Bool :=
  let region := addr / 2 ^ 46
  let off := addr % 2 ^ 46
  (region == 0 && decide (off + n ≤ 4096 * s.grant c false)) || (region == 1 && decide (off + n ≤ 4096 * s.grant c true))

/-! ### Units by number -/

def State.job? (s : State) (c : Nat) : Option Job := (s.jobs.find? (fun e => e.1 == c)).map (·.2)

/-- Replace the job of a claim. -/
def State.setJob (s : State) (c : Nat) (j : Job) : State := { s with jobs := Sparse.place c j (Sparse.drop c s.jobs) }

/-- Change the job of a claim, if one is loaded. -/
def State.modJob (s : State) (c : Nat) (f : Job → Job) : State :=
  match s.job? c with
  | some j => s.setJob c (f j)
  | none => s

/-- Unload the job of a claim. -/
def State.dropJob (s : State) (c : Nat) : State := { s with jobs := Sparse.drop c s.jobs }

def State.stope (s : State) (p : Nat) : Stope := Sparse.get Stope.idle s.stopes p

def State.setStope (s : State) (p : Nat) (x : Stope) : State := { s with stopes := Sparse.set Stope.idle s.stopes p x }

def State.modStope (s : State) (p : Nat) (f : Stope → Stope) : State := s.setStope p (f (s.stope p))

/-- An array of a stope. -/
def Stope.arr (x : Stope) (k : Nat) : Arr := Sparse.get Arr.idle x.arrs k

def Stope.setArr (x : Stope) (k : Nat) (a : Arr) : Stope := { x with arrs := Sparse.set Arr.idle x.arrs k a }

def State.arr (s : State) (p k : Nat) : Arr := (s.stope p).arr k

def State.modArr (s : State) (p k : Nat) (f : Arr → Arr) : State :=
  s.modStope p (fun x => x.setArr k (f (x.arr k)))

def State.mark (s : State) (c addr : Nat) : Mark := Sparse.get Mark.none s.marks (memKey c addr / 4096)

def State.setMark (s : State) (c addr : Nat) (m : Mark) : State :=
  { s with marks := Sparse.set Mark.none s.marks (memKey c addr / 4096) m }

def State.claim (s : State) (c : Nat) : Claim := Sparse.get Claim.empty s.claims c

def State.modClaim (s : State) (c : Nat) (f : Claim → Claim) : State :=
  { s with claims := Sparse.set Claim.empty s.claims c (f (s.claim c)) }

def State.sessOf (s : State) (src : Source) : Sess := Sparse.get Sess.none s.sess src.num

def State.modSess (s : State) (src : Source) (f : Sess → Sess) : State :=
  { s with sess := Sparse.set Sess.none s.sess src.num (f (s.sessOf src)) }

/-- The key of a stream context or a guarded pair: one for each source and page. -/
def srcPage (src : Source) (page : Nat) : Nat := src.num * 4096 + page

def State.stream (s : State) (src : Source) (page : Nat) : Stream := Sparse.get Stream.idle s.streams (srcPage src page)

def State.setStream (s : State) (src : Source) (page : Nat) (x : Stream) : State :=
  { s with streams := Sparse.set Stream.idle s.streams (srcPage src page) x }

/-- Element of a list at an index, with a value for indices beyond it. -/
def nth {α : Type} (d : α) (l : List α) (i : Nat) : α := l.getD i d

/-- Replace an element of a list. -/
def setNth {α : Type} (l : List α) (i : Nat) (v : α) : List α := l.set i v

/-! ### Free values and time -/

/-- A free value of w bits (log 2): one that nothing constrains. -/
def State.draw (s : State) (w : Nat) : BitVec w := Config.freeBits w s.fresh

/-- The state after a draw. -/
def State.drawn (s : State) : State := { s with fresh := s.fresh + 1 }

/-- Is the tally disciplined (R164)? -/
def State.disciplined (s : State) : Bool :=
  let src := s.fld Page.TAL Reg.TAL.STATUS 2 0
  src == 1 || src == 2

/-- Period, origin and seal window of the grid in force (R172). -/
def State.period (s : State) : Nat := s.rd64 Page.HOI Reg.HOI.PERIOD_LO
def State.origin (s : State) : Nat := s.rd64 Page.HOI Reg.HOI.ORIGIN_LO
def State.sealW (s : State) : Nat := s.rd Page.HOI Reg.HOI.SEAL_W

/-- Number of the step slot under way (R172). -/
def State.slotNo (s : State) : Nat := if s.period = 0 then 0 else (s.tally - s.origin) / s.period

/-- Origin of the step slot under way. -/
def State.slotOrigin (s : State) : Nat := s.origin + s.slotNo * s.period

/-- The member's number, 0xFFF while it has none. -/
def State.memberNo (s : State) : Nat := s.fld Page.CAS Reg.CAS.STATE 27 16

/-- An allowance grows by the ratio of its field in each of the 1.25 cycles of a nanosecond, up to the full 65,536 cycles (R194).
Allowances are kept as their distance below the full one, in 1/256 of a cycle. -/
def growth (allow : Int) (ratio : Nat) : Int := min 0 (allow + (5 * ratio : Nat))

/-- Allowances of a stope grow at the ratios in force; the rows that R497 names take at most 40/64, and those of a clamped stope
stay at zero (R507). -/
def Stope.grow (x : Stope) (capped : Bool) (ah az : Nat) : Stope :=
  let cap := if capped then 40 else 64
  if x.clamped then x
  else
    { x with
      allow := growth x.allow (min cap ah)
      arrs := (x.arrs.map (fun e => (e.1, { e.2 with allow := growth e.2.allow (min cap az) }))).filter (fun e => decide (e.2 ≠ Arr.idle)) }

/-- Allowances of the whole module grow for a nanosecond. -/
def State.growAllow (s : State) : State :=
  let w := s.rd Page.HOI Reg.HOI.GOV_STATE
  let grown := s.stopes.map (fun e => (e.1, e.2.grow (s.pwr.capped.contains (e.1 / 33)) (bits w 6 0) (bits w 14 8)))
  { s with stopes := grown.filter (fun e => decide (e.2 ≠ Stope.idle)) }

/-- A whole second of operation ends: OPSEC counts it (R470), the converters that carry load have one more second under load (R494),
and ENERGY takes the input energy measured since (R514). -/
def State.secondEnds (s : State) : State :=
  let m := s.fld Page.PWR Reg.PWR.CONV_MAP 23 12
  let loaded := (List.range 12).filter (fun k => bit m k)
  let hours := loaded.foldl (fun l k => Sparse.set 0 l k (Sparse.get 0 l k + 1)) s.pwr.hours
  let s1 := { s with pwr := { s.pwr with hours := hours, joules := s.pwr.joules % 1000000000000 } }
  let s2 := s1.wr64 Page.PWR Reg.PWR.ENERGY_LO (s.rd64 Page.PWR Reg.PWR.ENERGY_LO + s.pwr.joules / 1000000000000)
  s2.wr Page.DEV Reg.DEV.OPSEC (s2.rd Page.DEV Reg.DEV.OPSEC + 1)

/-- One nanosecond passes: without input power nothing operates (R15) and only the time itself advances; with it the tally
counts the oscillator at the corrected rate (R163), the allowances of hewers and seams grow (R194), and each whole second ends
(R470). -/
def State.tick (s : State) : State :=
  if !s.powered then { s with osc := s.osc + 1 }
  else
    let x := (s.clock.frac : Int) + 1000000000 + s.clock.rate
    let s1 := { s with osc := s.osc + 1, tally := s.tally + (x / 1000000000).toNat
                       clock := { s.clock with frac := (x % 1000000000).toNat } }
    s1.growAllow.on (s1.osc % 1000000000 == 0) State.secondEnds

end Sys2Proof.Machine
end

