-- ==== Sys2Proof/Machine/Mesh.lean ====
section
/-!
DEFINITION. The mesh (R21 to R25) and the landing credits of the stopes (R351): the routers that a packet passes, the order in
which packets of one source, destination and plane arrive, and the row at which relay traffic enters the fast tier.
-/

namespace Sys2Proof.Machine

/-- Numbers from a to b, stepwise up or down, a itself left out. -/
def steps (a b : Nat) : List Nat :=
  if a ≤ b then (List.range (b - a)).map (fun i => a + 1 + i) else (List.range (a - b)).map (fun i => a - 1 - i)

/-- The routers on the way from one stope to another, both included: along the row to the destination's column, then along
that column (R23). -/
def meshRoute (src dst : Nat) : List Nat :=
  src :: ((steps (src % 33) (dst % 33)).map (fun c => src / 33 * 33 + c) ++
    (steps (src / 33) (dst / 33)).map (fun r => r * 33 + dst % 33))

/-- The row whose rail relay traffic enters: bits [16:12] of the block's claim-relative address (R25). -/
def relayRow (addr : Nat) : Nat := bits addr 16 12

/-- The rail stop of a column at which a relayed block leaves the mesh (R25). -/
def relayStop (addr col : Nat) : Nat := relayRow addr * 33 + col % 33

/-- The router that hands a packet on to hop number `hop` of its route, the source itself for the first. -/
def sendingRouter (src dst hop : Nat) : Nat := (meshRoute src dst).getD (hop - 1) dst

/-- Credits that a landing area grants (R351). -/
abbrev landingCredits : Nat := 64

/-- Landing credits of a stope in use: one for each block under way to its landing area or held there. Blocks of write lists
go to the write channels and take none. -/
def State.creditsUsed (s : State) (p : Nat) : Nat :=
  (s.mesh.filter (fun q => q.dst == p && q.kind != 2 && decide (1 ≤ q.phase))).foldl (fun a q => a + q.blocks) 0

/-- Packets that wait for credits of their stope take them in arrival order (R351); the first that finds too few stops those
behind it. -/
def grantFrom (dst : Nat) : (free : Nat) → List Packet → List Packet
  | _, [] => []
  | free, q :: t =>
    if q.dst ≠ dst ∨ q.kind = 2 ∨ q.phase ≠ 0 then q :: grantFrom dst free t
    else if q.blocks ≤ free then { q with phase := 1 } :: grantFrom dst (free - q.blocks) t
    else q :: t

/-- Credits of a stope go to the packets that wait for them. -/
def State.meshGrant (s : State) (p : Nat) : State :=
  { s with mesh := grantFrom p (landingCredits - s.creditsUsed p) s.mesh }

/-- A producer hands a packet to the mesh: under way at once where credits are free or none is needed, otherwise waiting. -/
def State.meshSend (s : State) (q : Packet) : State :=
  if q.kind = 2 then { s with mesh := s.mesh ++ [{ q with phase := 1 }] }
  else ({ s with mesh := s.mesh ++ [{ q with phase := 0 }] }).meshGrant q.dst

/-- May a packet arrive now: it is under way, and none of its source, destination and plane that was sent before it still is
(R23)? -/
def State.mayArrive (s : State) (q : Packet) : Bool :=
  (s.mesh.find? (fun x => x.plane == q.plane && x.src == q.src && x.dst == q.dst && x.phase == 1)) == some q

/-- The first packet of a kind with a tag that is under way. -/
def State.meshFind (s : State) (claim entry kind : Nat) (tag : List Nat) : Option Packet :=
  s.mesh.find? (fun q => q.claim == claim && q.entry == entry && q.kind == kind && q.tag == tag && q.phase == 1)

/-- A packet lands: it holds its credits until its blocks are released or discarded. A block of a write list is taken at
once. -/
def State.meshLand (s : State) (q : Packet) : State :=
  if q.kind = 2 then { s with mesh := s.mesh.erase q }
  else { s with mesh := s.mesh.map (fun x => if x == q then { q with phase := 2 } else x) }

/-- Packets are released or discarded: their credits return to their stopes (R351). -/
def State.meshDrop (s : State) (f : Packet → Bool) : State :=
  let ps := ((s.mesh.filter f).map (·.dst)).eraseDups
  ({ s with mesh := s.mesh.filter (fun q => !f q) }).each ps (fun u p => u.meshGrant p)

end Sys2Proof.Machine
end

