-- ==== Sys2Proof/Machine/Flags.lean ====
section
/-!
DEFINITION. Event flags, interrupts, statistics counters and records: the shared ways in which a command shows what
happened (R72, R430, R433, R458, R468 to R474).
-/

namespace Sys2Proof.Machine

/-! ### Interrupts -/

/-- The MSI-X vector of a landed page (Table 13.3). -/
def vectorOf (page : Nat) : Nat :=
  match pageType page with
  | .dev => 0 | .tal => 1 | .hp => page | .rol => page | .rol3 => page | .ftc => page | .mil => page | .drf => page
  | .cas => 32 | .hoi => 33 | .int => 34 | .asy => 35 | .recorder => 36 | .pwr => 37 | .sns => 38 | .mon => 39
  | .pro => 40 | .dep => 41 | .clmt => 42 | .clm => 43 | .stm => 44 | .stp => 45 | .stx => 46

/-- May a port send MSI-X messages: link up, Bus Master Enable and MSI-X Enable set (R456, R458)? -/
def State.msiOpen (s : State) (port : Nat) : Bool :=
  let w := s.rd (Page.HP port) Reg.HP.LINK_STATE
  bits w 1 0 == 2 && bit w 15 && bit w 16

def State.msiOf (s : State) (port vec : Nat) : Msi := Sparse.get Msi.none s.msi (port * 64 + vec)

def State.setMsi (s : State) (port vec : Nat) (m : Msi) : State :=
  { s with msi := Sparse.set Msi.none s.msi (port * 64 + vec) m }

/-- Send a vector's message, or let it wait for the end of the holdoff (R458). -/
def State.sendMsi (s : State) (port vec : Nat) : State :=
  let m := s.msiOf port vec
  let hold := s.fld (Page.HP port) Reg.HP.MSI_HOLDOFF 9 0 * 1000
  if m.sent ≠ 0 ∧ s.osc < m.last + hold then s.setMsi port vec { m with waits := true }
  else if s.msiOpen port then s.setMsi port vec { sent := m.sent + 1, last := s.osc, waits := false }
  else s.setMsi port vec { m with waits := true }

/-- Latch events of a page in one source's copy (R433); a rise of an enabled bit sends the port's message. -/
def State.latch (s : State) (bank page evs : Nat) : State :=
  let old := s.rdB bank page Reg.HDR.EVT_FLAG
  let en := s.rdB bank page Reg.HDR.EVT_ENABLE
  let new := old ||| evs
  let s1 := s.wrB bank page Reg.HDR.EVT_FLAG new
  s1.on (decide (bank < 2) && decide ((new &&& en) ≠ (old &&& en))) (fun u => u.sendMsi bank (vectorOf page))

/-- Conditions of a page that have arisen: EVT_RAW shows those of them that are live (R428, log 6). -/
def State.noteLive (s : State) (page evs : Nat) : State :=
  s.wr page Reg.HDR.EVT_RAW (s.rd page Reg.HDR.EVT_RAW ||| evs % 2 ^ 27)

/-- Latch an event bit in the copies of every source (R433). -/
def State.raise (s : State) (page evBit : Nat) : State :=
  (((s.latch 0 page (2 ^ evBit)).latch 1 page (2 ^ evBit)).latch 2 page (2 ^ evBit)).noteLive page (2 ^ evBit)

/-- Latch an event bit in the copy of one source (Table 12.8). -/
def State.raiseFor (s : State) (src : Source) (page evBit : Nat) : State := s.latch src.num page (2 ^ evBit)

/-! ### Records -/

/-! Unit codes of Table 14.2. -/
namespace Src
abbrev deputy : Nat := 0
abbrev stope (p : Nat) : Nat := 0x1000 + p
abbrev fast (n : Nat) : Nat := 0x2000 + n
abbrev mill (n : Nat) : Nat := 0x3000 + n
abbrev drift (n : Nat) : Nat := 0x4000 + n
abbrev host (n : Nat) : Nat := 0x5000 + n
abbrev power (n : Nat) : Nat := 0x6000 + n
abbrev cascade (n : Nat) : Nat := 0x7000 + n
abbrev monitor : Nat := 0x8000
end Src

/-- An unsigned payload item of 4 or 8 bytes (R469; the sizes are the model's, log 7). -/
def it (id v : Nat) : Item := { id := id, kind := 0, size := if v < 2 ^ 32 then 4 else 8, val := v }

/-- A signed payload item. -/
def itS (id : Nat) (v : Int) : Item := { id := id, kind := 1, size := 8, val := unsigned 64 v }

/-- A payload item of bytes. -/
def itB (id : Nat) (l : List Byte) : Item := { id := id, kind := 3, size := l.length, val := leNat l }

/-- A payload item that holds a SHA-384 value. -/
def itH (id : Nat) (h : Hash) : Item := { id := id, kind := 3, size := 48, val := h.toNat }

/-- Payload items of consecutive identifiers from 1 (R469). -/
def items (l : List Nat) : List Item := (List.range l.length).zip l |>.map (fun x => it (x.1 + 1) x.2)

/-- Is a code security-class (R473)? -/
def securityCode (code : Nat) : Bool :=
  code / 0x1000 == 8 || [0x0201, 0x0202, 0x6003, 0x6004, 0x600C, 0x700D, 0x700E, 0x700F, 0xA004, 0xA005, 0xB005].contains code

/-- Has the admission queue a place for a record (R474): 4,096 places, of which 256 are kept for security-class records? -/
def Recorder.hasPlace (q : Recorder) (code : Nat) : Bool :=
  let sec := (q.queue.filter (fun r => securityCode r.code)).length
  securityCode code || decide (q.queue.length - sec + max 256 sec < 4096)

/-- Hand a record to the admission queue (R474); a record that finds no place is withheld and counted. -/
def State.enqueue (s : State) (r : Rec) : State :=
  let q := s.recorder
  if q.hasPlace r.code then
    let s1 := { s with recorder := { q with queue := q.queue ++ [r] } }
    s1.setFld Page.REC Reg.REC.QUEUE 12 0 (min 8191 (q.queue.length + 1))
  else
    let n := Sparse.get 0 q.pend r.code
    let s1 := { s with recorder := { q with
      pend := Sparse.set 0 q.pend r.code (n + 1), lost := q.lost + 1
      lostCodes := if q.lostCodes.contains r.code then q.lostCodes else q.lostCodes ++ [r.code] } }
    s1.wr64 Page.REC Reg.REC.SUPPRESSED_LO (s1.rd64 Page.REC Reg.REC.SUPPRESSED_LO + 1)

/-- A record that no session caused (R468). -/
def State.record (s : State) (code unit : Nat) (claim : Option Nat) (l : List Item) : State :=
  s.enqueue { code := code, unit := unit, role := 0, source := 3, claim := claim
              tai := if s.disciplined then s.tally else 0, items := l, hidden := [], maker := [] }

/-- Role code of the session that a source holds: 0 none, 1 operator, 2 installer, 3 maker (Table 11.11). -/
def State.roleOf (s : State) (src : Source) : Nat :=
  let w := s.rd (Page.ROL src.num) Reg.ROL.SESS_STATE
  if bits w 1 0 == 2 then bits w 5 4 else 0

/-- Claim of the operator session that a source holds. -/
def State.sessClaim (s : State) (src : Source) : Nat :=
  bits (s.rd (Page.ROL src.num) Reg.ROL.SESS_STATE) 13 8

/-- A record caused by a source's session. -/
def State.recordBy (s : State) (src : Source) (code unit : Nat) (claim : Option Nat) (l : List Item) : State :=
  s.enqueue { code := code, unit := unit, role := s.roleOf src, source := src.num, claim := claim
              tai := if s.disciplined then s.tally else 0, items := l, hidden := [], maker := [] }

/-- A record with a sealed part (R358). -/
def State.recordSealed (s : State) (code unit : Nat) (claim : Nat) (l hidden : List Item) : State :=
  s.enqueue { code := code, unit := unit, role := 0, source := 3, claim := some claim
              tai := if s.disciplined then s.tally else 0, items := l, hidden := hidden, maker := [] }

/-- The claim of register events (R451): the session's claim for an operator session, otherwise claim 0. -/
def State.accessClaim (s : State) (src : Source) : Nat := if s.roleOf src == 1 then s.sessClaim src else 0

/-- A record of a register access (R451). -/
def State.accessRec (s : State) (src : Source) (code page off : Nat) (l : List Item) : State :=
  s.recordBy src code Src.deputy (some (s.accessClaim src)) (l ++ [it 0xF5 src.num, it 0xF6 page, it 0xF7 off])

/-! ### Function states (R430) -/

/-- Change a page's function state: sets STATE_CHANGE and records event 0x0106; entering FAULT also sends vector 63
on both ports (R458). -/
def State.setFn (s : State) (page st : Nat) : State :=
  let old := s.fld page Reg.HDR.STATUS 31 28
  if old = st then s
  else
    let s1 := ((s.setFld page Reg.HDR.STATUS 31 28 st).raise page 27).record 0x0106 Src.deputy none
      (items [old, st] ++ [it 0xF6 page, it 0xF7 Reg.HDR.STATUS])
    s1.on (st == 4) (fun u => (u.sendMsi 0 63).sendMsi 1 63)

/-- Function state of a page (Table 12.6). -/
def State.fn (s : State) (page : Nat) : Nat := s.fld page Reg.HDR.STATUS 31 28

/-- The drain of a DRAINING page is complete (R432): OFF, or through STARTING to ON where ENABLE was set meanwhile. -/
def State.endDrain (s : State) (page : Nat) : State :=
  if s.fn page ≠ 3 then s
  else if bit (s.rd page Reg.HDR.CONTROL) 0 then (s.setFn page 1).setFn page 2
  else s.setFn page 0

/-! ### Statistics counters (R72) -/

/-- How a page shows that a counter stuck: offset of CTR_OVF, bit of the CTR_OVF event, code of the record. -/
structure CtrPage where
  ovf  : Nat
  ev   : Nat
  code : Nat
deriving DecidableEq, Repr

/-- The CTR_OVF register, event bit and stuck code of each page type. -/
def ctrPage : PType → CtrPage
  | .stp => ⟨Reg.STP.CTR_OVF, 5, 0x1007⟩
  | .stx => ⟨Reg.STX.CTR_OVF, 2, 0x1007⟩
  | .tal => ⟨Reg.TAL.CTR_OVF, 4, 0x500C⟩
  | .hoi => ⟨Reg.HOI.CTR_OVF, 5, 0x500C⟩
  | .ftc => ⟨Reg.FTC.CTR_OVF, 6, 0x3009⟩
  | .mil => ⟨Reg.MIL.CTR_OVF, 6, 0x400A⟩
  | .asy => ⟨Reg.ASY.CTR_OVF, 7, 0x101A⟩
  | .drf => ⟨Reg.DRF.CTR_OVF, 5, 0x600F⟩
  | .cas => ⟨Reg.CAS.CTR_OVF, 6, 0x600F⟩
  | .int => ⟨Reg.INT.CTR_OVF, 11, 0x7014⟩
  | .dep => ⟨Reg.DEP.CTR_OVF, 6, 0x8014⟩
  | .stm => ⟨Reg.STM.CTR_OVF, 31, 0⟩
  | .hp => ⟨Reg.HP.CTR_OVF, 5, 0xA007⟩
  | .pwr => ⟨Reg.PWR.CTR_OVF, 5, 0x900B⟩
  | .sns => ⟨Reg.SNS.CTR_OVF, 3, 0x900B⟩
  | .dev => ⟨Reg.DEV.CTR_OVF, 4, 0xB006⟩
  | .pro => ⟨Reg.PRO.CTR_OVF, 3, 0xB006⟩
  | .mon => ⟨Reg.MON.CTR_OVF, 3, 0xB013⟩
  | _ => ⟨0, 31, 0⟩

/-- Unit code of the page at which a counter stands (Table 14.2). -/
def pageUnit (page : Nat) : Nat :=
  let i := page - (pageType page).base
  match pageType page with
  | .ftc => Src.fast i
  | .mil => Src.mill i
  | .drf => Src.drift i
  | .hp => Src.host i
  | .pwr => Src.power 0
  | .sns => Src.power 0
  | .cas => Src.cascade 0
  | .mon => Src.monitor
  | .stx => Src.stope i
  | _ => Src.deputy

/-- The fields that the stuck-counter record of a page names (Tables 2.10, 3.8, 5.11, 6.8, 7.11, 8.6 and those of the later
chapters): the page type code, the instance, the page or none, and then the counter's offset. -/
def stuckFields (page off : Nat) : List Nat :=
  let t := pageType page
  match t with
  | .stp => [t.code, off]
  | .stx => [t.code, off]
  | .tal => [t.code, off]
  | .hoi => [t.code, off]
  | .mil => [page - t.base, off]
  | .hp => [page - t.base, off]
  | .asy => [off]
  | .int => [off]
  | .dep => [off]
  | .mon => [off]
  | _ => [page, off]

/-- What the records of a page carry beside the further payload: the stope numbers of a stope's (R70, R120), for a counter of page
STP or STX, and the set index of the mill's (R268), 0xFFF for a counter of no one set (log 78). -/
def State.stuckStope (s : State) (page : Nat) : List Item :=
  match pageType page with
  | .stp => [it 0xF0 (page - 0x400), it 0xF1 (s.fld page Reg.STP.STOPE_MAP 10 0)]
  | .stx => [it 0xF0 (s.fld page Reg.STX.STOPE_ROLE 26 16), it 0xF1 (page - 0x800)]
  | .mil => [it 0xF4 0xFFF]
  | _ => []

/-- A counter of a page has just reached its maximum: its CTR_OVF bit, the event once, and the record. -/
def State.stuckFor (s : State) (claim : Option Nat) (page off ovfBit : Nat) : State :=
  let c := ctrPage (pageType page)
  let s1 := s.wr page c.ovf (s.rd page c.ovf ||| 2 ^ ovfBit)
  let s2 := s1.on (decide (c.ev < 27)) (fun u => u.raise page c.ev)
  s2.on (decide (c.code ≠ 0)) (fun u => u.record c.code (pageUnit page) claim (items (stuckFields page off) ++ u.stuckStope page))

/-- The same for a counter that counts for no claim. -/
def State.stuck (s : State) (page off ovfBit : Nat) : State := s.stuckFor none page off ovfBit

/-- Add to a 32-bit statistics counter (R72). -/
def State.count (s : State) (page off ovfBit n : Nat) : State :=
  let old := s.rd page off
  let new := min 0xFFFFFFFF (old + n)
  let s1 := s.wr page off new
  s1.on (decide (old < 0xFFFFFFFF) && decide (new = 0xFFFFFFFF)) (fun u => u.stuck page off ovfBit)

/-- Add to a 64-bit statistics counter (R72). -/
def State.count64 (s : State) (page off ovfBit n : Nat) : State :=
  let old := s.rd64 page off
  let new := min (2 ^ 64 - 1) (old + n)
  let s1 := s.wr64 page off new
  s1.on (decide (old < 2 ^ 64 - 1) && decide (new = 2 ^ 64 - 1)) (fun u => u.stuck page off ovfBit)

/-- Add to a 32-bit counter of a claim's view. -/
def State.countB (s : State) (c page off ovfBit n : Nat) : State :=
  let old := s.rdB (claimBank c) page off
  let new := min 0xFFFFFFFF (old + n)
  let s1 := s.wrB (claimBank c) page off new
  s1.on (decide (old < 0xFFFFFFFF) && decide (new = 0xFFFFFFFF)) (fun u => u.stuckFor (some c) page off ovfBit)

/-- The bank of the words and events that a sealed page shows from the next seal on (R71, R73). -/
abbrev stagedBank : Nat := 3

/-- Stage events of a sealed page. -/
def State.stageEvent (s : State) (page evBit : Nat) : State :=
  s.wrB stagedBank page Reg.HDR.EVT_FLAG (s.rdB stagedBank page Reg.HDR.EVT_FLAG ||| 2 ^ evBit)

/-- A sealed counter of page STP has reached its maximum (R72): its CTR_OVF bit and event, which show at the seal, and the
record of the stope, with the claim that owns it. -/
def State.stuckSealed (s : State) (page off ovfBit : Nat) : State :=
  let s1 := (s.wrB stagedBank page Reg.STP.CTR_OVF (s.rdB stagedBank page Reg.STP.CTR_OVF ||| 2 ^ ovfBit)).stageEvent page 5
  s1.record (if off < 0x180 then 0x1007 else 0x2007) (Src.stope (s.fld page Reg.STP.STOPE_MAP 10 0))
    (some (s.fld page Reg.HDR.PAGE_CLAIM 5 0)) (items (stuckFields page off) ++ s.stuckStope page)

/-- Add to a 32-bit counter that changes only at seals (R71, R121). -/
def State.countSealed (s : State) (page off ovfBit n : Nat) : State :=
  let old := s.rdB stagedBank page off
  let new := min 0xFFFFFFFF (old + n)
  let s1 := s.wrB stagedBank page off new
  s1.on (decide (old < 0xFFFFFFFF) && decide (new = 0xFFFFFFFF)) (fun u => u.stuckSealed page off ovfBit)

/-- Add to a 64-bit counter that changes only at seals. -/
def State.countSealed64 (s : State) (page off ovfBit n : Nat) : State :=
  let old := s.rd64B stagedBank page off
  let new := min (2 ^ 64 - 1) (old + n)
  let s1 := s.wr64B stagedBank page off new
  s1.on (decide (old < 2 ^ 64 - 1) && decide (new = 2 ^ 64 - 1)) (fun u => u.stuckSealed page off ovfBit)

end Sys2Proof.Machine
end

