-- ==== Sys2Proof/Machine/Operands.lean ====
section
/-!
DEFINITION. Register access as every page shares it: who may read and write what (R385 to R387, Tables 11.3 and 11.4),
reserved encodings (R11), forbidden and ineffective access (R449), and the wrappers through which a command that is a
register write takes effect.
-/

namespace Sys2Proof.Machine

/-! ### Who holds what -/

/-- State code of a claim (Table 11.1); claim 0 shows OPEN (R375). -/
def State.claimState (s : State) (c : Nat) : Nat :=
  if c = 0 then 2 else s.fld (Page.CLM c) Reg.CLM.CLAIM_STATE 2 0

/-- The numbers of the claims 1 to 63. -/
def claimNos : List Nat := (List.range 63).map (· + 1)

/-- No operator claim exists: claims 1 to 63 are all EMPTY (R527). -/
def State.noOperatorClaim (s : State) : Bool := claimNos.all (fun c => s.claimState c == 0)

/-- The claim that owns a logical stope. -/
def State.ownerOf (s : State) (lp : Nat) : Nat := s.fld (Page.STP lp) Reg.HDR.PAGE_CLAIM 5 0

/-- The physical stope that serves a logical stope, 0x7FF for none (R20, R357). -/
def State.serving (s : State) (lp : Nat) : Nat := s.fld (Page.STP lp) Reg.STP.STOPE_MAP 10 0

/-- The logical stope that a physical stope serves, if any. -/
def State.logicalOf (s : State) (p : Nat) : Option Nat :=
  let w := s.rd (Page.STX p) Reg.STX.STOPE_ROLE
  let l := bits w 26 16
  if l < 1024 then (if s.serving l = p then some l else none) else none

/-- The claim that a physical stope serves: the owner of its logical stope, claim 0 where it serves none. -/
def State.claimServed (s : State) (p : Nat) : Nat :=
  match s.logicalOf p with
  | some l => s.ownerOf l
  | none => 0

/-- May the session of a source reach only headers and the ROL pages: an operator session on the monitor (R387)? -/
def State.headerOnly (s : State) (src : Source) : Bool := src == .monitor && s.roleOf src == 1

/-! ### Rights (Table 11.3, Table 11.4) -/

/-- Does the source read page words beyond the header? -/
def State.pageReadable (s : State) (src : Source) (page : Nat) : Bool :=
  let r := s.roleOf src
  let own (c : Nat) : Bool := r == 1 && s.sessClaim src == c
  match pageType page with
  | .rol => true
  | .rol3 => true
  | t =>
    if s.headerOnly src then false
    else
      match t with
      | .dev => true
      | .tal => true
      | .mon => r == 2 || r == 3
      | .pro => r == 2 || r == 3 || s.noOperatorClaim
      | .dep => r != 0
      | .clmt => r == 2 || r == 3
      | .clm => r == 2 || r == 3 || own (page - 0x40)
      | .stm => own (page - 0x100) || (r == 2 && page == 0x100)
      | .stp => r == 2 || r == 3 || own (s.ownerOf (page - 0x400))
      | .stx => r == 2 || r == 3 || own (s.claimServed (page - 0x800))
      | _ => r != 0

/-- Registers of Table 11.4 that every session which may read the page may write. -/
def selectionReg (page off : Nat) : Bool :=
  match pageType page with
  | .mil => off == Reg.MIL.SET_SELECT
  | .asy => off == Reg.ASY.SELECT
  | .cas => off == Reg.CAS.ROLE_SELECT || off == Reg.CAS.MEMBER_SELECT
  | .int => off == Reg.INT.STOPE_SELECT || off == Reg.INT.PACK_SELECT
  | _ => false

/-- The claim-view registers of Table 11.4. -/
def claimViewReg (page off : Nat) : Bool :=
  match pageType page with
  | .hoi => off == Reg.HOI.JOB_SELECT
  | .ftc => off == Reg.FTC.CLAIM_SELECT
  | .mil => off == Reg.MIL.CLAIM_SELECT
  | .int => off == Reg.INT.CLAIM_SELECT
  | _ => false

/-- May the source read the word? Words 0x000 to 0x024 can be read by every source (R385). -/
def State.mayRead (s : State) (src : Source) (page off : Nat) : Bool := decide (off < 0x28) || s.pageReadable src page

/-- Is an installer enrolled (R373)? -/
def State.enrolled (s : State) : Bool := bit (s.rd (Page.ROL 3) Reg.ROL3.ENROL_STATE) 0

/-- May a source stage an object of a kind on ROL 3 (R373, R386, R407)? -/
def State.mayStage (s : State) (src : Source) (kind : Nat) : Bool :=
  let r := s.roleOf src
  match kind with
  | 0 => true
  | 4 => true
  | 1 => !s.enrolled || r == 2
  | 2 => r == 2
  | 3 => r == 2 || r == 3
  | _ => false

/-- Kind staged by a source (R417). -/
def State.stageKind (s : State) (src : Source) : Nat := bits (s.rdB src.num (Page.ROL 3) Reg.ROL3.STAGE_KIND) 2 0

/-- May the source use the stream window and the stream registers of the page (right S)? -/
def State.mayStream (s : State) (src : Source) (page : Nat) : Bool :=
  let r := s.roleOf src
  match pageType page with
  | .rol => page == Page.ROL src.num
  | .rol3 => s.mayStage src (s.stageKind src)
  | t =>
    if s.headerOnly src then false
    else
      match t with
      | .hoi => r == 1
      | .int => r == 2
      | .cas => r == 2
      | .recorder => r != 0
      | .pro => r == 2 || r == 3 || s.noOperatorClaim
      | .dep => r == 2
      | .clm => r == 2
      | .stm => (r == 1 && s.sessClaim src == page - 0x100) || (r == 2 && page == 0x100)
      | _ => false

/-- May the source write an RW, WO or W1C word (right W and Table 11.4)? -/
def State.mayWrite (s : State) (src : Source) (page off v : Nat) : Bool :=
  let r := s.roleOf src
  if decide (Reg.HDR.STREAM_CTL ≤ off) && decide (off ≤ Reg.HDR.STREAM_LEN) then s.mayStream src page
  else
    match pageType page with
    | .rol => page == Page.ROL src.num
    | .rol3 =>
      if off = Reg.ROL3.STAGE_KIND then s.mayStage src (bits v 2 0) || decide (5 ≤ bits v 2 0)
      else if off = Reg.ROL3.ATTEST_REQ then true
      else r == 2
    | t =>
      if s.headerOnly src then false
      else if selectionReg page off then s.pageReadable src page && r != 0
      else if claimViewReg page off then r == 2 || r == 3
      else
        match t with
        | .cas =>
          if off = Reg.CAS.JOB_ROLE then r == 1
          else if off = Reg.HDR.EVT_FLAG ∨ off = Reg.HDR.EVT_ENABLE then r == 1 || r == 2
          else r == 2
        | .hoi =>
          if off = Reg.HOI.JOB_CMD then r == 1
          else if off = Reg.HDR.CONTROL ∨ off = Reg.HOI.GOV_FLOOR ∨ (Reg.HOI.GRID_PERIOD_LO ≤ off ∧ off ≤ Reg.HOI.GRID_SEAL_W)
          then r == 2
          else r == 1 || r == 2
        | .asy | .ftc | .mil => r == 1 || r == 2
        | .pro => (r == 0 || r == 1) && s.noOperatorClaim
        | .stm => (r == 1 && s.sessClaim src == page - 0x100) || (r == 2 && page == 0x100)
        | .recorder => false
        | .clmt => false
        | .stp => false
        | _ => r == 2

/-- May the source complete a guarded write of the register (right G and Table 11.4)? `v` is the value of the pair. -/
def State.mayGuard (s : State) (src : Source) (page off v : Nat) : Bool :=
  let r := s.roleOf src
  match pageType page with
  | .rol3 =>
    if off = Reg.ROL3.INST_ENROL then (if v = 2 then r == 3 else !s.enrolled || r == 2)
    else if off = Reg.ROL3.DIAG_OPEN then r == 3
    else r == 2
  | t =>
    if s.headerOnly src then false
    else
      match t with
      | .hoi => if off = Reg.HOI.ABORT then r == 1 else r == 2
      | .int => if off = Reg.INT.CAPTURE_RELEASE then r == 1 else r == 1 || r == 2
      | .clm =>
        let own := r == 1 && s.sessClaim src == page - 0x40
        if off = Reg.CLM.VOLATILE then own
        else if off = Reg.CLM.CLAIM_CMD then r == 2 || (own && bits v 3 0 != 2)
        else r == 2 || own
      | _ => r == 2

/-! ### Reserved encodings (R11) -/

/-- Rates of Table 17.5. -/
def baudRates : List Nat :=
  [9600, 19200, 38400, 57600, 115200, 230400, 460800, 921600, 1000000, 1500000, 2000000, 3000000]

/-- Sensor instances of each class of Table 15.5. -/
def sensorCount (cls : Nat) : Nat :=
  match cls with
  | 0 => 1056 | 1 => 8 | 2 => 24 | 3 => 1 | 4 => 3 | 5 => 1 | 6 => 12 | _ => 102

/-- Does a value within the writable bits of a register hold no reserved encoding? -/
def State.encOk (s : State) (page off v : Nat) : Bool :=
  let within (lo hi x : Nat) : Bool := decide (lo ≤ x) && decide (x ≤ hi)
  if off = Reg.HDR.STREAM_LEN then v != 0 && v % 4 == 0
  else if off = Reg.HDR.STREAM_CTL then bits v 1 0 != 3
  else
    match pageType page with
    | .stx => if off = Reg.STX.WIT_TOL then within 1 63 (bits v 5 0) else true
    | .hoi =>
      if off = Reg.HOI.GOV_FLOOR then within 1 32 (bits v 5 0)
      else if off = Reg.HOI.JOB_CMD then within 1 5 (bits v 3 0)
      else true
    | .asy =>
      if off = Reg.ASY.DTEMP then within 8 320 (bits v 9 0)
      else if off = Reg.ASY.MIN_INTERVAL then within 1 60 (bits v 5 0)
      else if off = Reg.ASY.MAX_INTERVAL then within 60 900 (bits v 9 0)
      else if off = Reg.ASY.REFRESH_TOL then within 20 50 (bits v 5 0)
      else if off = Reg.ASY.FIT_DET_MIN then within 256 65536 (bits v 16 0)
      else if off = Reg.ASY.WINDOW_MIN then within 70 90 (bits v 6 0)
      else if off = Reg.ASY.SELECT then within 0 1055 (bits v 10 0) && within 0 16 (bits v 20 16)
      else true
    | .cas =>
      if off = Reg.CAS.CKPT_SHARE then within 1 32 (bits v 5 0)
      else if off = Reg.CAS.ROLE_SELECT then within 0 4 (bits v 3 0)
      else true
    | .int =>
      if off = Reg.INT.RANGE_CTL then bits v 4 0 != 0 && bits v 12 8 != 0
      else if off = Reg.INT.TEST_PERIOD then within 3600 1209600 (bits v 23 0)
      else if off = Reg.INT.WATCH_WINDOW then within 3600 2592000 (bits v 23 0)
      else if off = Reg.INT.SCRUB_PERIOD then within 1 168 (bits v 7 0)
      else true
    | .rol => if off = Reg.ROL.SESS_REQ then bits v 1 0 != 0 else true
    | .rol3 =>
      if off = Reg.ROL3.STAGE_KIND then within 0 4 (bits v 2 0)
      else if off = Reg.ROL3.IDE_SELECT then bits v 3 2 != 3
      else true
    | .dep => if off = Reg.DEP.STAGE_CMD then within 1 2 (bits v 1 0) else true
    | .clm =>
      if off = Reg.CLM.DRIFT_ASK then within 0 64 (bits v 6 0)
      else if off = Reg.CLM.HOIST_ASK then within 0 327680 (bits v 18 0)
      else if off = Reg.CLM.CLAIM_CMD then within 1 3 (bits v 3 0)
      else true
    | .hp =>
      if off = Reg.HP.MSI_HOLDOFF then within 0 1000 (bits v 9 0)
      else if off = Reg.HP.BIND_SET then bits v 5 0 != 0
      else true
    | .pwr =>
      if off = Reg.PWR.CONV_SELECT then within 0 11 (bits v 3 0)
      else if off = Reg.PWR.PHASE_SELECT then within 0 101 (bits v 6 0)
      else if off = Reg.PWR.GOV_BUDGET then
        within 500 2800 (bits v 11 0) && decide (bits v 11 0 + 100 ≤ s.fld Page.PWR Reg.PWR.INPUT_LIMIT 11 0)
      else if off = Reg.PWR.INPUT_LIMIT then within 1000 3000 (bits v 11 0)
      else true
    | .sns =>
      if off = Reg.SNS.STOPE_SELECT then within 0 1055 (bits v 10 0)
      else if off = Reg.SNS.SENSOR_SELECT then decide (bits v 18 8 < sensorCount (bits v 2 0))
      else true
    | .pro => if off = Reg.PRO.FC_COUNT then within 1 65536 (bits v 16 0) else true
    | .mon => if off = Reg.MON.BAUD then baudRates.contains (bits v 21 0) else true
    | _ => true

/-! ### Access that does not take effect (R449) -/

/-- An access outside the session's rights. -/
def State.forbid (s : State) (src : Source) (page off : Nat) (write : Bool) : State :=
  (s.accessRec src 0x8004 page off (items [src.num, page, off, if write then 1 else 0])).raiseFor src page 30

/-- A write that R11, R431 or R432 ignores. -/
def State.ignoreWrite (s : State) (src : Source) (page off v : Nat) : State :=
  s.accessRec src 0x0103 page off (items [v, off])

/-- The record of a write that takes effect in an installer or maker session (R416); `before` holds the session. -/
def State.config (s before : State) (src : Source) (page off old new : Nat) : State :=
  s.on (decide (2 ≤ before.roleOf src)) (fun u =>
    u.enqueue { code := 0x8012, unit := Src.deputy, role := before.roleOf src, source := src.num, claim := some 0
                tai := if u.disciplined then u.tally else 0
                items := items [page, off, old, new] ++ [it 0xF5 src.num, it 0xF6 page, it 0xF7 off]
                hidden := [], maker := [] })

/-- A completion that a source receives. -/
def State.respond (s : State) (src : Source) (status : Nat) (data : Word) : State :=
  { s with resp := Sparse.set Resp.none s.resp src.num { status := status, data := data, addr := 0 } }

/-- An access of a source restarts its idle time (R384). -/
def State.touch (s : State) (src : Source) : State := s.modSess src (fun x => { x with access := s.osc })

/-- Does the source's port answer memory requests: not in D3hot (R460)? -/
def State.answers (s : State) (src : Source) : Bool :=
  match src with
  | .monitor => true
  | _ => !(bit (s.rd (Page.HP src.num) Reg.HP.LINK_STATE) 17)

/-! ### The wrappers -/

/-- What a register's own rules make of a write: the new state, and whether the write took effect. -/
abbrev Act := State → State × Bool

/-- A discarded guarded pair (R437). Causes of event 0x0101: 1 no closing write, 2 wrong offset, 3 wrong value, 4 late,
5 complement without a pair. -/
def State.guardFail (s : State) (src : Source) (page off cause v : Nat) : State :=
  (s.raiseFor src page 31).accessRec src 0x0101 page off (items [cause, v])

/-- The pair that a source has open on a page. -/
def State.openPair (s : State) (src : Source) (page : Nat) : Option Pair := (s.pairs.find? (fun e => e.1 == srcPage src page)).map (·.2)

/-- Forget an open pair. -/
def State.dropPair (s : State) (src : Source) (page : Nat) : State := { s with pairs := Sparse.drop (srcPage src page) s.pairs }

/-- Discard the pair that a write of another kind to the page closes (R437). -/
def State.breakPair (s : State) (src : Source) (page : Nat) : State :=
  match s.openPair src page with
  | none => s
  | some p => (s.dropPair src page).guardFail src page p.off (if p.opened + 1000 < s.osc then 4 else 2) p.val.toNat

/-- The page that keeps a word: the words from 0x080 to 0x0C4 are the same on all four MIL pages (R269). -/
def keptOn (page off : Nat) : Nat :=
  if pageType page == .mil && decide (0x080 ≤ off) && decide (off ≤ 0x0C4) then Page.MIL 0 else page

/-- The bank that holds the word of a register for a source (R417, R433, R444, R464). -/
def State.bankFor (s : State) (src : Source) (page off : Nat) : Nat :=
  if off = Reg.HDR.EVT_FLAG ∨ off = Reg.HDR.EVT_ENABLE ∨ (Reg.HDR.STREAM_CTL ≤ off ∧ off < 0x40) then src.num
  else
    match pageType page with
    | .hp => if off = Reg.HP.ROW_SELECT then src.num else 0
    | .rol3 => if off = Reg.ROL3.STAGE_KIND ∨ off = Reg.ROL3.ATTEST_STATE then src.num else 0
    | .cas => if off = Reg.CAS.JOB_ROLE then claimBank (s.sessClaim src) else 0
    | _ => 0

/-- A completed guarded pair of value v on an RWG register (R437, R438): rights, reserved encodings, then the register's
own rules, and the record of R416. Beside the state it tells what became of the write: 0 it took effect, 2 it lies outside the
session's rights, 4 the device did not put it into effect. -/
def State.tryGuarded (s : State) (src : Source) (page off v : Nat) (f : Act) : State × Nat :=
  let s := s.touch src
  if !s.answers src then (s.respond src 1 0, 4)
  else if !s.mayGuard src page off v then (s.forbid src page off true, 2)
  else if !s.encOk page off v then ((s.breakPair src page).ignoreWrite src page off v, 4)
  else
    let s := s.breakPair src page
    let r := f s
    ((r.1.on r.2 (fun u => u.config s src page off (s.rd page off) v)).respond src 0 0, if r.2 then 0 else 4)

/-- The state after a completed guarded pair. -/
def State.guarded (s : State) (src : Source) (page off v : Nat) (f : Act) : State := (s.tryGuarded src page off v f).1

/-- A write to an RW, W1C or WO register by its own rules; `rw` tells whether R416 records it. What became of the write is
told as for a guarded pair. A claim view that an operator session writes is ignored (Table 11.4). -/
def State.tryWritten (s : State) (src : Source) (page off v : Nat) (rw : Bool) (f : Act) : State × Nat :=
  let s := s.touch src
  if !s.answers src then (s.respond src 1 0, 4)
  else if !s.mayWrite src page off v then
    if claimViewReg page off && s.roleOf src == 1 then (s, 4) else (s.forbid src page off true, 2)
  else if !s.encOk page off v then ((s.breakPair src page).ignoreWrite src page off v, 4)
  else
    let s := s.breakPair src page
    let r := f s
    ((r.1.on (r.2 && rw) (fun u => u.config s src page off (s.rdB (s.bankFor src page off) page off) v)).respond src 0 0,
      if r.2 then 0 else 4)

/-- The state after a write to an RW, W1C or WO register. -/
def State.written (s : State) (src : Source) (page off v : Nat) (rw : Bool) (f : Act) : State := (s.tryWritten src page off v rw f).1

/-- A register rule that has taken effect. -/
abbrev done (s : State) : State × Bool := (s, true)

/-- A register rule that has refused the write. -/
abbrev refusedWrite (s : State) : State × Bool := (s, false)

end Sys2Proof.Machine
end

