-- ==== Sys2Proof/Machine/JobOps.lean ====
section
/-!
DEFINITION. What several families do to a job, a stope or a stored block: job states and unsound steps (R177, R178,
R188), discarding work in flight (R119), failures of a stope and proposals for retirement (R354, R355), and damaged and
LOST blocks (R342, R343).
-/

namespace Sys2Proof.Machine

/-! ### Job states -/

/-- States of HOI.JOB_STATE. -/
abbrev jsNone : Nat := 0
abbrev jsLoading : Nat := 1
abbrev jsReady : Nat := 2
abbrev jsStarting : Nat := 3
abbrev jsRunning : Nat := 4
abbrev jsStopping : Nat := 5
abbrev jsRefused : Nat := 6

/-- A register of a claim's job view (R200). -/
def State.jobReg (s : State) (c off : Nat) : Nat := s.rdB (claimBank c) Page.HOI off

def State.jobState (s : State) (c : Nat) : Nat := bits (s.jobReg c Reg.HOI.JOB_STATE) 3 0

/-- The job of a claim is STARTING, RUNNING or STOPPING. -/
def State.jobActive (s : State) (c : Nat) : Bool :=
  s.jobState c == 3 || s.jobState c == 4 || s.jobState c == 5

/-- JOB_LOADED of a claim follows the job state (R375). -/
def State.showLoaded (s : State) (c st : Nat) : State :=
  s.setFld (Page.CLM c) Reg.CLM.CLAIM_STATE 5 5 (if 2 ≤ st ∧ st ≤ 5 then 1 else 0)

/-- A job changes state: event 0x5008 and HOI event 0; `cmd` is the command that caused it, 0 for none. -/
def State.setJobState (s : State) (c new cmd : Nat) : State :=
  let old := s.jobState c
  if old = new then s
  else
    let s1 := s.setFldB (claimBank c) Page.HOI Reg.HOI.JOB_STATE 3 0 new
    ((s1.on (decide (c ≠ 0)) (fun u => u.showLoaded c new)).raise Page.HOI 0).record 0x5008 Src.deputy (some c)
      (items [c, old, new, cmd])

/-- The reason shown beside the state. -/
def State.setReason (s : State) (c reason : Nat) : State :=
  s.setFldB (claimBank c) Page.HOI Reg.HOI.JOB_STATE 31 16 reason

/-- A command that the job's state does not allow (R177). -/
def State.ignoreCmd (s : State) (src : Source) (c cmd : Nat) : State :=
  let st := s.jobState c
  s.recordBy src 0x5008 Src.deputy (some c) (items [c, st, st, cmd])

/-- Step number of a claim's job. -/
def State.jobStep (s : State) (c : Nat) : Nat := s.rd64B (claimBank c) Page.HOI Reg.HOI.JOB_STEP_LO

/-- The state epoch of the member (R174). -/
def State.epoch (s : State) : Nat := s.rd64 Page.DEV Reg.DEV.STATE_EPOCH_LO

/-- Mark the step of a claim's job unsound, with the first cause reported (R188, Table 5.9), and record it. -/
def State.unsound (s : State) (c cause entry : Nat) : State :=
  match s.job? c with
  | none => s
  | some j =>
    if j.cause ≠ 0 then s
    else
      let s1 := s.setJob c { j with cause := cause, reporter := s.memberNo }
      let s2 := s1.wrB (claimBank c) Page.HOI Reg.HOI.LAST_UNSOUND (cause + s.memberNo * 256)
      s2.record 0x5005 Src.deputy (some c) (items [c, j.number, s.jobStep c, cause, entry])

/-! ### Stopes and what they work for -/

/-- Is a stope under test in a TEST_SLOT, so that the relief stope prepared for it serves (R361)? -/
def State.slotted (s : State) (p : Nat) : Bool := (s.stope p).slotted

/-- The logical stope whose work a physical stope does now. -/
def State.worksFor (s : State) (p : Nat) : Option Nat :=
  match (s.stope p).prep with
  | some x => if s.slotted x then s.logicalOf x else s.logicalOf p
  | none => s.logicalOf p

/-- The stope items of a record (R70, R120). -/
def State.stopeItems (s : State) (p : Nat) : List Item := [it 0xF0 ((s.worksFor p).getD 0x7FF), it 0xF1 p]

/-- Show a relief seam's state; event 1 of the stope where STANDS_FOR changes (R75). -/
def State.setCycle (s : State) (p st k : Nat) : State :=
  let old := s.fld (Page.STX p) Reg.STX.RELIEF_SEAM 4 0
  (s.wr (Page.STX p) Reg.STX.RELIEF_SEAM (k + 256 * st)).on (old != k) (fun u => u.raise (Page.STX p) 1)

/-! ### Traffic of the tiers -/

/-- The blocks that the units of the module read and write in a tier for work of their own. How often a unit reads a block is left
open: the numbers are free values (R232, R269, log 27). -/
def State.tierTraffic (s : State) (slow : Bool) : State :=
  if slow then s.each (List.range 4) (fun u i =>
    ((u.count64 (Page.MIL i) Reg.MIL.READ_BLOCKS_LO 0 (u.draw 32).toNat).drawn.count64 (Page.MIL i) Reg.MIL.WRITE_BLOCKS_LO 1
      (u.drawn.draw 32).toNat).drawn)
  else s.each (List.range 8) (fun u i =>
    ((u.count64 (Page.FTC i) Reg.FTC.READ_BLOCKS_LO 0 (u.draw 32).toNat).drawn.count64 (Page.FTC i) Reg.FTC.WRITE_BLOCKS_LO 1
      (u.drawn.draw 32).toNat).drawn)

/-! ### Hoist runs (R180 to R185) -/

/-- A hoist that has not launched in the slot. -/
def HoistRun.idle : HoistRun :=
  { started := false, late := false, complete := false, left := 0, nan := false, nonfin := false
    reserved := false, splits := [], again := false, withheld := false, inst := 0, split := 0, homes := [], coefs := [] }

def Job.run (j : Job) (e : Nat) : HoistRun := Sparse.get HoistRun.idle j.runs e

def Job.setRun (j : Job) (e : Nat) (r : HoistRun) : Job := { j with runs := Sparse.set HoistRun.idle j.runs e r }

/-- Change the run of a claim's hoist. -/
def State.modRun (s : State) (c e : Nat) (f : HoistRun → HoistRun) : State :=
  s.modJob c (fun j => j.setRun e (f (j.run e)))

/-- Launch field of an entry, as the records of its hoist carry it; generated work has none. -/
def Job.launchOf (j : Job) (e : Nat) : Nat := match j.entries[e]? with | some h => h.launch | none => 0xFFFFFFFF

/-- A place of a table that holds no entry: nothing launches it, and it counts towards no step. -/
def HoistE.filler : HoistE :=
  { launch := 0xFFFFFFFF, action := 15, tkind := 0, ref := false, ideal := false, serve := true, recompute := false
    notify := false, target := 0, a := 0, b := 0, result := 0, layer := 0, mb := 0 }

/-- The table of a SWAP with the entries of serving passes in flight kept in their places (R186, log 50). -/
def swapTable (old new : List HoistE) (kept : List Nat) : List HoistE :=
  (List.range (kept.foldl (fun n k => max n (k + 1)) new.length)).map (fun i =>
    if kept.contains i then old.getD i HoistE.filler else new.getD i HoistE.filler)

/-- A serving pass that a SWAP left in flight has ended: its place takes the new table's entry. -/
def Job.endSwapped (j : Job) (e : Nat) : Job :=
  match j.swapped.find? (fun x => x.1 == e) with
  | none => j
  | some x =>
    { j with
      entries := ((List.range j.entries.length).zip j.entries).map (fun y => if y.1 = e then x.2 else y.2)
      runs := Sparse.drop e j.runs, swapped := j.swapped.filter (fun y => y.1 != e) }

/-- A hoist has completed: the SAT_SPLIT record of R54 for each seam that read parts (log 62), NOTIFY (which latches at the commit, R201), and the time of
the slot's last work. -/
def State.hoistDone (s : State) (c e : Nat) : State :=
  match s.job? c with
  | none => s
  | some j =>
    let r := j.run e
    if r.complete then s
    else
      let note := match j.entries[e]? with | some h => h.notify | none => false
      let s1 := s.setJob c { j.setRun e { r with complete := true, left := 0 } with lastWork := s.tally }
      let moves := match j.entries[e]? with | some h => decide (1 ≤ h.action) && decide (h.action ≤ 8) | none => true
      ((s1.on note (fun u => u.stageEvent Page.HOI 6)).on moves (fun u => u.tierTraffic false)).each r.splits (fun u x =>
        u.record 0x1001 (Src.stope (x.1 / 32)) (some c) (items [j.launchOf e, x.2.1, x.2.2] ++ u.stopeItems (x.1 / 32) ++ [it 0xF2 (x.1 % 32)])) |>.modJob
        c (fun k => k.endSwapped e)

/-- One unit of a hoist's work is done; the last one completes it. -/
def State.unitDone (s : State) (c e : Nat) : State :=
  match s.job? c with
  | none => s
  | some j =>
    let r := j.run e
    if !r.started ∨ r.complete then s
    else if r.left ≤ 1 then s.hoistDone c e
    else s.setJob c (j.setRun e { r with left := r.left - 1 })

/-! ### Work in flight -/

/-- Causes of event 0x2008, in the order of Table 3.7: the seal of the step, a relief takeover, a TEST_SLOT, an ABORT,
clearing (log 63). -/
abbrev tcSeal : Nat := 0
abbrev tcRelief : Nat := 1
abbrev tcTest : Nat := 2
abbrev tcAbort : Nat := 3
abbrev tcClear : Nat := 4

/-- The tiles in a hewer, the one being issued first. -/
def Stope.tiles (x : Stope) : List Tile := x.tile.toList ++ x.drains

/-- A tile is discarded after its fence: TILES_ABANDONED and event 0x2008 with its cause (R119). -/
def State.noteAbandoned (s : State) (p cause : Nat) (t : Tile) : State :=
  let s1 := match s.worksFor p with
    | some l => s.countSealed (Page.STP l) Reg.STP.TILES_ABANDONED 19 1
    | none => s
  s1.record 0x2008 (Src.stope p) (some t.unit.claim) (items [cause, t.unit.unit, t.issued] ++ s.stopeItems p)

/-- Discard the tiles in a hewer that `f` takes (R119). -/
def State.abandonTiles (s : State) (p cause : Nat) (f : Tile → Bool) : State :=
  let gone := (s.stope p).tiles.filter f
  (s.modStope p (fun x => { x with tile := x.tile.filter (fun t => !f t), drains := x.drains.filter (fun t => !f t) })).each gone
    (fun u t => u.noteAbandoned p cause t)

/-- Discard the tiles in a hewer and give their units back, so that they start again from leaf 0 (Table 3.7). -/
def State.fenceTiles (s : State) (p cause : Nat) : State :=
  let back := (s.stope p).tiles.map (·.unit)
  (s.abandonTiles p cause (fun _ => true)).modStope p (fun x => { x with queue := back ++ x.queue })

/-- The stopes that hold anything other than their initial state. -/
def State.stopeNos (s : State) : List Nat := s.stopes.map (·.1)

/-- Blocks for a claim's landing areas that wait in a drift's buffers (R351) go with the work that they are for: the packets of the
mesh say which entries that is. -/
def State.dropHeld (s : State) (c : Nat) (keep : Nat → Bool) : State :=
  let stays (h : HeldBlocks) : Bool := h.claim != c ||
    s.mesh.any (fun q => q.kind == 3 && q.claim == c && keep q.entry && q.tag == [h.tag, h.srcRole, h.first])
  { s with casc := { s.casc with held := s.casc.held.filter stays } }

/-- Discard the work in flight of a claim: its tiles, queued units, passes and vectors under way, except SERVE work
where `serve` is kept. -/
def State.dropWork (s : State) (c cause : Nat) (keep : Nat → Bool) : State :=
  s.each s.stopeNos (fun u p =>
    let u1 := u.abandonTiles p cause (fun t => t.unit.claim == c && !keep t.unit.entry)
    u1.modStope p (fun y =>
      { y with
        queue := y.queue.filter (fun w => !(w.claim == c && !keep w.entry))
        wide := match y.wide with
          | some (wc, we) => if wc == c && !keep we then none else some (wc, we)
          | none => none
        arrs := y.arrs.map (fun e => (e.1, { e.2 with
          job := e.2.job.filter (fun q => !(q.claim == c && !keep q.entry))
          vec := match e.2.vec with
            | some v => if v.job.claim == c && !keep v.job.entry then none else some v
            | none => none })) })) |>.dropHeld c keep |>.meshDrop (fun q => q.kind != 2 && q.claim == c && !keep q.entry)

/-- Abort a claim's job as R178 gives: the step is unsound with cause ABORT, whatever cause it had before (Table 5.10), its work in
flight is discarded, and the job reads READY after the next seal. -/
def State.abortJob (s : State) (c : Nat) : State :=
  let s1 := (s.modJob c (fun j => { j with cause := 0 })).unsound c 6 0xFFFFFFFF
  (s1.dropWork c 3 (fun _ => false)).modJob c (fun j => { j with abortDue := true })

/-- A claim's logical stopes. -/
def State.claimStopes (s : State) (c : Nat) : List Nat := (List.range 1024).filter (fun l => s.ownerOf l == c)

/-- A word of a sealed page as the next seal will show it (R71). -/
def State.nextWord (s : State) (page off : Nat) : Nat :=
  match s.sealWords.find? (fun e => e.1 == regKey 0 page off) with
  | some e => e.2.toNat
  | none => s.rd page off

/-- A word of a sealed page that changes at the next seal (R71). -/
def State.stageWord (s : State) (page off v : Nat) : State :=
  { s with sealWords := Sparse.place (regKey 0 page off) (BitVec.ofNat 32 v) (Sparse.drop (regKey 0 page off) s.sealWords) }

/-- A job's number is free again once no member holds a role of it, and its key goes with it where the
member hosts no image of the job (R391). -/
def State.forgetJob (s : State) (c : Nat) (j : Job) : State :=
  let roles := s.casc.roles.filter (fun (r : RoleEntry) => !(r.role == j.role && r.member == s.memberNo))
  let used := roles.any (fun (r : RoleEntry) => bits r.role 31 26 == j.number && bits r.role 3 0 == 0)
  let hosts := s.mill.hosting.any (fun h => h.claim == c)
  ({ s with casc := { s.casc with roles := roles, jobKeys := if hosts then s.casc.jobKeys else s.casc.jobKeys.filter (fun e => e.1 != j.number), jobs := if used then s.casc.jobs else s.casc.jobs.filter (fun e => e.2.2 != j.number) } }).modClaim
    c (fun x => { x with jobKey := false })

/-- Unload a claim's job (Table 5.3): its seams are FREE again and its fixed hoists leave the device. -/
def State.unload (s : State) (c cmd : Nat) : State :=
  match s.job? c with
  | none => (s.setReason c 0).setJobState c 0 cmd
  | some j =>
    let fixed := s.fld Page.HOI Reg.HOI.FIXED_LOADED 16 0
    let s1 := ((s.setFld Page.HOI Reg.HOI.FIXED_LOADED 16 0 (fixed - j.desc.fixed)).dropJob c).forgetJob c j
    let s2 := s1.each (s.claimStopes c) (fun u l =>
      let w := u.nextWord (Page.STP l) Reg.STP.SEAM_STATE
      u.stageWord (Page.STP l) Reg.STP.SEAM_STATE ((List.range 16).foldl (fun a k => if bits w (2 * k + 1) (2 * k) = 1 then putBits a (2 * k + 1) (2 * k) 0 else a) w))
    ((s2.setFldB (claimBank c) Page.HOI Reg.HOI.JOB_STATE 13 8 0).setReason c 0).setJobState c 0 cmd

/-! ### Stope failures (R354, R355) -/

/-- Integrity states of a stope: 0 in service, 1 WATCHED, 2 RETIRED. -/
abbrev igService : Nat := 0
abbrev igWatched : Nat := 1
abbrev igRetired : Nat := 2

/-- Number of WATCHED, RETIRED and idle relief stopes in INT.STATES, changed by a step each. -/
def State.bumpStates (s : State) (hi lo : Nat) (up : Bool) : State :=
  let n := s.fld Page.INT Reg.INT.STATES hi lo
  s.setFld Page.INT Reg.INT.STATES hi lo (if up then n + 1 else n - 1)

/-- Is a physical stope its row's relief stope and idle (Table 2.12)? -/
def State.idleRelief (s : State) (p : Nat) : Bool := s.fld (Page.STX p) Reg.STX.STOPE_ROLE 1 0 == 1

/-- The idle relief stope of a row, not retired. -/
def State.rowRelief (s : State) (r : Nat) : Option Nat :=
  ((List.range 33).map (fun c => 33 * r + c)).find? (fun p => s.idleRelief p && (s.stope p).integ != 2)

/-- The relief stope that may stand in for a physical stope: its row's, otherwise that of row r − 1 or r + 1,
whichever is unused, the lower first (R21). -/
def State.reliefFor (s : State) (p : Nat) : Option Nat :=
  let r := p / 33
  let free (q : Option Nat) : Option Nat := q.bind (fun x => match (s.stope x).prep with
    | some t => if t = p ∨ !(s.stope t).proposed then some x else none
    | none => some x)
  match free (s.rowRelief r) with
  | some x => some x
  | none =>
    match (if 0 < r then free (s.rowRelief (r - 1)) else none) with
    | some x => some x
    | none => if r < 31 then free (s.rowRelief (r + 1)) else none

/-- A stope enters WATCHED: its watch window starts and it is due for test at once (R354). -/
def State.enterWatched (s : State) (p cause : Nat) : State :=
  let s1 := s.modStope p (fun y => { y with integ := 1, fails := 0, windowAt := s.osc, testDue := true })
  let s2 := if s.fn (Page.STX p) = 4 then s1 else s1.setFn (Page.STX p) 5
  (((s2.bumpStates 10 0 true).stageEvent Page.INT 4).record 0x7008 (Src.stope p) none (items [p, cause])).on
    (s.idleRelief p) (fun u => u.modStope p (fun y => { y with prepared := false, selfTest := false }))

/-- Propose a stope for retirement (R355): its relief prepares for it ahead of any preparation for test, and meanwhile it
serves as WATCHED. -/
def State.propose (s : State) (p why : Nat) : State :=
  let x := s.stope p
  if x.integ = 2 ∨ x.proposed then s
  else
    let s0 := if x.integ = 0 then s.enterWatched p why else s
    let s1 := s0.modStope p (fun y => { y with proposed := true, why := why })
    match s1.reliefFor p with
    | some q => s1.modStope q (fun y => if y.prep = some p then y else { y with prep := some p, prepared := false, selfTest := false })
    | none => s1

/-- A failure charged to a stope; failures within one step slot count as one (R354). Causes are those of R369. -/
def State.stopeFailure (s : State) (p cause : Nat) : State :=
  let x := s.stope p
  let s0 := s.modStope p (fun y => { y with lastFail := cause, failAt := some s.epoch })
  if x.failAt = some s.epoch then s0
  else
    match x.integ with
    | 0 => s0.enterWatched p cause
    | 1 =>
      let s1 := s0.modStope p (fun y => { y with fails := y.fails + 1 })
      if 2 ≤ x.fails + 1 then s1.propose p cause else s1
    | _ => s0

/-- A check failure of a job's work on a stope: the step is unsound with CHECK_FAIL where the recomputation has failed
too (R350). -/
def State.recomputeFailed (s : State) (c entry : Nat) : State :=
  ((s.unsound c 2 entry).count Page.INT Reg.INT.RECOMPUTE_FAILS 2 1).raise Page.INT 1 |>.record 0x7002 Src.deputy (some c)
    (items [c, s.jobStep c, entry])

/-- UNSOUND notices for the blocks of a failed set (R349, R350). -/
def State.unsoundNotice (s : State) (c tensor blocks check : Nat) : State :=
  ((s.count Page.INT Reg.INT.NOTICES_UNSOUND 0 1).raise Page.INT 0).record 0x7001 Src.deputy (some c)
    (items [c, tensor, blocks, check])

/-! ### Damaged and LOST blocks (R342, R343) -/

/-- The lost list of a claim shows in INT.LOST_COUNT and LOST_ADDR of its view. -/
def State.showLost (s : State) (c : Nat) : State :=
  let x := s.claim c
  let w := x.lostList.length + (if x.lostMore then 2 ^ 31 else 0)
  (s.wrB (claimBank c) Page.INT Reg.INT.LOST_COUNT w).wr64B (claimBank c) Page.INT Reg.INT.LOST_ADDR_LO (x.lostList.headD 0)

/-- A block becomes LOST (R343): marked, counted, recorded, and entered in the claim's list of at most 256 entries. Partial writes
that waited for it are refused. -/
def State.loseBlock (s : State) (c addr : Nat) : State :=
  let b := addr / 4096 * 4096
  let m := s.mark c b
  if m.lost then s
  else
    let x := s.claim c
    let listed := decide (x.lostList.length < 256)
    let s1 := s.setMark c b { m with damaged := false, rebuild := false, lost := true, listed := listed, waits := [] }
    let s2 := s1.modClaim c (fun y =>
      { y with lostList := if listed then y.lostList ++ [b] else y.lostList, lostMore := y.lostMore || !listed })
    (((s2.showLost c).count Page.INT Reg.INT.BLOCKS_LOST 6 1).raise Page.INT 2).record 0x7005 Src.deputy (some c)
      (items [c, b, if listed then 1 else 0])

/-- A stored block whose second read fails too is damaged (R342): STORE_FAILS, event 0x7003 and its rebuild begins. -/
def State.damageBlock (s : State) (c addr tier content : Nat) : State :=
  let b := addr / 4096 * 4096
  let m := s.mark c b
  if m.damaged ∨ m.lost then s
  else
    ((s.setMark c b { m with damaged := true, rebuild := true }).count Page.INT Reg.INT.STORE_FAILS 4 1).record 0x7003
      (if addr / 2 ^ 46 = 1 then Src.mill 0 else Src.fast 0) (some c) (items [tier, b, c, content])

/-- Writing all 4,096 bytes of a block clears LOST and its entry (R343). -/
def State.clearLost (s : State) (c addr : Nat) : State :=
  let b := addr / 4096 * 4096
  let m := s.mark c b
  if !m.lost && !m.damaged then s
  else
    let s1 := s.setMark c b { m with damaged := false, rebuild := false, lost := false, listed := false, waits := [] }
    let more := s1.marks.any (fun e => e.1 / 2 ^ 36 == c && e.2.lost && !e.2.listed)
    (s1.modClaim c (fun y => { y with lostList := y.lostList.filter (· != b), lostMore := more })).showLost c

end Sys2Proof.Machine
end

