-- ==== Sys2Proof/Machine/Access.lean ====
section
/-!
DEFINITION. What sessions, claims and streams share: stream contexts and their errors (R444 to R447), staged objects,
the end of a session (R384), changes of a claim's state (R375), and the diagnostic functions that consents keep open
(R407, R408).
-/

namespace Sys2Proof.Machine

/-! ### Streams -/

/-- A stream register of a source's context. -/
def State.strm (s : State) (src : Source) (page off : Nat) : Nat := s.rdB src.num page off

/-- Mode of the transfer under way (Table 12.9). -/
def State.strmMode (s : State) (src : Source) (page : Nat) : Nat := (s.stream src page).mode

/-- Show a context in STREAM_CTL: MODE, ERROR, BUSY and DONE. -/
def State.strmShow (s : State) (src : Source) (page mode err : Nat) (dn : Bool) : State :=
  s.wrB src.num page Reg.HDR.STREAM_CTL (mode + 16 * err + (if mode = 0 then 0 else 256) + (if dn then 512 else 0))

/-- STREAM_ERROR and event 0x0105 (R447). -/
def State.strmError (s : State) (src : Source) (page err mode passed : Nat) : State :=
  (s.raiseFor src page 28).accessRec src 0x0105 page Reg.HDR.STREAM_CTL (items [err, mode, passed])

/-- A draining STM page reads OFF once no source has a transfer under way on it (Table 12.14). -/
def State.strmSettle (s : State) (page : Nat) : State :=
  s.on (pageType page == .stm && s.streams.all (fun e => e.1 % 4096 != page || e.2.mode == 0)) (fun u => u.endDrain page)

/-- A transfer under way ends with an error, which ERRORS of an STM page counts; data already committed stays (R447). -/
def State.strmEnd (s : State) (src : Source) (page err : Nat) : State :=
  let x := s.stream src page
  if x.mode = 0 then s
  else
    let s1 := (s.setStream src page { x with mode := 0, seen := [], lap := [] }).strmShow src page 0 err false
    ((s1.strmError src page err x.mode x.passed).on (pageType page == .stm) (fun u => u.count page Reg.STM.ERRORS 2 1)).strmSettle page

/-- The pages on which a source has a transfer under way. -/
def State.strmPages (s : State) (src : Source) : List Nat :=
  (s.streams.filter (fun e => e.1 / 4096 == src.num && e.2.mode != 0)).map (fun e => e.1 % 4096)

/-- The bytes that a source has written to a page's object (R444). -/
def State.staged (s : State) (src : Source) (page : Nat) : List Byte := (s.stream src page).object

/-- The object that a source has staged on ROL 3 as a kind (R417). -/
def State.stagedKind (s : State) (src : Source) (kind : Nat) : List Byte :=
  Sparse.get [] s.vault.stagedObj (src.num * 8 + kind)

/-- The bytes of a SHA-384 value, byte k at bits [8k+7:8k]. -/
def hashBytes (h : Hash) : List Byte := leBytes 48 h.toNat

/-- SHA-384 of the identity public key (R382). -/
def identityHash : Hash := Config.sha384 Config.identityKey

/-- Write a value of n words from an offset. -/
def State.wrWords (s : State) (bank page off v : Nat) : Nat → State
  | 0 => s
  | n + 1 => (s.wrB bank page off v).wrWords bank page (off + 4) (v / 2 ^ 32) n

/-! ### Claims -/

/-- The prospector's state exists (R528). -/
def State.prospectorHeld (s : State) : Bool := bit (s.rd Page.PRO Reg.PRO.PRO_STATE) 8

/-- Does a claim hold content (R407)? -/
def State.holdsContent (s : State) (c : Nat) : Bool :=
  if c = 0 then s.prospectorHeld else s.claimState c == 2 || s.claimState c == 3

/-- Is function f of Table 11.7 allowed by the consents held, each under its claim's BIND_COUNT in force (R408)? -/
def State.diagAllowed (s : State) (f : Nat) : Bool :=
  match f with
  | 4 => true
  | 3 => claimNos.all (fun c => s.claimState c == 0 || s.claimState c == 1) && !s.prospectorHeld
  | _ => decide (f < 3) && (0 :: claimNos).all (fun c => !s.holdsContent c ||
      s.vault.consents.any (fun e => e.1 == c && bit e.2.1 f && e.2.2.2 == (if c = 0 then 0 else s.rd (Page.CLM c) Reg.CLM.BIND_COUNT)))

/-- Set the functions open; event 0x800A with the claims that consent. -/
def State.setDiag (s : State) (fns cause : Nat) : State :=
  let old := s.fld (Page.ROL 3) Reg.ROL3.DIAG_OPEN 7 0
  if old = fns then s
  else
    let s1 := (s.wr (Page.ROL 3) Reg.ROL3.DIAG_OPEN fns).setFld (Page.ROL 3) Reg.ROL3.ENROL_STATE 15 8 fns
    let mask := s.vault.consents.foldl (fun a e => a ||| 2 ^ e.1) 0
    (s1.raise (Page.ROL 3) 2).record 0x800A Src.deputy none (items [fns, mask, cause])

/-- Close every open function that its conditions no longer allow (R408). -/
def State.reviewDiag (s : State) (cause : Nat) : State :=
  let old := s.fld (Page.ROL 3) Reg.ROL3.DIAG_OPEN 7 0
  s.setDiag ((List.range 8).foldl (fun a f => if bit old f && s.diagAllowed f then a + 2 ^ f else a) 0) cause

/-- A claim changes state: events on its page and the claim table, and record 0x8005 (Table 11.10). -/
def State.setClaimState (s : State) (c st cmd : Nat) : State :=
  let old := s.claimState c
  let s1 := ((s.setFld (Page.CLM c) Reg.CLM.CLAIM_STATE 2 0 st).raise (Page.CLM c) 0).raise (Page.CLM 0) 0
  let s2 := s1.record 0x8005 Src.deputy (some c) (items [c, old, st, cmd, s.rd (Page.CLM c) Reg.CLM.BIND_COUNT])
  s2.reviewDiag 3

/-- Every seam field of a logical stope in a state (Table 2.11). -/
def State.setSeams (s : State) (lp st : Nat) : State :=
  ({ s with sealWords := Sparse.drop (regKey 0 (Page.STP lp) Reg.STP.SEAM_STATE) s.sealWords }).wr (Page.STP lp) Reg.STP.SEAM_STATE
    (st * 0x55555555)

/-! ### Sessions -/

/-- A source's session ends (R384): record 0x8003, event ENDED, its transfers end with ERROR 7, and with a maker's
session the functions that expose claims close (R408). -/
def State.endSession (s : State) (src : Source) (cause : Nat) : State :=
  let page := Page.ROL src.num
  let w := s.rd page Reg.ROL.SESS_STATE
  if bits w 1 0 ≠ 2 then s
  else
    let maker := bits w 5 4 == 3
    let s1 := s.recordBy src 0x8003 Src.deputy (if bits w 5 4 = 1 then some (bits w 13 8) else none) (items [src.num, cause])
    let s2 := ((s1.wr page Reg.ROL.SESS_STATE (w / 2 ^ 24 * 2 ^ 24 + bits w 16 16 * 2 ^ 16)).wr page Reg.ROL.IDLE_LEFT 0xFFFFFF).raise page 2
    let s3 := s2.each (s.strmPages src) (fun u p => u.strmEnd src p 7)
    s3.on maker (fun u =>
      let u1 := { u with vault := { u.vault with consents := [] } }
      u1.setDiag (u1.fld (Page.ROL 3) Reg.ROL3.DIAG_OPEN 7 0 &&& 0x10) 4)

/-- The three sources. -/
def sources : List Source := [.portA, .portB, .monitor]

/-- End every session for which a test on (source, role, claim) holds. -/
def State.endSessions (s : State) (cause : Nat) (f : Source → Nat → Nat → Bool) : State :=
  s.each sources (fun u src => u.on (u.roleOf src != 0 && f src (u.roleOf src) (u.sessClaim src)) (fun v => v.endSession src cause))

end Sys2Proof.Machine
end

