-- ==== Sys2Proof/Machine/Numerics.lean ====
section
/-!
DEFINITION. The number formats of Table 4.1, their conversions and arithmetic (R57, R58, R79, R110 to R112, R125 to
R132), the reference order of contractions and gatherings (R146 to R149), and the check sums that the spec gives by
polynomial (R205, R468) or by name (SipHash-2-4, R147, R209).
-/

namespace Sys2Proof.Machine

/-! ### Dyadic numbers: mantissa × 2^exponent, exact -/

/-- A dyadic number. -/
structure Dy where
  m : Int
  e : Int
deriving DecidableEq, Repr

/-- 2 to a non-negative integer given as an Int. -/
def pow2 (n : Int) : Int := ((2 ^ n.toNat : Nat) : Int)

namespace Dy
def zero : Dy := ⟨0, 0⟩
def ofInt (n : Int) : Dy := ⟨n, 0⟩
def add (a b : Dy) : Dy :=
  if a.m = 0 then b else if b.m = 0 then a
  else
    let e := min a.e b.e
    ⟨a.m * pow2 (a.e - e) + b.m * pow2 (b.e - e), e⟩
def mul (a b : Dy) : Dy := ⟨a.m * b.m, a.e + b.e⟩
def neg (a : Dy) : Dy := ⟨-a.m, a.e⟩
def shift (a : Dy) (k : Int) : Dy := ⟨a.m, a.e + k⟩
def abs (a : Dy) : Dy := ⟨a.m.natAbs, a.e⟩
/-- a < b. -/
def lt (a b : Dy) : Bool := decide ((add a (neg b)).m < 0)
def le (a b : Dy) : Bool := decide ((add a (neg b)).m ≤ 0)
/-- ⌊log2 |a|⌋ of a nonzero number. -/
def log2 (a : Dy) : Int := (Nat.log2 a.m.natAbs : Int) + a.e
end Dy

/-- m ÷ 2^sh rounded to the nearest integer, ties to even. -/
def rneShift (m : Int) (sh : Nat) : Int :=
  let d : Int := ((2 ^ sh : Nat) : Int)
  let q := m / d
  let r := m - q * d
  if 2 * r < d then q else if d < 2 * r then q + 1 else if q % 2 = 0 then q else q + 1

/-- A dyadic number in units of 2^u, rounded to the nearest integer, ties to even. -/
def Dy.rne (a : Dy) (u : Int) : Int := if u ≤ a.e then a.m * pow2 (a.e - u) else rneShift a.m (u - a.e).toNat

/-- A dyadic number in units of 2^u, rounded down. -/
def Dy.floor (a : Dy) (u : Int) : Int := if u ≤ a.e then a.m * pow2 (a.e - u) else a.m / pow2 (u - a.e)

/-- A quotient of integers rounded to the nearest integer, ties to even. -/
def rneDiv (n : Int) (d : Nat) : Int :=
  if d = 0 then 0
  else
    let q := n / (d : Int)
    let r := n - q * d
    if 2 * r < d then q else if (d : Int) < 2 * r then q + 1 else if q % 2 = 0 then q else q + 1

/-! ### Floating formats (R127) -/

/-- A value of a floating format: a signed zero, a finite number, an infinity or a NaN. -/
inductive Val
  | zero (neg : Bool)
  | fin (d : Dy)
  | inf (neg : Bool)
  | nan
deriving DecidableEq, Repr

/-- Decode a word with eb exponent bits and fb fraction bits. -/
def decodeF (eb fb w : Nat) : Val :=
  let neg := bit w (eb + fb)
  let f := bits w (eb + fb - 1) fb
  let t := w % 2 ^ fb
  let bias : Int := ((2 ^ (eb - 1) : Nat) : Int) - 1
  let sg (n : Nat) : Int := if neg then -(n : Int) else n
  if f = 2 ^ eb - 1 then (if t = 0 then .inf neg else .nan)
  else if f = 0 then (if t = 0 then .zero neg else .fin ⟨sg t, 1 - bias - fb⟩)
  else .fin ⟨sg (2 ^ fb + t), (f : Int) - bias - fb⟩

/-- Round a nonzero dyadic number to a format, ties to even, with subnormals: (mantissa magnitude, unit exponent). -/
def roundF (eb fb : Nat) (a : Dy) : Nat × Int :=
  let bias : Int := ((2 ^ (eb - 1) : Nat) : Int) - 1
  let u := max (a.log2 - fb) (1 - bias - fb)
  let n := (Dy.rne (Dy.abs a) u).toNat
  if n = 2 ^ (fb + 1) then (2 ^ fb, u + 1) else (n, u)

/-- Does a rounded magnitude exceed the largest finite value? -/
def overF (eb fb : Nat) (r : Nat × Int) : Bool :=
  let bias : Int := ((2 ^ (eb - 1) : Nat) : Int) - 1
  decide (2 ^ fb ≤ r.1) && decide (((2 ^ eb : Nat) : Int) - 1 ≤ r.2 + fb + bias)

/-- Encode a sign and a rounded magnitude that is within the format. -/
def encF (eb fb : Nat) (neg : Bool) (r : Nat × Int) : Nat :=
  let bias : Int := ((2 ^ (eb - 1) : Nat) : Int) - 1
  let s := if neg then 2 ^ (eb + fb) else 0
  if r.1 < 2 ^ fb then s + r.1 else s + (r.2 + fb + bias).toNat * 2 ^ fb + (r.1 - 2 ^ fb)

/-- The infinity of a format. -/
def infF (eb fb : Nat) (neg : Bool) : Nat := (if neg then 2 ^ (eb + fb) else 0) + (2 ^ eb - 1) * 2 ^ fb

/-- The NaN written (Table 4.2). -/
def nanF (eb fb : Nat) : Nat := (2 ^ eb - 1) * 2 ^ fb + 2 ^ (fb - 1)

/-- A value rounded to a format as IEEE 754 does: beyond the range it is an infinity. An exact zero is +0. -/
def encodeF (eb fb : Nat) : Val → Nat
  | .zero neg => if neg then 2 ^ (eb + fb) else 0
  | .inf neg => infF eb fb neg
  | .nan => nanF eb fb
  | .fin d =>
    if d.m = 0 then 0
    else
      let r := roundF eb fb d
      if overF eb fb r then infF eb fb (decide (d.m < 0)) else encF eb fb (decide (d.m < 0)) r

/-- Binary32 words. -/
def dec32 (w : Nat) : Val := decodeF 8 23 w
def enc32 (v : Val) : Nat := encodeF 8 23 v
abbrev nan32 : Nat := 0x7FC00000
def isNan32 (w : Nat) : Bool := dec32 w == .nan
def isFin32 (w : Nat) : Bool := bits w 30 23 != 255
def isZero32 (w : Nat) : Bool := w % 2 ^ 31 == 0
def neg32 (w : Nat) : Bool := bit w 31
/-- The binary32 word nearest to a dyadic number; an exact zero gives +0. -/
def dy32 (d : Dy) : Nat := enc32 (.fin d)
/-- The exact value of a finite word; zero for others. -/
def val32 (w : Nat) : Dy := match dec32 w with | .fin d => d | _ => Dy.zero
/-- An integer rounded to binary32. -/
def int32 (n : Int) : Nat := dy32 (Dy.ofInt n)

/-- Value addition, exact, with IEEE 754's signs of zero under round to nearest. -/
def Val.add : Val → Val → Val
  | .nan, _ => .nan
  | _, .nan => .nan
  | .inf a, .inf b => if a = b then .inf a else .nan
  | .inf a, _ => .inf a
  | _, .inf b => .inf b
  | .zero a, .zero b => .zero (a && b)
  | .zero _, .fin d => .fin d
  | .fin d, .zero _ => .fin d
  | .fin a, .fin b => let c := Dy.add a b; if c.m = 0 then .zero false else .fin c

/-- The sign of a value. -/
def Val.neg? : Val → Bool
  | .zero n => n
  | .inf n => n
  | .fin d => decide (d.m < 0)
  | .nan => false

/-- Value multiplication, exact. -/
def Val.mul : Val → Val → Val
  | .nan, _ => .nan
  | _, .nan => .nan
  | .fin a, .fin b => .fin (Dy.mul a b)
  | .inf _, .zero _ => .nan
  | .zero _, .inf _ => .nan
  | a, b =>
    let n := a.neg? != b.neg?
    match a, b with
    | .inf _, _ => .inf n
    | _, .inf _ => .inf n
    | _, _ => .zero n

def add32 (a b : Nat) : Nat := enc32 ((dec32 a).add (dec32 b))
def negate32 (a : Nat) : Nat := if isNan32 a then nan32 else if neg32 a then a - 2 ^ 31 else a + 2 ^ 31
def sub32 (a b : Nat) : Nat := add32 a (negate32 b)
/-- Rounding a product that underflows to zero keeps its sign. -/
def encSigned (v : Val) : Nat :=
  match v with
  | .fin d => if d.m = 0 then 0 else let r := roundF 8 23 d; if overF 8 23 r then infF 8 23 (decide (d.m < 0)) else encF 8 23 (decide (d.m < 0)) r
  | x => enc32 x
def mul32 (a b : Nat) : Nat := encSigned ((dec32 a).mul (dec32 b))
def fma32 (a b c : Nat) : Nat := encSigned (((dec32 a).mul (dec32 b)).add (dec32 c))

/-- The quotient of two nonzero magnitudes with at least 96 significant bits and a sticky last bit. -/
def quoSticky (a b : Nat) : Dy :=
  let k := 98 + Nat.log2 b
  let q := a * 2 ^ k / b
  let r := a * 2 ^ k - q * b
  ⟨2 * q + (if r = 0 then 0 else 1), -(k : Int) - 1⟩

/-- Quotient of values, to be rounded once. -/
def Val.div : Val → Val → Val
  | .nan, _ => .nan
  | _, .nan => .nan
  | .inf _, .inf _ => .nan
  | .zero _, .zero _ => .nan
  | .inf a, b => .inf (a != b.neg?)
  | a, .inf b => .zero (a.neg? != b)
  | .zero a, b => .zero (a != b.neg?)
  | a, .zero b => .inf (a.neg? != b)
  | .fin a, .fin b =>
    let q := (quoSticky a.m.natAbs b.m.natAbs).shift (a.e - b.e)
    .fin (if decide (a.m < 0) != decide (b.m < 0) then q.neg else q)

def div32 (a b : Nat) : Nat := encSigned ((dec32 a).div (dec32 b))

/-- Integer square root by bits, from the top: `n` rounds of the digit method. -/
def isqrtGo (x : Nat) : Nat → Nat → Nat
  | 0, r => r
  | n + 1, r => let c := r + 2 ^ n; isqrtGo x n (if c * c ≤ x then c else r)

/-- ⌊√x⌋. -/
def isqrt (x : Nat) : Nat := isqrtGo x (Nat.log2 x / 2 + 1) 0

/-- √ of a positive dyadic number with a sticky last bit. -/
def sqrtSticky (d : Dy) : Dy :=
  let m := d.m.natAbs
  let odd : Nat := (d.e % 2).toNat
  let x := m * 2 ^ (160 + odd)
  let r := isqrt x
  ⟨2 * r + (if r * r = x then 0 else 1), (d.e - odd - 160) / 2 - 1⟩

def sqrt32 (a : Nat) : Nat :=
  match dec32 a with
  | .zero n => enc32 (.zero n)
  | .inf false => enc32 (.inf false)
  | .fin d => if d.m < 0 then nan32 else dy32 (sqrtSticky d)
  | _ => nan32

/-- Order of binary32 words with −0 below +0; a NaN compares with nothing. -/
def less32 (a b : Nat) : Bool :=
  match dec32 a, dec32 b with
  | .nan, _ => false
  | _, .nan => false
  | .inf true, .inf true => false
  | .inf true, _ => true
  | _, .inf true => false
  | .inf false, _ => false
  | _, .inf false => true
  | x, y =>
    let dx : Dy := match x with | .fin d => d | _ => Dy.zero
    let d2 : Dy := match y with | .fin d => d | _ => Dy.zero
    dx.lt d2 || (decide (dx.m = 0) && decide (d2.m = 0) && neg32 a && !neg32 b)

/-- IEEE order, in which the zeros are equal. -/
def lt32 (a b : Nat) : Bool := less32 a b && !(isZero32 a && isZero32 b)

/-- Minimum and maximum of R58 and R110: −0 orders below +0, and a NaN gives the NaN of Table 4.2. -/
def min32 (a b : Nat) : Nat := if isNan32 a || isNan32 b then nan32 else if less32 b a then b else a
def max32 (a b : Nat) : Nat := if isNan32 a || isNan32 b then nan32 else if less32 a b then b else a

/-! ### Correctly rounded functions (R58, R111): fixed point at 2^−512 -/

/-- Fraction bits of the fixed-point evaluation. The functions are transcendental, so no exact result is a tie, and
the distance of any binary32 argument's result from a tie exceeds the error of this precision. -/
abbrev fpb : Nat := 512

/-- Σ x^n ÷ n! from term n on, `t` being term n − 1. -/
def expSeries (x : Int) : Nat → Nat → Int → Int → Int
  | 0, _, _, acc => acc
  | k + 1, n, t, acc =>
    let t' := t * x / pow2 fpb / (n : Int)
    expSeries x k (n + 1) t' (acc + t')

/-- e^x for |x| < 1, in fixed point. -/
def expSmall (x : Int) : Int := expSeries x 110 1 (pow2 fpb) (pow2 fpb)

/-- Σ z^(2n+1) ÷ (2n+1). -/
def atanhSeries (z2 : Int) : Nat → Nat → Int → Int → Int
  | 0, _, _, acc => acc
  | k + 1, n, t, acc =>
    let t' := t * z2 / pow2 fpb
    atanhSeries z2 k (n + 2) t' (acc + t' / (n : Int))

/-- atanh z in fixed point for |z| ≤ 1/3. -/
def atanhFix (z : Int) : Int := atanhSeries (z * z / pow2 fpb) 180 3 z z

/-- ln 2 in fixed point: 2 × atanh(1/3). -/
def ln2Fix : Int := 2 * atanhFix (pow2 fpb / 3)

/-- The fixed-point value of a dyadic number. -/
def Dy.fix (d : Dy) : Int := d.floor (-(fpb : Int))

/-- e^x as a dyadic number, for |x| < 256. -/
def expDy (d : Dy) : Dy :=
  let x := d.fix
  let k := x / ln2Fix
  ⟨expSmall (x - k * ln2Fix), k - fpb⟩

/-- ln of a positive dyadic number as a dyadic number in fixed point. -/
def lnDy (d : Dy) : Dy :=
  let k := d.log2
  let y := (d.shift (-k)).fix
  let z := (y - pow2 fpb) * pow2 fpb / (y + pow2 fpb)
  ⟨2 * atanhFix z + k * ln2Fix, -(fpb : Int)⟩

/-- Quotient of positive dyadic numbers with many bits. -/
def divDy (a b : Dy) : Dy := ⟨a.m * pow2 (2 * fpb) / b.m, a.e - b.e - 2 * fpb⟩

/-- Sign of a fixed-point argument's magnitude: is |d| at least 2^k? -/
def Dy.big (d : Dy) (k : Int) : Bool := d.m != 0 && decide (k ≤ d.log2)

def exp32 (w : Nat) : Nat :=
  match dec32 w with
  | .nan => nan32
  | .inf n => if n then 0 else infF 8 23 false
  | .zero _ => 0x3F800000
  | .fin d => if d.big 8 then (if d.m < 0 then 0 else infF 8 23 false) else dy32 (expDy d)

/-- 2^x. -/
def exp2_32 (w : Nat) : Nat :=
  match dec32 w with
  | .nan => nan32
  | .inf n => if n then 0 else infF 8 23 false
  | .zero _ => 0x3F800000
  | .fin d =>
    if d.big 8 then (if d.m < 0 then 0 else infF 8 23 false)
    else
      let k := d.floor 0
      let r := (d.add (Dy.ofInt (-k))).fix
      dy32 ⟨expSmall (r * ln2Fix / pow2 fpb), k - fpb⟩

def ln32 (w : Nat) : Nat :=
  match dec32 w with
  | .nan => nan32
  | .inf n => if n then nan32 else infF 8 23 false
  | .zero _ => infF 8 23 true
  | .fin d => if d.m < 0 then nan32 else dy32 (lnDy d)

def recip32 (w : Nat) : Nat := div32 0x3F800000 w

def rsqrt32 (w : Nat) : Nat :=
  match dec32 w with
  | .nan => nan32
  | .inf n => if n then nan32 else 0
  | .zero n => infF 8 23 n
  | .fin d =>
    if d.m < 0 then nan32
    else
      let m := d.m.natAbs
      let odd : Nat := (d.e % 2).toNat
      let x := 2 ^ 400 / (m * 2 ^ odd)
      let r := isqrt x
      dy32 ⟨2 * r + (if r * r * (m * 2 ^ odd) = 2 ^ 400 then 0 else 1), -(d.e - odd) / 2 - 201⟩

def tanh32 (w : Nat) : Nat :=
  match dec32 w with
  | .nan => nan32
  | .inf n => if n then 0xBF800000 else 0x3F800000
  | .zero n => enc32 (.zero n)
  | .fin d =>
    if d.big 6 then (if d.m < 0 then 0xBF800000 else 0x3F800000)
    else
      let t := (expDy ((d.abs.shift 1).neg)).fix
      let q := (pow2 fpb - t) * pow2 fpb / (pow2 fpb + t)
      -- below 2^−200 the result rounds to the argument itself
      let r : Dy := if decide (d.log2 < -100) then d.abs else ⟨q, -(fpb : Int)⟩
      dy32 (if d.m < 0 then r.neg else r)

def sigmoid32 (w : Nat) : Nat :=
  match dec32 w with
  | .nan => nan32
  | .inf n => if n then 0 else 0x3F800000
  | .zero _ => 0x3F000000
  | .fin d =>
    if d.big 8 then (if d.m < 0 then 0 else 0x3F800000)
    else
      let t := expDy d
      dy32 (divDy t (t.add (Dy.ofInt 1)))

def softplus32 (w : Nat) : Nat :=
  match dec32 w with
  | .nan => nan32
  | .inf n => if n then 0 else infF 8 23 false
  | .zero _ => dy32 ⟨ln2Fix, -(fpb : Int)⟩
  | .fin d =>
    if d.big 8 then (if d.m < 0 then 0 else w)
    else
      let t := expDy d
      -- ln(1 + t) = 2 × atanh(t ÷ (2 + t)) for small t
      if decide (d.m < 0) && d.big 0 then
        let z := (divDy t (t.add (Dy.ofInt 2))).fix
        dy32 ⟨2 * atanhFix z, -(fpb : Int)⟩
      else dy32 (lnDy (t.add (Dy.ofInt 1)))

/-- α × (e^y − 1), correctly rounded. -/
def elu32 (alpha w : Nat) : Nat :=
  match dec32 w with
  | .nan => nan32
  | .inf _ => mul32 alpha 0xBF800000
  | .zero _ => mul32 alpha 0
  | .fin d =>
    match dec32 alpha with
    | .fin a =>
      let t : Dy := if d.big 8 then ⟨1 - pow2 fpb, -(fpb : Int)⟩ else ⟨expSmallOrFull d - pow2 fpb, -(fpb : Int)⟩
      encSigned (.fin (a.mul t))
    | _ => mul32 alpha (if d.m < 0 then 0xBF800000 else 0x3F800000)
where
  /-- e^y in fixed point. -/
  expSmallOrFull (d : Dy) : Int := (expDy d).fix

/-- The activation of Table 2.4 at a binary32 word (R58). -/
def activate (code p0 p1 y : Nat) : Nat :=
  if isNan32 y then nan32
  else
    let pos := lt32 0 y
    match code with
    | 0 => y
    | 1 => if pos then y else 0
    | 2 => if pos then y else mul32 p0 y
    | 3 => sigmoid32 y
    | 4 => tanh32 y
    | 5 => if pos then y else elu32 p0 y
    | 6 => softplus32 y
    | 7 => min32 (max32 y p0) p1
    | 8 => min32 (max32 y 0) 0x40C00000
    | _ => y

/-- The derivative formed from the saved output (Table 3.5, R103). -/
def derivative (code p0 p1 y : Nat) : Nat :=
  let one := 0x3F800000
  if isNan32 y then nan32
  else
    let pos := lt32 0 y
    match code with
    | 0 => one
    | 1 => if pos then one else 0
    | 2 => if pos then one else p0
    | 3 => mul32 y (sub32 one y)
    | 4 => sub32 one (mul32 y y)
    | 5 => if pos then one else add32 y p0
    | 6 => sub32 one (exp32 (negate32 y))
    | 7 => if lt32 p0 y && lt32 y p1 then one else 0
    | 8 => if pos && lt32 y 0x40C00000 then one else 0
    | _ => one

/-- A sum over elements as the pairwise tree of R112, over a list padded with +0 to a power of two. -/
def treeFold (f : Nat → Nat → Nat) : Nat → List Nat → Nat
  | 0, l => l.headD 0
  | n + 1, l =>
    let rec pairs : List Nat → List Nat
      | a :: b :: t => f a b :: pairs t
      | l => l
    treeFold f n (pairs l)

/-- The list padded with +0 to the next power of two, folded (R112). -/
def treeSum (f : Nat → Nat → Nat) (l : List Nat) : Nat :=
  let k := log2Up l.length
  treeFold f k (l ++ List.replicate (2 ^ k - l.length) 0)

/-! ### Conversions into the narrow formats -/

/-- Formats of Table 6.3: 0 A8, 1 G16E5, 2 G16E8, 3 B16, 4 F32. -/
abbrev fmtA8 : Nat := 0
abbrev fmtE5 : Nat := 1
abbrev fmtE8 : Nat := 2
abbrev fmtB16 : Nat := 3
abbrev fmtF32 : Nat := 4

/-- What a conversion produced: the code, overflow, and underflow (R128, R129). -/
structure Conv where
  code  : Nat
  ovf   : Bool
  under : Bool
deriving DecidableEq, Repr

/-- Conversion of a binary32 word into G16E5 or G16E8 under bias β (R128). -/
def toG16 (eb fb : Nat) (beta : Int) (y : Nat) : Conv :=
  match dec32 y with
  | .nan => ⟨nanF eb fb, false, false⟩
  | .inf n => ⟨infF eb fb n - 1, true, false⟩
  | .zero n => ⟨encodeF eb fb (.zero n), false, false⟩
  | .fin d =>
    let x := d.shift (-beta)
    let r := roundF eb fb x
    let n := decide (d.m < 0)
    if overF eb fb r then ⟨infF eb fb n - 1, true, false⟩
    else ⟨encF eb fb n r, false, decide (r.1 < 2 ^ fb)⟩

/-- A block of two's-complement mantissas with a shared exponent (R129), from the values of one block. -/
structure Block where
  e     : Nat
  ms    : List Nat
  ovf   : Bool
  under : List Bool
deriving DecidableEq, Repr

/-- Conversion into B16 or B16/64 under bias β (R129). -/
def toB16 (beta : Int) (ys : List Nat) : Block :=
  let xs := ys.map (fun y => match dec32 y with | .fin d => Val.fin (d.shift (-beta)) | v => v)
  let tops := xs.filterMap (fun v => match v with | .fin d => some d.log2 | _ => none)
  let e0 : Int := match tops with
    | [] => 0
    | t :: ts => max 0 ((ts.foldl max t) + 128)
  let m (e : Int) (d : Dy) : Int := d.rne (e - 142)
  let e1 := if xs.any (fun v => match v with | .fin d => decide (32768 ≤ (m e0 d).natAbs) | _ => false) then e0 + 1 else e0
  let ovf := decide (255 < e1) || xs.any (fun v => match v with | .inf _ => true | _ => false)
  let e := min 255 e1
  let clamp (x : Int) : Int := max (-32767) (min 32767 x)
  { e := e.toNat
    ms := xs.map (fun v => match v with
      | .nan => 0x8000
      | .inf n => unsigned 16 (if n then -32767 else 32767)
      | .zero _ => 0
      | .fin d => unsigned 16 (clamp (m e d)))
    ovf := ovf
    under := xs.map (fun v => match v with | .fin d => decide (m e d = 0) | _ => false) }

/-- Conversion of non-negative values into U16 (R130). -/
def toU16 (ys : List Nat) : Block :=
  let ds := ys.map val32
  let tops := (ds.filter (fun d => d.m != 0)).map Dy.log2
  let m (e : Int) (d : Dy) : Int := d.rne (e - 142)
  let e : Int := match tops with
    | [] => 0
    | t :: ts =>
      let e0 := max 0 (min 255 ((ts.foldl max t) + 127))
      if ds.any (fun d => decide (65536 ≤ m e0 d)) then e0 + 1 else e0
  { e := e.toNat, ms := ds.map (fun d => (m e d).toNat), ovf := false, under := [] }

/-- Conversion of an output to A8 with exponent e_o (R61): the byte and whether it counts as clamped. -/
def toA8 (eo : Int) (y : Nat) : Nat × Bool :=
  match dec32 y with
  | .nan => (0, true)
  | .inf n => ((if n then 0x80 else 0) + 127, true)
  | .zero _ => (0, false)
  | .fin d =>
    let m := (d.abs.rne eo).toNat
    let mag := min 127 m
    if mag = 0 then (0, false) else ((if d.m < 0 then 0x80 else 0) + mag, decide (127 < m))

/-- Widening (R132): value of a stored element. A8 under exponent e. -/
def ofA8 (e : Int) (b : Nat) : Val :=
  let m := b % 128
  if m = 0 then .zero (decide (128 ≤ b)) else .fin ⟨if 128 ≤ b then -(m : Int) else m, e⟩

/-- A block mantissa under exponent E and bias β; 0x8000 means NaN. -/
def ofB16 (e : Nat) (beta : Int) (m : Nat) : Val :=
  if m = 0x8000 then .nan else if m = 0 then .zero false else .fin ⟨signed 16 m, (e : Int) - 142 + beta⟩

/-- A G16 code under bias β. -/
def ofG16 (eb fb : Nat) (beta : Int) (w : Nat) : Val :=
  match decodeF eb fb w with
  | .fin d => .fin (d.shift beta)
  | v => v

/-- M40 masters (Table 4.2). -/
def dec40 (w : Nat) : Val := decodeF 8 31 w
def enc40 (v : Val) : Nat := encodeF 8 31 v
/-- M40 narrowed to binary32 (R132). -/
def narrow40 (w : Nat) : Nat := encSigned (dec40 w)
/-- Binary32 widened to M40, exactly. -/
def widen40 (w : Nat) : Nat := enc40 (dec32 w)
/-- θ − Δ rounded once to M40 (R234, R252). -/
def sub40 (th d : Nat) : Nat := enc40 ((dec40 th).add (dec32 (negate32 d)))

/-- Y16 of a binary32 word (R224). -/
def toY16 (y : Nat) : Nat :=
  let t := y / 65536
  if isFin32 y && !isZero32 y && t % 0x8000 == 0 then t + 1 else t

/-! ### Leaf form (R79) and shadow levels (R83) -/

/-- The leaf form of the 64 values of one operand over one leaf: exponent and mantissas. -/
def leafForm (xs : List Dy) : Int × List Int :=
  let tops := (xs.filter (fun d => d.m != 0)).map Dy.log2
  match tops with
  | [] => (0, xs.map (fun _ => 0))
  | t :: ts =>
    let e := (ts.foldl max t) - 14
    let ms := xs.map (fun d => d.rne e)
    if ms.any (fun m => m.natAbs == 32768) then (e + 1, xs.map (fun d => d.rne (e + 1))) else (e, ms)

/-- The level of a 5-bit code (R40); the reserved code expands as 0 (R83). -/
def levelOf (code : Nat) : Int := if code % 32 = 16 then 0 else signed 5 code

/-- The 5-bit code of a level. -/
def codeOf (w : Int) : Nat := unsigned 5 w

/-- The shadow level of R83 in units of 1/1,024 level. -/
def shadow (kappa : Nat) (omega : Int) (w : Int) : Int := rneShift ((kappa : Int) * w) 5 + omega * w.sign

/-! ### SipHash-2-4 and check sums -/

abbrev m64 : Nat := 2 ^ 64

def rotl64 (x n : Nat) : Nat := (x * 2 ^ n + x / 2 ^ (64 - n)) % m64

/-- One SipRound. -/
def sipRound (v : Nat × Nat × Nat × Nat) : Nat × Nat × Nat × Nat :=
  let (v0, v1, v2, v3) := v
  let v0 := (v0 + v1) % m64
  let v1 := rotl64 v1 13 ^^^ v0
  let v0 := rotl64 v0 32
  let v2 := (v2 + v3) % m64
  let v3 := rotl64 v3 16 ^^^ v2
  let v0 := (v0 + v3) % m64
  let v3 := rotl64 v3 21 ^^^ v0
  let v2 := (v2 + v1) % m64
  let v1 := rotl64 v1 17 ^^^ v2
  let v2 := rotl64 v2 32
  (v0, v1, v2, v3)

/-- SipHash-2-4 of a message given as its little-endian 64-bit words, its length a multiple of 8 (R147, R209). -/
def sipHash (key : Nat) (words : List Nat) : Nat :=
  let k0 := key % m64
  let k1 := key / m64 % m64
  let init := (0x736f6d6570736575 ^^^ k0, 0x646f72616e646f6d ^^^ k1, 0x6c7967656e657261 ^^^ k0, 0x7465646279746573 ^^^ k1)
  let absorb (v : Nat × Nat × Nat × Nat) (m : Nat) : Nat × Nat × Nat × Nat :=
    let (v0, v1, v2, v3) := sipRound (sipRound (v.1, v.2.1, v.2.2.1, v.2.2.2 ^^^ m))
    (v0 ^^^ m, v1, v2, v3)
  let v := (words ++ [words.length * 8 % 256 * 2 ^ 56]).foldl absorb init
  let (v0, v1, v2, v3) := sipRound (sipRound (sipRound (sipRound (v.1, v.2.1, v.2.2.1 ^^^ 0xff, v.2.2.2))))
  v0 ^^^ v1 ^^^ v2 ^^^ v3

/-- One reflected step of CRC-32C (polynomial 0x1EDC_6F41, R468). -/
def crc32cBit (c : Nat) : Nat := if c % 2 = 1 then (c / 2) ^^^ 0x82F63B78 else c / 2

/-- CRC-32C of a list of bytes. -/
def crc32c (l : List Byte) : Nat :=
  (l.foldl (fun c b => Nat.repeat crc32cBit 8 (c ^^^ b.toNat)) 0xFFFFFFFF) ^^^ 0xFFFFFFFF

/-- One step of CRC-64 with the ECMA-182 polynomial, not reflected (R205). -/
def crc64Bit (c : Nat) : Nat := if 2 ^ 63 ≤ c then (c * 2 % m64) ^^^ 0x42F0E1EBA9EA3693 else c * 2

/-- The block check of R205. -/
def crc64 (l : List Byte) : Nat :=
  l.foldl (fun c b => Nat.repeat crc64Bit 8 (c ^^^ (b.toNat * 2 ^ 56))) 0

/-! ### The reference order (R146 to R149) -/

/-- The draw of R147. -/
def nodeDraw (seed step result tree level elem pos : Nat) : Nat :=
  sipHash seed [step % m64, result % 2 ^ 32 + (tree + 256 * level) * 2 ^ 32, elem % m64, pos % m64] % 2 ^ 32

/-- What the draws of one contraction or gathering depend on. -/
structure TreeCtx where
  seed   : Nat
  step   : Nat
  result : Nat
  tree   : Nat
deriving DecidableEq, Repr

/-- A node of value n × 2^u, normalised so that 2^46 ≤ |n| < 2^47. -/
def mkNode (n : Int) (u : Int) : Node :=
  if n = 0 then .zero
  else
    let l : Nat := Nat.log2 n.natAbs
    let k : Int := ((46 - l : Nat) : Int)
    if l < 46 then .num (n * pow2 k) (u - k) else .num n u

/-- Combination of two nodes (R147). -/
def combine (x : TreeCtx) (level elem pos : Nat) (a b : Node) : Node :=
  match a, b with
  | .nonfin, _ => .nonfin
  | _, .nonfin => .nonfin
  | .zero, n => n
  | n, .zero => n
  | .num na ua, .num nb ub =>
    let s := Dy.add ⟨na, ua⟩ ⟨nb, ub⟩
    if s.m = 0 then .zero
    else
      let u0 := max ua ub
      let u := if u0 + 47 ≤ s.log2 then u0 + 1 else u0
      let fl := s.floor u
      let n : Int :=
        if 12 ≤ level then
          let f := ((Dy.add s ⟨-fl, u⟩).floor (u - 32)).toNat
          fl + (if nodeDraw x.seed x.step x.result x.tree level elem pos < f then 1 else 0)
        else s.rne u
      if n.natAbs = 2 ^ 47 then mkNode (n / 2) (u + 1) else mkNode n u

/-- The node of a leaf value or of a contribution: its exact value, rounded to 47 bits only where it has more. -/
def leafNode (v : Val) : Node :=
  match v with
  | .zero _ => .zero
  | .fin d =>
    if d.m = 0 then .zero
    else
      let u := d.log2 - 46
      let n := d.rne u
      if n.natAbs = 2 ^ 47 then mkNode (n / 2) (u + 1) else mkNode n u
  | _ => .nonfin

/-- The exact value of a node. -/
def Node.val : Node → Val
  | .zero => .zero false
  | .num n u => .fin ⟨n, u⟩
  | .nonfin => .nan

/-- The 64-bit node word of Table 4.6. -/
def Node.word : Node → Nat
  | .zero => 0
  | .nonfin => 2 ^ 60
  | .num n u => n.natAbs + (if n < 0 then 2 ^ 47 else 0) + unsigned 12 u * 2 ^ 48

/-- The node of a node word. -/
def Node.ofWord (w : Nat) : Node :=
  if bit w 60 then .nonfin
  else
    let m : Nat := w % 2 ^ 47
    if m = 0 then .zero else .num (if bit w 47 then -(m : Int) else (m : Int)) (signed 12 (bits w 59 48))

/-- Push a level-0 node on a node stack that holds one node for each level under way (R92): two nodes of one level
combine into one of the next. `idx` is the node's index at its level. -/
def pushNode (x : TreeCtx) (elem : Nat) : Nat → Nat → Nat → Node → List (Nat × Node) → List (Nat × Node)
  | 0, lvl, _, n, st => (lvl, n) :: st
  | fuel + 1, lvl, idx, n, st =>
    match st with
    | (l, a) :: rest =>
      if l = lvl then pushNode x elem fuel (lvl + 1) (idx / 2) (combine x (lvl + 1) elem (idx / 2) a n) rest
      else (lvl, n) :: st
    | [] => [(lvl, n)]

/-- The root of the reference tree over a list of level-0 nodes that starts at index `first` of its level, padded with
zero nodes to 2^k (R146). -/
def treeRoot (x : TreeCtx) (elem base : Nat) : Nat → Nat → List Node → Node
  | 0, _, l => l.headD .zero
  | k + 1, first, l =>
    let rec up (i : Nat) : List Node → List Node
      | a :: b :: t => combine x (base + 1) elem i a b :: up (i + 1) t
      | l => l
    treeRoot x elem (base + 1) k (first / 2) (up (first / 2) l)

end Sys2Proof.Machine
end

