-- ==== Sys2Proof/Machine/Claims.lean ====
section
/-!
DEFINITION. Claims: resources (R376, R377), binding (R378), commands and clearing (R379, R396 to R399) and VOLATILE
(R380).
-/

namespace Sys2Proof.Machine

/-! ### Resources -/

/-- Live channels of a tier (R208, R214). -/
def State.liveChannels (s : State) (slow : Bool) : Nat :=
  if slow then 24 - s.slow.retired.length else 256 - s.fast.retired.length

/-- An ask rounded up to whole stripes (R376). -/
def State.roundAsk (s : State) (slow : Bool) (ask : Nat) : Nat :=
  let c := s.liveChannels slow
  ceilDiv ask (max 1 c) * c

/-- The stopes of a bit map of 32 words on a claim page. -/
def State.stopeMap (s : State) (n off : Nat) : List Nat :=
  (List.range 32).foldr (fun w acc =>
    let x := s.rd (Page.CLM n) (off + 4 * w)
    if x = 0 then acc else ((List.range 32).filter (fun b => bit x b)).map (fun b => 32 * w + b) ++ acc) []

/-- Shares in force of all claims from 1. -/
def State.sumShares (s : State) (off : Nat) : Nat := claimNos.foldl (fun a c => a + s.rd (Page.CLM c) off) 0

/-- Blocks of the prospector's 64 GiB and 256 GiB (R527). -/
abbrev proFast : Nat := 2 ^ 24
abbrev proSlow : Nat := 2 ^ 26

/-- Stopes that the prospector holds (R527) until it has drained. -/
def State.prospectorHolds (s : State) (lp : Nat) : Bool :=
  let st := s.fld Page.PRO Reg.PRO.PRO_STATE 2 0
  decide (896 ≤ lp) && (st == 1 || st == 2 || st == 3)

/-- Why an APPLY is refused (R377), 0 where it holds. -/
def State.applyRefusal (s : State) (n : Nat) : Nat :=
  let page := Page.CLM n
  let asked := s.stopeMap n Reg.CLM.STOPES_ASK
  let owned := s.stopeMap n Reg.CLM.STOPES_OWNED
  let fast := s.roundAsk false (s.rd64 page Reg.CLM.FAST_ASK_LO)
  let slow := s.roundAsk true (s.rd64 page Reg.CLM.SLOW_ASK_LO)
  let fast0 := s.rd64 page Reg.CLM.FAST_GRANT_LO
  let slow0 := s.rd64 page Reg.CLM.SLOW_GRANT_LO
  let js := s.jobState n
  let entries := match s.job? n with
    | some j => j.desc.fixed + j.desc.free
    | none => 0
  let hoist := s.rd page Reg.CLM.HOIST_ASK
  if s.claimState n = 4 then 6
  else if (js ≠ 0 ∧ js ≠ 6) ∧ (asked ≠ owned ∨ fast < fast0 ∨ slow < slow0) then 1
  else if asked.any (fun l => !owned.contains l && (s.ownerOf l != 0 || s.prospectorHolds l)) then 2
  else if fast0 + s.rd64 (Page.CLM 0) Reg.CLMT.FAST_FREE_LO < fast ∨ slow0 + s.rd64 (Page.CLM 0) Reg.CLMT.SLOW_FREE_LO < slow then 3
  else if 64 < s.sumShares Reg.CLM.DRIFT_SHARE - s.rd page Reg.CLM.DRIFT_SHARE + s.rd page Reg.CLM.DRIFT_ASK then 4
  else if hoist < entries then 5
  else if s.rd page Reg.CLM.HOIST_SHARE + s.rd (Page.CLM 0) Reg.CLMT.HOIST_FREE < hoist then 7
  else 0

/-- A new interleave key of a claim in a tier: in use at once where nothing has been laid out under another, otherwise from the
claim's next migration there (R211, R213). -/
def Layout.rekey (y : Layout) (retired : List Nat) (key : Nat) : Layout :=
  match y.maps with
  | [] => { maps := [{ key := key, retired := retired, moved := 0, rows := [] }], next := none }
  | _ => { y with next := some key }

/-- New interleave keys for both tiers of a claim (R211). -/
def State.drawInterleave (s : State) (n : Nat) : State :=
  let k1 := (s.draw 128).toNat
  let s1 := s.drawn
  let k2 := (s1.draw 128).toNat
  s1.drawn.modClaim n (fun x => { x with
    fast := x.fast.rekey s.fast.retired k1, slow := x.slow.rekey s.slow.retired k2, keys := true })

/-- Event 0x8008. -/
def State.recordResources (s : State) (n refusal : Nat) : State :=
  let page := Page.CLM n
  s.record 0x8008 Src.deputy (some n) (items [n, s.rd64 page Reg.CLM.FAST_GRANT_LO, s.rd64 page Reg.CLM.SLOW_GRANT_LO,
    s.rd page Reg.CLM.DRIFT_SHARE, s.rd page Reg.CLM.HOIST_SHARE, refusal])

/-- A completed pair on APPLY: the asks are checked and staged for the next commit tally; added stripes begin to
fill. -/
def State.applyAct (s : State) (n v : Nat) : State × Bool :=
  let page := Page.CLM n
  let why := s.applyRefusal n
  if !bit v 0 then refusedWrite s
  else if why ≠ 0 then
    refusedWrite (((s.setFld page Reg.CLM.CLAIM_STATE 23 16 why).raise page 2).recordResources n why)
  else
    let asked := s.stopeMap n Reg.CLM.STOPES_ASK
    let owned := s.stopeMap n Reg.CLM.STOPES_OWNED
    let fast := s.roundAsk false (s.rd64 page Reg.CLM.FAST_ASK_LO)
    let slow := s.roundAsk true (s.rd64 page Reg.CLM.SLOW_ASK_LO)
    let more := decide (s.rd64 page Reg.CLM.FAST_GRANT_LO < fast) || decide (s.rd64 page Reg.CLM.SLOW_GRANT_LO < slow)
    let s1 := s.setFld page Reg.CLM.CLAIM_STATE 23 16 0
    let s2 := s1.on (s.claimState n == 0) (fun u => u.drawInterleave n)
    let s3 := s2.modClaim n (fun x => { x with
      applied := some [fast, slow, s.rd page Reg.CLM.DRIFT_ASK, s.rd page Reg.CLM.HOIST_ASK], filling := more
      added := asked.filter (fun l => !owned.contains l), removed := owned.filter (fun l => !asked.contains l) })
    done (s3.setFld page Reg.CLM.CLAIM_STATE 6 6 (if more then 1 else 0))

/-- APPLY (R377). -/
def execApply (src : Source) (n : Nat) (v : Word) (s : State) : Out :=
  perform (.apply src n v) s
    (s.guarded src (Page.CLM n) Reg.CLM.APPLY v.toNat (fun u => u.applyAct n v.toNat))

/-- STRIPE_FILL_DONE (R377): the added stripes are filled with zeros, each block with its check. -/
def execStripeFillDone (n : Nat) (s : State) : Out :=
  perform (.stripeFillDone n) s
    ((s.modClaim n (fun x => { x with filling := false })).setFld (Page.CLM n) Reg.CLM.CLAIM_STATE 6 6 0)

/-! ### Keys (R388 to R390, R393) -/

/-- The bytes of an ASCII string without a terminator. -/
def ascii (x : String) : List Byte := x.toUTF8.toList.map (fun b => BitVec.ofNat 8 b.toNat)

/-- The claim root K_r of Table 11.5, from the claim key pair drawn at BIND and the operator key. -/
def State.claimRoot (s : State) (c : Nat) : List Byte :=
  Config.hkdf (Config.ecdhX (s.claim c).keyDraw (s.claim c).opKey) (hashBytes identityHash)
    (ascii "AQT claim" ++ leBytes 1 c ++ leBytes 8 (s.rd (Page.CLM c) Reg.CLM.BIND_COUNT)) 48

/-- The boot nonce: 16 bytes drawn at the last power-up. -/
def State.bootNonce (s : State) : List Byte := leBytes 16 (Config.freeBits 128 s.boot.nonce).toNat

/-- The memory key of a claim in a tier, none while the claim has none (R397); claim 0's is drawn at each power-up. -/
def State.memoryKey (s : State) (c : Nat) (slow : Bool) : Option (List Byte) :=
  if c = 0 then some (leBytes 64 (Config.freeBits 512 (2 * s.boot.nonce + if slow then 1 else 0)).toNat)
  else if (s.claim c).keys then
    some (Config.hkdfExpand (s.claimRoot c) (ascii (if slow then "xts slow" else "xts fast") ++ s.bootNonce) 64)
  else none

/-- What a DRAM stack holds for a block (R389): one XTS data unit of the block, its check and 8 zero bytes, with the claim-relative block
number as tweak. Nothing in the module but the tier's edge sees it. -/
def State.dramUnit (s : State) (c addr : Nat) : Option (List Byte) :=
  (s.memoryKey c (addr / 2 ^ 46 == 1)).map (fun k =>
    Config.xts k (addr / 4096) (s.rdBytes c (addr / 4096 * 4096) 4096 ++ leBytes 8 (crc64 (s.rdBytes c (addr / 4096 * 4096) 4096)) ++ leBytes 8 0))

/-! ### Clearing (R396 to R399) -/

/-- The counters of page STP and their CTR_OVF return to zero (R71). -/
def State.zeroStp (s : State) (lp : Nat) : State :=
  let offs := (List.range 11).map (fun i => 0x50 + 4 * i) ++ (List.range 14).map (fun i => 0x180 + 4 * i)
  s.each offs (fun u o => (u.wrB 0 (Page.STP lp) o 0).wrB stagedBank (Page.STP lp) o 0)

/-- Clear a physical stope (R396): work in flight, weight cells at level 0, held codes, coefficients and digital
state; the ageing state, the trims and the witness pattern remain. -/
def State.clearStope (s : State) (p : Nat) : State :=
  let s1 := s.abandonTiles p tcClear (fun _ => true)
  let s2 := s1.modStope p (fun x => { x with
    arrs := x.arrs.map (fun e => (e.1, { e.2 with
      codes := [], conv := [], convT := [], cell := [], cellT := [], jump := true, fitted := false, fitDue := false
      job := [], vec := none, closed := false, quiet := false, announced := false, refresh := [], assaying := false
      stubborn := [], served := 0 }))
    queue := [], wide := none, lists := [], sides := [], clearing := none, clearFail := false
    purpose := 0, outOf := 31, copyFit := false, prep := none, prepared := false, slotted := false, reliefHeld := false })
  let s3 := (s2.setCycle p 0 31).meshDrop (fun q => q.kind == 2 && q.dst == p)
  match s3.logicalOf p with
  | some l => s3.zeroStp l
  | none => s3

/-- The idle relief stope prepared for a stope is cleared with it (R396). -/
def State.clearPrepared (s : State) (p : Nat) : State :=
  match s.stopes.find? (fun e => e.2.prep == some p) with
  | some e => s.clearStope e.1
  | none => s

/-- The physical stopes that serve a claim's logical stopes. -/
def State.claimPhysical (s : State) (c : Nat) : List Nat :=
  ((s.claimStopes c).map s.serving).filter (fun p => decide (p < 1056))

/-- Clearing of a claim goes on once its job is not running any more (R397, R398): the job is unloaded, memory and its keys go, and
the stopes start to clear. -/
def State.clearClaim (s : State) (n : Nat) : State :=
  let page := Page.CLM n
  let s3 := (s.dropWork n 3 (fun _ => false)).unload n 0
  let blocks := s.rd64 page Reg.CLM.FAST_GRANT_LO + s.rd64 page Reg.CLM.SLOW_GRANT_LO
  let s4 := { s3.keepMem (fun k => k / 2 ^ 48 != n) with
    marks := s3.marks.filter (fun e => e.1 / 2 ^ 36 != n)
    mill := { s3.mill with
      queue := s3.mill.queue.filter (fun e => e.1 != n), waiting := s3.mill.waiting.filter (fun e => e.1 != n)
      freezing := s3.mill.freezing.filter (fun e => e.1 != n), sending := s3.mill.sending.filter (fun e => e.1 != n)
      hosting := s3.mill.hosting.filter (fun h => h.claim != n) } }
  let s5 := s4.modClaim n (fun x => { x with
    fast := Layout.empty, slow := Layout.empty, keys := false, left := s3.claimStopes n, clrBlocks := blocks
    lostList := [], lostMore := false, applied := none, filling := false })
  let s6 := s5.each (s5.claimPhysical n) (fun u p => u.modStope p (fun x => { x with clearing := some n }))
  let s7 := s6.each ((s6.claimStopes n).filter (fun l => decide (1056 ≤ s6.serving l))) (fun u l => u.zeroStp l)
  ((s7.showLost n).setFld page Reg.CLM.CLAIM_STATE 15 8 0).setClaimState n 4 (s.claim n).command

/-- Clearing of a claim begins (R379, R398): CLEAR_PENDING, and its sessions end. A running job is aborted as by R178 and reads READY
after the next seal, before clearing goes on (Table 5.10). -/
def State.startClearing (s : State) (n cmd : Nat) : State :=
  let s1 := (s.setFld (Page.CLM n) Reg.CLM.CLAIM_STATE 4 4 1).modClaim n (fun x => { x with command := cmd })
  let s2 := s1.endSessions 5 (fun _ r c => r == 1 && c == n)
  if s2.jobActive n then s2.abortJob n else s2.clearClaim n

/-- Claims whose clearing waited for their job: it goes on at the seal after which the job runs no more. -/
def State.clearWaiting (s : State) : State :=
  let due := (List.range 64).filter (fun n => n != 0 && s.fld (Page.CLM n) Reg.CLM.CLAIM_STATE 4 4 == 1 && s.claimState n != 4 && !s.jobActive n)
  s.each due (fun u n => u.clearClaim n)

/-- A command of Table 11.2. It is refused while the claim is CLEARING, on an EMPTY claim, and, for UNBIND and WIPE,
on a claim that is not bound (log 10). -/
def State.claimCmdAct (s : State) (n v : Nat) : State × Bool :=
  let cmd := bits v 3 0
  let st := s.claimState n
  if st = 4 ∨ st = 0 ∨ (cmd ≠ 1 ∧ st = 1) ∨ s.fld (Page.CLM n) Reg.CLM.CLAIM_STATE 4 4 = 1 then
    refusedWrite (s.record 0x8005 Src.deputy (some n) (items [n, st, st, cmd, s.rd (Page.CLM n) Reg.CLM.BIND_COUNT]))
  else done (s.startClearing n cmd)

/-- DESTROY (R379). -/
def execDestroy (src : Source) (n : Nat) (v : Word) (s : State) : Out :=
  perform (.destroy src n v) s
    (s.guarded src (Page.CLM n) Reg.CLM.CLAIM_CMD v.toNat (fun u => u.claimCmdAct n v.toNat))

/-- UNBIND (R379). -/
def execUnbind (src : Source) (n : Nat) (v : Word) (s : State) : Out :=
  perform (.unbind src n v) s
    (s.guarded src (Page.CLM n) Reg.CLM.CLAIM_CMD v.toNat (fun u => u.claimCmdAct n v.toNat))

/-- WIPE (R379). -/
def execWipe (src : Source) (n : Nat) (v : Word) (s : State) : Out :=
  perform (.wipe src n v) s
    (s.guarded src (Page.CLM n) Reg.CLM.CLAIM_CMD v.toNat (fun u => u.claimCmdAct n v.toNat))

/-- Pass a logical stope to a claim: PAGE_CLAIM, and its bit and count on the claim pages. -/
def State.giveStope (s : State) (lp n : Nat) : State :=
  let old := s.ownerOf lp
  let off := Reg.CLM.STOPES_OWNED + 4 * (lp / 32)
  if old = n then s
  else
    let s1 := s.setFld (Page.STP lp) Reg.HDR.PAGE_CLAIM 5 0 n
    let s2 := s1.on (decide (old ≠ 0)) (fun u =>
      (u.setFld (Page.CLM old) off (lp % 32) (lp % 32) 0).setFld (Page.CLM old) Reg.CLM.STOPE_COUNT 10 0
        (u.fld (Page.CLM old) Reg.CLM.STOPE_COUNT 10 0 - 1))
    let s3 := s2.on (decide (n ≠ 0)) (fun u =>
      (u.setFld (Page.CLM n) off (lp % 32) (lp % 32) 1).setFld (Page.CLM n) Reg.CLM.STOPE_COUNT 10 0
        (u.fld (Page.CLM n) Reg.CLM.STOPE_COUNT 10 0 + 1))
    let free := s3.fld (Page.CLM 0) Reg.CLMT.FREE_STOPES 10 0
    s3.setFld (Page.CLM 0) Reg.CLMT.FREE_STOPES 10 0 (if n = 0 then free + 1 else if old = 0 then free - 1 else free)

/-- Grants and shares of a claim, with what they leave unassigned. -/
def State.setGrants (s : State) (n fast slow drift hoist : Nat) : State :=
  let page := Page.CLM n
  let t := Page.CLM 0
  let ff := s.rd64 t Reg.CLMT.FAST_FREE_LO + s.rd64 page Reg.CLM.FAST_GRANT_LO - fast
  let sf := s.rd64 t Reg.CLMT.SLOW_FREE_LO + s.rd64 page Reg.CLM.SLOW_GRANT_LO - slow
  let df := s.rd t Reg.CLMT.DRIFT_FREE + s.rd page Reg.CLM.DRIFT_SHARE - drift
  let hf := s.rd t Reg.CLMT.HOIST_FREE + s.rd page Reg.CLM.HOIST_SHARE - hoist
  let s1 := (((s.wr64 t Reg.CLMT.FAST_FREE_LO ff).wr64 t Reg.CLMT.SLOW_FREE_LO sf).wr t Reg.CLMT.DRIFT_FREE df).wr t Reg.CLMT.HOIST_FREE hf
  (((s1.wr64 page Reg.CLM.FAST_GRANT_LO fast).wr64 page Reg.CLM.SLOW_GRANT_LO slow).wr page Reg.CLM.DRIFT_SHARE drift).wr page Reg.CLM.HOIST_SHARE hoist

/-- What a clearing leaves of the operator key (R398 step 5). -/
def State.dropKey (s : State) (n : Nat) : State :=
  (s.modClaim n (fun x => { x with opKey := [], keyDraw := 0, jobKey := false })).wrWords 0 (Page.CLM n) Reg.CLM.OP_KEY_HASH 0 12

/-- A stope whose cells would not clear loses its rails and is retired (R356, R399). -/
def State.removeRails (s : State) (p : Nat) : State :=
  let s1 := s.modStope p (fun x => { x with railsOff := true, integ := 2, fenced := true })
  if (s.stope p).integ = 2 then s1 else (s1.setFn (Page.STX p) 6).bumpStates 21 11 true

/-- A claim's clearing is complete (R398): what its command leaves. -/
def State.finishClearing (s : State) (n : Nat) : State :=
  let page := Page.CLM n
  let x := s.claim n
  let phys := s.claimPhysical n
  let bad := phys.filter (fun p => (s.stope p).clearFail)
  let s1 := s.each phys (fun u p =>
    let u1 := (u.clearPrepared p).clearStope p
    if bad.contains p then u1.removeRails p else u1)
  let s2 := s1.each (s1.claimStopes n) (fun u l => u.setSeams l 0)
  let s3 := match x.command with
    | 1 => (((s2.dropKey n).each (s2.claimStopes n) (fun u l => u.giveStope l 0)).setGrants n 0 0 0 0)
    | 2 => s2.dropKey n
    | _ => (s2.drawInterleave n).wr page Reg.CLM.BIND_COUNT (s2.rd page Reg.CLM.BIND_COUNT + 1)
  let s4 := (s3.setFld page Reg.CLM.CLAIM_STATE 4 4 0).setFld page Reg.CLM.CLAIM_STATE 15 8 0
  let s5 := s4.record 0x8006 Src.deputy (some n) (items [n, x.left.length, x.clrBlocks, if bad.isEmpty then 1 else 0])
  let s6 := (s5.modClaim n (fun y => { y with command := 0, left := [], clrBlocks := 0 })).raise page 3
  s6.setClaimState n (match x.command with | 1 => 0 | 2 => 1 | _ => 2) x.command

/-- CLEAR_DONE (R398). -/
def execClearDone (n : Nat) (s : State) : Out :=
  perform (.clearDone n) s (if s.claimState n = 4 then s.finishClearing n else s)

/-! ### Binding and VOLATILE -/

/-- A completed pair on BIND: only on a RESERVED claim, with a staged key that lies on the curve. -/
def State.bindAct (s : State) (src : Source) (n v : Nat) : State × Bool :=
  let page := Page.CLM n
  let k := (s.staged src page).take 97
  if !bit v 0 then refusedWrite s
  else if s.claimState n ≠ 1 ∨ !keyOkBind k then
    refusedWrite (s.record 0x8005 Src.deputy (some n) (items [n, s.claimState n, s.claimState n, 0, s.rd page Reg.CLM.BIND_COUNT]))
  else
    let d := s.fresh
    let s1 := (s.drawn.modClaim n (fun x => { x with opKey := k, keyDraw := d })).drawInterleave n
    let s2 := s1.wr page Reg.CLM.BIND_COUNT (s1.rd page Reg.CLM.BIND_COUNT + 1)
    done ((s2.wrWords 0 page Reg.CLM.OP_KEY_HASH (Config.sha384 k).toNat 12).setClaimState n 2 0)
where
  /-- A public key of R373. -/
  keyOkBind (k : List Byte) : Bool := k.length == 97 && k.head? == some 0x04 && Config.onCurve k

/-- BIND (R378). -/
def execBind (src : Source) (n : Nat) (v : Word) (s : State) : Out :=
  perform (.bind src n v) s (s.guarded src (Page.CLM n) Reg.CLM.BIND v.toNat (fun u => u.bindAct src n v.toNat))

/-- A completed pair on VOLATILE. -/
def State.volatileAct (s : State) (n v : Nat) : State × Bool :=
  done ((s.wr (Page.CLM n) Reg.CLM.VOLATILE (v % 2)).setFld (Page.CLM n) Reg.CLM.CLAIM_STATE 3 3 v)

/-- VOLATILE (R380). -/
def execVolatile (src : Source) (n : Nat) (v : Word) (s : State) : Out :=
  perform (.volatile src n v) s
    (s.guarded src (Page.CLM n) Reg.CLM.VOLATILE v.toNat (fun u => u.volatileAct n v.toNat))

/-! ### The commit tally (R377) -/

/-- Staged asks take effect once their stripes are filled: stopes pass, grants and shares show, an EMPTY claim becomes
RESERVED, and APPLIED latches. -/
def State.applyEffect (s : State) (n : Nat) : State :=
  let x := s.claim n
  match x.applied with
  | some [fast, slow, drift, hoist] =>
    if x.filling then s
    else
      let page := Page.CLM n
      let s1 := s.each (x.added ++ x.removed) (fun u l =>
        let p := u.serving l
        if p < 1056 then (u.clearPrepared p).clearStope p else u)
      let s2 := s1.each x.removed (fun u l => (u.giveStope l 0).setSeams l 0)
      let s3 := s2.each x.added (fun u l => (u.giveStope l n).setSeams l 0)
      let s4 := (s3.setGrants n fast slow drift hoist).zeroMem n (4096 * fast) (2 ^ 46)
      let s5 := (s4.zeroMem n (2 ^ 46 + 4096 * slow) (2 ^ 47)).modClaim n (fun y => { y with applied := none, added := [], removed := [] })
      let s6 := ((s5.recordResources n 0).raise page 1)
      s6.on (s.claimState n == 0) (fun u =>
        let u1 := if n < 32 then ((u.setFld (Page.HP 0) Reg.HP.BOUND_A n n 1).setFld (Page.HP 1) Reg.HP.BOUND_A n n 1)
          else ((u.setFld (Page.HP 0) Reg.HP.BOUND_B (n - 32) (n - 32) 1).setFld (Page.HP 1) Reg.HP.BOUND_B (n - 32) (n - 32) 1)
        u1.setClaimState n 1 0)
  | _ => s

end Sys2Proof.Machine
end

