-- ==== Sys2Proof/Machine/HostPorts.lean ====
section
/-!
DEFINITION. Host ports (chapter 13): links, resets of a port, lost hosts, power states, requests outside BAR0, MSI-X
holdoff, claim bindings and failures of link IDE.
-/

namespace Sys2Proof.Machine

/-- The source of a host port. -/
def portSource (port : Nat) : Source := if port = 0 then .portA else .portB

/-- Completer Abort: the completion and HPx.ABORTS. -/
def State.completerAbort (s : State) (src : Source) : State :=
  (s.respond src 2 0).on (src != .monitor) (fun u => u.count (Page.HP src.num) Reg.HP.ABORTS 5 1)

/-- The words of a bank that are a source's own copies: event copies and stream registers (R433, R444). -/
def ownCopy (port key : Nat) : Bool :=
  let off := key % 1024
  key / 4194304 == port && (off == 0x18 || off == 0x1C || (decide (0x28 ≤ off) && decide (off < 0x40)))

/-- Number of transfers that a source has under way. -/
def State.transfers (s : State) (src : Source) : Nat := (s.strmPages src).length

/-- The port's own state returns to reset (R459): configuration space, link, capture buffer, open pairs, stream
contexts and event copies; its session ends under R384. -/
def State.resetPort (s : State) (port : Nat) (perst : Bool) : State :=
  let src := portSource port
  let s0 := s.endSession src 4
  let s1 := s0.each (s0.strmPages src) (fun u p => u.strmEnd src p 7)
  let page := Page.ROL port
  let s2 := (s1.on (s1.fld page Reg.ROL.SESS_STATE 1 0 == 1) (fun u => u.setFld page Reg.ROL.SESS_STATE 13 0 0)).wrWords 0 page Reg.ROL.NONCE 0 12
  let s3 := { s2.keepRegs (fun k => !ownCopy port k) with
    streams := s2.streams.filter (fun e => e.1 / 4096 != port)
    pairs := s2.pairs.filter (fun e => e.1 / 4096 != port)
    caps := s2.caps.filter (fun e => e.1 != port)
    resp := s2.resp.filter (fun e => e.1 != port)
    msi := s2.msi.filter (fun e => e.1 / 64 != port) }
  s3.wr (Page.HP port) Reg.HP.LINK_STATE (if perst || bit (s.rd (Page.HP port) Reg.HP.LINK_STATE) 18 then 2 ^ 18 else 0)

/-- The host of a port is lost (R463): DOWN, LINK_DOWN, LINK_LOSSES and event 0xA002. -/
def State.declareLost (s : State) (port cause sess trans : Nat) : State :=
  let page := Page.HP port
  (((s.setFld page Reg.HP.LINK_STATE 1 0 0).count page Reg.HP.LINK_LOSSES 1 1).raise page 1).record 0xA002 (Src.host port) none
    (items [port, cause, sess, trans])

/-- Sessions open on a port: 1 or 0. -/
def State.sessions (s : State) (port : Nat) : Nat := if s.roleOf (portSource port) = 0 then 0 else 1

/-- PERST (R459, R463): an asserted PERST also declares the host lost. -/
def execPerst (port : Nat) (s : State) : Out :=
  perform (.perst port) s
    ((s.resetPort port true).declareLost port 1 (s.sessions port) (s.transfers (portSource port)))

/-- HOT_RESET (R459). -/
def execHotReset (port : Nat) (s : State) : Out := perform (.hotReset port) s (s.resetPort port false)

/-- FUNCTION_LEVEL_RESET (R459). -/
def execFunctionLevelReset (port : Nat) (s : State) : Out :=
  perform (.functionLevelReset port) s (s.resetPort port false)

/-- What the session of a port notes while the 50 ms of R463 run: sessions and transfers that ended with the link. -/
def State.noteCut (s : State) (port : Nat) (c : Nat × Nat) : State := s.modSess (portSource port) (fun x => { x with cutOff := c })

/-- A port's link leaves DL_Active: the port's own state returns to reset, and the 50 ms of R463 begin. -/
def State.linkFalls (s : State) (port : Nat) : State :=
  (s.resetPort port false).noteCut port (s.sessions port, s.transfers (portSource port))

/-- LINK_DOWN (R459). -/
def execLinkDown (port : Nat) (s : State) : Out := perform (.linkDown port) s (s.linkFalls port)

/-- PERST_RELEASE (R461): the port leaves reset and trains. -/
def execPerstRelease (port : Nat) (s : State) : Out :=
  perform (.perstRelease port) s
    ((s.setFld (Page.HP port) Reg.HP.LINK_STATE 18 18 0).setFld (Page.HP port) Reg.HP.LINK_STATE 1 0 1)

/-- The port enters DL_Active at a rate and width; below 32 GT/s or x16 it is DEGRADED (R453). Configuration requests are
no commands of the model: the host is taken to enable Bus Master and MSI-X when its link comes up (log 45). -/
def State.linkActive (s : State) (port speed width : Nat) (flit : Bool) : State :=
  let page := Page.HP port
  if bit (s.rd page Reg.HP.LINK_STATE) 18 then s
  else
    let slow := decide (speed < 5) || decide (width < 16)
    let was := bit (s.rd page Reg.HP.LINK_STATE) 2
    let w := putBits (putBits (putBits (s.rd page Reg.HP.LINK_STATE) 2 0 (2 + (if slow then 4 else 0))) 6 4 speed) 12 8 width
    let s1 := s.wr page Reg.HP.LINK_STATE (putBits (putBits w 13 13 (if flit then 1 else 0)) 16 15 3)
    let s2 := (((s1.noteCut port (0, 0)).count page Reg.HP.LINK_UPS 0 1).raise page 0).record 0xA001 (Src.host port) none
      (items [port, speed, width, if flit then 1 else 0])
    s2.on (slow && !was) (fun u => (u.raise page 2).record 0xA003 (Src.host port) none (items [port, speed, width]))

/-- LINK_UP (R453). -/
def execLinkUp (port speed width : Nat) (flit : Bool) (s : State) : Out :=
  perform (.linkUp port speed width flit) s (s.linkActive port speed width flit)

/-- HOST_LOST (R463): a link out of DL_Active for 50 ms. -/
def execHostLost (port : Nat) (s : State) : Out :=
  perform (.hostLost port) s
    (if s.fld (Page.HP port) Reg.HP.LINK_STATE 1 0 = 2 then s
    else
      let c := (s.sessOf (portSource port)).cutOff
      ((s.endSession (portSource port) 4).noteCut port (0, 0)).declareLost port 2 (c.1 + s.sessions port)
        (c.2 + s.transfers (portSource port)))

/-- D3HOT_ENTRY (R460). -/
def execD3hotEntry (port : Nat) (s : State) : Out :=
  perform (.d3hotEntry port) s (s.setFld (Page.HP port) Reg.HP.LINK_STATE 17 17 1)

/-- D0_RETURN (R460). -/
def execD0Return (port : Nat) (s : State) : Out :=
  perform (.d0Return port) s (s.setFld (Page.HP port) Reg.HP.LINK_STATE 17 17 0)

/-- UNSUPPORTED_REQUEST (R455): Unsupported Request status, or a poisoned write that is reported and recorded. -/
def execUnsupportedRequest (port : Nat) (kind : OtherRequest) (addr : Nat) (s : State) : Out :=
  perform (.unsupportedRequest port kind addr) s
    (match kind with
    | .poisonedWrite =>
      (s.count (Page.HP port) Reg.HP.UNCORR_ERRORS 4 1).record 0xA006 (Src.host port) none (items [port, addr])
    | _ => s.respond (portSource port) 1 0)

/-- Does a vector's group still hold an enabled event of a port (R458)? -/
def State.groupPending (s : State) (port vec : Nat) : Bool :=
  s.regs.any (fun e =>
    let page := e.1 / 1024 % 4096
    e.1 / 4194304 == port && e.1 % 1024 == Reg.HDR.EVT_FLAG && vectorOf page == vec
      && (e.2.toNat &&& s.rdB port page Reg.HDR.EVT_ENABLE) != 0)

/-- MSI_HOLDOFF_END (R458). -/
def execMsiHoldoffEnd (port vec : Nat) (s : State) : Out :=
  perform (.msiHoldoffEnd port vec) s
    (let m := s.msiOf port vec
    if !m.waits then s
    else if (vec == 63 || s.groupPending port vec) && s.msiOpen port then
      s.setMsi port vec { sent := m.sent + 1, last := s.osc, waits := false }
    else s.setMsi port vec { m with waits := s.groupPending port vec })

/-! ### The configuration header (R454) -/

/-- What a port's configuration header reads as (Table 13.2): the base address registers with the addresses that the host has not
yet written, since configuration writes are no commands of the model (log 45). -/
structure ConfigHeader where
  vendor : Nat
  device : Nat
  revision : Nat
  classCode : Nat
  subVendor : Nat
  subsystem : Nat
  bar0 : Nat
  bar2 : Nat
  bar4 : Nat
  bar5 : Nat
  rom : Nat
  deriving DecidableEq, Repr

/-- Type bits of a base address register: 64-bit memory that is not prefetchable. -/
abbrev barMemory64 : Nat := 4

/-- Bytes behind BAR0, the register pages (R423), and behind BAR2, the MSI-X table and its pending-bit array. -/
abbrev bar0Size : Nat := 0x4000000
abbrev bar2Size : Nat := 0x10000
abbrev msixTable : Nat := 0
abbrev msixPending : Nat := 0x8000

/-- The header of port A (0) or B (1): they differ in the subsystem ID alone. -/
def configHeader (port : Nat) : ConfigHeader :=
  { vendor := 0x1E4F, device := 0x9600, revision := Config.fuse 5 % 256, classCode := 0x120000, subVendor := 0x1E4F
    subsystem := port + 1, bar0 := barMemory64, bar2 := barMemory64, bar4 := 0, bar5 := 0, rom := 0 }

/-- The Device Serial Number of both ports (R452, Table 13.1): bits [63:0] of the SHA-384 of the identity public key. -/
def deviceSerial : Nat := (Config.sha384 Config.identityKey).toNat % 2 ^ 64

/-- The pending-bit array of BAR2: a bit for each vector whose message waits (R458). -/
def State.pendingBits (s : State) (port : Nat) : Nat :=
  (List.range 64).foldl (fun a v => if (s.msiOf port v).waits then a + 2 ^ v else a) 0

/-- A completed pair on BIND_SET with GO (R462). -/
def State.bindSetAct (s : State) (port v : Nat) : State × Bool :=
  let c := bits v 5 0
  let b := bits v 8 8
  if !bit v 16 then refusedWrite s
  else
    let page := Page.HP port
    let src := portSource port
    let s1 := if c < 32 then s.setFld page Reg.HP.BOUND_A c c b else s.setFld page Reg.HP.BOUND_B (c - 32) (c - 32) b
    let ends := b == 0 && s.roleOf src == 1 && s.sessClaim src == c
    let s2 := s1.on ends (fun u => u.endSession src 5)
    done ((s2.raise page 4).record 0xA005 (Src.host port) (some c) (items [port, c, b, if ends then 1 else 0]))

/-- BIND_SET (R462). -/
def execBindSet (src : Source) (port : Nat) (v : Word) (s : State) : Out :=
  perform (.bindSet src port v) s
    (s.guarded src (Page.HP port) Reg.HP.BIND_SET v.toNat (fun u => u.bindSetAct port v.toNat))

/-- An IDE integrity failure (R465): insecure until new keys are committed, and the sessions that require IDE end. -/
def State.ideFailure (s : State) (port sub : Nat) : State :=
  let set := s.fld (Page.ROL 3) Reg.ROL3.IDE_STATE (8 * port + 1) (8 * port + 1)
  let src := portSource port
  let s1 := (s.setFld (Page.ROL 3) Reg.ROL3.IDE_STATE (8 * port) (8 * port) 0).setFld (Page.HP port) Reg.HP.LINK_STATE 14 14 0
  let s2 := { s1 with vault := { s1.vault with ideKeys := s1.vault.ideKeys.filter (fun e => e.1 % 2 != port) } }
  let s3 := s2.setFld (Page.ROL port) Reg.ROL.SESS_STATE 16 16 0
  let must := bit (s.rd (Page.ROL 3) Reg.ROL3.IDE_REQUIRE) port
  let s4 := s3.on (must && (s.roleOf src == 1 || s.roleOf src == 3)) (fun u => u.endSession src 7)
  (((s4.count (Page.HP port) Reg.HP.IDE_FAILS 6 1).count (Page.HP port) Reg.HP.UNCORR_ERRORS 4 1).raise (Page.HP port) 3).record
    0xA004 (Src.host port) none (items [port, sub, set])

/-- IDE_FAIL (R465). -/
def execIdeFail (port sub : Nat) (s : State) : Out := perform (.ideFail port sub) s (s.ideFailure port sub)

end Sys2Proof.Machine
end

