-- ==== Sys2Proof/Machine/Recording.lean ====
section
/-!
DEFINITION. The event recorder (chapter 14): the bytes of a record, admission under the rate limits, the stores, and
what a reader is given.
-/

namespace Sys2Proof.Machine

/-! ### Bytes of a record (R468, R469) -/

/-- Zero bytes up to the next multiple of n. -/
def padTo (n : Nat) (l : List Byte) : List Byte := l ++ List.replicate (ceilDiv l.length n * n - l.length) 0

/-- An item: header and data, padded to 4 bytes. -/
def itemBytes (i : Item) : List Byte :=
  leBytes 1 i.id ++ leBytes 1 i.kind ++ leBytes 2 i.size ++ padTo 4 (leBytes i.size i.val)

/-- A sequence of items. -/
def itemsBytes (l : List Item) : List Byte := (l.map itemBytes).flatten

/-- The 32-byte header of Table 14.1. -/
def headerBytes (len : Nat) (h : Held) (flags : Nat) : List Byte :=
  let r := h.body
  leBytes 2 len ++ leBytes 2 r.code ++ leBytes 4 h.seq ++ leBytes 4 h.opsec ++ leBytes 4 h.pwrcyc ++ leBytes 8 r.tai
    ++ leBytes 2 r.unit ++ leBytes 1 (r.role % 4 + 4 * (r.source % 4))
    ++ leBytes 1 (match r.claim with | some c => c % 64 | none => 0x80) ++ leBytes 3 h.supp ++ leBytes 1 flags

/-- FLAGS of a record as it is stored. -/
def flagsOf (r : Rec) : Nat :=
  (if securityCode r.code then 1 else 0) + (if r.hidden.isEmpty then 0 else 2) + (if r.maker.isEmpty then 0 else 8)

/-- Header, payload, padding and CHECK over a payload of bytes. -/
def wholeRecord (h : Held) (flags : Nat) (payload : List Byte) : List Byte :=
  let len := ceilDiv (36 + payload.length) 8 * 8
  let front := headerBytes len h flags ++ payload ++ List.replicate (len - 36 - payload.length) 0
  front ++ leBytes 4 (crc32c front)

/-- The payload of a record with its sealed part as the reader is given it: opened for an operator session of its claim
(R482), sealed for every other reader. -/
def payloadBytes (h : Held) (opened : Bool) : List Byte :=
  let r := h.body
  let plain := itemsBytes r.hidden
  let hdr := headerBytes 0 h (flagsOf r)
  let part : List Byte :=
    if r.hidden.isEmpty then []
    else if opened then leBytes 1 0xFE ++ leBytes 1 3 ++ leBytes 2 plain.length ++ padTo 4 plain
    else
      let c := Config.sealCapture (r.claim.getD 0) h.bind (leBytes 4 h.seq ++ leBytes 4 h.pwrcyc ++ leBytes 4 0) hdr plain
      leBytes 1 0xFE ++ leBytes 1 4 ++ leBytes 2 c.length ++ padTo 4 c
  let copy : List Byte :=
    if r.maker.isEmpty then []
    else
      let c := Config.sealMaker h.seq (itemsBytes r.maker)
      leBytes 1 0xFD ++ leBytes 1 3 ++ leBytes 2 c.length ++ padTo 4 c
  itemsBytes r.items ++ copy ++ part

/-- A record as it is delivered: one delivered opened carries CLEAR beside the flags it is stored with (R482, log 91). -/
def recordBytes (h : Held) (opened : Bool) : List Byte :=
  let show_ := opened && !h.body.hidden.isEmpty
  wholeRecord h (flagsOf h.body + (if show_ then 4 else 0)) (payloadBytes h show_)

/-- Bytes that a record takes in the ring: at least 40, a multiple of 8. -/
def recordLen (r : Rec) : Nat :=
  let size (l : List Item) : Nat := l.foldl (fun a i => a + 4 + ceilDiv i.size 4 * 4) 0
  let sealed := if r.hidden.isEmpty then 0 else 4 + size r.hidden + 16
  let copy := if r.maker.isEmpty then 0 else 4 + 97 + size r.maker + 16
  min 1024 (ceilDiv (36 + size r.items + sealed + ceilDiv copy 4 * 4) 8 * 8)

/-! ### Rate limits (R476) -/

/-- Rate and burst of a code, none where it is unlimited (Table 14.5). -/
def rateOf (code : Nat) : Option (Nat × Nat) :=
  if [0x0201, 0x0202, 0x0203, 0x0204, 0x0205, 0x6009, 0x600A, 0x600B, 0x600C, 0x7009, 0x700D, 0x700E, 0x700F, 0x8005, 0x8006,
      0x8007, 0x8009, 0x800C, 0x800D, 0x800E, 0x800F, 0x8013].contains code then none
  else if securityCode code then some (1, 32)
  else if [0x1004, 0x2001, 0x7007].contains code then some (1, 8)
  else some (20, 256)

/-- The bucket of a code brought up to the present microsecond of the oscillator: units of 10^−6 record, full where
nothing has drawn on it since power-up. -/
def State.bucket (s : State) (code r b : Nat) : Nat :=
  let now := s.osc / 1000
  match s.recorder.buckets.find? (fun e => e.1 == code) with
  | some (_, units, at_) => min (b * 1000000) (units + r * (now - at_))
  | none => b * 1000000

/-! ### Stores (R477) -/

/-- Bytes held by a list of records. -/
def storeBytes (l : List Held) : Nat := l.foldl (fun a h => a + h.len) 0

/-- Drop the oldest records of the ring until it fits 56 MiB. -/
def trimRing : Nat → List Held → List Held × Nat
  | 0, l => (l, 0)
  | n + 1, l =>
    if storeBytes l ≤ 56 * 2 ^ 20 then (l, 0)
    else match l with
      | [] => ([], 0)
      | _ :: t => let r := trimRing n t; (r.1, r.2 + 1)

/-- The registers that show the stores. -/
def State.showStores (s : State) : State :=
  let r := s.recorder
  let seqOf (l : List Held) (d : Nat) : Nat := match l with | h :: _ => h.seq | [] => d
  let next := s.rd Page.REC Reg.REC.LAST_SEQ + 1
  let secFirst := seqOf r.region (if s.rd Page.REC Reg.REC.SEC_FIRST_SEQ = 0 then next else s.rd Page.REC Reg.REC.SEC_FIRST_SEQ)
  let s1 := (s.wr Page.REC Reg.REC.FIRST_SEQ (seqOf r.ring (s.rd Page.REC Reg.REC.FIRST_SEQ))).wr Page.REC Reg.REC.SEC_FIRST_SEQ secFirst
  let s2 := s1.wr Page.REC Reg.REC.ARCH_FIRST_SEQ (match r.archive with | seg :: _ => seqOf seg secFirst | [] => secFirst)
  ((s2.wr Page.REC Reg.REC.RING_FILL (ceilDiv (storeBytes r.ring) 1024)).wr Page.REC Reg.REC.SEC_FILL (ceilDiv (storeBytes r.region) 1024)).wr
    Page.REC Reg.REC.ARCH_FILL r.archive.length

/-- Admit one record: it takes the next SEQ, and stands in the ring and, if security-class, in the region. -/
def State.admitRec (s : State) (r : Rec) : State :=
  let q := s.recorder
  let seq := (s.rd Page.REC Reg.REC.LAST_SEQ + 1) % 2 ^ 32
  let pend := Sparse.get 0 q.pend r.code
  let h : Held :=
    { seq := seq, opsec := s.rd Page.DEV Reg.DEV.OPSEC, pwrcyc := s.rd Page.DEV Reg.DEV.PWRCYC, supp := min 0xFFFFFF pend
      bind := match r.claim with | some c => s.rd (Page.CLM c) Reg.CLM.BIND_COUNT | none => 0
      len := recordLen r, body := r }
  let sec := securityCode r.code
  let ring := trimRing (q.ring.length + 1) (q.ring ++ [h])
  let s1 := { s with recorder := { q with
    ring := ring.1, region := if sec then q.region ++ [h] else q.region, pend := Sparse.set 0 q.pend r.code 0 } }
  let s2 := (s1.wr Page.REC Reg.REC.LAST_SEQ seq).wr64 Page.REC Reg.REC.ADMITTED_LO (s1.rd64 Page.REC Reg.REC.ADMITTED_LO + 1)
  let s3 := s2.wr64 Page.REC Reg.REC.OVERWRITTEN_LO (s2.rd64 Page.REC Reg.REC.OVERWRITTEN_LO + ring.2)
  (s3.showStores.raise Page.REC 0).on sec (fun u => u.raise Page.REC 1)

/-- Withhold a record under its bucket (R476). -/
def State.withhold (s : State) (code : Nat) : State :=
  let q := s.recorder
  let s1 := { s with recorder := { q with pend := Sparse.set 0 q.pend code (Sparse.get 0 q.pend code + 1) } }
  s1.wr64 Page.REC Reg.REC.SUPPRESSED_LO (s1.rd64 Page.REC Reg.REC.SUPPRESSED_LO + 1)

/-- The event 0x0205 that precedes the first record admitted after some found no place (R474). -/
def State.admitQueueFull (s : State) : State :=
  let q := s.recorder
  if q.lost = 0 then s
  else
    let codes := q.lostCodes.take 16
    let r : Rec := { code := 0x0205, unit := Src.deputy, role := 0, source := 3, claim := none, tai := if s.disciplined then s.tally else 0
                     items := [it 1 q.lost, itB 2 ((codes.map (leBytes 2)).flatten)], hidden := [], maker := [] }
    ({ (s.admitRec r) with recorder := { (s.admitRec r).recorder with lost := 0, lostCodes := [] } }).raise Page.REC 5

/-- The deputy takes the record at the front of the admission queue (R474, R476). -/
def State.admitFront (s : State) : State :=
  match s.recorder.queue with
  | [] => s
  | r :: rest =>
    let s1 := { s with recorder := { s.recorder with queue := rest } }
    let s2 := s1.setFld Page.REC Reg.REC.QUEUE 12 0 (min 8191 rest.length)
    match rateOf r.code with
    | none => s2.admitQueueFull.admitRec r
    | some (rate, burst) =>
      let units := s2.bucket r.code rate burst
      let now := s2.osc / 1000
      let keep (n : Nat) (u : State) : State :=
        { u with recorder := { u.recorder with buckets := Sparse.place r.code (n, now) (Sparse.drop r.code u.recorder.buckets) } }
      if 1000000 ≤ units then (keep (units - 1000000) s2).admitQueueFull.admitRec r
      else (keep units s2).withhold r.code

/-- At power-up the deputy finds the record that the loss of the input tore: it is dropped, and the next SEQ follows the last whole
record (R479): event 0x0204. -/
def State.dropTorn (s : State) : State :=
  match s.recorder.torn with
  | some store =>
    ({ s with recorder := { s.recorder with torn := none } }).record 0x0204 Src.deputy none
      (items [(s.rd Page.REC Reg.REC.LAST_SEQ + 1) % 2 ^ 32, store])
  | none => s

/-- RECORD_ADMIT (R474). -/
def execRecordAdmit (s : State) : Out := perform .recordAdmit s s.admitFront

/-! ### The archive (R478) -/

/-- The oldest records of the region that fit one segment of 1 MiB. -/
def segmentOf : Nat → List Held → List Held
  | _, [] => []
  | room, h :: t => if h.len ≤ room then h :: segmentOf (room - h.len) t else []

/-- The region is more than three quarters full: its oldest records move to a segment; a full archive first discards
its oldest segment. -/
def State.archiveMove (s : State) : State :=
  let q := s.recorder
  if storeBytes q.region ≤ 3 * 2 ^ 20 then s
  else
    let seg := segmentOf (2 ^ 20) q.region
    let first (l : List Held) : Nat := match l with | h :: _ => h.seq | [] => 0
    let last (l : List Held) : Nat := match l.getLast? with | some h => h.seq | none => 0
    let full := decide (2048 ≤ q.archive.length)
    let old := q.archive.headD []
    let kept := if full then q.archive.tail else q.archive
    let s1 := s.on full (fun u =>
      ((u.wr64 Page.REC Reg.REC.ARCH_DISCARDS_LO (u.rd64 Page.REC Reg.REC.ARCH_DISCARDS_LO + 1)).raise Page.REC 3).record 0x0202
        Src.deputy none (items [first old, last old]))
    let s2 := { s1 with recorder := { s1.recorder with archive := kept ++ [seg], region := q.region.drop seg.length } }
    (s2.showStores.raise Page.REC 2).record 0x0201 Src.deputy none (items [first seg, last seg, kept.length])

/-- ARCHIVE_SEGMENT (R478). -/
def execArchiveSegment (s : State) : Out := perform .archiveSegment s s.archiveMove

/-! ### Reading (R480 to R482) -/

/-- The records of a view: 0 the ring, 1 the region and the archive. -/
def State.viewRecords (s : State) (sec : Bool) : List Held :=
  if sec then s.recorder.archive.flatten ++ s.recorder.region else s.recorder.ring

/-- May a role (with its claim) read a record (R481)? -/
def mayReadRecord (role claim : Nat) (r : Rec) : Bool :=
  role == 2 || role == 3 || (role == 1 && (match r.claim with | some c => c == claim | none => true))

/-- The 1,024 bytes of a slot as the source's session reads it (R480). A sealed part is opened for an operator session
of the record's claim while the claim's capture key stands (R482). -/
def State.slotBytes (s : State) (src : Source) (sec : Bool) (seq : Nat) : List Byte :=
  let role := s.roleOf src
  let claim := s.sessClaim src
  match (s.viewRecords sec).find? (fun h => h.seq == seq) with
  | none => List.replicate 1024 0
  | some h =>
    let store := if !sec then 0 else if s.recorder.region.any (fun x => x.seq == seq) then 1 else 2
    let damaged := s.recorder.damaged.contains (seq, store)
    if damaged || !mayReadRecord role claim h.body then List.replicate 1024 0
    else
      let key := match h.body.claim with | some c => s.rd (Page.CLM c) Reg.CLM.BIND_COUNT == h.bind && s.holdsContent c | none => false
      let b := (recordBytes h (role == 1 && h.body.claim == some claim && key)).take 1024
      b ++ List.replicate (1024 - b.length) 0

/-- A reader reaches a damaged record (R479): it is counted and event 0x0203 recorded. -/
def State.meetDamaged (s : State) (sec : Bool) (seq : Nat) : State :=
  let store := if !sec then 0 else if s.recorder.region.any (fun x => x.seq == seq) then 1 else 2
  if s.recorder.damaged.contains (seq, store) then
    ((s.wr64 Page.REC Reg.REC.DAMAGED_LO (s.rd64 Page.REC Reg.REC.DAMAGED_LO + 1)).raise Page.REC 4).record 0x0203 Src.deputy none
      (items [seq, store])
  else s

end Sys2Proof.Machine
end

