-- ==== Sys2Proof/Machine/Power.lean ====
section
/-!
DEFINITION. Power, sensing and thermal limits (chapter 15), and what loss of the input leaves (R15).
-/

namespace Sys2Proof.Machine

/-- Change the power state. -/
def State.modPwr (s : State) (f : Pwr → Pwr) : State := { s with pwr := f s.pwr }

/-! ### Loss of power (R15) -/

/-- What an array keeps without power: its cells, level plan, DEGRADED and UNFIT marks, and the ageing state that the
deputy copied last (R276). -/
def Arr.survive (a copy : Arr) : Arr :=
  { Arr.idle with
    codes := a.codes, wit12 := a.wit12, plan12 := a.plan12, degraded := a.degraded, unfit := a.unfit, unfitWit := a.unfitWit
    writes := copy.writes, base := copy.base, amp := copy.amp }

/-- What a stope keeps without power: its cells, the ageing state copied last, its integrity state, and that its relief seam
served a seam that holds a claim's content (R521). -/
def Stope.survive (x copy : Stope) (held : Bool) : Stope :=
  { Stope.idle with
    arrs := (x.arrs.map (fun e => (e.1, e.2.survive (copy.arr e.1)))).filter (fun e => decide (e.2 ≠ Arr.idle))
    windows := copy.windows, sigma := copy.sigma, rho := copy.rho, guard := copy.guard, range0Off := copy.range0Off
    integ := x.integ, fails := x.fails, windowAt := x.windowAt, lastFail := x.lastFail, testDue := x.testDue, testOk := x.testOk, testAt := x.testAt, overTest := x.overTest
    proposed := x.proposed, why := x.why, railsOff := x.railsOff, clearing := x.clearing, lastAt := x.lastAt, reliefHeld := held }

/-- The stopes as they are after a loss of power. -/
def State.stopesSurvive (s : State) : List (Nat × Stope) :=
  (s.stopes.map (fun e => (e.1, e.2.survive (Sparse.get Stope.idle s.aged e.1)
    (s.claimServed e.1 != 0 && (e.2.reliefHeld || s.fld (Page.STX e.1) Reg.STX.RELIEF_SEAM 9 8 != 0))))).filter (fun e => decide (e.2 ≠ Stope.idle))

/-- The store in which the loss of the input tears the record being written, if it does (R479): the ring, or the region for a
security-class record. Whether it does is a free value (log 92). -/
def State.tornRecord (s : State) : Option Nat :=
  match s.recorder.queue with
  | [] => none
  | r :: _ =>
    let b := Config.freeBits 2 (s.fresh + 2)
    if b.getLsbD 0 then some (if securityCode r.code && b.getLsbD 1 then 1 else 0) else none

/-- The state when the input goes and returns (R15): MRAM, flash, seams and fuses survive; every other register, memory
and queue is as after power-up, with a device agreement key pair and a boot nonce drawn afresh (R388, R392). A trip is held in MRAM
(R512). The commands waiting are the outside world's. -/
def State.losePower (s : State) : State :=
  let r := State.reset
  let kept := (s.keepMem (fun _ => false)).keepRegs keepWord
  let base : State := { r with
    pending := kept.pending, osc := kept.osc, fresh := kept.fresh + 3, mem := kept.mem, regs := kept.regs
    tally := s.clock.stored + 1000000000
    clock := { r.clock with stored := s.clock.stored }
    recorder := { s.recorder with queue := [], buckets := [], lost := 0, lostCodes := [], torn := s.tornRecord.orElse (fun _ => s.recorder.torn) }
    stopes := s.stopesSurvive, aged := s.aged
    claims := s.claims.map (fun e => (e.1, { e.2 with fast := Layout.empty, slow := Layout.empty, keys := false, applied := none, filling := false, lostList := [], lostMore := false, jobKey := false }))
    fast := { r.fast with retired := s.fast.retired }
    slow := { r.slow with retired := s.slow.retired }
    casc := { r.casc with roster := s.casc.roster, agree := kept.fresh }
    boot := { r.boot with nonce := kept.fresh + 1 }
    packs := s.packs
    fw := { s.fw with store := [], staging := false, staged := none, old := none, reverting := false, phase := 0
                      running := s.fw.flash, lost := 0 }
    vault := { r.vault with installer := s.vault.installer }
    pwr := { r.pwr with phases := s.pwr.phases, hours := s.pwr.hours, tripped := s.pwr.tripped, capped := s.pwr.capped } }
  let s1 := base.setFld (Page.ROL 3) Reg.ROL3.ENROL_STATE 15 8 0
  let s2 := (s1.on (bit (s.rd Page.TAL Reg.TAL.STATUS) 3) (fun u => u.setFld Page.TAL Reg.TAL.STATUS 3 3 1)).on s.pwr.tripped
    (fun u => u.setFld Page.PWR Reg.PWR.INPUT_STATE 12 12 1)
  s2.each claimNos (fun u c => u.on (u.rd (Page.CLM c) Reg.CLM.CLAIM_STATE != 0) (fun v =>
    (v.setFld (Page.CLM c) Reg.CLM.CLAIM_STATE 5 5 0).setFld (Page.CLM c) Reg.CLM.CLAIM_STATE 6 6 0))

/-- Work of every kind is held after POWER_FAIL, a trip or with PWR in FAULT (R490, R496, R509). -/
def State.holdAll (s : State) : Bool := s.pwr.failed || s.pwr.tripped

/-- The clamp of R505 acts: no compute work starts. -/
def State.clampActs (s : State) : Bool := !s.pwr.causes.isEmpty

/-! ### The clamp (R505) -/

/-- Causes of INPUT_STATE[11:9]. -/
abbrev clampLimit : Nat := 1
abbrev clampThermal : Nat := 2
abbrev clampCapacity : Nat := 3
abbrev clampPowerFail : Nat := 4

/-- A cause of the clamp begins. -/
def State.clampOn (s : State) (cause : Nat) : State :=
  if s.pwr.causes.contains cause then s
  else if s.clampActs then s.modPwr (fun x => { x with causes := x.causes ++ [cause] })
  else
    let s1 := s.modPwr (fun x => { x with causes := [cause], clampAt := s.osc, below := 0 })
    ((s1.setFld Page.PWR Reg.PWR.INPUT_STATE 11 8 (1 + 2 * cause)).raise Page.PWR 1).record 0x9006 Src.deputy none (items [cause, 0])

/-- A cause of the clamp ends; with the last one the clamp ends and CLAMP_MS takes its duration. -/
def State.clampOff (s : State) (cause : Nat) : State :=
  if !s.pwr.causes.contains cause then s
  else
    let rest := s.pwr.causes.filter (· != cause)
    let s1 := s.modPwr (fun x => { x with causes := rest })
    match rest with
    | c :: _ => s1.setFld Page.PWR Reg.PWR.INPUT_STATE 11 9 c
    | [] =>
      let ms := (s.osc - s.pwr.clampAt) / 1000000
      (((s1.setFld Page.PWR Reg.PWR.INPUT_STATE 11 8 0).count Page.PWR Reg.PWR.CLAMP_MS 0 ms).raise Page.PWR 1).record 0x9006
        Src.deputy none (items [cause, ms])

/-! ### Ceiling and budget (R495) -/

/-- A quotient rounded to the nearest integer. -/
def roundDiv (a b : Nat) : Nat := if b = 0 then 0 else (2 * a + b) / (2 * b)

/-- Converters that carry load. -/
def State.loaded (s : State) : Nat :=
  let m := s.fld Page.PWR Reg.PWR.CONV_MAP 23 12
  ((List.range 12).filter (fun k => bit m k)).length

/-- Converters that work. -/
def State.working (s : State) : Nat :=
  let m := s.fld Page.PWR Reg.PWR.CONV_MAP 11 0
  ((List.range 12).filter (fun k => !bit m k)).length

/-- The budget ceiling in W from the capacity, the last window's η1, INPUT_LIMIT and, in the LOW state, the input. -/
def State.ceilingNow (s : State) : Nat :=
  let c := 280 * min 11 s.loaded
  let byCap := if s.pwr.busMw = 0 then c - 150 else roundDiv (c * s.pwr.pCyc) s.pwr.busMw - 150
  let byLimit := s.fld Page.PWR Reg.PWR.INPUT_LIMIT 11 0 - 100
  let m := min byCap byLimit
  if s.fld Page.PWR Reg.PWR.INPUT_STATE 2 0 = 1 then min m (roundDiv (50 * s.pwr.mv) 1000) else m

/-- CAPACITY, the ceiling with event 0x900A where it changes, and the budget in force. -/
def State.recompute (s : State) : State :=
  let n := min 11 s.loaded
  let spare := decide (s.fld Page.PWR Reg.PWR.CONV_MAP 27 24 ≠ 15)
  let s1 := s.wr Page.PWR Reg.PWR.CAPACITY (280 * n + 2 ^ 16 * n + (if spare then 2 ^ 20 else 0))
  let c := s1.ceilingNow
  let s2 := if c = s.pwr.ceiling then s1
    else ((s1.modPwr (fun x => { x with ceiling := c })).raise Page.PWR 3).record 0x900A Src.deputy none
      (items [280 * n, s.pwr.eta1, s.pwr.ceiling, c])
  s2.wr Page.PWR Reg.PWR.BUDGET_IN_FORCE (min (s2.fld Page.PWR Reg.PWR.GOV_BUDGET 11 0) c)

/-! ### Input (R489, R490) -/

/-- Input state of a voltage in mV, none outside NORMAL, LOW and HIGH. -/
def inputStateOf (mv : Nat) : Option Nat :=
  if mv < 46000 then none else if mv < 54000 then some 1 else if mv ≤ 80000 then some 0 else if mv ≤ 84000 then some 2 else none

/-- The 72 V input is gone: below the 40 V that the board keeps up while the module stores (R490, R491) no part of the module
operates, and what R15 does not keep is lost (log 82). -/
def State.inputGone (s : State) (mv : Nat) : State :=
  if mv < 40000 then (let t := s.losePower; { t with powered := false, pwr := { t.pwr with mv := mv } }) else s

/-- INPUT_STATE_CHANGE (R489); after POWER_FAIL the input may fall on until it is gone (R15). -/
def execInputStateChange (mv : Nat) (s : State) : Out :=
  perform (.inputStateChange mv) s
    (let old := s.fld Page.PWR Reg.PWR.INPUT_STATE 2 0
    let s1 := s.modPwr (fun x => { x with mv := mv })
    match inputStateOf mv with
    | some new =>
      (if new = old ∨ old = 3 then s1
      else ((s1.setFld Page.PWR Reg.PWR.INPUT_STATE 2 0 new).raise Page.PWR 0).record 0x9001 Src.deputy none (items [old, new, mv])).recompute
    | none => s1.on s.pwr.failed (fun u => u.inputGone mv))

/-- INPUT_OVER (R489): stage 1 stops switching, and the module is without power. -/
def execInputOver (mv : Nat) (s : State) : Out :=
  perform (.inputOver mv) s
    (let t := s.losePower
    { t with powered := false, pwr := { t.pwr with mv := mv, stage1Off := true } })

/-- POWER_FAIL (R490): final; work of every kind is held, every step in flight is unsound, the tally is stored and event
0x9002 admitted; with an input already gone the module is then without power. -/
def State.powerFails (s : State) (mv draw : Nat) : State :=
  let old := s.fld Page.PWR Reg.PWR.INPUT_STATE 2 0
  let s1 := (s.modPwr (fun x => { x with mv := mv, failed := true })).setFld Page.PWR Reg.PWR.INPUT_STATE 2 0 3
  let s2 := ((s1.raise Page.PWR 0).record 0x9001 Src.deputy none (items [old, 3, mv])).clampOn clampPowerFail
  let s3 := s2.each (s2.jobs.map (·.1)) (fun u c => (u.unsound c 1 0xFFFFFFFF).dropWork c 3 (fun _ => false))
  let s4 := { s3 with clock := { s3.clock with stored := s3.tally } }
  ((s4.count Page.PWR Reg.PWR.POWER_FAILS 2 1).admitRec
    { code := 0x9002, unit := Src.deputy, role := 0, source := 3, claim := none, tai := if s.disciplined then s.tally else 0
      items := items [mv, draw], hidden := [], maker := [] }).inputGone mv

/-- POWER_FAIL (R490). -/
def execPowerFail (mv draw : Nat) (s : State) : Out :=
  perform (.powerFail mv draw) s (if s.pwr.failed then s else s.powerFails mv draw)

/-! ### Stage 1 (R493 to R496) -/

/-- Cause numbers of records 0x9004 and 0x9005. -/
def causeNo : StageCause → Nat
  | .overCurrent => 1
  | .busLow => 2
  | .overTemperature => 3
  | .stopped => 4
  | .retired => 5

/-- A stage-1 converter fails: the spare takes its load share. -/
def State.convFails (s : State) (k : Nat) (cause : StageCause) : State :=
  let m := s.rd Page.PWR Reg.PWR.CONV_MAP
  if bit m k then s
  else
    let spare := bits m 27 24
    let takes := bit m (12 + k) && decide (spare < 12)
    let m1 := putBits (putBits m k k 1) (12 + k) (12 + k) 0
    let m2 := if takes then putBits (putBits m1 (12 + spare) (12 + spare) 1) 27 24 15
      else if spare = k then putBits m1 27 24 15 else m1
    let s1 := ((s.wr Page.PWR Reg.PWR.CONV_MAP m2).count Page.PWR Reg.PWR.STAGE_FAULTS 1 1).raise Page.PWR 2
    let s2 := (s1.record 0x9004 (Src.power k) none (items [k, causeNo cause, if takes then spare else 15])).recompute
    s2.on (decide (s2.working < 8)) (fun u => (u.setFn Page.PWR 4).clampOn clampCapacity)

/-- A re-plan of R298 (event 0x1017): kind, place, measurement, old and new value; kinds are numbered from 0 in the order of Table
8.4, so 5 a drift lane and 6 a converter spare. It has taken effect at once, as R305 and R494 say; its event bit latches at the next
commit tally (R302, log 87). -/
def State.replan (s : State) (unit kind place meas old new : Nat) : State :=
  ((s.count Page.ASY Reg.ASY.REPLANS 5 1).stageEvent Page.ASY 3).record 0x1017 unit none (items [kind, place, meas, old, new])

/-- Has converter k the most hours under load of those that carry load (R494)? -/
def State.mostHours (s : State) (k : Nat) : Bool :=
  (List.range 12).all (fun i => !bit (s.rd Page.PWR Reg.PWR.CONV_MAP) (12 + i) || decide (Sparse.get 0 s.pwr.hours i ≤ Sparse.get 0 s.pwr.hours k))

/-- SPARE_ROTATE (R494): while eleven or more converters work, the loaded converter k becomes the spare: the one with the most hours
under load, or one of low efficiency. -/
def execSpareRotate (k : Nat) (lowEfficiency : Bool) (s : State) : Out :=
  perform (.spareRotate k lowEfficiency) s
    (let m := s.rd Page.PWR Reg.PWR.CONV_MAP
    let spare := bits m 27 24
    if bit m k || !bit m (12 + k) || decide (s.working < 11) || decide (11 < spare) || !(lowEfficiency || s.mostHours k) then s
    else
      let m1 := putBits (putBits (putBits m (12 + k) (12 + k) 0) (12 + spare) (12 + spare) 1) 27 24 k
      let s1 := s.wr Page.PWR Reg.PWR.CONV_MAP m1
      (s1.replan (Src.power k) 6 k (if lowEfficiency then 1 else 0) spare k).recompute)

/-! ### Stage 2 (R497) -/

/-- The spare phase that serves a row's band. -/
def bandSpare (row : Nat) : Nat :=
  if row ≤ 5 then 96 else if row ≤ 10 then 97 else if row ≤ 15 then 98 else if row ≤ 20 then 99 else if row ≤ 25 then 100 else 101

/-- What became of a phase: 0 working or idle spare, 1000 failed, row + 1 for a spare that stands in. -/
def State.phase (s : State) (k : Nat) : Nat := Sparse.get 0 s.pwr.phases k

/-- The row that a phase supplies, none for an idle or failed phase. -/
def State.phaseRow (s : State) (k : Nat) : Option Nat :=
  let x := s.phase k
  if x = 1000 then none else if k < 96 then some (k / 3) else if x = 0 then none else some (x - 1)

/-- Phases that supply a row. -/
def State.rowPhases (s : State) (r : Nat) : Nat := ((List.range 102).filter (fun k => s.phaseRow k == some r)).length

/-- A row left with two phases is capped, and one left with fewer loses VCORE: its stopes enter FAULT and are proposed
for retirement. -/
def State.rowShort (s : State) (r : Nat) : State :=
  let n := s.rowPhases r
  if 3 ≤ n then s
  else if n = 2 then s.modPwr (fun x => { x with capped := if x.capped.contains r then x.capped else x.capped ++ [r] })
  else s.each ((List.range 33).map (fun c => 33 * r + c)) (fun u p =>
    ((u.setFn (Page.STX p) 4).modStope p (fun x => { x with fenced := true, lastFail := 9 })).propose p 9)

/-- A stage-2 phase fails: its band's spare takes its row. -/
def State.phaseFails (s : State) (k : Nat) (cause : StageCause) : State :=
  if s.phase k = 1000 then s
  else
    let row := s.phaseRow k
    let setPhase (u : State) (i v : Nat) : State := u.modPwr (fun x => { x with phases := Sparse.set 0 x.phases i v })
    let s1 := setPhase s k 1000
    let spare := match row with
      | some r => if s1.phase (bandSpare r) = 0 then some (bandSpare r) else none
      | none => none
    let s2 := match spare, row with
      | some q, some r => setPhase s1 q (r + 1)
      | _, _ => s1
    let failed := (s2.pwr.phases.filter (fun e => e.2 == 1000)).length
    let inUse := (s2.pwr.phases.filter (fun e => e.2 != 1000)).length
    let s3 := ((s2.wr Page.PWR Reg.PWR.PHASES_FAILED (failed + 256 * inUse)).count Page.PWR Reg.PWR.STAGE_FAULTS 1 1).raise Page.PWR 2
    let s4 := s3.record 0x9005 (Src.power (0x100 + k)) none (items [k, row.getD 0x3F, causeNo cause, spare.getD 0x7F])
    match row with
    | some r => s4.rowShort r
    | none => s4

/-- PHASE_FAIL (R497). -/
def execPhaseFail (k : Nat) (cause : StageCause) (s : State) : Out :=
  perform (.phaseFail k cause) s (s.phaseFails k cause)

/-- A completed pair on PHASE_RETIRE with GO; a number that names no phase is ignored. -/
def State.phaseRetireAct (s : State) (v : Nat) : State × Bool :=
  let k := bits v 6 0
  if !bit v 8 || decide (101 < k) then refusedWrite s else done (s.phaseFails k .retired)

/-- PHASE_RETIRE (R497). -/
def execPhaseRetire (src : Source) (v : Word) (s : State) : Out :=
  perform (.phaseRetire src v) s
    (s.guarded src Page.PWR Reg.PWR.PHASE_RETIRE v.toNat (fun u => u.phaseRetireAct v.toNat))

/-! ### Sensing (R501, R503) -/

/-- The allowances of a stope and of its seams at zero (R507): they are kept as their distance below the full 65,536 cycles. -/
def Stope.spent (x : Stope) : Stope :=
  (List.range 17).foldl (fun y a => y.setArr a { y.arr a with allow := -(65536 * 256) }) { x with allow := -(65536 * 256) }

/-- The count of thermally clamped stopes follows a change. -/
def State.setClamped (s : State) (p : Nat) (b : Bool) : State :=
  if (s.stope p).clamped = b then s
  else
    let n := s.rd Page.SNS Reg.SNS.CLAMPED_STOPES
    (s.modStope p (fun x => { (if b then x.spent else x) with clamped := b })).wr Page.SNS Reg.SNS.CLAMPED_STOPES (if b then n + 1 else n - 1)

/-- SENSOR_INVALID (R501): with both temperature channels invalid the stope is thermally clamped and proposed. -/
def execSensorInvalid (p ch : Nat) (s : State) : Out :=
  perform (.sensorInvalid p ch) s
    (if bit (s.stope p).invalid ch then s
    else
      let s1 := s.modStope p (fun x => { x with invalid := x.invalid + 2 ^ ch })
      let s2 := ((s1.count Page.SNS Reg.SNS.SENSOR_FAULTS 0 1).raise Page.SNS 2).record 0x9009 (Src.stope p) none (items [p, ch, 0])
      if bits (s2.stope p).invalid 1 0 = 3 then (s2.setClamped p true).propose p 14 else s2)

/-- State of a sensor (R506): 0 normal, 1 warn, 2 clamp, 3 trip. -/
def State.sensor (s : State) (cls inst : Nat) : Int × Nat × Nat := Sparse.get (0, 0, 0) s.pwr.sensors (cls * 2048 + inst)

/-- SENSOR_VALID (R501). -/
def execSensorValid (p ch : Nat) (s : State) : Out :=
  perform (.sensorValid p ch) s
    (if !bit (s.stope p).invalid ch then s
    else
      let s1 := s.modStope p (fun x => { x with invalid := x.invalid - 2 ^ ch })
      let s2 := (s1.raise Page.SNS 2).record 0x9009 (Src.stope p) none (items [p, ch, 1])
      if decide (ch < 2) && decide ((s.sensor 0 p).2.1 < 2) then s2.setClamped p false else s2)

/-- The mode of the mains windows (R503): multiple 2, 6 or 12 of a mains frequency between 47 Hz and 63 Hz within ±5 %,
0 for DC mode. -/
def mainsMultiple (rippleMv periodNs : Nat) : Nat :=
  if rippleMv ≤ 200 then 0
  else ([2, 6, 12].find? (fun m => decide (95 * 1000000000 ≤ 100 * 63 * (m * periodNs)) && decide (100 * 47 * (m * periodNs) ≤ 105 * 1000000000))).getD 0

/-- Windows of the last second, newest first. -/
def lastSecond : Nat → List (List Nat) → List (List Nat)
  | _, [] => []
  | room, w :: t => w :: (if room ≤ w.headD 0 then [] else lastSecond (room - w.headD 0) t)

/-- Time-weighted mean of field i of windows. -/
def meanOf (i : Nat) (l : List (List Nat)) : Nat :=
  let t := l.foldl (fun a w => a + w.headD 0) 0
  if t = 0 then 0 else l.foldl (fun a w => a + w.headD 0 * w.getD i 0) 0 / t

/-- A mains window ends (R503). -/
def State.mainsEnds (s : State) (r : MainsReading) : State :=
  let mult := mainsMultiple r.rippleMv r.periodNs
  let window := if mult = 0 then 20000000 else mult * r.periodNs
  let code := match mult with | 2 => 1 | 6 => 2 | 12 => 3 | _ => 0
  let mode := (if mult = 0 then 0 else 1) + 2 * code
  let old := s.fld Page.PWR Reg.PWR.INPUT_STATE 5 3
  let oldWin := s.fld Page.PWR Reg.PWR.WINDOW 24 0
  let pin := r.inMv * r.inMa / 1000
  let bus := r.busMv * r.outMa / 1000
  let s2 := r.busMv * r.s2inMa / 1000
  let core := r.coreW * 1000
  let wins := lastSecond 1000000000 ([oldWin, pin, bus, core, s2] :: s.pwr.wins)
  let eta1 := if meanOf 1 wins = 0 then 0 else min 1023 (meanOf 2 wins * 1000 / meanOf 1 wins)
  let eta2 := if meanOf 4 wins = 0 then 0 else min 1023 (meanOf 3 wins * 1000 / meanOf 4 wins)
  let joules := s.pwr.joules + pin * oldWin
  let ovr := decide (s.fld Page.PWR Reg.PWR.INPUT_LIMIT 11 0 * 1000 < pin)
  let t1 := s.modPwr (fun x => { x with
    pCyc := pin, busMw := bus, eta1 := eta1, eta2 := eta2, wins := wins
    joules := joules, overCyc := if ovr then x.overCyc + 1 else 0 })
  let t2 := ((t1.wr Page.PWR Reg.PWR.INPUT_V r.inMv).wr Page.PWR Reg.PWR.INPUT_I r.inMa).wr Page.PWR Reg.PWR.INPUT_P (pin / 100)
  let t3 := ((t2.wr Page.PWR Reg.PWR.INPUT_P_1S (meanOf 1 wins / 100)).wr Page.PWR Reg.PWR.BUS_V r.busMv).wr Page.PWR Reg.PWR.EFFICIENCY
    (eta1 + 65536 * eta2)
  let t4 := t3.wr Page.PWR Reg.PWR.WINDOW window
  let t5 := if old = mode then t4
    else ((t4.setFld Page.PWR Reg.PWR.INPUT_STATE 5 3 mode).raise Page.PWR 4).record 0x9003 Src.deputy none (items [mode % 2, mult, window])
  t5.recompute.on (ovr && decide (1 ≤ s.pwr.overCyc)) (fun u => u.clampOn clampLimit)

/-- MAINS_WINDOW (R503). -/
def execMainsWindow (r : MainsReading) (s : State) : Out := perform (.mainsWindow r) s (s.mainsEnds r)

/-! ### Thermal limits (R506 to R509) -/

/-- Warn, clamp and trip of a sensor class in °C (Table 15.5). -/
def thresholds (cls : Nat) : Nat × Option Nat × Nat :=
  match cls with
  | 0 => (95, some 105, 115)
  | 1 => (85, some 95, 105)
  | 2 => (85, some 95, 105)
  | 3 => (100, some 110, 120)
  | 4 => (100, some 110, 120)
  | 5 => (95, none, 115)
  | _ => (110, none, 125)

/-- A sensor's temperature in 1/16 °C and its state. -/
def State.setSensor (s : State) (cls inst : Nat) (temp : Int) (st trips : Nat) : State :=
  s.modPwr (fun x => { x with sensors := Sparse.set (0, 0, 0) x.sensors (cls * 2048 + inst) (temp, st, trips) })

/-- Warning threshold of a class in 1/16 °C, lowered by WARN_OFFSET. -/
def State.warnAt (s : State) (cls : Nat) : Int := (((thresholds cls).1 : Int) - s.fld Page.SNS Reg.SNS.WARN_OFFSET 3 0) * 16

/-- Event 0x9007. -/
def State.recordThermal (s : State) (cls inst st : Nat) (temp : Int) : State :=
  s.record 0x9007 Src.deputy none [it 1 cls, it 2 inst, it 3 st, itS 4 temp]

/-- THERMAL_WARN (R506): a sensor enters the warn state above its threshold and leaves it 5 °C below. -/
def execThermalWarn (cls inst : Nat) (temp : Int) (s : State) : Out :=
  perform (.thermalWarn cls inst temp) s
    (let x := s.sensor cls inst
    if 2 ≤ x.2.1 then s.setSensor cls inst temp x.2.1 0
    else if x.2.1 = 0 ∧ s.warnAt cls < temp then
      (((s.setSensor cls inst temp 1 0).count Page.SNS Reg.SNS.THERM_EVENTS 1 1).raise Page.SNS 0).recordThermal cls inst 1 temp
    else if x.2.1 = 1 ∧ temp ≤ s.warnAt cls - 80 then
      ((s.setSensor cls inst temp 0 0).raise Page.SNS 0).recordThermal cls inst 0 temp
    else s.setSensor cls inst temp x.2.1 0)

/-- THERMAL_CLAMP (R507, R508). -/
def execThermalClamp (cls inst : Nat) (temp : Int) (s : State) : Out :=
  perform (.thermalClamp cls inst temp) s
    (let x := s.sensor cls inst
    match (thresholds cls).2.1 with
    | some c =>
      if 2 ≤ x.2.1 ∨ temp ≤ (c : Int) * 16 then s.setSensor cls inst temp x.2.1 0
      else
        let s1 := (((s.setSensor cls inst temp 2 0).count Page.SNS Reg.SNS.THERM_EVENTS 1 1).raise Page.SNS 1).recordThermal cls inst 2 temp
        if cls = 0 then s1.setClamped inst true else s1.clampOn clampThermal
    | none => s.setSensor cls inst temp x.2.1 0)

/-- THERMAL_CLAMP_END (R506): 5 °C below the clamp threshold. -/
def execThermalClampEnd (cls inst : Nat) (temp : Int) (s : State) : Out :=
  perform (.thermalClampEnd cls inst temp) s
    (let x := s.sensor cls inst
    match (thresholds cls).2.1 with
    | some c =>
      if x.2.1 ≠ 2 ∨ (c : Int) * 16 - 80 < temp then s.setSensor cls inst temp x.2.1 x.2.2
      else
        let st := if s.warnAt cls - 80 < temp then 1 else 0
        let s1 := (s.setSensor cls inst temp st 0).recordThermal cls inst st temp
        if cls = 0 then (if bits (s.stope inst).invalid 1 0 = 3 then s1 else s1.setClamped inst false)
        else s1.on (!s1.pwr.sensors.any (fun e => decide (1 ≤ e.1 / 2048) && decide (e.1 / 2048 ≤ 4) && decide (2 ≤ e.2.2.1)))
          (fun u => u.clampOff clampThermal)
    | none => s.setSensor cls inst temp x.2.1 x.2.2)

/-- THERM_TRIP_N is asserted (R509, R510): from a trip until TRIP_CLEAR; without power the pin floats. -/
def State.thermTrip (s : State) : Bool := s.powered && s.pwr.tripped

/-- ALERT_N is asserted (R511): any page reads FAULT, or THERM_TRIP_N is asserted. -/
def State.alertPin (s : State) : Bool :=
  s.thermTrip || (s.powered && s.regs.any (fun e =>
    decide (e.1 / 1024 < 4096) && e.1 % 1024 == Reg.HDR.STATUS && bits e.2.toNat 31 28 == 4))

/-- The pages of the units whose rails a trip removes: every rail after VDEP. -/
def trippedPages : List Nat :=
  [Page.HP 0, Page.HP 1] ++ (List.range 8).map Page.FTC ++ (List.range 4).map Page.MIL ++ (List.range 12).map Page.DRF
    ++ (List.range 1024).map Page.STP ++ (List.range 1056).map Page.STX

/-- What the removed units held is lost: claim memory, jobs and work in flight, the links of the host ports with the ports' own
state (R459); deputy state, MRAM, flash and seams survive (Table 16.2). -/
def State.loseUnits (s : State) : State :=
  let s0 := s.each [0, 1] (fun u n => u.linkFalls n)
  let s1 := s0.each (s0.jobs.map (·.1)) (fun u c => (u.dropWork c 3 (fun _ => false)).unload c 0)
  { s1.keepMem (fun _ => false) with
    marks := [], stopes := s1.stopesSurvive
    mill := State.reset.mill, ports := [], sealing := State.reset.sealing }

/-- The module trips (R509); at the deputy the whole module loses power, and a converter or a phase merely fails. -/
def State.trips (s : State) (cls inst : Nat) (temp : Int) : State :=
  let s1 := ((s.setSensor cls inst temp 3 2).setFld Page.PWR Reg.PWR.INPUT_STATE 12 12 1).modPwr (fun x => { x with tripped := true })
  let s2 := s1.each trippedPages (fun u p => u.setFn p 4)
  let s3 := (s2.record 0x9008 Src.deputy none [it 1 cls, it 2 inst, itS 3 temp]).loseUnits
  if cls = 5 then { (s3.losePower) with powered := false } else s3

/-- A completed pair on TRIP_CLEAR: accepted when every sensor lies at least 10 °C below its warning threshold; the rails
return from VDRIFT, and steps 4 to 9 run. -/
def State.tripClearAct (s : State) (v : Nat) : State × Bool :=
  let cool := s.pwr.sensors.all (fun e => decide (e.2.1 ≤ s.warnAt (e.1 / 2048) - 160))
  if !bit v 0 || !bit (s.rd Page.PWR Reg.PWR.INPUT_STATE) 12 || !cool then refusedWrite s
  else
    let s1 := (s.setFld Page.PWR Reg.PWR.INPUT_STATE 12 12 0).modPwr (fun x => { x with tripped := false })
    let s2 := s1.each trippedPages (fun u p => u.setFn p 1)
    done { (s2.setFld Page.DEV Reg.DEV.BRINGUP 7 0 2) with
           boot := { State.reset.boot with began := s.osc } }

/-- TRIP_CLEAR (R509). -/
def execTripClear (src : Source) (v : Word) (s : State) : Out :=
  perform (.tripClear src v) s
    (s.guarded src Page.PWR Reg.PWR.TRIP_CLEAR v.toNat (fun u => u.tripClearAct v.toNat))

/-! ### Budget registers (R495) -/

/-- GOV_BUDGET (R495). -/
def execGovBudget (src : Source) (v : Word) (s : State) : Out :=
  perform (.govBudget src v) s
    (s.guarded src Page.PWR Reg.PWR.GOV_BUDGET v.toNat (fun u => done (u.wr Page.PWR Reg.PWR.GOV_BUDGET (bits v.toNat 11 0)).recompute))

/-- INPUT_LIMIT (R495). -/
def execInputLimit (src : Source) (v : Word) (s : State) : Out :=
  perform (.inputLimit src v) s
    (s.guarded src Page.PWR Reg.PWR.INPUT_LIMIT v.toNat (fun u => done (u.wr Page.PWR Reg.PWR.INPUT_LIMIT (bits v.toNat 11 0)).recompute))

end Sys2Proof.Machine
end

