-- ==== Sys2Proof/Machine/Drift.lean ====
section
/-!
DEFINITION. Drift ports (R303 to R313, R316, R322, R323, R330): lanes, tubs, credits and retry, the states of a port,
routes, and the queues of messages that leave the member.

A queued message leaves whole, at once, when its port is up and holds the credits for all its tubs (log 17).
-/

namespace Sys2Proof.Machine

def State.port (s : State) (n : Nat) : Port := Sparse.get Port.idle s.ports n

def State.modPort (s : State) (n : Nat) (f : Port → Port) : State :=
  { s with ports := Sparse.set Port.idle s.ports n (f (s.port n)) }

def State.peer (s : State) (n : Nat) : Peer := Sparse.get Peer.idle s.casc.peers n

def State.modPeer (s : State) (n : Nat) (f : Peer → Peer) : State :=
  { s with casc := { s.casc with peers := Sparse.set Peer.idle s.casc.peers n (f (s.peer n)) } }

/-! ### States of a port (Table 9.14) -/

/-- 0 DOWN, 1 LINKED, 2 AUTH, 3 UP, 4 DEGRADED, 5 QUARANTINED, 6 DISABLED. -/
def State.portState (s : State) (n : Nat) : Nat := s.fld (Page.DRF n) Reg.DRF.PORT_STATE 3 0

/-- Does the port carry messages: UP or DEGRADED? -/
def State.portUp (s : State) (n : Nat) : Bool := s.portState n == 3 || s.portState n == 4

/-- Does the port take new messages: it is up, and its page neither DRAINING nor OFF (Table 12.7)? -/
def State.takes (s : State) (n : Nat) : Bool := s.portUp n && s.fn (Page.DRF n) != 3 && s.fn (Page.DRF n) != 0

/-- The member at the other end, 0xFFF for none. -/
def State.partner (s : State) (n : Nat) : Nat := s.fld (Page.DRF n) Reg.DRF.PORT_STATE 27 16

/-- A port changes state: event 0, event 2 on entering DEGRADED, and record 0x6001. -/
def State.setPort (s : State) (n new : Nat) : State :=
  let old := s.portState n
  if old = new then s
  else
    let s1 := ((s.setFld (Page.DRF n) Reg.DRF.PORT_STATE 3 0 new).modPort n (fun p => { p with changed := s.osc })).raise (Page.DRF n) 0
    (s1.on (new == 4) (fun u => u.raise (Page.DRF n) 2)).record 0x6001 (Src.drift n) none (items [n, old, new, s.partner n])

/-- The member is the headframe; a cascade of one is its own (R315). -/
def State.isHead (s : State) : Bool :=
  let st := s.fld Page.CAS Reg.CAS.STATE 2 0
  st == 0 || st == 4

/-! ### Routes (R321 to R323) -/

/-- Which way a ring of n places is walked from a to b: 0 no hop, 1 the + side, 2 the − side (R322). -/
def ringWay (n a b : Nat) : Nat :=
  let d := (b + n - a % n) % n
  if d = 0 then 0 else if 2 * d < n then 1 else if n < 2 * d then 2 else if a % 2 = 0 then 1 else 2

/-- Sizes of the topology word (R321). -/
def topoX (t : Nat) : Nat := bits t 15 8 + 1
def topoY (t : Nat) : Nat := bits t 23 16 + 1
def topoZ (t : Nat) : Nat := bits t 31 24 + 1

/-- The direction of the first hop: 0 +X, 1 −X, 2 +Y, 3 −Y, 4 +Z, 5 −Z; none at the destination. -/
def firstWay (t me dest : Nat) : Option Nat :=
  let x := topoX t
  let y := topoY t
  let wx := ringWay x (me % x) (dest % x)
  let wy := ringWay y (me / x % y) (dest / x % y)
  let wz := ringWay (topoZ t) (me / (x * y) % topoZ t) (dest / (x * y) % topoZ t)
  if wx ≠ 0 then some (wx - 1) else if wy ≠ 0 then some (wy + 1) else if wz ≠ 0 then some (wz + 3) else none

/-- Distance between the second links of parallel pairs and their first links, and between the rails (Table 9.7). -/
def parallelStep (kind : Nat) : Nat := match kind with | 0 => 2 | 1 => 4 | _ => 6

/-- The port of a direction for a message: rail MSEQ mod 2 in dual rail, the second link for odd MSEQ where parallel
links exist (R322). -/
def wayPort (t way mseq : Nat) : Nat :=
  let kind := bits t 2 0
  if kind = 3 ∨ bit t 3 then way + (mseq % 2) * parallelStep kind else way

/-- The port of the same dimension in the other direction. -/
def oppositePort (n : Nat) : Nat := if n % 2 = 0 then n + 1 else n - 1

/-- Coordinate of a member in the dimension of a port, and the size of that dimension (R321). -/
def portPlace (t m n : Nat) : Nat × Nat :=
  let x := topoX t
  let y := topoY t
  match n % parallelStep (bits t 2 0) / 2 with
  | 0 => (m % x, x)
  | 1 => (m / x % y, y)
  | _ => (m / (x * y) % topoZ t, topoZ t)

/-- Is the link on a member's port the wrap link of its ring: between the last place and the first (R310)? -/
def wrapPort (t m n : Nat) : Bool :=
  let p := portPlace t m n
  if n % 2 = 0 then p.1 + 1 == p.2 else p.1 == 0

/-- The port on which a member sends a message, and whether it goes the other way round (R322, R323): the route table's port where
the table lists the destination, otherwise the dimension-ordered route; `up` tells the member's usable ports. -/
def routeOf (t me : Nat) (listed : Option (Nat × Nat)) (up : Nat → Bool) (dest mseq : Nat) : Option (Nat × Bool) :=
  match firstWay t me dest with
  | none => none
  | some way =>
    let own := match listed with
      | some (r0, r1) =>
        let a := if bits t 2 0 = 3 ∧ mseq % 2 = 1 then r1 else r0
        let b := if bits t 2 0 = 3 ∧ mseq % 2 = 1 then r0 else r1
        if a < 12 then a else if b < 12 then b else wayPort t way mseq
      | none => wayPort t way mseq
    if up own then some (own, false) else if up (oppositePort own) then some (oppositePort own, true) else none

/-- The port on which a message leaves for a member, and whether it is sent the other way round (R322, R323). -/
def State.route (s : State) (dest mseq : Nat) : Option (Nat × Bool) :=
  routeOf (s.rd Page.CAS Reg.CAS.TOPO) s.memberNo ((s.casc.routes.find? (fun r => r.1 == dest)).map (·.2)) s.takes dest mseq

/-! ### Messages and credits (R308 to R311) -/

/-- Virtual channel of a class (Table 9.3); 0 for the link classes. -/
def classVc (cls : Nat) : Nat := if cls < 3 then 0 else if cls < 7 then 1 else if cls = 7 then 2 else 3

/-- Buffers of a virtual channel (Table 9.5). -/
def vcBuffers (vc : Nat) : Nat := match vc with | 1 => 256 | 2 => 2048 | 3 => 512 | _ => 0

/-- Field of CREDITS that shows a virtual channel. -/
def vcField (vc : Nat) : Nat × Nat := match vc with | 1 => (8, 0) | 2 => (20, 9) | _ => (30, 21)

/-- Credits held. -/
def State.credits (s : State) (n vc : Nat) : Nat := s.fld (Page.DRF n) Reg.DRF.CREDITS (vcField vc).1 (vcField vc).2

/-- Change the credits held, never above the receiver's buffers. -/
def State.setCredits (s : State) (n vc v : Nat) : State :=
  if vc = 0 then s
  else s.setFld (Page.DRF n) Reg.DRF.CREDITS (vcField vc).1 (vcField vc).2 (min v (vcBuffers vc))

/-- Tubs of a message: 16 for each block and the end tub (R308). -/
def OutMsg.tubs (m : OutMsg) : Nat := 16 * m.blocks.length + 1

/-- Is the link on a port a wrap link of a torus (R310)? -/
def State.wraps (s : State) (n : Nat) : Bool := wrapPort (s.rd Page.CAS Reg.CAS.TOPO) s.memberNo n

/-- Are there credits for tubs with a DATELINE bit: a wrap link's buffers are split into two halves selected by it (R310)? -/
def State.affords (s : State) (n vc k : Nat) (dl : Bool) : Bool :=
  decide (k ≤ s.credits n vc) && (!s.wraps n || decide ((s.port n).flight.count (vc, dl) + k ≤ vcBuffers vc / 2))

/-- May a message leave now: credits for its tubs, and at most 4,096 tubs unacknowledged (R310, R312)? -/
def State.fits (s : State) (n : Nat) (m : OutMsg) : Bool :=
  s.affords n (classVc m.cls) m.tubs false && decide ((s.port n).unacked.length + m.tubs ≤ 4096)

/-- Spend credits and count the tubs that leave a port. -/
def State.sendTubs (s : State) (n vc k : Nat) (dl : Bool) : State :=
  let p := s.port n
  let s1 := s.setCredits n vc (s.credits n vc - k)
  let s2 := s1.modPort n (fun q => { q with
    unacked := q.unacked ++ (List.range k).map (fun i => (q.txNext + i) % 65536)
    txNext := (q.txNext + k) % 65536
    flight := if s.wraps n then q.flight ++ List.replicate k (vc, dl) else q.flight
    sentAt := if p.unacked = [] then s.osc else q.sentAt })
  s2.count64 (Page.DRF n) Reg.DRF.TX_TUBS_LO 3 k

/-- Credits returned by the receiver, oldest tubs of the channel first. -/
def State.takeCredits (s : State) (n vc k : Nat) : State :=
  let gone := ((s.port n).flight.filter (fun f => f.1 == vc)).take k
  (s.setCredits n vc (s.credits n vc + k)).modPort n (fun p => { p with flight := gone.foldl (fun l f => l.erase f) p.flight })

/-- Who a message contends as: 64 on channel 3, its claim on channel 2, 66 on channel 1 (R311). -/
def OutMsg.lane (m : OutMsg) : Nat := match classVc m.cls with | 2 => m.key % 64 | 3 => 64 | _ => 66

/-- The first message of a contender, where it may leave now. -/
def State.firstOut (s : State) (n k : Nat) : Option OutMsg :=
  match (s.port n).outq.find? (fun m => m.lane == k) with
  | some m => if s.fits n m && (s.portUp n || m.cls == 3) then some m else none
  | none => none

/-- Share of a contender: a claim's drift share, CKPT_SHARE for channel 3 and the rest of 64 for channel 2 (R311). -/
def State.laneShare (s : State) (k : Nat) : Nat :=
  let ck := s.fld Page.CAS Reg.CAS.CKPT_SHARE 5 0
  max 1 (if k = 64 then ck else if k = 65 then 64 - ck else s.fld (Page.CLM k) Reg.CLM.DRIFT_SHARE 6 0)

/-- Deficit round-robin in tubs among contenders, each with the size of its first message: the one that needs the fewest rounds
sends, and every contender has gained its share for each of these rounds (R311, log 88). -/
def State.drrPick (s : State) (n : Nat) (l : List (Nat × Nat)) : Option (Nat × State) :=
  let need (e : Nat × Nat) : Nat := ceilDiv (e.2 - Sparse.get 0 (s.port n).drr e.1) (s.laneShare e.1)
  match l with
  | [] => none
  | a :: r =>
    let w := r.foldl (fun b e => if need e < need b then e else b) a
    let p := s.port n
    let kept := p.drr.filter (fun x => p.outq.any (fun m => m.lane == x.1 || (decide (m.lane < 64) && x.1 == 65)))
    let now := l.foldl (fun d e =>
      Sparse.set 0 d e.1 (Sparse.get 0 p.drr e.1 + need w * s.laneShare e.1 - (if e.1 = w.1 then e.2 else 0))) kept
    some (w.1, s.modPort n (fun q => { q with drr := now }))

/-- The message that leaves next (R311): channel 1, then channels 2 and 3 by deficit round-robin, within channel 2 the claims. -/
def State.nextOut (s : State) (n : Nat) : Option (OutMsg × State) :=
  match s.firstOut n 66 with
  | some m => some (m, s)
  | none =>
    let cs := ((List.range 64).filterMap (fun c => (s.firstOut n c).map (fun m => (c, m.tubs))))
    match s.firstOut n 64, s.drrPick n cs with
    | none, none => none
    | some m, none => some (m, s)
    | none, some (c, u) => (s.firstOut n c).map (fun m => (m, u))
    | some k, some (c, u) =>
      match s.firstOut n c with
      | none => some (k, s)
      | some t =>
        match s.drrPick n [(64, k.tubs), (65, t.tubs)] with
        | some (64, v) => some (k, v)
        | _ => (u.drrPick n [(64, k.tubs), (65, t.tubs)]).map (fun x => (t, x.2))

/-- One message leaves. -/
def State.pumpOne (s : State) (n : Nat) : State :=
  match s.nextOut n with
  | none => s
  | some (m, u) =>
    let s1 := (u.modPort n (fun p => { p with outq := p.outq.erase m })).sendTubs n (classVc m.cls) m.tubs false
    match m.origin with
    | none => s1
    | some o => s1.modPort n (fun p => { p with sends := p.sends ++ [((p.txNext + 65535) % 65536, o)] })

/-- Let every message leave that can. -/
def State.pump (s : State) (n : Nat) : State := (s.port n).outq.foldl (fun u _ => u.pumpOne n) s

/-- Queue a message on a port. -/
def State.queueOn (s : State) (n : Nat) (m : OutMsg) : State :=
  (s.modPort n (fun p => { p with outq := p.outq ++ [m] })).pump n

/-- The next MSEQ of a key towards a member, from 1 (Table 9.4). -/
def State.nextMseq (s : State) (key dest : Nat) : Nat := Sparse.get 0 s.casc.sentSeq (key * 4096 + dest) + 1

/-- Send a message to a member (R308, R322). Without a usable route it is not queued: R183 covers what it carried. -/
def State.sendMsg (s : State) (m : OutMsg) : State :=
  let q := s.nextMseq m.key m.dest
  let s1 := { s with casc := { s.casc with sentSeq := Sparse.set 0 s.casc.sentSeq (m.key * 4096 + m.dest) q } }
  let m1 := { m with mseq := q, epoch := s.rd64 Page.DEV Reg.DEV.STATE_EPOCH_LO }
  match s1.route m.dest q with
  | none => s1
  | some (n, det) => s1.queueOn n { m1 with detour := det }

/-- A message without blocks to a member, under the device pair key. -/
def OutMsg.plain (cls dest : Nat) (content : List Nat) : OutMsg :=
  { cls := cls, dest := dest, destRole := dest * 16 + 1, destEpoch := 0, srcRole := 0, key := 0, mseq := 0, tag := 0, epoch := 0
    first := 0, blocks := [], content := content, detour := false, origin := none }

/-- The ports that take new messages (Table 12.7). -/
def State.upPorts (s : State) : List Nat := (List.range 12).filter (fun n => s.takes n)

/-- Send a message without blocks to every partner. -/
def State.toPartners (s : State) (cls : Nat) (content : List Nat) : State :=
  s.each s.upPorts (fun u n => u.queueOn n (OutMsg.plain cls (u.partner n) content))

/-- The other members of the topology, apart from the partners on this member's ports and from members declared lost. -/
def State.beyond (s : State) : List Nat :=
  let t := s.rd Page.CAS Reg.CAS.TOPO
  let near := s.upPorts.map s.partner
  (List.range (topoX t * topoY t * topoZ t)).filter (fun m => m != s.memberNo && !near.contains m && (s.peer m).info != 5)

/-- Send a message without blocks to every other member of the cascade: to the partners on their ports, to the others over their
routes (R308, R322). -/
def State.toMembers (s : State) (cls : Nat) (content : List Nat) : State :=
  (s.toPartners cls content).each s.beyond (fun u m => u.sendMsg (OutMsg.plain cls m content))

/-- The ports over which a member is known to reach a partner: this member's own, or those that the other reported (R323). -/
def State.upAt (s : State) (m n : Nat) : Bool :=
  if m = s.memberNo then s.takes n else (s.peer m).adj.any (fun e => e.1 == n)

/-- The route table of a member (R323): for each destination the first port on each rail, 15 where a rail has none. -/
def State.routeRows (s : State) (m : Nat) : List (Nat × Nat × Nat) :=
  let t := s.rd Page.CAS Reg.CAS.TOPO
  ((List.range (topoX t * topoY t * topoZ t)).filter (· != m)).filterMap (fun d =>
    match routeOf t m none (s.upAt m) d 0, routeOf t m none (s.upAt m) d 1 with
    | some (a, _), some (b, _) => some (d, a, b)
    | some (a, _), none => some (d, a, 15)
    | none, some (b, _) => some (d, 15, b)
    | none, none => none)

/-- Content of a route table. -/
def flatRows (l : List (Nat × Nat × Nat)) : List Nat := l.flatMap (fun e => [e.1, e.2.1, e.2.2])

/-- The headframe recomputes the route table and distributes to each member its rows (R323): record 0x600D with the link that changed,
as member × 16 + port. -/
def State.newRoutes (s : State) (m n : Nat) : State :=
  let v := s.casc.routeVer + 1
  let s1 := { s with casc := { s.casc with routeVer := v, routes := s.routeRows s.memberNo } }
  let others := (s1.casc.peers.map (·.1)).filter (fun d => d != s1.memberNo && (s1.peer d).info != 0 && (s1.peer d).info != 5)
  (s1.each others (fun u d => u.sendMsg (OutMsg.plain 5 d ([5, v] ++ flatRows (u.routeRows d))))).record 0x600D (Src.cascade 0) none
    (items [m * 16 + n, v])

/-- The state of a port has changed: the headframe makes new routes, another member reports its link to the headframe (R323). -/
def State.routesChanged (s : State) (n : Nat) : State :=
  if s.isHead then s.newRoutes s.memberNo n
  else
    let head := s.fld Page.CAS Reg.CAS.HEADFRAME 11 0
    if head = 0xFFF then s else s.sendMsg (OutMsg.plain 5 head [13, s.memberNo, n, if s.takes n then 1 else 0, s.partner n])

/-! ### A port leaves service (R330) -/

/-- A port goes DOWN: its queue is discarded, routes change, and the fourth time within 10 s it is held DISABLED with
event 0x600E. -/
def State.dropPort (s : State) (n : Nat) : State :=
  if s.portState n = 0 ∨ s.portState n = 6 then s
  else
    let recent := (s.port n).downs.filter (fun t => decide (s.osc < t + 10000000000)) ++ [s.osc]
    let held := decide (4 ≤ recent.length)
    let s1 := (s.setPort n 0).modPort n (fun p => { p with outq := [], unacked := [], sends := [], ctl := [], buffered := [], flight := [], drr := [], linkKey := [], downs := recent, uncorr := 0 })
    let s2 := ((s1.setFld (Page.DRF n) Reg.DRF.PORT_STATE 6 4 0).setFld (Page.DRF n) Reg.DRF.PORT_STATE 31 16 0xFFF).wr (Page.DRF n) Reg.DRF.CREDITS 0
    let s3 := s2.on held (fun u => ((u.setPort n 6).wr (Page.DRF n) Reg.DRF.PORT_DISABLE 1).record 0x600E (Src.drift n) none (items [n]))
    s3.routesChanged n

/-- A failure of authentication (R316, R330): event 0x6003 and AUTH_FAIL; the port is QUARANTINED. -/
def State.quarantine (s : State) (n identity step : Nat) : State :=
  if s.portState n = 0 ∨ s.portState n = 6 then s
  else
    let was := s.portUp n
    let s1 := (s.setPort n 5).modPort n (fun p => { p with outq := p.outq.filter (fun m => m.cls == 3) })
    let s2 := (s1.raise (Page.DRF n) 3).record 0x6003 (Src.drift n) none
      [it 1 n, { id := 2, kind := 3, size := 48, val := identity }, it 3 step]
    s2.on was (fun u => u.routesChanged n)

/-! ### Lanes (R303 to R306) -/

/-- Physical lane of logical position k; position 4 is the spare. -/
def State.laneAt (s : State) (n k : Nat) : Nat := s.fld (Page.DRF n) Reg.DRF.LANE_MAP (3 * k + 2) (3 * k)

def State.laneFailed (s : State) (n lane : Nat) : Bool := bit (s.rd (Page.DRF n) Reg.DRF.LANE_MAP) (16 + lane)

/-- The lanes that have not failed. -/
def State.goodLanes (s : State) (n : Nat) : List Nat := (List.range 5).filter (fun l => !s.laneFailed n l)

/-- Put lanes into the five positions in order. -/
def State.setLanes (s : State) (n : Nat) (order : List Nat) : State :=
  s.each ((List.range 5).zip order) (fun u e => u.setFld (Page.DRF n) Reg.DRF.LANE_MAP (3 * e.1 + 2) (3 * e.1) e.2)

/-- The lanes in the order of their positions. -/
def State.laneOrder (s : State) (n : Nat) : List Nat := (List.range 5).map (s.laneAt n)

/-- Number of logical lanes in use (R306). -/
def State.activeLanes (s : State) (n : Nat) : Nat :=
  let g := (s.goodLanes n).length
  if 4 ≤ g then 4 else if 2 ≤ g then 2 else 0

/-- Failed lanes at the end of a list of lanes. -/
def State.goodFirst (s : State) (n : Nat) (l : List Nat) : List Nat :=
  l.filter (fun x => !s.laneFailed n x) ++ l.filter (fun x => s.laneFailed n x)

/-- The port settles on the lanes that are left: four, two in DEGRADED, or DOWN (R306). -/
def State.settleLanes (s : State) (n : Nat) : State :=
  let act := s.activeLanes n
  let s1 := s.setFld (Page.DRF n) Reg.DRF.PORT_STATE 6 4 act
  if act = 0 then s1.dropPort n
  else if act = 2 then (s1.setLanes n (s1.goodFirst n (s1.laneOrder n))).on (s1.portState n == 3) (fun u => u.setPort n 4)
  else s1.on (s1.portState n == 4) (fun u => u.setPort n 3)

/-- Exchange a lane with a spare. -/
def State.swapSpare (s : State) (n lane sp : Nat) : State :=
  s.setLanes n ((s.laneOrder n).map (fun l => if l = lane then sp else if l = sp then lane else l))

/-- The good spares of a port, in the order of their positions: lanes trained and not in use (R303, R306). -/
def State.spareLanes (s : State) (n : Nat) : List Nat :=
  ((s.laneOrder n).drop (s.activeLanes n)).filter (fun l => !s.laneFailed n l)

/-- Codes of the causes of R304. -/
def laneCauseCode : LaneCause → Nat
  | .lockLost => 1 | .symbolErrors => 2 | .eyeMargin => 3 | .retired => 4

/-- A lane fails (R304): the spare takes an active lane's position; LANE_SWAPS, event 0x6002 and LANE_SWAP. -/
def State.failLane (s : State) (n lane : Nat) (cause : LaneCause) : State :=
  if s.laneFailed n lane ∨ 5 ≤ lane then s
  else
    let act := s.activeLanes n
    let active := ((s.laneOrder n).take act).contains lane
    let s1 := s.setFld (Page.DRF n) Reg.DRF.LANE_MAP (16 + lane) (16 + lane) 1
    let up := decide (s.portState n ≠ 0) && decide (s.portState n ≠ 6)
    let s2 := match active, s.spareLanes n with
      | true, sp :: _ =>
        (((s1.setLanes n ((s1.laneOrder n).map (fun l => if l = lane then sp else if l = sp then lane else l))).count
          (Page.DRF n) Reg.DRF.LANE_SWAPS 8 1).raise (Page.DRF n) 1).record 0x6002 (Src.drift n) none (items [n, lane, laneCauseCode cause])
      | _, _ => s1
    s2.on up (fun u => u.settleLanes n)

/-- LANE_FAIL (R304). -/
def execLaneFail (port lane : Nat) (cause : LaneCause) (s : State) : Out :=
  perform (.laneFail port lane cause) s (s.failLane port lane cause)

/-- Write a lane's eye margin. -/
def State.setEye (s : State) (n lane eye : Nat) : State :=
  if lane < 4 then s.setFld (Page.DRF n) Reg.DRF.EYE_A (8 * lane + 7) (8 * lane) (min eye 255)
  else s.setFld (Page.DRF n) Reg.DRF.EYE_B 7 0 (min eye 255)

/-- EYE_MEASURE (R304, R305), in 1/256 of nominal: below 10 % the lane fails; an active lane below 35 % rotates with a
good spare. -/
def execEyeMeasure (port lane eye : Nat) (s : State) : Out :=
  perform (.eyeMeasure port lane eye) s
    (let s1 := s.setEye port lane eye
    if s.laneFailed port lane then s1
    else if eye * 100 < 2560 then s1.failLane port lane .eyeMargin
    else
      match decide (eye * 100 < 8960) && ((s.laneOrder port).take (s.activeLanes port)).contains lane, s.spareLanes port with
      | true, sp :: _ =>
        ((((s1.swapSpare port lane sp).count (Page.DRF port) Reg.DRF.LANE_SWAPS 8 1).raise (Page.DRF port) 1).replan
          (Src.drift port) 5 lane eye lane sp)
      | _, _ => s1)

/-- LANE_RETRAIN (R305, R306): a failed lane that has held 35 % for 60 s is good again, as the spare or, where fewer
than four lanes were good, in its port's four. -/
def execLaneRetrain (port lane eye held : Nat) (s : State) : Out :=
  perform (.laneRetrain port lane eye held) s
    (let s1 := s.setEye port lane eye
    if !s.laneFailed port lane || decide (eye * 100 < 8960) || decide (held < 60) then s1
    else
      let s2 := s1.setFld (Page.DRF port) Reg.DRF.LANE_MAP (16 + lane) (16 + lane) 0
      let s3 := s2.on (decide (s.activeLanes port < 4)) (fun u => u.setLanes port (u.goodFirst port (u.laneOrder port)))
      s3.on (decide (s.portState port ≠ 0) && decide (s.portState port ≠ 6)) (fun u => u.settleLanes port))

/-- A completed pair on LANE_RETIRE: GO and a lane. -/
def State.laneRetireAct (s : State) (n v : Nat) : State × Bool :=
  if bit v 8 ∧ bits v 2 0 < 5 then done (s.failLane n (bits v 2 0) .retired) else refusedWrite s

/-- LANE_RETIRE (R304). -/
def execLaneRetire (src : Source) (port : Nat) (v : Word) (s : State) : Out :=
  perform (.laneRetire src port v) s
    (s.guarded src (Page.DRF port) Reg.DRF.LANE_RETIRE v.toNat (fun u => u.laneRetireAct port v.toNat))

/-! ### Tubs, credits and retry (R307, R310, R312) -/

/-- CRC-8 of a list of bytes: polynomial 0x07, initial value 0 (Table 9.2). -/
def crc8 (l : List Nat) : Nat :=
  l.foldl (fun c b => (List.range 8).foldl (fun x _ => if bit x 7 then ((x * 2) % 256) ^^^ 7 else x * 2) (c ^^^ b)) 0

/-- Header bytes 0x00 to 0x0E as they arrive. -/
def tubBytes (t : Tub) : List Nat :=
  let le (v : Nat) : List Nat := [v % 256, v / 256 % 256]
  [t.cls % 16 + (if t.fin then 16 else 0) + (if t.detour then 32 else 0) + (if t.dateline then 64 else 0), t.key % 64] ++
    le t.lseq ++ le t.lack ++ le (t.cred % 4096 + t.vc % 4 * 4096) ++ le (t.dest % 4096) ++ le (t.src % 4096) ++ le t.msg ++ [t.index % 256]

/-- a precedes or equals b in serial arithmetic modulo 2^16 (R312). -/
def serialLe (a b : Nat) : Bool := decide ((b + 65536 - a % 65536) % 65536 < 32768)

/-- Tubs up to an acknowledgement are kept no longer; a SEND completes with the last tub of its last message. -/
def State.acknowledge (s : State) (n lack : Nat) : State :=
  let left := (s.port n).unacked.filter (fun q => !serialLe q lack)
  if left.length = (s.port n).unacked.length then s
  else
    let done_ := (s.port n).sends.filter (fun e => !left.contains e.1)
    let s1 := s.modPort n (fun p => { p with unacked := left, sentAt := s.osc, sends := p.sends.filter (fun e => left.contains e.1) })
    s1.each done_ (fun u e => u.unitDone e.2.1 e.2.2)

/-- Ask for the first missing tub once: RETRY on LINK_CTL (R312). -/
def State.askRetry (s : State) (n : Nat) : State :=
  let p := s.port n
  if p.wanted = p.rxNext + 1 then s
  else
    (s.modPort n (fun q => { q with wanted := q.rxNext + 1, ctl := q.ctl ++ [(2, q.rxNext)] })).count
      (Page.DRF n) Reg.DRF.RETRIES 2 1

/-- The port on which a tub that came in on port n goes on, and whether it is a detour (R322, R323): a DETOUR tub keeps its direction
round the ring of its dimension until it has come to its destination's place there; at a second DOWN port it is discarded. -/
def State.onward (s : State) (n : Nat) (t : Tub) : Option (Nat × Bool) :=
  let topo := s.rd Page.CAS Reg.CAS.TOPO
  if t.detour ∧ (portPlace topo s.memberNo n).1 ≠ (portPlace topo t.dest n).1 then
    (if s.takes (oppositePort n) then some (oppositePort n, true) else none)
  else
    match s.route t.dest t.msg with
    | some (k, true) => if t.detour then none else some (k, true)
    | r => r

/-- A tub for another member is passed on (R308, R323). DATELINE is set once it has crossed a wrap link in the dimension it stays in. -/
def State.forwardTub (s : State) (n : Nat) (t : Tub) : State :=
  match s.onward n t with
  | none => s
  | some (k, _) =>
    let step := parallelStep (bits (s.rd Page.CAS Reg.CAS.TOPO) 2 0)
    let dl := n % step / 2 == k % step / 2 && (t.dateline || s.wraps n)
    if s.affords k (classVc t.cls) 1 dl then s.sendTubs k (classVc t.cls) 1 dl
    else s.modPort k (fun p => { p with buffered := p.buffered ++ [(classVc t.cls, dl)] })

/-- Tubs waiting in a port for credits leave when credits return. -/
def State.pumpTubs (s : State) (n : Nat) : State :=
  (s.port n).buffered.foldl (fun u b =>
    if u.affords n b.1 1 b.2 then (u.modPort n (fun p => { p with buffered := p.buffered.erase b })).sendTubs n b.1 1 b.2 else u) s

/-- TUB_RECEIVE (R307, R310, R312, R316). -/
def State.tubArrives (s : State) (n : Nat) (t : Tub) : State :=
  let st := s.portState n
  if st = 0 ∨ st = 6 then s
  else if crc8 (tubBytes t) ≠ t.hcrc then s.askRetry n
  else if 9 ≤ t.cls then s
  else if (st = 1 ∨ st = 5) ∧ !(t.cls == 0 || t.cls == 2 || t.cls == 3) then s
  else
    let s1 := s.acknowledge n t.lack
    let s2 := s1.takeCredits n t.vc t.cred
    let s3 :=
      if t.cls < 3 then s2.count64 (Page.DRF n) Reg.DRF.RX_TUBS_LO 4 1
      else if t.lseq ≠ (s2.port n).rxNext then (if serialLe t.lseq (s2.port n).rxNext then s2 else s2.askRetry n)
      else
        let a := (s2.modPort n (fun p => { p with rxNext := (p.rxNext + 1) % 65536, wanted := 0 })).count64
          (Page.DRF n) Reg.DRF.RX_TUBS_LO 4 1
        a.on (t.cls != 3 && decide (a.memberNo ≠ 0xFFF) && decide (t.dest ≠ a.memberNo)) (fun u => u.forwardTub n t)
    (s3.pumpTubs n).pump n

/-- TUB_RECEIVE (R307). -/
def execTubReceive (port : Nat) (tub : Tub) (s : State) : Out :=
  perform (.tubReceive port tub) s (s.tubArrives port tub)

/-- RETRY (R312): the sender resends from the missing tub. -/
def execRetry (port lseq : Nat) (s : State) : Out :=
  perform (.retry port lseq) s
    (let again := (s.port port).unacked.filter (fun q => serialLe lseq q)
    if again = [] then s
    else (s.modPort port (fun p => { p with sentAt := s.osc })).count64 (Page.DRF port) Reg.DRF.TX_TUBS_LO 3 again.length)

/-- ACK_TIMEOUT (R312): the sender resends from its oldest unacknowledged tub. -/
def execAckTimeout (port : Nat) (s : State) : Out :=
  perform (.ackTimeout port) s
    (let k := (s.port port).unacked.length
    if k = 0 then s
    else ((s.modPort port (fun p => { p with sentAt := s.osc })).count (Page.DRF port) Reg.DRF.RETRIES 2 1).count64
      (Page.DRF port) Reg.DRF.TX_TUBS_LO 3 k)

/-! ### Ports coming and going (R316, R330) -/

/-- PORT_DOWN (R330). -/
def execPortDown (port : Nat) (s : State) : Out := perform (.portDown port) s (s.dropPort port)

/-- UNCORR_WINDOW (R330): one millisecond with so many uncorrectable codewords, and symbols corrected in a free number (log 27); the tenth in succession above 16, with no
failed lane, quarantines the port. -/
def execUncorrWindow (port count : Nat) (s : State) : Out :=
  perform (.uncorrWindow port count) s
    (let s1 := (s.drawn.count64 (Page.DRF port) Reg.DRF.FEC_CORR_LO 0 (s.draw 16).toNat).count (Page.DRF port) Reg.DRF.FEC_UNCORR 1 count
    let bad := decide (16 < count) && decide ((s.goodLanes port).length = 5)
    let k := if bad then (s.port port).uncorr + 1 else 0
    let s2 := s1.modPort port (fun p => { p with uncorr := if 10 ≤ k then 0 else k })
    s2.on (decide (10 ≤ k)) (fun u => u.quarantine port (u.port port).identity 0))

/-- A completed pair on PORT_DISABLE: 1 takes the port DOWN and holds it, 0 releases it to retrain. -/
def State.portDisableAct (s : State) (n v : Nat) : State × Bool :=
  if bit v 0 then done (((s.dropPort n).setPort n 6).wr (Page.DRF n) Reg.DRF.PORT_DISABLE 1)
  else done ((((s.wr (Page.DRF n) Reg.DRF.PORT_DISABLE 0).on (s.portState n == 6) (fun u => u.setPort n 0)).modPort n
    (fun p => { p with downs := [] })))

/-- PORT_DISABLE (R330). -/
def execPortDisable (src : Source) (port : Nat) (v : Word) (s : State) : Out :=
  perform (.portDisable src port v) s
    (s.guarded src (Page.DRF port) Reg.DRF.PORT_DISABLE v.toNat (fun u => u.portDisableAct port v.toNat))

/-- Send HELLO on a port (Table 9.6, step 2): the identity's certificate chain, the roster, a fresh 48-byte nonce and the ephemeral public
key of the same draw. -/
def State.sendHello (s : State) (n : Nat) : State :=
  let x := (s.draw 384).toNat
  (s.drawn.modPort n (fun p => { p with hello := x })).queueOn n (OutMsg.plain 3 0xFFF
    [1, leNat Config.identityChain, leNat s.casc.roster, x, leNat (Config.agreePublic x)])

/-- LINK_TRAINED (R316): the lanes lock and the port reads LINKED; each side then sends HELLO, and the port reads AUTH. -/
def execLinkTrained (port lanes : Nat) (s : State) : Out :=
  perform (.linkTrained port lanes) s
    (if s.portState port ≠ 0 ∨ lanes < 2 ∨ s.fn (Page.DRF port) = 0 then s
    else
      let act := if lanes < 4 then 2 else 4
      let s1 := (s.setFld (Page.DRF port) Reg.DRF.PORT_STATE 6 4 act).modPort port (fun p => { p with
        txNext := 0, rxNext := 0, wanted := 0, unacked := [], outq := [], buffered := [], flight := [], drr := [], linkKey := [] })
      let s2 := (((s1.setCredits port 1 256).setCredits port 2 2048).setCredits port 3 512).setPort port 1
      (s2.sendHello port).setPort port 2)

/-- AUTH_TIMEOUT (R316). -/
def execAuthTimeout (port : Nat) (s : State) : Out :=
  perform (.authTimeout port) s
    (if s.portState port = 2 then s.quarantine port (s.port port).identity 3 else s)

/-- QUARANTINE_RETRY (R316): the port counts one in AUTH_FAILS and sends HELLO again. -/
def execQuarantineRetry (port : Nat) (s : State) : Out :=
  perform (.quarantineRetry port) s
    (if s.portState port = 5 then
      (((s.count (Page.DRF port) Reg.DRF.AUTH_FAILS 5 1).sendHello port).setPort port 2)
    else s)

end Sys2Proof.Machine
end

