-- ==== Sys2Proof/Machine/Sessions.lean ====
section
/-!
DEFINITION. Sessions, enrolment, attestation, diagnostics and IDE keys (R371 to R373, R381 to R387, R394, R395, R405
to R409): the writes to pages ROL 0 to ROL 3.

A command that reports the end of a time (SESSION_IDLE, BLOCKED_END, CONSENT_EXPIRY) is the event itself: the model does
not measure the time again (log 8).
-/

namespace Sys2Proof.Machine

/-! ### Opening a session (R382, R383) -/

/-- Link IDE active on the port of a source. -/
def State.ideActive (s : State) (src : Source) : Bool :=
  match src with
  | .monitor => false
  | _ => bit (s.rd (Page.HP src.num) Reg.HP.LINK_STATE) 14

/-- Is a claim bound to a host port (R462)? -/
def State.boundTo (s : State) (c port : Nat) : Bool :=
  if c < 32 then bit (s.rd (Page.HP port) Reg.HP.BOUND_A) c else bit (s.rd (Page.HP port) Reg.HP.BOUND_B) (c - 32)

/-- A write of SESS_REQ: a BLOCKED source's request is ignored and recorded; otherwise the session held ends, a fresh
nonce is drawn and the source is CHALLENGED. -/
def State.sessReqAct (s : State) (src : Source) (v : Nat) : State × Bool :=
  let page := Page.ROL src.num
  let role := bits v 1 0
  let claim := if role = 1 then bits v 13 8 else 0
  if s.fld page Reg.ROL.SESS_STATE 1 0 = 3 then
    refusedWrite (s.recordBy src 0x8002 Src.deputy (if role = 1 then some claim else none) (items [src.num, role, claim, 5]))
  else
    let s1 := s.endSession src 2
    let nonce := (s1.draw 384).toNat
    let s2 := s1.drawn.wrWords 0 page Reg.ROL.NONCE nonce 12
    let w := s2.rd page Reg.ROL.SESS_STATE
    let s3 := s2.wr page Reg.ROL.SESS_STATE (w / 2 ^ 24 * 2 ^ 24 + bits w 16 16 * 2 ^ 16 + 1 + role * 16 + claim * 256)
    done (s3.modSess src (fun x => { x with issued := s.osc, nonce := nonce, role := role, claim := claim, fresh := true }))

/-- The key that verifies a proof: the claim's operator key, the installer's, or that of the maker's chain. -/
def State.sessionKey (s : State) (role claim : Nat) (proof : List Byte) : Option (List Byte) :=
  match role with
  | 1 => some (s.claim claim).opKey
  | 2 => if s.enrolled then some s.vault.installer else none
  | 3 => Config.chainKey 0 (proof.take (Config.derLength proof))
  | _ => none

/-- The signature of a proof: after the chain for a maker, otherwise first. -/
def proofSignature (role : Nat) (proof : List Byte) : List Byte :=
  if role = 3 then (proof.drop (Config.derLength proof)).take 96 else proof.take 96

/-- The 99 bytes that a proof signs (R382). -/
def sessionMessage (nonce : Nat) (src : Source) (role claim : Nat) : List Byte :=
  leBytes 48 nonce ++ hashBytes identityHash ++ [BitVec.ofNat 8 src.num, BitVec.ofNat 8 role, BitVec.ofNat 8 claim]

/-- Why a proof fails (R382, R383), 0 where it succeeds: 1 no fresh nonce, 2 key or signature, 3 claim state, 4 not
bound to the port, 6 maker gate closed, 7 link IDE. -/
def State.proofCause (s : State) (src : Source) (proof : List Byte) : Nat :=
  let x := s.sessOf src
  let c := x.claim
  if x.fresh = false ∨ x.issued + 60000000000 < s.osc then 1
  else
    let good := match s.sessionKey x.role c proof with
      | some k => Config.ecdsaVerify k (sessionMessage x.nonce src x.role c) (proofSignature x.role proof)
      | none => false
    if !good then 2
    else if x.role = 1 ∧ !(s.claimState c == 2 || s.claimState c == 3) ∨ (x.role = 1 ∧ c = 0) then 3
    else if x.role = 1 ∧ src ≠ .monitor ∧ !s.boundTo c src.num then 4
    else if x.role = 3 ∧ !bit (s.rd (Page.ROL 3) Reg.ROL3.ENROL_STATE) 2 then 6
    else if (x.role = 1 ∨ x.role = 3) ∧ src ≠ .monitor ∧ bit (s.rd (Page.ROL 3) Reg.ROL3.IDE_REQUIRE) src.num ∧ !s.ideActive src then 7
    else 0

/-- Seconds to the idle end (Table 11.11). -/
def State.idleSeconds (s : State) : Nat :=
  let m := s.fld (Page.ROL 3) Reg.ROL3.SESS_IDLE 15 0
  if m = 0 then 0xFFFFFF else m * 60

/-- A proof that succeeds (R383): the session opens, event 0x8001; a LOCKED claim becomes OPEN and its seams FREE. -/
def State.openSession (s : State) (src : Source) : State :=
  let page := Page.ROL src.num
  let x := s.sessOf src
  let w := s.rd page Reg.ROL.SESS_STATE
  let s1 := s.wr page Reg.ROL.SESS_STATE (w / 2 ^ 24 * 2 ^ 24 + bits w 16 16 * 2 ^ 16 + 2 + x.role * 16 + x.claim * 256)
  let s2 := ((s1.wr64 page Reg.ROL.OPENED_LO s.tally).wr page Reg.ROL.IDLE_LEFT s.idleSeconds).wrWords 0 page Reg.ROL.NONCE 0 12
  let s3 := (s2.modSess src (fun y => { y with fresh := false, access := s.osc })).raise page 0
  let s4 := s3.recordBy src 0x8001 Src.deputy (if x.role = 1 then some x.claim else none)
    (items [src.num, x.role, x.claim, if s.ideActive src then 1 else 0])
  s4.on (x.role == 1 && s.claimState x.claim == 3) (fun u =>
    (u.each (u.claimStopes x.claim) (fun a l => a.setSeams l 0)).setClaimState x.claim 2 0)

/-- A proof that fails (R383): no session, event 0x8002; the third failure within 60 s blocks the source for 60 s. -/
def State.failSession (s : State) (src : Source) (cause : Nat) : State :=
  let page := Page.ROL src.num
  let x := s.sessOf src
  let recent := x.fails.filter (fun t => decide (s.osc < t + 60000000000)) ++ [s.osc]
  let w := s.rd page Reg.ROL.SESS_STATE
  let blocked := decide (3 ≤ recent.length)
  let s1 := s.wr page Reg.ROL.SESS_STATE (min 255 recent.length * 2 ^ 24 + bits w 16 16 * 2 ^ 16 + (if blocked then 3 else 0))
  let s2 := (s1.wrWords 0 page Reg.ROL.NONCE 0 12).modSess src (fun y =>
    { y with fresh := false, fails := recent, blocked := if blocked then s.osc + 60000000000 else y.blocked })
  let s3 := s2.record 0x8002 Src.deputy (if x.role = 1 then some x.claim else none) (items [src.num, x.role, x.claim, cause])
  (s3.raise page 1).on blocked (fun u => u.raise page 3)

/-- A write of SESS_PROVE: the device verifies the staged proof of a CHALLENGED source. -/
def State.sessProveAct (s : State) (src : Source) (v : Nat) : State × Bool :=
  if !bit v 0 || s.fld (Page.ROL src.num) Reg.ROL.SESS_STATE 1 0 != 1 then refusedWrite s
  else
    let cause := s.proofCause src (s.staged src (Page.ROL src.num))
    if cause = 0 then done (s.openSession src) else done (s.failSession src cause)

/-- A write of SESS_END (R384). -/
def State.sessEndAct (s : State) (src : Source) (v : Nat) : State × Bool :=
  if bit v 0 then done (s.endSession src 1) else refusedWrite s

/-- SESS_REQ (R382). -/
def execSessReq (src : Source) (v : Word) (s : State) : Out :=
  perform (.sessReq src v) s
    (s.written src (Page.ROL src.num) Reg.ROL.SESS_REQ v.toNat false (fun u => u.sessReqAct src v.toNat))

/-- SESS_PROVE (R383). -/
def execSessProve (src : Source) (v : Word) (s : State) : Out :=
  perform (.sessProve src v) s
    (s.written src (Page.ROL src.num) Reg.ROL.SESS_PROVE v.toNat false (fun u => u.sessProveAct src v.toNat))

/-- SESS_END (R384). -/
def execSessEnd (src : Source) (v : Word) (s : State) : Out :=
  perform (.sessEnd src v) s
    (s.written src (Page.ROL src.num) Reg.ROL.SESS_END v.toNat false (fun u => u.sessEndAct src v.toNat))

/-- SESSION_IDLE (R384): the idle limit elapses; without a limit, or without a session, nothing ends. -/
def execSessionIdle (src : Source) (s : State) : Out :=
  perform (.sessionIdle src) s
    (if s.fld (Page.ROL 3) Reg.ROL3.SESS_IDLE 15 0 = 0 then s else s.endSession src 3)

/-- BLOCKED_END (R383). -/
def execBlockedEnd (src : Source) (s : State) : Out :=
  perform (.blockedEnd src) s
    (if s.fld (Page.ROL src.num) Reg.ROL.SESS_STATE 1 0 = 3 then
      s.setFld (Page.ROL src.num) Reg.ROL.SESS_STATE 1 0 0
    else s)

/-! ### Enrolment (R373) -/

/-- Is an object a public key: 0x04, two coordinates, and a point of the curve? -/
def keyOk (k : List Byte) : Bool := k.length == 97 && k.head? == some 0x04 && Config.onCurve k

/-- Show the enrolled key: ENROL_STATE and INST_KEY_HASH. -/
def State.showInstaller (s : State) (byRoster : Bool) : State :=
  let k := s.vault.installer
  let s1 := s.setFld (Page.ROL 3) Reg.ROL3.ENROL_STATE 1 0 (if k = [] then 0 else if byRoster then 3 else 1)
  s1.wrWords 0 (Page.ROL 3) Reg.ROL3.INST_KEY_HASH (if k = [] then 0 else (Config.sha384 k).toNat) 12

/-- Event 0x8009 (Table 11.10): old and new key hash, path 1 stream, 2 roster; outcome 0 ENROLLED, 1 WITHDRAWN, 2 REFUSED. -/
def State.recordEnrol (s : State) (src : Source) (old new : List Byte) (path outcome : Nat) : State :=
  let h (k : List Byte) : Hash := if k = [] then 0 else Config.sha384 k
  s.recordBy src 0x8009 Src.deputy none ([itH 1 (h old), itH 2 (h new), it 3 path, it 4 outcome])

/-- Enrol the key staged as kind 1, or refuse a point that does not lie on the curve. -/
def State.enrolAct (s : State) (src : Source) : State × Bool :=
  let k := (s.stagedKind src 1).take 97
  let old := s.vault.installer
  if !keyOk k then refusedWrite (s.recordEnrol src old k 1 2)
  else
    let s1 := { s with vault := { s.vault with installer := k } }
    let s2 := (((s1.showInstaller false).raise (Page.ROL 3) 1)).recordEnrol src old k 1 0
    done (s2.endSessions 5 (fun _ r _ => r == 2))

/-- Withdraw the enrolment: only while claims 1 to 63 are all EMPTY. -/
def State.withdrawAct (s : State) (src : Source) : State × Bool :=
  if !s.noOperatorClaim || s.vault.installer = [] then refusedWrite s
  else
    let old := s.vault.installer
    let s1 := ({ s with vault := { s.vault with installer := [] } }).showInstaller false
    done (((s1.raise (Page.ROL 3) 1).recordEnrol src old [] 1 1).endSessions 5 (fun _ r _ => r == 2))

/-- A completed pair on INST_ENROL. -/
def State.instEnrolAct (s : State) (src : Source) (v : Nat) : State × Bool :=
  if v = 1 then s.enrolAct src else if v = 2 then s.withdrawAct src else refusedWrite s

/-- INST_ENROL (R373). -/
def execInstEnrol (src : Source) (v : Word) (s : State) : Out :=
  perform (.instEnrol src v) s
    (s.guarded src (Page.ROL 3) Reg.ROL3.INST_ENROL v.toNat (fun u => u.instEnrolAct src v.toNat))

/-- INST_WITHDRAW (R373): the write of 2 on the same register. -/
def execInstWithdraw (src : Source) (v : Word) (s : State) : Out :=
  perform (.instWithdraw src v) s
    (s.guarded src (Page.ROL 3) Reg.ROL3.INST_ENROL v.toNat (fun u => u.instEnrolAct src v.toNat))

/-! ### Attestation (R409) -/

/-- View of a report: 0 none, 1 operator, 2 installer, 3 maker. -/
def State.attestView (s : State) (src : Source) : Nat := s.roleOf src

/-- Claim entry c of Table 11.8 for a view. -/
def State.attestClaim (s : State) (view claim c : Nat) : List Byte :=
  let full := decide (2 ≤ view) || (view == 1 && claim == c)
  let st := leBytes 1 (s.claimState c)
  if !full then st ++ leBytes 31 0
  else
    let w := s.rd (Page.CLM c) Reg.CLM.CLAIM_STATE
    let flags := if c = 0 then (if s.prospectorHeld then 4 else 0) else bits w 3 3 + 2 * bits w 4 4 + 4 * bits w 5 5
    let k := (s.claim c).opKey
    let stopes := if c = 0 then (s.claimStopes 0).length else s.fld (Page.CLM c) Reg.CLM.STOPE_COUNT 10 0
    st ++ leBytes 1 flags ++ leBytes 2 stopes ++ leBytes 4 0 ++ leBytes 24 (if k = [] then 0 else (Config.sha384 k).toNat)

/-- Slot k of PACKS in the report. -/
def State.attestPack (s : State) (k : Nat) : List Byte :=
  if k = 0 then leBytes 8 0 ++ leBytes 8 (Config.fuse 3)
  else match s.packs.find? (fun e => e.1 == k) with
  | some e => leBytes 4 e.2.id ++ leBytes 4 0 ++ leBytes 8 e.2.ver
  | none => leBytes 16 0

/-- The first 0xA50 bytes of the report of Table 11.8. -/
def State.attestBody (s : State) (src : Source) : List Byte :=
  let view := s.attestView src
  let claim := if view = 1 then s.sessClaim src else 0
  let nonce := leNat ((s.stagedKind src 0).take 48)
  let enrol := s.rd (Page.ROL 3) Reg.ROL3.ENROL_STATE
  leBytes 4 1 ++ leBytes 1 view ++ leBytes 1 claim ++ leBytes 2 0 ++ leBytes 48 nonce ++ leBytes 8 s.tally
    ++ leBytes 1 (s.fld Page.TAL Reg.TAL.STATUS 2 0) ++ leBytes 3 0
    ++ leBytes 4 (s.rd Page.DEV Reg.DEV.OPSEC) ++ leBytes 4 (s.rd Page.DEV Reg.DEV.PWRCYC) ++ leBytes 4 0
    ++ hashBytes identityHash ++ leBytes 48 s.fw.running.hash ++ leBytes 48 (if s.fw.flashOk then s.fw.flash.hash else 0)
    ++ leBytes 8 s.fw.running.ver ++ leBytes 4 (Config.fuse 1) ++ leBytes 4 (s.rd Page.DEP Reg.DEP.FW_STATE)
    ++ leBytes 4 (Config.fuse 2) ++ leBytes 4 0 ++ leBytes 8 (s.rd64 Page.DEP Reg.DEP.FW_FLOOR_LO)
    ++ leBytes 48 (if s.vault.installer = [] then 0 else (Config.sha384 s.vault.installer).toNat)
    ++ leBytes 8 (s.rd64 Page.CAS Reg.CAS.CASCADE_ID_LO) ++ leBytes 8 (s.rd64 Page.CAS Reg.CAS.ROSTER_VER_LO)
    ++ leBytes 4 (s.rd Page.CAS Reg.CAS.TOPO) ++ leBytes 2 s.memberNo ++ leBytes 2 (s.fld Page.CAS Reg.CAS.HEADFRAME 11 0)
    ++ leBytes 8 (bits enrol 2 2 + 256 * bits enrol 15 8)
    ++ ((List.range 16).map s.attestPack).flatten ++ ((List.range 64).map (s.attestClaim view claim)).flatten

/-- A write of ATTEST_REQ starts the signing. -/
def State.attestReqAct (s : State) (src : Source) (v : Nat) : State × Bool :=
  if !bit v 0 then refusedWrite s
  else
    let s1 := s.wrB src.num (Page.ROL 3) Reg.ROL3.ATTEST_STATE 0
    done { s1 with vault := { s1.vault with reports := Sparse.place src.num [] (Sparse.drop src.num s1.vault.reports) } }

/-- ATTEST_REQ (R409). -/
def execAttestReq (src : Source) (v : Word) (s : State) : Out :=
  perform (.attestReq src v) s
    (s.written src (Page.ROL 3) Reg.ROL3.ATTEST_REQ v.toNat false (fun u => u.attestReqAct src v.toNat))

/-- The report is signed: READY and VIEW, event 0x8010. -/
def State.attestSign (s : State) (src : Source) : State :=
  let body := s.attestBody src
  let s1 := { s with vault := { s.vault with
    reports := Sparse.place src.num (body ++ Config.identitySign body) (Sparse.drop src.num s.vault.reports) } }
  let s2 := s1.wrB src.num (Page.ROL 3) Reg.ROL3.ATTEST_STATE (1 + 256 * s.attestView src)
  (s2.raise (Page.ROL 3) 0).recordBy src 0x8010 Src.deputy none (items [src.num, s.attestView src])

/-- ATTEST_READY (R409): of a report that the source has requested. -/
def execAttestReady (src : Source) (s : State) : Out :=
  perform (.attestReady src) s
    (if s.vault.reports.any (fun e => e.1 == src.num && e.2.isEmpty) then s.attestSign src else s)

/-! ### Gate and diagnostics (R405 to R408) -/

/-- A completed pair on MAKER_GATE: closing ends every maker session. -/
def State.makerGateAct (s : State) (v : Nat) : State × Bool :=
  let s1 := ((s.wr (Page.ROL 3) Reg.ROL3.MAKER_GATE (v % 2)).setFld (Page.ROL 3) Reg.ROL3.ENROL_STATE 2 2 v).raise (Page.ROL 3) 4
  let s2 := s1.record 0x800A Src.deputy none (items [s.fld (Page.ROL 3) Reg.ROL3.DIAG_OPEN 7 0, 0, 1])
  done (s2.on (!bit v 0) (fun u => u.endSessions 6 (fun _ r _ => r == 3)))

/-- MAKER_GATE (R405). -/
def execMakerGate (src : Source) (v : Word) (s : State) : Out :=
  perform (.makerGate src v) s
    (s.guarded src (Page.ROL 3) Reg.ROL3.MAKER_GATE v.toNat (fun u => u.makerGateAct v.toNat))

/-- What may be asked of the IEEE 1149.1 port: the instructions that the standard makes mandatory, EXTEST, or the private
instructions on the stope stack and the mill. -/
inductive TapAsk where
  | mandatory | extest | scan
  deriving DecidableEq, Repr

/-- Does the IEEE 1149.1 port answer? Only while an installer or maker session exists on some source (R406). -/
def State.tapAnswers (s : State) : Bool := sources.any (fun src => s.roleOf src == 2 || s.roleOf src == 3)

/-- What the port offers while it answers: outside diagnostic function 0 no private instruction (R406). No command of the table
drives the port's pins, so this is all that it does in the model (log 84). -/
def State.tapOffers (s : State) (ask : TapAsk) : Bool :=
  s.tapAnswers && match ask with
    | .mandatory => true
    | .extest => true
    | .scan => bit (s.rd (Page.ROL 3) Reg.ROL3.DIAG_OPEN) 0

/-- Why a consent of R408 fails, 0 where it holds: 1 layout, 2 expired, 3 BIND_COUNT, 4 identity, 5 signature. -/
def State.consentCause (s : State) (b : List Byte) : Nat :=
  let f (off n : Nat) : Nat := leNat ((b.drop off).take n)
  let c := f 4 1
  if b.length ≠ 176 ∨ f 0 4 ≠ 1 ∨ f 5 3 ≠ 0 ∨ f 12 4 ≠ 0 ∨ 64 ≤ c then 1
  else if f 16 8 ≤ s.tally then 2
  else if f 24 8 ≠ (if c = 0 then 0 else s.rd (Page.CLM c) Reg.CLM.BIND_COUNT) then 3
  else if f 32 48 ≠ identityHash.toNat then 4
  else if !Config.ecdsaVerify (if c = 0 then s.vault.installer else (s.claim c).opKey) (b.take 80) ((b.drop 80).take 96) then 5
  else 0

/-- The 176-byte consents of a staged object, one after the other. -/
def consentsOf : Nat → List Byte → List (List Byte)
  | 0, _ => []
  | n + 1, b => if b.length < 176 then [] else b.take 176 :: consentsOf n (b.drop 176)

/-- Take the staged consents: those that hold are kept, the others recorded as event 0x800B. -/
def State.takeConsents (s : State) (src : Source) : State :=
  s.each (consentsOf 64 (s.stagedKind src 3)) (fun u b =>
    let f (off n : Nat) : Nat := leNat ((b.drop off).take n)
    let cause := u.consentCause b
    if cause = 0 then
      { u with vault := { u.vault with
        consents := u.vault.consents.filter (fun e => e.1 != f 4 1) ++ [(f 4 1, f 8 4, f 16 8, f 24 8)] } }
    else u.recordBy src 0x800B Src.deputy (some (f 4 1 % 64)) (items [f 4 1, cause]))

/-- A completed pair on DIAG_OPEN: the functions of the mask that Table 11.7 allows. -/
def State.diagOpenAct (s : State) (src : Source) (v : Nat) : State × Bool :=
  let s1 := s.takeConsents src
  done (s1.setDiag ((List.range 5).foldl (fun a f => if bit v f && s1.diagAllowed f then a + 2 ^ f else a) 0) 2)

/-- DIAG_OPEN (R407). -/
def execDiagOpen (src : Source) (v : Word) (s : State) : Out :=
  perform (.diagOpen src v) s
    (s.guarded src (Page.ROL 3) Reg.ROL3.DIAG_OPEN v.toNat (fun u => u.diagOpenAct src v.toNat))

/-- CONSENT_EXPIRY (R408): the claim's consent no longer counts, and what relied on it closes. -/
def execConsentExpiry (claim : Nat) (s : State) : Out :=
  perform (.consentExpiry claim) s
    (({ s with vault := { s.vault with consents := s.vault.consents.filter (fun e => e.1 != claim) } }).reviewDiag 5)

/-! ### Link IDE (R394, R395) -/

/-- A completed pair on IDE_KEY_COMMIT: the staged 32-byte key and 8-byte invocation field are programmed. The port
runs IDE under a key set once both directions and the three sub-streams of that set hold keys (log 9). -/
def State.ideCommitAct (s : State) (src : Source) (v : Nat) : State × Bool :=
  let sel := s.fld (Page.ROL 3) Reg.ROL3.IDE_SELECT 4 0
  let key := (s.stagedKind src 2).take 40
  if !bit v 0 || key.length != 40 then refusedWrite s
  else
    let port := sel % 2
    let set := bits sel 4 4
    let keys := Sparse.place sel key (Sparse.drop sel s.vault.ideKeys)
    let s1 := { s with vault := { s.vault with ideKeys := keys } }
    let whole := [0, 2].all (fun d => [0, 4, 8].all (fun t => keys.any (fun e => e.1 == port + d + t + 16 * set)))
    let s2 := s1.on whole (fun u =>
      ((u.setFld (Page.ROL 3) Reg.ROL3.IDE_STATE (8 * port + 1) (8 * port) (1 + 2 * set)).setFld (Page.HP port) Reg.HP.LINK_STATE 14 14 1).setFld
        (Page.ROL port) Reg.ROL.SESS_STATE 16 16 1)
    done ((s2.raise (Page.ROL 3) 3).recordBy src 0x8011 Src.deputy none (items [port, bits sel 1 1, bits sel 3 2, set]))

/-- IDE_KEY_COMMIT (R394). -/
def execIdeKeyCommit (src : Source) (v : Word) (s : State) : Out :=
  perform (.ideKeyCommit src v) s
    (s.guarded src (Page.ROL 3) Reg.ROL3.IDE_KEY_COMMIT v.toNat (fun u => u.ideCommitAct src v.toNat))

/-- A completed pair on IDE_REQUIRE. -/
def State.ideRequireAct (s : State) (v : Nat) : State × Bool :=
  done ((s.wr (Page.ROL 3) Reg.ROL3.IDE_REQUIRE (v % 4)).setFld (Page.ROL 3) Reg.ROL3.ENROL_STATE 17 16 v)

/-- IDE_REQUIRE (R395). -/
def execIdeRequire (src : Source) (v : Word) (s : State) : Out :=
  perform (.ideRequire src v) s
    (s.guarded src (Page.ROL 3) Reg.ROL3.IDE_REQUIRE v.toNat (fun u => u.ideRequireAct v.toNat))

end Sys2Proof.Machine
end

