-- ==== Sys2Proof/Machine/Cascade.lean ====
section
/-!
DEFINITION. The cascade as a member and as the headframe (R314 to R332): rosters, links that come up, candidates and
the headframe, joining, the role table and routes, losses and restarts.
-/

namespace Sys2Proof.Machine

/-! ### The tally's source and readiness -/

/-- Every landed page (Table 12.1). -/
def allPages : List Nat :=
  List.range 0x2A ++ (List.range 64).map (· + 0x40) ++ (List.range 64).map (· + 0x100) ++ (List.range 1024).map (· + 0x400)
    ++ (List.range 1056).map (· + 0x800)

/-- Is the module ready after step n (R520): step 7 complete and the tally disciplined, or no disciplined source to be
had after step 8: this member or its headframe runs FREE? -/
def State.readyNow (s : State) (n : Nat) : Bool :=
  let src := s.fld Page.TAL Reg.TAL.STATUS 2 0
  decide (7 ≤ n) && !bit (s.rd Page.DEV Reg.DEV.BRINGUP) 4 &&
    (s.disciplined || (decide (8 ≤ n) && ((s.isHead && src == 0) || src == 3)))

/-- The module becomes ready (R520): READY, READY_MS, event 0x0002, and every page that was starting reads ON. Where no grid
has been set, the power-up grid begins at the next whole second of tally (R173). -/
def State.becomeReady (s : State) (ms : Nat) : State :=
  let s := s.on (s.origin == 0) (fun u => u.wr64 Page.HOI Reg.HOI.ORIGIN_LO ((u.tally / 1000000000 + 1) * 1000000000))
  let s1 := (s.setFld Page.DEV Reg.DEV.BRINGUP 4 4 1).wr Page.DEV Reg.DEV.READY_MS ms
  let s2 := (s1.raise Page.DEV 0).record 0x0002 Src.deputy none (items [ms, s.fld Page.TAL Reg.TAL.STATUS 2 0])
  s2.each allPages (fun u p => u.on (u.fn p == 1) (fun w => w.setFn p 2))

/-- The source of the tally changes (R171); a module that waited for a disciplined tally becomes ready (R520). -/
def State.setSource (s : State) (new : Nat) : State :=
  let old := s.fld Page.TAL Reg.TAL.STATUS 2 0
  if old = new then s
  else
    let s1 := ((s.setFld Page.TAL Reg.TAL.STATUS 2 0 new).raise Page.TAL 0).record 0x5001 (Src.cascade 0) none
      (items [old, new, s.fld Page.TAL Reg.TAL.UPSTREAM 11 0])
    s1.on (s1.disciplined && s1.readyNow (s1.fld Page.DEV Reg.DEV.BRINGUP 3 0)) (fun u =>
      u.becomeReady ((u.osc - u.boot.began) / 1000000))

/-! ### Rosters (R314, R315, R321) -/

/-- An entry of a roster: identity, member, kind (0 active, 1 spare) and HEAD_PREF. -/
structure RosterE where
  identity : Nat
  member   : Nat
  kind     : Nat
  pref     : Nat
deriving DecidableEq, Repr

/-- n bytes from an offset as a little-endian number. -/
def slice (l : List Byte) (off n : Nat) : Nat := leNat ((l.drop off).take n)

/-- The entries of a roster (R314). -/
def rosterEntries (r : List Byte) : List RosterE :=
  (List.range (slice r 4 4)).map (fun i =>
    let o := 64 + 64 * i
    { identity := slice r o 48, member := slice r (o + 48) 2, kind := slice r (o + 50) 1, pref := slice r (o + 51) 1 })

/-- VERSION, CASCADE_ID and TOPO of a roster. -/
def rosterVersion (r : List Byte) : Nat := slice r 8 8
def rosterCascade (r : List Byte) : Nat := slice r 16 8
def rosterTopo (r : List Byte) : Nat := slice r 24 4

/-- Sizes of Table 9.7 for a topology word. -/
def topoOk (t : Nat) : Bool :=
  let x := topoX t
  let y := topoY t
  let z := topoZ t
  let within (n hi : Nat) : Bool := decide (2 ≤ n) && decide (n ≤ hi)
  bits t 7 4 == 0 && (match bits t 2 0 with
    | 0 => within x 256 && y == 1 && z == 1
    | 1 => within x 64 && within y 64 && z == 1
    | 2 => within x 16 && within y 16 && within z 16
    | 3 => within x 16 && within y 16 && within z 16
    | _ => false)

/-- Does a list hold no value twice? -/
def distinct (l : List Nat) : Bool := decide l.Nodup

/-- Is a roster well formed: layout, at most 4,096 entries that fill the topology, unique members and identities, zeros
where the layout gives zeros (R314, R321)? -/
def rosterForm (r : List Byte) : Bool :=
  let n := slice r 4 4
  let es := rosterEntries r
  let t := rosterTopo r
  decide (n ≤ 4096) && r.length == 64 + 64 * n + 96 && slice r 0 4 == 1 && slice r 28 36 == 0 && topoOk t &&
    n == topoX t * topoY t * topoZ t && distinct (es.map (·.member)) && distinct (es.map (·.identity)) &&
    es.all (fun e => decide (e.member < n) && decide (e.kind < 2)) &&
    (List.range n).all (fun i => slice r (64 + 64 * i + 52) 12 == 0)

/-- The signed part and the signature of a roster. -/
def rosterBody (r : List Byte) : List Byte := r.take (r.length - 96)
def rosterSig (r : List Byte) : List Byte := r.drop (r.length - 96)

/-- Is a roster valid under an installer key (R314)? -/
def rosterValid (key r : List Byte) : Bool := rosterForm r && Config.ecdsaVerify key (rosterBody r) (rosterSig r)

/-- The entry of this module's identity in a roster. -/
def ownEntry (r : List Byte) : Option RosterE := (rosterEntries r).find? (fun e => e.identity == identityHash.toNat)

/-- Entry of a member in the roster in force. -/
def State.rosterOf (s : State) (m : Nat) : Option RosterE := (rosterEntries s.casc.roster).find? (fun e => e.member == m)

/-- Diameter of a topology (Table 9.7). -/
def diameter (t : Nat) : Nat := topoX t / 2 + topoY t / 2 + topoZ t / 2

/-- Show the roster in force: CASCADE_ID, TOPO, DIAMETER, ROSTER_VER, AGREE_BOUND (R169) and, until the member is
admitted, its number. -/
def State.showRoster (s : State) : State :=
  let r := s.casc.roster
  let t := rosterTopo r
  let d := diameter t
  let s1 := (((s.wr64 Page.CAS Reg.CAS.CASCADE_ID_LO (rosterCascade r)).wr Page.CAS Reg.CAS.TOPO t).wr Page.CAS Reg.CAS.DIAMETER d).wr64
    Page.CAS Reg.CAS.ROSTER_VER_LO (rosterVersion r)
  let s2 := s1.wr Page.TAL Reg.TAL.AGREE_BOUND (if d ≤ 24 then 12 else 12 + ceilDiv (d - 24) 2)
  match ownEntry r with
  | some e => s2.setFld Page.CAS Reg.CAS.STATE 27 16 e.member
  | none => s2.setFld Page.CAS Reg.CAS.STATE 27 16 0xFFF

/-- CAS.STATE changes (R338). -/
def State.setCas (s : State) (st : Nat) : State :=
  if s.fld Page.CAS Reg.CAS.STATE 2 0 = st then s else (s.setFld Page.CAS Reg.CAS.STATE 2 0 st).raise Page.CAS 0

/-- Send JOIN to the headframe (R318), where one is known, otherwise to the partners: the identity hash, the signed public
agreement key (R392), and the partner of each port that carries messages. -/
def State.sendJoin (s : State) : State :=
  let adj := s.upPorts.foldl (fun l n => l ++ [n, s.partner n]) []
  let content := [1, identityHash.toNat, leNat (Config.agreePublic s.casc.agree)] ++ adj
  let head := s.fld Page.CAS Reg.CAS.HEADFRAME 11 0
  if head = 0xFFF ∨ head = s.memberNo ∨ (s.upPorts.map s.partner).contains head then s.toPartners 5 content
  else s.sendMsg (OutMsg.plain 5 head content)

/-- Enter JOINING. -/
def State.startJoin (s : State) : State := (s.setCas 2).sendJoin

/-- Put a valid roster of higher VERSION in force (R314): record 0x600C, pass it to every partner; a refused member
retries at once and a join under way begins anew (R318, Table 9.12); a live member that it no longer lists is lost at
the next commit tally (Table 9.12). -/
def State.adoptRoster (s : State) (r key : List Byte) : State :=
  let s1 := ({ s with casc := { s.casc with roster := r } }).showRoster
  let gone := (s1.casc.peers.filter (fun e => decide (e.2.info = 2 ∨ e.2.info = 3 ∨ e.2.info = 4) &&
    (rosterEntries r).all (fun x => x.member != e.1))).map (·.1)
  let s2 := { s1 with casc := { s1.casc with losses := s1.casc.losses ++ gone.map (fun m => (m, 5)) } }
  let s3 := s2.record 0x600C (Src.cascade 0) none
    [it 1 (rosterVersion r), it 2 (rosterCascade r), itH 3 (Config.sha384 key)]
  let s4 := s3.toPartners 5 [6, rosterVersion r, leNat r]
  s4.on (s4.fld Page.CAS Reg.CAS.STATE 2 0 == 6 || s4.fld Page.CAS Reg.CAS.STATE 2 0 == 2) (fun u => u.startJoin)

/-- Do the registers 0x100 to 0x108 of page CAS act on this member (R337)? -/
abbrev State.actsOnCascade (s : State) : Bool := s.isHead

/-- A completed pair on ROSTER_COMMIT. -/
def State.rosterCommitAct (s : State) (src : Source) (v : Nat) : State × Bool :=
  let r := s.staged src Page.CAS
  if !bit v 0 || !s.actsOnCascade || !rosterValid s.vault.installer r || decide (rosterVersion r ≤ rosterVersion s.casc.roster)
  then refusedWrite (s.ignoreWrite src Page.CAS Reg.CAS.ROSTER_COMMIT v)
  else done (s.adoptRoster r s.vault.installer)

/-- ROSTER_COMMIT (R314). -/
def execRosterCommit (src : Source) (v : Word) (s : State) : Out :=
  perform (.rosterCommit src v) s
    (s.guarded src Page.CAS Reg.CAS.ROSTER_COMMIT v.toNat (fun u => u.rosterCommitAct src v.toNat))

/-- The installer key that signed a roster enrols with it where no installer is enrolled (R315). -/
def State.enrolByRoster (s : State) (key : List Byte) : State :=
  let s1 := ({ s with vault := { s.vault with installer := key } }).showInstaller true
  (s1.raise (Page.ROL 3) 1).record 0x8009 Src.deputy none [itH 1 0, itH 2 (Config.sha384 key), it 3 2, it 4 0]

/-- ROSTER_RECEIVE (R314, R315, R330): a roster whose signature fails is a failure of the partner. -/
def State.rosterArrives (s : State) (n : Nat) (r : List Byte) : State :=
  if s.enrolled then
    if !rosterValid s.vault.installer r then s.quarantine n (s.port n).identity 3
    else if rosterVersion r ≤ rosterVersion s.casc.roster then s
    else s.adoptRoster r s.vault.installer
  else
    match Config.rosterSigner r with
    | none => s.quarantine n (s.port n).identity 3
    | some key =>
      if rosterValid key r ∧ (ownEntry r).isSome then (s.enrolByRoster key).adoptRoster r key else s

/-- ROSTER_RECEIVE (R314). -/
def execRosterReceive (port : Nat) (bytes : List Byte) (s : State) : Out :=
  perform (.rosterReceive port bytes) s (s.rosterArrives port bytes)

/-! ### Links that come up (R316, R317) -/

/-- Does the roster in force list an identity under a member number? -/
def State.listed (s : State) (member identity : Nat) : Bool :=
  (rosterEntries s.casc.roster).any (fun e => e.member == member && e.identity == identity)

/-- HEAD_PREF of this member. -/
def State.headPref (s : State) : Nat := match ownEntry s.casc.roster with | some e => e.pref | none => 0

/-- Announce this member as a candidate (R317). -/
def State.announce (s : State) : State :=
  ({ (s.setCas 1) with casc := { (s.setCas 1).casc with cands := [] } }).toPartners 5 [2, s.memberNo, s.headPref, if s.fld Page.TAL Reg.TAL.STATUS 2 0 = 1 then 1 else 0]

/-- The module signs the transcript of both HELLOs with its identity key and derives the link secret by ECDH and HKDF over it
(Table 9.6, steps 3 and 4). -/
def State.keyLink (s : State) (n : Nat) (h : Hello) : State :=
  let x := (s.port n).hello
  let transcript := leBytes 48 x ++ Config.agreePublic x ++ h.ephemeral ++ leBytes 48 h.identity.toNat
  (s.modPort n (fun p => { p with linkKey := Config.hkdf (Config.ecdhX x h.ephemeral) [] transcript 48 })).queueOn n
    (OutMsg.plain 3 0xFFF [2, leNat (Config.identitySign transcript)])

/-- A HELLO that verifies (R316): the port is UP, or DEGRADED on two lanes; the partner's messages are taken again. -/
def State.linkUp (s : State) (n : Nat) (h : Hello) : State :=
  let s1 := (s.setFld (Page.DRF n) Reg.DRF.PORT_STATE 27 16 h.member).setFld (Page.DRF n) Reg.DRF.PORT_STATE 31 28 h.port
  let s2 := (s1.modPort n (fun p => { p with identity := h.identity.toNat, follow := true, marks := 0 })).modPeer h.member
    (fun p => { p with dropped := false, rejects := [] })
  let s3 := (s2.keyLink n h).setPort n (if s2.fld (Page.DRF n) Reg.DRF.PORT_STATE 6 4 = 4 then 3 else 4)
  let s4 := (s3.pump n).routesChanged n
  s4.on (s4.fld Page.CAS Reg.CAS.STATE 2 0 == 0) (fun u => u.announce)

/-- HELLO (R316): chain, roster and signature are verified; both identities must stand in the roster. -/
def execHello (port : Nat) (h : Hello) (s : State) : Out :=
  perform (.hello port h) s
    (if s.portState port ≠ 2 then s
    else if h.chainOk && h.sigOk && s.listed h.member h.identity.toNat && (ownEntry s.casc.roster).isSome then s.linkUp port h
    else (s.modPort port (fun p => { p with identity := h.identity.toNat })).quarantine port h.identity.toNat 3)

/-! ### Candidates and the headframe (R317, R319, R320) -/

/-- Is candidate a better than b (R317): REF, then HEAD_PREF, then the lower number? -/
def betterCand (a b : Cand) : Bool :=
  if a.ref ≠ b.ref then a.ref
  else if a.pref ≠ b.pref then decide (b.pref < a.pref) else decide (a.member < b.member)

/-- This member as a candidate. -/
def State.selfCand (s : State) : Cand :=
  { member := s.memberNo, ref := s.fld Page.TAL Reg.TAL.STATUS 2 0 == 1, pref := s.headPref, epoch := s.rd Page.CAS Reg.CAS.HEAD_EPOCH }

/-- The best of a list of candidates that may be headframe. -/
def bestCand (l : List Cand) : Option Cand :=
  (l.filter (fun k => k.pref ≠ 0)).foldl (fun b k => match b with
    | none => some k
    | some x => if betterCand k x then some k else some x) none

/-- Name the headframe and its standby; event 1. -/
def State.nameHead (s : State) (head standby epoch cause : Nat) : State :=
  let old := s.fld Page.CAS Reg.CAS.HEADFRAME 11 0
  let s1 := (s.wr Page.CAS Reg.CAS.HEADFRAME (head + standby * 65536)).wr Page.CAS Reg.CAS.HEAD_EPOCH epoch
  let s2 := { s1 with casc := { s1.casc with heardEpoch := max s1.casc.heardEpoch epoch } }
  (s2.raise Page.CAS 1).record 0x600B (Src.cascade 0) none (items [old, head, epoch, cause])

/-- The live members that a member knows of, itself among them. -/
def State.membersKnown (s : State) : Nat :=
  1 + (s.casc.peers.filter (fun e => e.1 != s.memberNo && (e.2.info == 2 || e.2.info == 3 || e.2.info == 4))).length

/-- The member becomes headframe with a fresh epoch and names the best other candidate as standby. MEMBERS counts the members that
it knows to be live: after a takeover those that answered its probe (R2, R319). -/
def State.becomeHead (s : State) (epoch cause : Nat) : State :=
  let me := s.memberNo
  let rest := s.casc.cands.filter (fun k => k.member != me && k.member != (if cause = 2 then s.fld Page.CAS Reg.CAS.HEADFRAME 11 0 else 0xFFF))
  let standby := match bestCand rest with | some k => k.member | none => 0xFFF
  let s1 := ((s.nameHead me standby epoch cause).setCas 4).modPeer me (fun p => { p with info := 2, identity := identityHash.toNat })
  let s2 := s1.setFld Page.CAS Reg.CAS.MEMBERS 12 0 (max s1.membersKnown (s1.fld Page.CAS Reg.CAS.MEMBERS 12 0))
  let s3 := s2.wr Page.TAL Reg.TAL.UPSTREAM 0xFFFF
  let src := s3.fld Page.TAL Reg.TAL.STATUS 2 0
  (s3.on (src == 2 || src == 3) (fun u => u.setSource 0)).toMembers 5 [3, me, epoch, standby]

/-- A headframe of a higher epoch is followed (R319): a former headframe becomes an ordinary member. -/
def State.heardHead (s : State) (epoch : Nat) : State :=
  if epoch ≤ s.rd Page.CAS Reg.CAS.HEAD_EPOCH then s
  else
    let st := s.fld Page.CAS Reg.CAS.STATE 2 0
    let s1 := s.wr Page.CAS Reg.CAS.HEAD_EPOCH epoch
    let s2 := { s1 with casc := { s1.casc with heardEpoch := max s1.casc.heardEpoch epoch } }
    s2.on (st == 4) (fun u => (u.setCas 3).raise Page.CAS 1)

/-- CANDIDATE (R317): the candidate is remembered; HEADFRAME_ELECT weighs it, and comes no earlier than its wait allows. -/
def execCandidate (k : Cand) (s : State) : Out :=
  perform (.candidate k) s
    { s with casc := { s.casc with
        cands := s.casc.cands.filter (fun x => x.member != k.member) ++ [k], heardEpoch := max s.casc.heardEpoch k.epoch } }

/-- HEADFRAME_ELECT (R317): a candidate that has heard no better one becomes headframe, its epoch one more than the
highest it has heard. -/
def execHeadframeElect (s : State) : Out :=
  perform .headframeElect s
    (if s.fld Page.CAS Reg.CAS.STATE 2 0 ≠ 1 ∨ s.headPref = 0 ∨ s.casc.cands.any (fun k => k.pref != 0 && betterCand k s.selfCand) then s
    else s.becomeHead (max s.casc.heardEpoch (s.rd Page.CAS Reg.CAS.HEAD_EPOCH) + 1) 1)

/-- Active members of the roster. -/
def State.rosterActive (s : State) : Nat := ((rosterEntries s.casc.roster).filter (fun e => e.kind == 0)).length

/-- Pairs one after the other, as a message carries them. -/
def flatPairs (l : List (Nat × Nat)) : List Nat := l.flatMap (fun e => [e.1, e.2])

/-- The standby takes over in a seal (R189): it broadcasts the decision that it holds with its step numbers, otherwise one that
discards every job with cause SEAL_TAKEOVER, job 0 among them. -/
def State.takeoverSeal (s : State) : State :=
  let d := match s.sealing.standby with | some x => x | none => (BitVec.ofNat 64 (2 ^ 64 - 1), s.epoch + 1)
  let steps := if s.sealing.standby.isSome then s.sealing.heldSteps else []
  let s1 := s.on s.sealing.standby.isNone (fun u =>
    u.each ((u.jobs.map (·.1)).filter u.jobActive) (fun w c => w.unsound c 10 0xFFFFFFFF))
  ({ s1 with sealing := { s1.sealing with decision := some d, steps := steps, phase := 4 } }).toMembers 4
    ([4, d.1.toNat, d.2] ++ flatPairs steps)

/-- STANDBY_TAKEOVER (R319): more than half of the roster's active members answer. -/
def execStandbyTakeover (answers : Nat) (s : State) : Out :=
  perform (.standbyTakeover answers) s
    (if s.fld Page.CAS Reg.CAS.STATE 2 0 ≠ 5 ∨ 2 * answers ≤ s.rosterActive then s
    else
      let s1 := (s.setFld Page.CAS Reg.CAS.MEMBERS 12 0 (answers + 1)).becomeHead (s.rd Page.CAS Reg.CAS.HEAD_EPOCH + 1) 2
      s1.on (decide (s.sealing.phase ≠ 0) && s.sealing.decision.isNone) (fun u => u.takeoverSeal))

/-- A completed pair on HEAD_MOVE (R320): acts on the headframe alone; refused, with event 0x600B, unless the named
member is the standby and its tally source is that of the headframe. -/
def State.headMoveAct (s : State) (src : Source) (v : Nat) : State × Bool :=
  if !s.actsOnCascade || !bit v 16 then refusedWrite (s.ignoreWrite src Page.CAS Reg.CAS.HEAD_MOVE v)
  else
    let m := bits v 11 0
    let own := s.fld Page.TAL Reg.TAL.STATUS 2 0 == 1
    let like := s.casc.cands.any (fun k => k.member == m && k.ref == own)
    if m ≠ s.fld Page.CAS Reg.CAS.HEADFRAME 27 16 ∨ m = 0xFFF ∨ !like then
      refusedWrite (s.record 0x600B (Src.cascade 0) none
        (items [s.memberNo, m, s.rd Page.CAS Reg.CAS.HEAD_EPOCH, 4]))
    else done { s with casc := { s.casc with headMove := some m } }

/-- HEAD_MOVE (R320). -/
def execHeadMove (src : Source) (v : Word) (s : State) : Out :=
  perform (.headMove src v) s
    (s.guarded src Page.CAS Reg.CAS.HEAD_MOVE v.toNat (fun u => u.headMoveAct src v.toNat))

/-! ### Joining (R318) -/

/-- The member that a port of a member reaches in a topology (Table 9.7), if the port is one of the topology's. -/
def neighbour (t m port : Nat) : Option Nat :=
  let x := topoX t
  let y := topoY t
  let z := topoZ t
  let kind := bits t 2 0
  let way := match kind with
    | 0 => some (port % 2)
    | 1 => some (port % 4)
    | _ => some (port % 6)
  let base := parallelStep kind
  if base ≤ port ∧ kind ≠ 3 ∧ !bit t 3 then none
  else
    let cx := m % x
    let cy := m / x % y
    let cz := m / (x * y)
    way.map (fun w => match w with
      | 0 => (cx + 1) % x + x * cy + x * y * cz
      | 1 => (cx + x - 1) % x + x * cy + x * y * cz
      | 2 => cx + x * ((cy + 1) % y) + x * y * cz
      | 3 => cx + x * ((cy + y - 1) % y) + x * y * cz
      | 4 => cx + x * cy + x * y * ((cz + 1) % z)
      | _ => cx + x * cy + x * y * ((cz + z - 1) % z))

/-- Is a member live: joined and not lost? -/
def State.live (s : State) (m : Nat) : Bool :=
  let i := (s.peer m).info
  i == 2 || i == 3 || i == 4

/-- Why the headframe refuses a JOIN (R318, R2), 0 where it admits it. -/
def State.joinReason (s : State) (member identity : Nat) (adj : List (Nat × Nat)) : Nat :=
  let t := s.rd Page.CAS Reg.CAS.TOPO
  let n := s.fld Page.CAS Reg.CAS.MEMBERS 12 0
  if !s.listed member identity then 1
  else if s.live member then 2
  else if !adj.all (fun e => neighbour t member e.1 == some e.2) then 3
  else if !s.disciplined ∧ 16 ≤ n then 4
  else if topoX t * topoY t * topoZ t ≤ n then 5
  else 0

/-- Signed public agreement keys by member (R392). -/
def State.takeKeys (s : State) (keys : List (Nat × List Byte)) : State :=
  s.each keys (fun u k => u.modPeer k.1 (fun p => { p with pub := k.2 }))

/-- The signed public agreement keys of all members, as ADMIT and a role table carry them: member, then key. -/
def State.keyList (s : State) : List Nat :=
  (s.memberNo :: leNat (Config.agreePublic s.casc.agree) :: []) ++ (s.casc.peers.filter (fun e => e.2.pub != [])).flatMap (fun e => [e.1, leNat e.2.pub])

/-- The device pair key for a message of member a to member b, one of which is this member (R392): it is formed anew from the
headframe epoch each time. -/
def State.pairKey (s : State) (a b : Nat) : List Byte :=
  let other := if a = s.memberNo then b else a
  Config.hkdf (Config.ecdhX s.casc.agree (s.peer other).pub)
    (leBytes 8 (s.rd64 Page.CAS Reg.CAS.CASCADE_ID_LO) ++ leBytes 4 (s.rd Page.CAS Reg.CAS.HEAD_EPOCH))
    (ascii "ovand device" ++ leBytes 2 a ++ leBytes 2 b) 32

/-- The 32-byte key K_j of a cascade job (R391), empty where this member does not hold it. -/
def State.jobKey (s : State) (number : Nat) : List Byte :=
  match s.casc.jobKeys.find? (fun e => e.1 == number) with
  | some e => leBytes 32 e.2
  | none => []

/-- The claim pair key of a job for messages of member a to member b (R391). -/
def State.claimPairKey (s : State) (number a b : Nat) : List Byte :=
  Config.hkdf (s.jobKey number) (leBytes 1 number) (ascii "ovand claim" ++ leBytes 2 a ++ leBytes 2 b) 32

/-- The checkpoint key of a role (R391). -/
def State.ckptKey (s : State) (role : Nat) : List Byte := Config.hkdfExpand (s.jobKey (bits role 31 26)) (ascii "ckpt" ++ leBytes 4 role) 64

/-- A member takes the key of a cascade job. -/
def State.takeJobKey (s : State) (number key : Nat) : State :=
  { s with casc := { s.casc with jobKeys := s.casc.jobKeys.filter (fun e => e.1 != number) ++ [(number, key)] } }

/-- The headframe reports MEMBER_INFO of a member to the others: its state and the slots of its late steps (Table 9.15). -/
def State.reportMember (s : State) (m : Nat) : State := s.toMembers 5 ([14, m, (s.peer m).info] ++ (s.peer m).late)

/-- The headframe admits a member: event 0x6005, ADMIT with the tables and the keys, and its place in the tables. -/
def State.admitIt (s : State) (member identity : Nat) (adj : List (Nat × Nat)) (pub : List Byte) : State :=
  let spare := match s.rosterOf member with | some e => e.kind == 1 | none => false
  let s1 := s.modPeer member (fun p => { p with
    info := if spare then 3 else 2, identity := identity, adj := adj, late := [], missed := 0
    pub := if Config.agreeValid identity pub then pub else [] })
  let s2 := s1.setFld Page.CAS Reg.CAS.MEMBERS 12 0 (s1.fld Page.CAS Reg.CAS.MEMBERS 12 0 + 1)
  let s3 := s2.on spare (fun u => u.setFld Page.CAS Reg.CAS.MEMBERS 28 16 (u.fld Page.CAS Reg.CAS.MEMBERS 28 16 + 1))
  let roles := s3.casc.roles.flatMap (fun (e : RoleEntry) => [e.role, e.member, e.epoch])
  let rows := s3.routeRows member
  let s4 := s3.sendMsg (OutMsg.plain 5 member ([4, member, s.rd64 Page.CAS Reg.CAS.CASCADE_ID_LO, s.rd Page.CAS Reg.CAS.HEAD_EPOCH, s3.tally,
    s3.epoch, s3.rd64 Page.HOI Reg.HOI.PERIOD_LO, s3.origin, s3.rd Page.HOI Reg.HOI.SEAL_W, s3.casc.roles.length] ++ roles ++ [rows.length] ++ flatRows rows ++
    s3.keyList))
  (s4.reportMember member).record 0x6005 (Src.cascade 0) none [it 1 member, { id := 2, kind := 3, size := 48, val := identity }]

/-- The headframe refuses a member (R318): the refusal is signed with its identity key (R2). -/
def State.refuseIt (s : State) (member reason identity : Nat) : State :=
  let s1 := ((s.count Page.CAS Reg.CAS.JOIN_REFUSALS 0 1).raise Page.CAS 2).record 0x6006 (Src.cascade 0) none
    [it 1 reason, { id := 2, kind := 3, size := 48, val := identity }]
  s1.sendMsg (OutMsg.plain 5 member [7, reason, leNat (Config.identitySign [BitVec.ofNat 8 7, BitVec.ofNat 8 reason])])

/-- JOIN (R318): only the headframe answers. -/
def execJoin (member : Nat) (identity : Hash) (content : JoinContent) (s : State) : Out :=
  perform (.join member identity content) s
    (if s.fld Page.CAS Reg.CAS.STATE 2 0 ≠ 4 then s
    else
      match s.joinReason member identity.toNat content.adjacent with
      | 0 => s.admitIt member identity.toNat content.adjacent content.pub
      | r => s.refuseIt member r identity.toNat)

/-- Replace entries of the role table. -/
def mergeRoles (old new : List RoleEntry) : List RoleEntry :=
  new.foldl (fun l e => l.filter (fun x => x.role != e.role) ++ [e]) old

/-- The member that the role table names for a device role. -/
def State.roleHolder (s : State) (role d : Nat) : Nat :=
  match s.casc.roles.find? (fun (e : RoleEntry) => e.role == role) with
  | some e => e.member
  | none => d

/-- The role table shows in HEADFRAME through its entries of KIND 2 and 3 (R325); the standby reads STANDBY. -/
def State.showRoles (s : State) : State :=
  let w := s.rd Page.CAS Reg.CAS.HEADFRAME
  let standby : Nat := s.roleHolder 3 (bits w 27 16)
  let s1 := s.wr Page.CAS Reg.CAS.HEADFRAME (s.roleHolder 2 (bits w 11 0) + standby * 65536)
  let st : Nat := s.fld Page.CAS Reg.CAS.STATE 2 0
  if st = 3 ∧ standby = s.memberNo then s1.setCas 5
  else if st = 5 ∧ ¬ standby = s.memberNo then s1.setCas 3
  else s1

/-- ADMIT (R318, R163): a joining member takes the values in force, steps its tally once and reads MEMBER. -/
def execAdmitMember (member cascade epoch tallyNow stateEpoch : Nat) (roles : RoleTable) (routes : List (Nat × Nat × Nat))
    (period origin sealW : Nat) (s : State) : Out :=
  perform (.admitMember member cascade epoch tallyNow stateEpoch roles routes period origin sealW) s
    (if s.fld Page.CAS Reg.CAS.STATE 2 0 ≠ 2 then s
    else
      let s1 := (({ (s.takeKeys roles.keys) with
        tally := tallyNow, clock := { s.clock with marked := some (tallyNow, tallyNow) }
        casc := { (s.takeKeys roles.keys).casc with roles := roles.entries, routes := routes } }).setCas 3).setFld Page.CAS Reg.CAS.STATE 27 16 member
      let s2 := ((s1.wr64 Page.CAS Reg.CAS.CASCADE_ID_LO cascade).wr Page.CAS Reg.CAS.HEAD_EPOCH epoch).wr64
        Page.DEV Reg.DEV.STATE_EPOCH_LO stateEpoch
      let s3 := ((s2.wr64 Page.HOI Reg.HOI.PERIOD_LO period).wr64 Page.HOI Reg.HOI.ORIGIN_LO origin).wr Page.HOI Reg.HOI.SEAL_W sealW
      ({ s3 with casc := { s3.casc with heardEpoch := max s3.casc.heardEpoch epoch } }).showRoles)

/-- REFUSE (R318): REFUSED with its reason, JOIN_REFUSALS and event 2. -/
def execRefuse (reason : Nat) (s : State) : Out :=
  perform (.refuse reason) s
    (if s.fld Page.CAS Reg.CAS.STATE 2 0 ≠ 2 then s
    else
      (((s.setCas 6).setFld Page.CAS Reg.CAS.STATE 15 8 reason).count Page.CAS Reg.CAS.JOIN_REFUSALS 0 1).raise Page.CAS 2)

/-- JOIN_RETRY (R318). -/
def execJoinRetry (s : State) : Out :=
  perform .joinRetry s (if s.fld Page.CAS Reg.CAS.STATE 2 0 = 6 then s.startJoin else s)

/-! ### Routes, roles, losses (R323, R325, R331) -/

/-- ROUTE_TABLE (R323): a newer table of the headframe replaces the one held. -/
def execRouteTable (version : Nat) (routes : List (Nat × Nat × Nat)) (s : State) : Out :=
  perform (.routeTable version routes) s
    (if version ≤ s.casc.routeVer ∨ s.fld Page.CAS Reg.CAS.STATE 2 0 = 4 then s
    else { s with casc := { s.casc with routeVer := version, routes := routes } })

/-- ROLE_UPDATE (R325): the entries wait for the commit tally that they name; the members' public keys are taken (R392). -/
def execRoleUpdate (roles : RoleTable) (atTally : Nat) (s : State) : Out :=
  perform (.roleUpdate roles atTally) s
    (let s1 := s.takeKeys roles.keys
    { s1 with casc := { s1.casc with moves := s1.casc.moves ++ roles.entries.map (fun e => (atTally, e)) } })

/-- The holder of a role and its epoch (R324, R325). -/
def State.roleEntry (s : State) (role : Nat) : Option RoleEntry :=
  let w := s.rd Page.CAS Reg.CAS.HEADFRAME
  let e := s.rd Page.CAS Reg.CAS.HEAD_EPOCH
  match bits role 3 0 with
  | 1 => some { role := role, member := bits role 15 4, epoch := 0 }
  | 2 => if bits w 11 0 = 0xFFF then none else some { role := role, member := bits w 11 0, epoch := e }
  | 3 => if bits w 27 16 = 0xFFF then none else some { role := role, member := bits w 27 16, epoch := e }
  | _ => s.casc.roles.find? (fun x => x.role == role)

/-- Does this member hold a role at an epoch (R326)? -/
def State.holdsRole (s : State) (role epoch : Nat) : Bool :=
  match s.roleEntry role with
  | some e => e.member == s.memberNo && e.epoch == epoch
  | none => false

/-- The headframe declares a member lost (R331): event 0x6009 and LOST_MEMBERS; what follows is for the next commit.
Causes: 1 all its partners report DOWN, 2 two verdicts missing, 3 its page in FAULT, 4 MEMBER_EVICT, 5 no longer in the
roster. -/
def State.declareMemberLost (s : State) (m cause : Nat) : State :=
  if !s.live m then s
  else
    let s1 := s.modPeer m (fun p => { p with info := 5 })
    let s2 := (s1.setFld Page.CAS Reg.CAS.MEMBERS 12 0 (s1.fld Page.CAS Reg.CAS.MEMBERS 12 0 - 1)).count Page.CAS Reg.CAS.LOST_MEMBERS 1 1
    let s3 := { s2 with casc := { s2.casc with losses := s2.casc.losses.filter (fun (e : Nat × Nat) => e.1 != m) ++ [(m, cause)] } }
    (s3.reportMember m).record 0x6009 (Src.cascade 0) none (items [m, cause])

/-- A member one of whose pages is in FAULT so that it cannot go on is handled as lost with cause 3 (R214, R496, R331): the headframe
declares it, and another member tells the headframe. -/
def State.selfLost (s : State) : State :=
  if s.isHead then s.declareMemberLost s.memberNo 3
  else
    let head := s.fld Page.CAS Reg.CAS.HEADFRAME 11 0
    if head = 0xFFF then s else s.sendMsg (OutMsg.plain 5 head [12, s.memberNo, 3])

/-- A completed pair on MEMBER_EVICT. -/
def State.memberEvictAct (s : State) (src : Source) (v : Nat) : State × Bool :=
  if !s.actsOnCascade || !bit v 16 || !s.live (bits v 11 0) then refusedWrite (s.ignoreWrite src Page.CAS Reg.CAS.MEMBER_EVICT v)
  else done (s.declareMemberLost (bits v 11 0) 4)

/-- MEMBER_EVICT (R331). -/
def execMemberEvict (src : Source) (v : Word) (s : State) : Out :=
  perform (.memberEvict src v) s
    (s.guarded src Page.CAS Reg.CAS.MEMBER_EVICT v.toNat (fun u => u.memberEvictAct src v.toNat))

/-- The claim whose job has a cascade job number. -/
def State.claimOfJob (s : State) (number : Nat) : Option Nat :=
  (s.jobs.find? (fun e => e.2.number == number)).map (·.1)

/-! ### READY reports (R174, R175) -/

/-- A report that a member has started a job, or that the job has stopped there, with its step number. -/
def State.noteReady (s : State) (number member : Nat) (on : Bool) (step mode : Nat) : State :=
  let l := s.casc.ready.filter (fun r => !(r.number == number && r.member == member))
  { s with casc := { s.casc with
      ready := if on then l ++ [{ number := number, member := member, since := s.tally }] else l
      steps := if on then s.casc.steps.filter (fun e => e.1 != number) ++ [(number, step, mode)] else s.casc.steps } }

/-- Report a claim's job to the headframe: started and READY to run, or stopped. -/
def State.report (s : State) (c : Nat) (on : Bool) : State :=
  match s.job? c with
  | none => s
  | some j =>
    let mode := if !j.desc.train then 0 else if j.probe then 2 else 1
    let s1 := s.noteReady j.number s.memberNo on (s.jobStep c) mode
    if s.isHead then s1
    else s1.sendMsg (OutMsg.plain 5 (s.fld Page.CAS Reg.CAS.HEADFRAME 11 0) [10, j.number, s.memberNo, if on then 1 else 0, s.jobStep c, mode])

/-- Has a member reported a job READY, at or before a tally? -/
def State.reported (s : State) (number member tally : Nat) : Bool :=
  s.casc.ready.any (fun r => r.number == number && r.member == member && decide (r.since ≤ tally))

/-- Have all members that hold part of a job, as far as the role table names them, reported it READY at or before a tally? -/
def State.allReady (s : State) (number tally : Nat) : Bool :=
  s.reported number s.memberNo tally &&
    (!s.isHead || (s.casc.roles.filter (fun (r : RoleEntry) => bits r.role 3 0 == 0 && bits r.role 31 26 == number)).all (fun (r : RoleEntry) =>
      s.reported number r.member tally))

/-- Jobs that run here no more are reported stopped. -/
def State.dropReports (s : State) : State :=
  s.each (s.casc.ready.filter (fun r => r.member == s.memberNo)) (fun u r =>
    match u.claimOfJob r.number with
    | some c => u.on (!u.jobActive c) (fun w => w.report c false)
    | none => u.noteReady r.number r.member false 0 0)

/-- The step numbers that a decision carries (R174, R188): a job that runs on all its members takes a step where the mask commits
it, a probe step apart. -/
def State.stepsAfter (s : State) (mask : Nat) : List (Nat × Nat × Nat) :=
  s.casc.steps.map (fun e =>
    if bit mask (e.1 % 64) || !s.casc.ready.any (fun r => r.number == e.1 && decide (r.since ≤ s.slotOrigin)) then e
    else (e.1, if e.2.2 = 1 then e.2.1 + 1 else e.2.1, if e.2.2 = 2 then 1 else e.2.2))

/-- A member reports a link to the headframe, which makes new routes (R323); a live member that no live member reaches any more, so
that all its partners report DOWN, is lost with cause 1 (Table 9.9). -/
def State.linkReport (s : State) (m n : Nat) (up : Bool) (partner : Nat) : State :=
  let s1 := s.modPeer m (fun p => { p with adj := p.adj.filter (fun e => e.1 != n) ++ (if up then [(n, partner)] else []) })
  let reached (u : State) (d : Nat) : Bool := (u.upPorts.map u.partner).contains d ||
    u.casc.peers.any (fun e => u.live e.1 && e.1 != d && e.2.adj.any (fun a => a.2 == d))
  let gone := if up then [] else (s.peer m).adj.filterMap (fun e =>
    if e.1 = n ∧ s1.live e.2 ∧ e.2 ≠ s1.memberNo ∧ reached s1 e.2 = false then some e.2 else none)
  (s1.newRoutes m n).each gone (fun u d => u.declareMemberLost d 1)

/-- The headframe assigns a cascade job its number at its first LOAD and draws its key; every member keeps a copy (R327, R391). -/
def State.learnJob (s : State) (key seed number : Nat) : State :=
  if s.casc.jobs.any (fun (e : Nat × Nat × Nat) => e.1 == key && e.2.1 == seed) then s
  else { s with casc := { s.casc with jobs := s.casc.jobs ++ [(key, seed, number)] } }

/-- A late step of a member that holds a source role (R330), counted by the headframe. -/
def State.chargeLate (s : State) (m slot : Nat) : State :=
  let head := s.fld Page.CAS Reg.CAS.HEADFRAME 11 0
  if s.isHead ∨ head = 0xFFF then s.modPeer m (fun p => { p with late := p.late ++ [slot] })
  else s.sendMsg (OutMsg.plain 5 head [17, m, slot])

/-- Content of a ROLE message that acts here: 3 a headframe names itself, 10 a READY report, 11 the grid, 12 a member with a page in
FAULT, 13 a link of a member, 14 MEMBER_INFO as the headframe reports it, 16 a cascade job with a member's role in it, 17 a late step
(R173, R175, R317, R323, R327, R330, R331; the numbers are the model's, log 94). A candidate that hears a headframe joins it (R317, R318). -/
def State.hearRole (s : State) (l : List Nat) : State :=
  match l with
  | 3 :: head :: epoch :: standby :: _ =>
    if epoch < s.rd Page.CAS Reg.CAS.HEAD_EPOCH ∨ s.fld Page.CAS Reg.CAS.HEADFRAME 11 0 = head then s
    else ((s.heardHead epoch).wr Page.CAS Reg.CAS.HEADFRAME (head + standby * 65536)).on (s.fld Page.CAS Reg.CAS.STATE 2 0 == 1) (fun u => u.startJoin)
  | 10 :: number :: member :: on :: step :: mode :: _ => s.on s.isHead (fun u => u.noteReady number member (on == 1) step mode)
  | 12 :: member :: cause :: _ => s.on s.isHead (fun u => u.declareMemberLost member cause)
  | 13 :: member :: port :: up :: partner :: _ => s.on s.isHead (fun u => u.linkReport member port (up == 1) partner)
  | 14 :: member :: info :: late =>
    if s.isHead then s
    else
      let s1 := s.modPeer member (fun p => { p with info := info, late := late })
      s1.setFld Page.CAS Reg.CAS.MEMBERS 12 0 s1.membersKnown
  | 16 :: key :: seed :: number :: role :: member :: k :: _ =>
    let fresh := s.isHead && (s.jobKey number == [])
    let k1 := if s.isHead then (if fresh then (s.draw 256).toNat else leNat (s.jobKey number)) else k
    let s1 := ((if fresh then s.drawn else s).learnJob key seed number).takeJobKey number k1
    let e : RoleEntry := { role := role, member := member, epoch := 0 }
    let s2 := { s1 with casc := { s1.casc with roles := if s1.casc.roles.any (fun (x : RoleEntry) => x.role == role) then s1.casc.roles else s1.casc.roles ++ [e] } }
    s2.on s2.isHead (fun u => u.toMembers 5 [16, key, seed, number, role, member, k1])
  | 17 :: member :: slot :: _ => s.on s.isHead (fun u => u.chargeLate member slot)
  | 11 :: o :: p :: w :: _ => { s with clock := { s.clock with grid := some (o, p, w) } }
  | _ => s

/-- RESTART (R331, Table 9.10): the member stops the job, which reads READY, and asks its buddy for its image of step n on
CKPT. -/
def execRestart (job step : Nat) (s : State) : Out :=
  perform (.restart job step) s
    (let s1 := s.count Page.CAS Reg.CAS.RESTARTS 2 1
    let s2 := { s1 with casc := { s1.casc with restarts := s1.casc.restarts.filter (fun (e : Nat × Nat) => e.1 != job) ++ [(job, step)] } }
    match s2.claimOfJob job with
    | none => s2
    | some c =>
      let s3 := (s2.on (s2.jobActive c) (fun u => (u.dropWork c 3 (fun _ => false)).setJobState c jsReady 0)).dropReports
      match s3.casc.roles.find? (fun (x : RoleEntry) => x.role == s.memberNo * 16 + 4) with
      | some b => s3.sendMsg { OutMsg.plain 8 b.member [job, step, match s3.job? c with | some j => j.role | none => 0] with key := c }
      | none => s3)

end Sys2Proof.Machine
end

