-- ==== Sys2Proof/Machine/Firmware.lean ====
section
/-!
DEFINITION. Firmware without stopping (R410 to R415) and the entry into bring-up that recovery and resets share (R518,
R522, R524).
-/

namespace Sys2Proof.Machine

/-- States of DEP.FW_STATE. -/
def State.fwState (s : State) : Nat := s.fld Page.DEP Reg.DEP.FW_STATE 3 0
def State.setFw (s : State) (st : Nat) : State := s.setFld Page.DEP Reg.DEP.FW_STATE 3 0 st

/-- Show the image in service. -/
def State.showFw (s : State) : State := s.wr64 Page.DEP Reg.DEP.FW_VERSION_LO s.fw.running.ver

/-- Change the firmware state. -/
def State.modFw (s : State) (f : Fw → Fw) : State := { s with fw := f s.fw }

/-- The fields of an image header (R410). -/
def imageOf (b : List Byte) : Image :=
  let f (off n : Nat) : Nat := leNat ((b.drop off).take n)
  { ver := f 8 8, digest := f 0x20 48, hash := (Config.sha384 b).toNat, romMin := f 0x18 4, handover := f 0x1C 4, bytes := f 0x10 8 }

/-- Why an image fails R411, 0 where it passes: 1 layout, 2 chain, 3 signature, 4 digest, 5 floor, 6 boot ROM, 7 handover,
8 a canary pack's MIN_FW. -/
def State.imageCause (s : State) (b : List Byte) : Nat :=
  let f (off n : Nat) : Nat := leNat ((b.drop off).take n)
  let im := imageOf b
  let cert := f 0x50 4
  let body := (b.drop (256 + cert)).take (im.bytes - 352 - cert)
  let sig := (b.drop (im.bytes - 96)).take 96
  if f 0 4 ≠ 1 ∨ f 4 4 ≠ 0 ∨ 2 ^ 26 < im.bytes ∨ im.bytes < 352 + cert then 1
  else
    match Config.chainKey 1 ((b.drop 256).take cert) with
    | none => 2
    | some k =>
      if !Config.ecdsaVerify k (b.take (im.bytes - 96)) sig then 3
      else if (Config.sha384 body).toNat ≠ im.digest then 4
      else if im.ver < s.rd64 Page.DEP Reg.DEP.FW_FLOOR_LO then 5
      else if Config.fuse 1 < im.romMin then 6
      else if bits s.fw.running.handover 15 0 < bits im.handover 31 16 ∨ bits im.handover 15 0 < bits s.fw.running.handover 15 0 then 7
      else if s.packs.any (fun e => decide (im.ver < e.2.minFw)) then 8
      else 0

/-! ### Entry into bring-up -/

/-- Bring-up runs from step 2 (R524): LAST_RESET, the step count and READY return, and the functions read STARTING. -/
def State.bootFrom2 (s : State) (kind : Nat) : State :=
  let s1 := s.wr Page.DEV Reg.DEV.BRINGUP (1 + 256 * kind)
  { s1 with boot := { s1.boot with began := s.osc, faults := [], recovery := false, askPort := 0 } }

/-- Recovery ends with an image that passes R411: it is written to flash and read back, event 0x800E, and bring-up
restarts at step 2 (R522). `from` is the source of the image: 1 a partner, 2 the DEP stream window. -/
def State.recoverWith (s : State) (im : Image) (from_ : Nat) : State :=
  let s1 := s.modFw (fun x => { x with flash := im, flashOk := true, running := im, store := [], staging := false, staged := none })
  let s2 := ((s1.showFw).setFw 0).count Page.DEP Reg.DEP.FLASH_WRITES 0 1
  ((s2.raise Page.DEP 3).record 0x800E Src.deputy none (items [0, 0, from_])).bootFrom2 4

/-! ### Staging (R411) -/

/-- May the staging store be written: not while a commit, its probation or its flash write runs (log 11)? -/
def State.stagingFree (s : State) : Bool := !(s.fwState == 4 || s.fwState == 5 || s.fwState == 6)

/-- A write of STAGE_CMD: 1 empties the store for a new image, 2 discards a staged image. -/
def State.stageCmdAct (s : State) (v : Nat) : State × Bool :=
  let cmd := bits v 1 0
  if !s.stagingFree then refusedWrite s
  else
    let s1 := (s.wr Page.DEP Reg.DEP.STAGE_BYTES 0).wr64 Page.DEP Reg.DEP.STAGED_VERSION_LO 0
    let s2 := s1.modFw (fun x => { x with store := [], staging := cmd == 1, staged := none })
    done (s2.setFw (if cmd = 1 then 1 else 0))

/-- STAGE_BEGIN (R411). -/
def execStageBegin (src : Source) (v : Word) (s : State) : Out :=
  perform (.stageBegin src v) s
    (s.written src Page.DEP Reg.DEP.STAGE_CMD v.toNat false (fun u => u.stageCmdAct v.toNat))

/-- STAGE_DISCARD (R411): the write of 2 on the same register. -/
def execStageDiscard (src : Source) (v : Word) (s : State) : Out :=
  perform (.stageDiscard src v) s
    (s.written src Page.DEP Reg.DEP.STAGE_CMD v.toNat false (fun u => u.stageCmdAct v.toNat))

/-- A FLASH_STALE module has the image of its DIGEST again, staged by host software or fetched from a member: it writes flash from it
(R414). -/
def State.rewriteFlash (s : State) : State := (s.setFw 6).modFw (fun x => { x with staging := false, staged := none })

/-- The deputy verifies a whole staged image. -/
def State.verifyStaged (s : State) : State :=
  let b := s.fw.store
  let im := imageOf b
  if !s.fw.staging || b.length < im.bytes || b.length < 256 then s
  else
    let cause := s.imageCause b
    if cause ≠ 0 then
      ((((s.setFw 3).setFld Page.DEP Reg.DEP.FW_STATE 23 16 cause).modFw (fun x => { x with staging := false })).raise Page.DEP 1).record
        0x800F Src.deputy none (items [cause])
    else if s.boot.recovery then s.recoverWith im 2
    else if !s.fw.flashOk && im.digest == s.fw.running.digest then s.rewriteFlash
    else
      let s1 := (s.setFw 2).modFw (fun x => { x with staging := false, staged := some im })
      ((s1.wr64 Page.DEP Reg.DEP.STAGED_VERSION_LO im.ver).raise Page.DEP 0).record 0x800C Src.deputy none
        [it 1 im.ver, itH 2 (BitVec.ofNat 384 im.digest)]

/-- FW_VERIFY (R411). -/
def execFwVerify (s : State) : Out := perform .fwVerify s s.verifyStaged

/-! ### The commit sequence (R412, R413) -/

/-- Event 0x800D: old and new VERSION and phase: 1 commit, 2 takeover 1, 3 takeover 2, 4 revert, 5 reverted. -/
def State.recordSwitch (s : State) (old new phase : Nat) : State :=
  s.record 0x800D Src.deputy none (items [old, new, phase])

/-- A completed pair on FW_COMMIT. -/
def State.fwCommitAct (s : State) (v : Nat) : State × Bool :=
  match s.fw.staged with
  | some im =>
    if !bit v 0 || s.fwState != 2 then refusedWrite s
    else
      done (((s.setFw 4).modFw (fun x => { x with reverting := false, phase := 1 })).recordSwitch s.fw.running.ver im.ver 1)
  | none => refusedWrite s

/-- FW_COMMIT (R412). -/
def execFwCommit (src : Source) (v : Word) (s : State) : Out :=
  perform (.fwCommit src v) s
    (s.guarded src Page.DEP Reg.DEP.FW_COMMIT v.toNat (fun u => u.fwCommitAct v.toNat))

/-- Takeover 1: the standby holds the handover and serves alone with the other image. -/
def State.takeover1 (s : State) : State :=
  let target := if s.fw.reverting then s.fw.old else s.fw.staged
  match target with
  | some im =>
    if s.fwState ≠ 4 ∨ s.fw.phase ≠ 1 then s
    else
      let s1 := s.modFw (fun x => { x with running := im, old := if x.reverting then none else some x.running, phase := 2 })
      (s1.showFw.setFld Page.DEP Reg.DEP.FW_STATE 6 6 0).recordSwitch s.fw.running.ver im.ver 2
  | none => s

/-- STANDBY_BOOTED (R412). -/
def execStandbyBooted (s : State) : Out := perform .standbyBooted s s.takeover1

/-- The standby does not reach takeover 1 within 10 s: the commit is abandoned and the state returns to STAGED; a
revert so abandoned leaves PROBATION. -/
def State.bootTimeout (s : State) : State :=
  if s.fwState ≠ 4 ∨ s.fw.phase ≠ 1 then s
  else
    let s1 := (s.setFw (if s.fw.reverting then 5 else 2)).modFw (fun x => { x with phase := 0, reverting := false })
    (s1.setFld Page.DEP Reg.DEP.FW_STATE 23 16 9).record 0x800F Src.deputy none (items [9])

/-- STANDBY_BOOT_TIMEOUT (R413). -/
def execStandbyBootTimeout (s : State) : Out := perform .standbyBootTimeout s s.bootTimeout

/-- Takeover 2: the restarted pair holds current state and serves in lockstep; a commit enters PROBATION. -/
def State.takeover2 (s : State) : State :=
  if s.fwState ≠ 4 ∨ s.fw.phase ≠ 2 then s
  else
    let s1 := (s.modFw (fun x => { x with phase := 0, reverting := false })).setFld Page.DEP Reg.DEP.FW_STATE 6 6 1
    if s.fw.reverting then ((s1.setFw 0).raise Page.DEP 5).recordSwitch s.fw.running.ver s.fw.running.ver 5
    else ((s1.setFw 5).raise Page.DEP 2).recordSwitch (match s.fw.old with | some o => o.ver | none => 0) s.fw.running.ver 3

/-- PAIR_CURRENT (R412). -/
def execPairCurrent (s : State) : Out := perform .pairCurrent s s.takeover2

/-- PROBATION_END (R412): the image is written to flash. -/
def execProbationEnd (s : State) : Out :=
  perform .probationEnd s
    (if s.fwState = 5 then (s.setFw 6).modFw (fun x => { x with old := none }) else s)

/-- The flash write is verified, or has failed after three retries (R414). -/
def State.flashDone (s : State) (retries : Nat) : State :=
  if s.fwState ≠ 6 then s
  else if retries ≤ 3 then
    let s1 := (s.setFw 0).modFw (fun x => { x with flash := x.running, flashOk := true, staged := none, store := [] })
    ((s1.count Page.DEP Reg.DEP.FLASH_WRITES 0 1).raise Page.DEP 3).record 0x800E Src.deputy none (items [0, retries, 0])
  else
    let s1 := (s.setFw 7).modFw (fun x => { x with flashOk := false, staged := none, store := [] })
    (s1.raise Page.DEP 4).record 0x800E Src.deputy none (items [1, 3, 0])

/-- FLASH_WRITE_DONE (R414). -/
def execFlashWriteDone (retries : Nat) (s : State) : Out := perform (.flashWriteDone retries) s (s.flashDone retries)

/-- A completed pair on FW_REVERT: only during PROBATION. -/
def State.fwRevertAct (s : State) (v : Nat) : State × Bool :=
  match s.fw.old with
  | some im =>
    if !bit v 0 || s.fwState != 5 then refusedWrite s
    else
      done (((s.setFw 4).modFw (fun x => { x with reverting := true, phase := 1 })).recordSwitch s.fw.running.ver im.ver 4)
  | none => refusedWrite s

/-- FW_REVERT (R413). -/
def execFwRevert (src : Source) (v : Word) (s : State) : Out :=
  perform (.fwRevert src v) s
    (s.guarded src Page.DEP Reg.DEP.FW_REVERT v.toNat (fun u => u.fwRevertAct v.toNat))

/-- A completed pair on FUSE_BURN: refused during SWITCHING and PROBATION; the floor never decreases (R415). -/
def State.fuseBurnAct (s : State) (v : Nat) : State × Bool :=
  if !bit v 0 || s.fwState == 4 || s.fwState == 5 then refusedWrite s
  else
    let floor := max (s.rd64 Page.DEP Reg.DEP.FW_FLOOR_LO) s.fw.running.ver
    done ((s.wr64 Page.DEP Reg.DEP.FW_FLOOR_LO floor).record 0x8013 Src.deputy none (items [floor]))

/-- FUSE_BURN (R415). -/
def execFuseBurn (src : Source) (v : Word) (s : State) : Out :=
  perform (.fuseBurn src v) s
    (s.guarded src Page.DEP Reg.DEP.FUSE_BURN v.toNat (fun u => u.fuseBurnAct v.toNat))

end Sys2Proof.Machine
end

