-- ==== Sys2Proof/Machine/Losses.lean ====
section
/-!
DEFINITION. Failures of the power stages that may lose the member to its cascade (R493, R496, R509).
-/

namespace Sys2Proof.Machine

/-- Page PWR has entered FAULT since `old`, with fewer than eight converters working: the member is handled as lost (R496). -/
def State.lostBelow (s old : State) : State := s.on (s.fn Page.PWR == 4 && old.fn Page.PWR != 4) State.selfLost

/-- CONV_FAIL (R493). -/
def execConvFail (k : Nat) (cause : StageCause) (s : State) : Out :=
  perform (.convFail k cause) s ((s.convFails k cause).lostBelow s)

/-- A completed pair on CONV_RETIRE with GO; a number that names no converter is ignored. -/
def State.convRetireAct (s : State) (v : Nat) : State × Bool :=
  let k := bits v 3 0
  if !bit v 8 || decide (11 < k) then refusedWrite s else done ((s.convFails k .retired).lostBelow s)

/-- CONV_RETIRE (R493). -/
def execConvRetire (src : Source) (v : Word) (s : State) : Out :=
  perform (.convRetire src v) s
    (s.guarded src Page.PWR Reg.PWR.CONV_RETIRE v.toNat (fun u => u.convRetireAct v.toNat))

/-- THERMAL_TRIP (R509). -/
def execThermalTrip (cls inst : Nat) (temp : Int) (s : State) : Out :=
  perform (.thermalTrip cls inst temp) s
    (if cls = 6 then ((s.setSensor cls inst temp 3 0).convFails inst .overTemperature).lostBelow s
    else if cls = 7 then (s.setSensor cls inst temp 3 0).phaseFails inst .overTemperature
    else s.trips cls inst temp)

end Sys2Proof.Machine
end

