-- ==== Sys2Proof/Machine/Prospector.lean ====
section
/-!
DEFINITION. The prospector (R527 to R534): its start and drain, series records, forecasts and clearing.

The arithmetic of the prospector's training is not carried out: LOSS and the weights behind the export are free values,
and the forecasts arrive with FORECAST_DONE (log 20).
-/

namespace Sys2Proof.Machine

/-- Change the prospector's state. -/
def State.modPros (s : State) (f : Pros → Pros) : State := { s with pros := f s.pros }

/-- States of PRO_STATE: 0 OFF, 1 STARTING, 2 TRAINING, 3 DRAINING, 4 STOPPED. -/
def State.proState (s : State) : Nat := s.fld Page.PRO Reg.PRO.PRO_STATE 2 0

def State.setPro (s : State) (st : Nat) : State := s.setFld Page.PRO Reg.PRO.PRO_STATE 2 0 st

/-- May the prospector start (R527)? -/
def State.proAllowed (s : State) : Bool :=
  s.noOperatorClaim && !s.prospectorHeld && bit (s.rd Page.PRO Reg.HDR.CONTROL) 0 && s.proState == 0

/-- Blocks unassigned in both tiers, changed by what the prospector takes or gives back. -/
def State.proMemory (s : State) (take : Bool) : State :=
  let t := Page.CLM 0
  let f := s.rd64 t Reg.CLMT.FAST_FREE_LO
  let w := s.rd64 t Reg.CLMT.SLOW_FREE_LO
  if take then (s.wr64 t Reg.CLMT.FAST_FREE_LO (f - proFast)).wr64 t Reg.CLMT.SLOW_FREE_LO (w - proSlow)
  else (s.wr64 t Reg.CLMT.FAST_FREE_LO (f + proFast)).wr64 t Reg.CLMT.SLOW_FREE_LO (w + proSlow)

/-- The prospector starts: SEED and interleave keys are drawn, its state is held, event 0xB001. -/
def State.startPro (s : State) : State :=
  let seed := (s.draw 128).toNat
  let s1 := s.drawn.drawInterleave 0
  let s2 := ((s1.setPro 1).setFld Page.PRO Reg.PRO.PRO_STATE 8 8 1).proMemory true
  let s3 := s2.modPros (fun x => { x with seed := seed })
  s3.record 0xB001 Src.deputy (some 0) [itH 1 (Config.sha384 (leBytes 16 seed)), it 2 128]

/-- The prospector begins to drain (R534): 1 a claim, 2 ENABLE; event 0xB002. -/
def State.drainPro (s : State) (cause : Nat) : State :=
  if s.proState = 1 ∨ s.proState = 2 then
    (s.setPro 3).record 0xB002 Src.deputy (some 0) (items [cause])
  else s

/-- The drain completes at a commit tally: STOPPED, DRAINED and event 0xB003. -/
def State.stopPro (s : State) : State :=
  if s.proState = 3 then
    ((s.setPro 4).raise Page.PRO 1).record 0xB003 Src.deputy (some 0)
      (items [s.rd64 Page.PRO Reg.PRO.STEPS_LO, s.fld Page.PRO Reg.PRO.SERIES 26 0])
  else s

/-! ### Series records (R530) -/

/-- Why a record is refused, 0 where it is taken: 1 SERIES, 2 VALUE, 3 TALLY ahead, 4 too old. -/
def State.recordCause (s : State) (r : SeriesRec) : Nat :=
  let q := r.tally / 900000000000
  let newest := match s.pros.series.find? (fun e => e.1 == r.series) with
    | some e => e.2.1
    | none => q
  if 2 ^ 26 ≤ r.series then 1
  else if bits r.value.toNat 30 23 = 255 then 2
  else if s.tally + 900000000000 < r.tally then 3
  else if q + 768 ≤ newest then 4
  else 0

/-- Keep a value in its slot: 768 slots for each series. -/
def State.keepRecord (s : State) (r : SeriesRec) : State :=
  let q := r.tally / 900000000000
  let old := s.pros.series.find? (fun e => e.1 == r.series)
  let newest : Nat := match old with | some e => max e.2.1 q | none => q
  let slots : List (Nat × Word) := match old with | some e => e.2.2 | none => []
  let kept := (Sparse.place q r.value (Sparse.drop q slots)).filter (fun (e : Nat × Word) => decide (newest < e.1 + 768))
  let span := match s.pros.spans.find? (fun e => e.1 == r.series) with | some e => (min e.2.1 q, e.2.2) | none => (q, 0)
  let s1 := s.modPros (fun x => { x with series := Sparse.place r.series (newest, kept) (Sparse.drop r.series x.series)
                                         spans := Sparse.place r.series span (Sparse.drop r.series x.spans) })
  (s1.setFld Page.PRO Reg.PRO.SERIES 26 0 s1.pros.series.length).count64 Page.PRO Reg.PRO.RECORDS_LO 0 1

/-- Take a series record of a transfer, or refuse it: event 0xB004 follows once per transfer. -/
def State.takeRecord (s : State) (r : SeriesRec) : State :=
  match s.recordCause r with
  | 0 => s.keepRecord r
  | c =>
    (s.modPros (fun x => { x with refused := x.refused + 1, first := if x.first = 0 then c else x.first })).count
      Page.PRO Reg.PRO.REFUSED 1 1

/-- A transfer of records ends: its refusals are recorded once. -/
def State.endRecords (s : State) : State :=
  if s.pros.refused = 0 then s
  else
    ((s.raise Page.PRO 2).record 0xB004 Src.deputy (some 0) (items [s.pros.refused, s.pros.first])).modPros
      (fun x => { x with refused := 0, first := 0 })

/-- SERIES_RECORD (R530): taken while the prospector starts, trains or drains; refused after (R534). The command is one
record of a transfer; its refusal is reported with it. -/
def execSeriesRecord (r : SeriesRec) (s : State) : Out :=
  perform (.seriesRecord r) s
    (if s.proState = 0 ∨ s.proState = 4 then s else (s.takeRecord r).endRecords)

/-! ### Forecasts (R532) -/

/-- A write of 1 to FC_CMD. -/
def State.fcCmdAct (s : State) (v : Nat) : State × Bool :=
  if !bit v 0 then refusedWrite s
  else
    let n := s.fld Page.PRO Reg.PRO.FC_COUNT 16 0
    let busy := s.fld Page.PRO Reg.PRO.FC_STATE 1 0 == 1
    if busy || n == 0 || decide (65536 < n) || s.proState == 0 || s.proState == 4 then
      done (s.on (!busy) (fun u => u.setFld Page.PRO Reg.PRO.FC_STATE 1 0 3))
    else
      let origin := s.tally / 900000000000 - 1
      done ((s.setFld Page.PRO Reg.PRO.FC_STATE 1 0 1).modPros (fun x =>
        { x with request := some (s.fld Page.PRO Reg.PRO.FC_FIRST 25 0, n, origin) }))

/-- FC_CMD (R532): a request that arrives while another is BUSY is refused and leaves the other BUSY (log 21). -/
def execFcCmd (src : Source) (v : Word) (s : State) : Out :=
  perform (.fcCmd src v) s
    (s.written src Page.PRO Reg.PRO.FC_CMD v.toNat false (fun u => u.fcCmdAct v.toNat))

/-- FORECAST_DONE (R532): the results of the request; a series without a record gives zeros and its flag. -/
def execForecastDone (values : List (List Word)) (s : State) : Out :=
  perform (.forecastDone values) s
    (match s.pros.request with
    | none => s
    | some (first, n, origin) =>
      let row (k : Nat) : Nat × Bool × List Word :=
        let sr := first + k
        let held := s.pros.series.any (fun e => e.1 == sr)
        (sr, !held, (List.range 96).map (fun i => if held then nth 0 (nth [] values k) i else 0))
      let s1 := s.modPros (fun x => { x with request := none, results := (List.range n).map row, origin := origin * 900000000000 })
      ((s1.setFld Page.PRO Reg.PRO.FC_STATE 1 0 2).wr64 Page.PRO Reg.PRO.FC_ORIGIN_LO (origin * 900000000000)).raise Page.PRO 0)

/-- The 512 bytes of one forecast (R532). -/
def forecastBytes (origin : Nat) (r : Nat × Bool × List Word) : List Byte :=
  leBytes 8 origin ++ leBytes 4 r.1 ++ leBytes 4 (if r.2.1 then 1 else 0)
    ++ (r.2.2.map (fun w => leBytes 4 w.toNat)).flatten ++ List.replicate 112 0

/-! ### Clearing (R528) -/

/-- A completed pair on PROSPECT_CLEAR: accepted in STOPPED or OFF; the stopes and the memory are cleared, event 0xB005. -/
def State.prospectClearAct (s : State) (src : Source) (v : Nat) : State × Bool :=
  if !bit v 0 || !(s.proState == 0 || s.proState == 4) then refusedWrite s
  else
    let lps := ((List.range 128).map (· + 896)).filter (fun l => s.ownerOf l == 0)
    let s1 := s.on s.prospectorHeld (fun u =>
      (u.each lps (fun a l => let p := a.serving l; if p < 1056 then ((a.clearPrepared p).clearStope p).setSeams l 0 else a)).proMemory false)
    let s2 := { s1.keepMem (fun k => k / 2 ^ 48 != 0) with
      marks := s1.marks.filter (fun e => e.1 / 2 ^ 36 != 0)
      pros := State.reset.pros }
    let s3 := ((s2.wr Page.PRO Reg.PRO.PRO_STATE 0).wr Page.PRO Reg.PRO.SERIES 0).setFld Page.PRO Reg.PRO.FC_STATE 1 0 0
    let s4 := s3.modClaim 0 (fun x => { x with fast := Layout.empty, slow := Layout.empty })
    done ((s4.recordBy src 0xB005 Src.deputy (some 0) (items [src.num])).reviewDiag 3)

/-- PROSPECT_CLEAR (R528). -/
def execProspectClear (src : Source) (v : Word) (s : State) : Out :=
  perform (.prospectClear src v) s
    (s.guarded src Page.DEV Reg.DEV.PROSPECT_CLEAR v.toNat (fun u => u.prospectClearAct src v.toNat))

end Sys2Proof.Machine
end

