-- ==== Sys2Proof/Machine/Bringup.lean ====
section
/-!
DEFINITION. Bring-up, recovery and resets (R518 to R525, R400).
-/

namespace Sys2Proof.Machine

/-- Step 6 begins as step 5 completes (R400, R518): claims that carry CLEAR_PENDING resume their command, volatile claims are wiped, every other OPEN claim
is LOCKED, and the seams of a LOCKED claim read LOCKED (R401). -/
def State.clearAtPowerUp (s : State) : State :=
  s.each claimNos (fun u c =>
    let w := u.rd (Page.CLM c) Reg.CLM.CLAIM_STATE
    let st := bits w 2 0
    let x := u.claim c
    if st = 4 ∨ bit w 4 then u.startClearing c (if x.command = 0 then 3 else x.command)
    else if (u.rd (Page.CLM c) Reg.CLM.VOLATILE) % 2 = 1 ∧ (st = 2 ∨ st = 3) then u.startClearing c 3
    else if st = 2 ∨ st = 3 then
      ((u.on (st == 2) (fun w => w.setClaimState c 3 0)).each (u.claimStopes c) (fun a l => a.setSeams l 3))
    else u)

/-- The boot ROM enters recovery at step 2 (R522): RECOVERY and HOLD, event 3 and record 0x0005. A flash write that was not read back
fails the digest; which check of R411 another image fails is a free value (log 93). -/
def State.enterRecovery (s : State) : State :=
  let s1 := (s.setFld Page.DEV Reg.DEV.BRINGUP 6 5 3).raise Page.DEV 3
  let s2 := { s1 with boot := { s1.boot with recovery := true, askPort := 0 } }
  let check := if s.fw.flashOk then (s.draw 8).toNat else 4
  ((s2.on s.fw.flashOk State.drawn).modFw (fun x => { x with flashOk := false })).record 0x0005 Src.deputy none (items [check, s.fw.flash.ver])

/-- What completing a step does beside showing it (Table 16.1). -/
def State.stepWork (s : State) (n ms : Nat) : State :=
  let s1 := match n with
    | 2 => (s.on (s.fld Page.DEV Reg.DEV.BRINGUP 11 8 == 0) (fun u => u.setFld Page.DEV Reg.DEV.BRINGUP 11 8 1)).showFw.dropTorn
    | 5 => s.clearAtPowerUp
    | 9 => s.on s.proAllowed (fun u => u.startPro)
    | _ => s
  s1.on (s1.readyNow n) (fun u => u.becomeReady ms)

/-- BRINGUP_STEP (R518): the next step completes after `ms` from the input's rise; at step 2 the image verifies or the ROM
enters recovery. While a trip is held the rails after VDEP stay off (R509). -/
def execBringupStep (ms : Nat) (imageOk : Bool) (s : State) : Out :=
  perform (.bringupStep ms imageOk) s
    (let n := s.fld Page.DEV Reg.DEV.BRINGUP 3 0 + 1
    if 9 < n ∨ s.boot.recovery ∨ bit (s.rd Page.DEV Reg.DEV.BRINGUP) 6 ∨ s.pwr.failed ∨ (s.pwr.tripped ∧ 2 < n) then s
    else if n = 2 ∧ !(imageOk && s.fw.flashOk) then s.enterRecovery
    else
      (((s.setFld Page.DEV Reg.DEV.BRINGUP 3 0 n).raise Page.DEV 1).record 0x0001 Src.deputy none (items [n, ms])).stepWork n ms)

/-- The page of a unit code (Table 14.2). -/
def unitPage (unit : Nat) : Option Nat :=
  let k := unit % 0x1000
  match unit / 0x1000 with
  | 1 => if k < 1056 then some (Page.STX k) else none
  | 2 => if k < 8 then some (Page.FTC k) else none
  | 3 => if k < 4 then some (Page.MIL k) else none
  | 4 => if k < 12 then some (Page.DRF k) else none
  | 5 => if k < 2 then some (Page.HP k) else none
  | 6 => some Page.PWR
  | 7 => some Page.CAS
  | 8 => some Page.MON
  | _ => none

/-- BRINGUP_STEP_LATE (R519): the unit takes FAULT, event 0x0006, and bring-up goes on to the next step; a rail that fails
R499 (a power unit) and a flash image that fails set HOLD. -/
def execBringupStepLate (unit : Nat) (s : State) : Out :=
  perform (.bringupStepLate unit) s
    (let n := s.fld Page.DEV Reg.DEV.BRINGUP 3 0 + 1
    if 9 < n ∨ s.boot.recovery ∨ bit (s.rd Page.DEV Reg.DEV.BRINGUP) 6 then s
    else
      let s1 := match unitPage unit with
        | some p => s.setFn p 4
        | none => s
      let s2 := ({ s1 with boot := { s1.boot with faults := s1.boot.faults ++ [(n, unit)] } }).record 0x0006 Src.deputy none
        (items [n, unit, 1]) |>.on (decide (n = 5) && decide (unit / 0x1000 = 1)) (fun u => u.stopeFailure (unit % 0x1000) 8)
      if unit / 0x1000 = 6 ∨ n ≤ 2 then s2.setFld Page.DEV Reg.DEV.BRINGUP 6 6 1
      else (s2.setFld Page.DEV Reg.DEV.BRINGUP 3 0 n).stepWork n ((s.osc - s.boot.began) / 1000000))

/-- Bring-up begins at step 1 (R518, R524): PWRCYC counts one and sticks at its maximum (R470); the units that a held trip keeps off
read FAULT. -/
def State.applyInput (s : State) (mv : Nat) : State :=
  let s1 := s.losePower
  let s2 := s1.wr Page.DEV Reg.DEV.PWRCYC (stick 0xFFFFFFFF (s1.rd Page.DEV Reg.DEV.PWRCYC + 1))
  let s3 := s2.on s2.pwr.tripped (fun u => u.each trippedPages (fun v p => v.setFn p 4))
  { s3 with powered := true, boot := { s3.boot with began := s.osc }, pwr := { s3.pwr with mv := mv } }

/-- POWER_ON (R518): the input is applied, at first or after a loss. State.reset is the state right after the first
application, whose bring-up begins here; once bring-up has taken a step the input cannot be applied anew. -/
def execPowerOn (s : State) : Out :=
  performAlways .powerOn
    (if s.powered ∧ !s.pwr.failed then
      (if s.fld Page.DEV Reg.DEV.BRINGUP 3 0 = 0 then { s with boot := { s.boot with began := s.osc } } else s)
    else s.applyInput 72000)

/-- INPUT_OVER_END (R489): the input is back at 80 V or below, and the module starts as after power is applied. -/
def execInputOverEnd (s : State) : Out :=
  performAlways .inputOverEnd (if s.pwr.stage1Off then s.applyInput 80000 else s)

/-- RECOVERY_ASK (R522): the ROM asks the next UP partner, in ascending port order, over MGMT; a module that reads FLASH_STALE fetches
its image in the same way (R414). -/
def execRecoveryAsk (s : State) : Out :=
  perform .recoveryAsk s
    (if !s.boot.recovery ∧ s.fwState ≠ 7 then s
    else
      let next := (s.upPorts.find? (fun n => decide (s.boot.askPort ≤ n))).orElse (fun _ => s.upPorts.head?)
      let s1 := { s with boot := { s.boot with askPort := match next with | some n => (n + 1) % 12 | none => 0 } }
      match next with
      | some n => s1.queueOn n (OutMsg.plain 6 (s1.partner n) [0x522])
      | none => s1)

/-- RECOVERY_IMAGE (R522): an image that passes R411 is written to flash, and bring-up restarts at step 2. In FLASH_STALE an image of the
running DIGEST is written to flash (R414). -/
def execRecoveryImage (image : List Byte) (s : State) : Out :=
  perform (.recoveryImage image) s
    (if s.imageCause image ≠ 0 then s
    else if s.boot.recovery then (s.count Page.DEP Reg.DEP.FETCHES 1 1).recoverWith (imageOf image) 1
    else if s.fwState = 7 ∧ (imageOf image).digest = s.fw.running.digest then (s.count Page.DEP Reg.DEP.FETCHES 1 1).rewriteFlash
    else s)

/-- A completed pair on DEV.RESET (R525): refused while any claim's job is other than NONE or REFUSED; otherwise event
0x0003 and the record of R416 are admitted, everything that loss of input loses is lost, and bring-up runs from step 2. -/
def State.deviceResetAct (s : State) (src : Source) (v : Nat) : State × Bool :=
  if !bit v 0 then refusedWrite s
  else
    let busy := claimNos.filter (fun c => s.jobState c != 0 && s.jobState c != 6)
    if busy ≠ [] then
      refusedWrite ((s.raise Page.DEV 2).recordBy src 0x0004 Src.deputy none (items [busy.foldl (fun a c => a ||| 2 ^ c) 0]))
    else
      let s1 := ((s.config s src Page.DEV Reg.DEV.RESET 0 v).recordBy src 0x0003 Src.deputy none (items [src.num])).count
        Page.DEV Reg.DEV.DEV_RESETS 0 1
      let s2 := s1.each s1.recorder.queue (fun u _ => u.admitFront)
      refusedWrite (s2.losePower.bootFrom2 2)

/-- DEVICE_RESET (R525). -/
def execDeviceReset (src : Source) (v : Word) (s : State) : Out :=
  perform (.deviceReset src v) s
    (s.guarded src Page.DEV Reg.DEV.RESET v.toNat (fun u => u.deviceResetAct src v.toNat))

end Sys2Proof.Machine
end

