-- ==== Sys2Proof/Machine/Layers.lean ====
section
/-!
DEFINITION. What the compute families share: step slots, layers, tensors and seams of a loaded job (R172, R203, R207,
R216 to R219), shadow weights (R81 to R85), formats in force (R133), rows of tensors (R61, R128 to R132), stashes
(R223 to R226) and the start of a hoist (R181 to R184).
-/

namespace Sys2Proof.Machine

/-! ### Slots and stopes -/

/-- The physical stope that does the work of a logical stope now, none where it is vacated (R20, R357, R361). -/
def State.actor (s : State) (lp : Nat) : Option Nat :=
  let p := s.serving lp
  if 1056 ≤ p then none
  else if !s.slotted p then some p
  else
    match s.stopes.find? (fun e => e.2.prep == some p && e.2.prepared) with
    | some e => some e.1
    | none => some p

/-- A change of the sealed words of the logical stope that a physical stope works for (R71). -/
def State.onLogical (s : State) (p : Nat) (f : State → Nat → State) : State :=
  match s.worksFor p with
  | some l => f s (Page.STP l)
  | none => s

/-- Stage an event of the logical stope's page (R73, R122). -/
def State.stageStp (s : State) (p evBit : Nat) : State := s.onLogical p (fun u pg => u.stageEvent pg evBit)

/-- Count in a 32-bit sealed counter of the logical stope. -/
def State.countStp (s : State) (p off ovfBit n : Nat) : State := s.onLogical p (fun u pg => u.countSealed pg off ovfBit n)

/-- Count in a 64-bit sealed counter of the logical stope. -/
def State.countStp64 (s : State) (p off ovfBit n : Nat) : State :=
  s.onLogical p (fun u pg => u.countSealed64 pg off ovfBit n)

/-- The hewers of a claim, in the order of R94: vacated and fenced stopes take no part (R352, R357). -/
def State.hewers (s : State) (c : Nat) : List Nat :=
  ((s.claimStopes c).filterMap s.actor).filter (fun p => !(s.stope p).fenced)

/-! ### Layers, tensors and seam maps -/

def Job.layer? (j : Job) (l : Nat) : Option LayerD := j.layers.find? (fun d => d.layer == l)

/-- Position of a layer in the placement. -/
def Job.layerIx (j : Job) (l : Nat) : Nat := (j.layers.findIdx? (fun d => d.layer == l)).getD 0

def Job.tensor? (j : Job) (t : Nat) : Option TensorD := j.tensors[t]?

/-- Base of an instance of a tensor (R218). -/
def TensorD.at_ (t : TensorD) (m : Nat) : Nat := t.addr + m * t.stride * 4096

/-- Instance of a layer's weights in force: the CUR bit of its dense set (R239), 0 where it has none. -/
def Job.cur (j : Job) (l : Nat) : Nat :=
  match j.sets.findIdx? (fun d => d.kind == 0 && d.layer == l) with
  | some i => match j.sstate[i]? with | some x => x.cur | none => 0
  | none => 0

def LayerD.rowBlocks (d : LayerD) : Nat := ceilDiv d.inputs 512
def LayerD.colBlocks (d : LayerD) : Nat := ceilDiv d.outputs 512

/-- Seam-map entry of a row and column block (R219). -/
def Job.mapEntry (j : Job) (l cb rb : Nat) : Nat :=
  match j.layer? l with
  | some d => nth 0xFFFFFFFE (nth [] j.maps (j.layerIx l)) (cb * d.rowBlocks + rb)
  | none => 0xFFFFFFFE

/-- Does the layer run on the hewers (R117, R221)? -/
def Job.hewerOnly (j : Job) (l : Nat) : Bool := j.mapEntry l 0 0 == 0xFFFFFFFE

/-- Logical stope and seam of a seam-map entry; ordinals are those of the last LOAD (R203). -/
def Job.seamAt (j : Job) (l cb rb : Nat) : Option (Nat × Nat) :=
  let w := j.mapEntry l cb rb
  if 2 ^ 14 ≤ w then none
  else match j.ords[w % 1024]? with
    | some lp => some (lp, bits w 13 10)
    | none => none

/-- Vectors of a layer's passes: the logical rows of its input tensor. -/
def Job.vectors (j : Job) (d : LayerD) : Nat :=
  match j.tensor? d.inT with
  | some t => t.dim0
  | none => j.head.vectors

/-- The layer whose output is a layer's input (R102). -/
def Job.below (j : Job) (d : LayerD) : Option LayerD := j.layers.find? (fun x => x.outT == d.inT && x.layer != d.layer)

/-- The array that serves seam k of a physical stope: the relief seam while it stands in (R278). -/
def State.arrayFor (s : State) (p k : Nat) : Nat :=
  let w := s.rd (Page.STX p) Reg.STX.RELIEF_SEAM
  if bits w 9 8 = 2 ∧ bits w 4 0 = k then 16 else k

/-- The seam that an array serves, if any. -/
def State.seamOf (s : State) (p a : Nat) : Option Nat :=
  let w := s.rd (Page.STX p) Reg.STX.RELIEF_SEAM
  if a = 16 then (if bits w 9 8 = 2 then some (bits w 4 0) else none)
  else if bits w 9 8 = 2 ∧ bits w 4 0 = a then none else some a

/-- Is a seam served under hewer relief (R281, R283, R294, R352, R357, R570)? -/
def State.seamClosed (s : State) (lp k : Nat) : Bool :=
  match s.actor lp with
  | none => true
  | some p =>
    let a := s.arrayFor p k
    let x := s.arr p a
    (s.stope p).fenced || x.closed || (a != 16 && x.degraded) ||
      (s.serving lp != p && (s.arr p k).plan12 && !(s.arr (s.serving lp) k).plan12)

/-! ### Witness cells (R43) -/

/-- Level of witness column k in row i (R43). -/
def witLevel (k i : Nat) : Int := if i % 4 ≠ k then 0 else if i % 8 < 4 then 3 else -3

/-- Cell pair g⁺ + 16 × g⁻ of a witness level under a level plan (Table 2.2). -/
def witPair (plan12 : Bool) (l : Int) : Nat :=
  if l = 3 then (if plan12 then 7 + 16 * 4 else 9 + 16 * 6)
  else if l = -3 then (if plan12 then 4 + 16 * 7 else 6 + 16 * 9)
  else 0

/-- Level of a line of a cell pair. -/
def lineOf (pair : Nat) (neg : Bool) : Nat := if neg then pair / 16 else pair % 16

/-- Level of a line of the witness cell that an array holds in row i of witness column k: each row side follows the plan that it
was last written in. -/
def Arr.witLine (a : Arr) (k i : Nat) (neg : Bool) : Nat :=
  lineOf (witPair (a.wit12.contains (2 * i + (if neg then 1 else 0))) (witLevel k i)) neg

/-! ### Shadow weights -/

/-- Address of a code's first byte and its bit offset there (R81). -/
def codePlace (base i col : Nat) : Nat × Nat :=
  let b := 5 * (4096 * (8 * (i / 64) + col / 64) + 64 * (i % 64) + col % 64)
  (base + b / 8, b % 8)

/-- A 5-bit code of an image. -/
def State.rdCode (s : State) (c base i col : Nat) : Nat :=
  let a := codePlace base i col
  s.rdNat c a.1 2 / 2 ^ a.2 % 32

/-- Write a 5-bit code of an image. -/
def State.wrCode (s : State) (c base i col code : Nat) : State :=
  let a := codePlace base i col
  s.wrNat c a.1 2 (putBits (s.rdNat c a.1 2) (a.2 + 4) a.2 code)

/-- Base of the level-code image of a seam-map entry in an instance (Table 6.3). -/
def Job.codesBase (j : Job) (d : LayerD) (inst ix : Nat) : Nat :=
  match j.tensor? d.codesT with
  | some t => t.at_ inst + ix * 163840
  | none => 0

/-- Code of weight (i, col) of a layer. -/
def State.codeAt (s : State) (c : Nat) (j : Job) (d : LayerD) (inst i col : Nat) : Nat :=
  s.rdCode c (j.codesBase d inst (col / 512 * d.rowBlocks + i / 512)) (i % 512) (col % 512)

/-- Cell gain and offset of weight column col in the coefficient image in force (R82); a hewer-only layer uses 1.0 and 0
(R85). -/
def State.cellAt (s : State) (c : Nat) (j : Job) (d : LayerD) (i col : Nat) : Nat × Int :=
  match (if j.hewerOnly d.layer then none else j.tensor? d.coefT) with
  | some t =>
    let w := s.rdNat c (t.addr + (col / 512 * d.rowBlocks + i / 512) * 2048 + 4 * (col % 512)) 4
    (w % 65536, signed 16 (w / 65536))
  | none => (0x8000, 0)

/-- The words of a layer's coefficient images in order: 512 for each seam-map entry. -/
def State.coefWords (s : State) (c : Nat) (j : Job) (d : LayerD) : List Nat :=
  match (if j.hewerOnly d.layer then none else j.tensor? d.coefT) with
  | some t => (List.range (d.rowBlocks * d.colBlocks * 512)).map (fun n => s.rdNat c (t.addr + 4 * n) 4)
  | none => []

/-- Cell gain and offset of weight column col: from the words that a SERVE pass in flight over a commit keeps, otherwise from
the image in force (R85, R186). -/
def State.cellIn (s : State) (c : Nat) (j : Job) (d : LayerD) (kept : List Nat) (i col : Nat) : Nat × Int :=
  match kept[(col / 512 * d.rowBlocks + i / 512) * 512 + col % 512]? with
  | some w => (w % 65536, signed 16 (w / 65536))
  | none => s.cellAt c j d i col

/-- Shadow level of weight (i, col) in 1/1,024 level (R83, R85, R117). -/
def State.shadowIn (s : State) (c : Nat) (j : Job) (d : LayerD) (ideal : Bool) (kept : List Nat) (inst i col : Nat) : Int :=
  let w := levelOf (s.codeAt c j d inst i col)
  if ideal then shadow 0x8000 0 w
  else
    let co := s.cellIn c j d kept i col
    shadow co.1 co.2 w

/-- The same from the coefficient image in force. -/
def State.shadowAt (s : State) (c : Nat) (j : Job) (d : LayerD) (ideal : Bool) (inst i col : Nat) : Int :=
  s.shadowIn c j d ideal [] inst i col

/-- Column gain γ and bias b of a column, binary32 (R57). -/
def State.gainAt (s : State) (c : Nat) (j : Job) (d : LayerD) (inst col : Nat) : Nat :=
  match j.tensor? d.gainT with
  | some t => s.rdNat c (t.at_ inst + 4 * col) 4
  | none => 0

def State.biasAt (s : State) (c : Nat) (j : Job) (d : LayerD) (inst col : Nat) : Nat :=
  if !d.bias then 0
  else match j.tensor? d.biasT with
    | some t => s.rdNat c (t.at_ inst + 4 * col) 4
    | none => 0

/-- The head collar's value of a column: v × 2^−19 × γ × 2^e + b rounded once (R57); `v` is exact. -/
def collarValue (v : Dy) (e : Int) (gain bias : Nat) : Nat :=
  match dec32 gain, dec32 bias with
  | .fin g, .fin b => dy32 (((v.mul g).shift e).add b)
  | .fin g, .zero _ => dy32 ((v.mul g).shift e)
  | .zero _, .fin b => dy32 b
  | .zero _, .zero _ => 0
  | g, b => enc32 (((if v.m = 0 then Val.zero false else Val.fin (v.shift e)).mul g).add b)

/-! ### Numerics state and formats in force (R133, R154) -/

/-- Numerics state of a layer after a cold start (R139, R145). -/
def NumS.cold0 (policy : Nat) : NumS :=
  { gzFmt := 1, dwFmt := if policy = 0 then 2 else 1, cold := true, dead := false, widened := false, gzBias := 0, dwBias := 0
    outBias := 0, outE := 0, gzRun := 0, dwRun := 0, zeroRun := 0, step := 0, gzMax := [], dwMax := [], outMax := []
    gzUnder := [], gzNon := [], dwUnder := [], dwNon := [] }

def Job.numOf (j : Job) (l : Nat) : NumS := nth (NumS.cold0 0) j.num (j.layerIx l)

def KindStat.none : KindStat := { max := 0, non := 0, under := 0, u5 := 0, o5 := 0 }

def LayerStat.none : LayerStat :=
  { gz := KindStat.none, dw := KindStat.none, out := KindStat.none, outMax := 0, trained := false, gathered := false
    nonzero := false, wGz := Option.none, wDw := Option.none, wOut := Option.none, ovGz := false, ovDw := false, ovOut := false }

def Job.statOf (j : Job) (l : Nat) : LayerStat := nth LayerStat.none j.stat (j.layerIx l)

/-- Change what a layer delivers at the seal. -/
def Job.modStat (j : Job) (l : Nat) (f : LayerStat → LayerStat) : Job :=
  { j with stat := setNth j.stat (j.layerIx l) (f (j.statOf l)) }

/-- A format and its bias (for A8, its exponent). -/
structure Fmt where
  fmt  : Nat
  beta : Int
deriving DecidableEq, Repr

/-- Format and bias of a layer's Gz. Formats of the numerics state are those of Table 6.3 less 1. -/
def Job.gzForm (j : Job) (l : Nat) : Fmt :=
  let n := j.numOf l
  { fmt := ((j.statOf l).wGz).getD (n.gzFmt + 1), beta := n.gzBias }

def Job.dwForm (j : Job) (l : Nat) : Fmt :=
  let n := j.numOf l
  { fmt := ((j.statOf l).wDw).getD (n.dwFmt + 1), beta := n.dwBias }

/-- Format of a layer's output: the placement's, or the widened one. -/
def Job.outForm (j : Job) (d : LayerD) : Fmt :=
  let n := j.numOf d.layer
  let f := ((j.statOf d.layer).wOut).getD d.outFmt
  { fmt := f, beta := if f = fmtA8 then n.outE else if f = fmtF32 then 0 else n.outBias }

/-- Format of a tensor by its part in the placement: a layer's Gz, Dw or Out as its numerics state gives it, any other as
its entry gives it. -/
def Job.roleForm (j : Job) (t : Nat) : Fmt :=
  match j.layers.find? (fun d => d.gzT == t) with
  | some d => j.gzForm d.layer
  | none =>
    match j.layers.find? (fun d => d.dwT == t) with
    | some d => j.dwForm d.layer
    | none =>
      match j.layers.find? (fun d => d.outT == t) with
      | some d => j.outForm d
      | none =>
        match j.tensor? t with
        | some x => { fmt := x.fmt, beta := if x.fmt = fmtA8 then x.e else 0 }
        | none => { fmt := fmtF32, beta := 0 }

/-- Format, and bias or exponent, carried with a tensor instance (R57): as it was last written, otherwise by its part. -/
def Job.form (j : Job) (t m : Nat) : Fmt :=
  match j.forms.find? (fun e => e.1 == t * 65536 + m) with
  | some e => { fmt := e.2.1, beta := e.2.2 }
  | none => j.roleForm t

/-- A tensor instance is being written in a format. -/
def Job.noteForm (j : Job) (t m : Nat) (f : Fmt) : Job :=
  { j with forms := Sparse.place (t * 65536 + m) (f.fmt, f.beta) (Sparse.drop (t * 65536 + m) j.forms) }

/-- Kinds of event 0x2011: 0 Gz, 1 Dw, 2 Out, and 3 for a tensor that is none of them (log 75). -/
abbrev kindGz : Nat := 0
abbrev kindDw : Nat := 1
abbrev kindOut : Nat := 2
abbrev kindOther : Nat := 3

/-- The tensor kind and layer that a tensor is, if any (R133). -/
def Job.kindOf (j : Job) (t : Nat) : Option (Nat × Nat) :=
  match j.layers.find? (fun d => d.gzT == t) with
  | some d => some (kindGz, d.layer)
  | none =>
    match j.layers.find? (fun d => d.dwT == t) with
    | some d => some (kindDw, d.layer)
    | none => (j.layers.find? (fun d => d.outT == t)).map (fun d => (kindOut, d.layer))

/-- Format of a result that is no Gz, Dw or Out: as its entry gives it, or the wider one in which the step is replayed (R154,
log 75). -/
def Job.otherForm (j : Job) (e t : Nat) : Fmt :=
  match Sparse.get 0 j.serveFmt e with
  | 0 => j.roleForm t
  | k + 1 => { fmt := k, beta := 0 }

/-- The next wider format (R154). -/
def widerFmt (f : Nat) : Nat := if f = fmtE5 then fmtE8 else fmtF32

/-! ### Elements and rows of tensors (R207, R131) -/

/-- Where a tensor instance stands and how it reads. -/
structure View where
  claim  : Nat
  base   : Nat
  form   : Fmt
  rows   : Nat
  cols   : Nat
  orient : Bool
deriving DecidableEq, Repr

/-- A tensor widened to F32 by R154 or R155 is kept apart from the claim's regions, at twice its offset (log 23). -/
def wideBase (addr : Nat) : Nat := 3 * 2 ^ 46 + addr / 2 ^ 46 * 2 ^ 44 + 2 * (addr % 2 ^ 46)

/-- View of instance m of tensor t in a format. -/
def Job.viewIn (j : Job) (c t m : Nat) (f : Fmt) : View :=
  match j.tensor? t with
  | some x =>
    { claim := c, base := if f.fmt = fmtF32 ∧ x.fmt ≠ fmtF32 then wideBase (x.at_ m) else x.at_ m, form := f
      rows := x.dim0, cols := x.dim1, orient := x.orient }
  | none => { claim := c, base := 0, form := f, rows := 0, cols := 0, orient := false }

/-- View of instance m of tensor t in the format in force. -/
def Job.view (j : Job) (c t m : Nat) : View := j.viewIn c t m (j.form t m)

/-- Logical columns as stored: padded to whole blocks in block formats (R131). -/
def View.width (v : View) : Nat := if v.form.fmt = fmtB16 then ceilDiv v.cols 32 * 32 else v.cols

/-- Element index (R207). -/
def View.index (v : View) (r col : Nat) : Nat := if v.orient then col * v.rows + r else r * v.width + col

/-- Base of the exponent plane (R131). -/
def View.expBase (v : View) : Nat := v.base + ceilDiv (2 * v.rows * v.width) 4096 * 4096

/-- Byte ranges of a tensor instance beyond its elements up to the end of the blocks that hold them: one for each plane of a block
format (R131), otherwise one (R206). -/
def View.tails (v : View) : List (Nat × Nat) :=
  let up (b n : Nat) : Nat × Nat := (b + n, b + ceilDiv n 4096 * 4096)
  match v.form.fmt with
  | 0 => [up v.base (v.rows * v.width)]
  | 3 => [up v.base (2 * v.rows * v.width), up v.expBase (v.rows * (v.width / 32))]
  | 4 => [up v.base (4 * v.rows * v.width)]
  | _ => [up v.base (2 * v.rows * v.width)]

/-- The tensor that a slice lies in: the largest other entry that holds all its bytes (R329), otherwise itself. -/
def Job.container (j : Job) (t : TensorD) : TensorD :=
  (j.tensors.filter (fun x => decide (x.addr ≤ t.addr) && decide (t.addr + t.bytes ≤ x.addr + x.bytes))).foldl
    (fun a x => if a.bytes < x.bytes then x else a) t

/-- The bytes of a tensor instance's last blocks beyond its end are zero (R131, R206): they are cleared as a hoist begins to write
it. A slice of another tensor ends within that one's blocks. -/
def State.zeroTails (s : State) (c : Nat) (j : Job) (t m : Nat) : State :=
  match j.tensor? t with
  | none => s
  | some x =>
    if j.container x != x then s
    else
      let tails := if 4 < x.fmt then [(x.at_ m + x.bytes, x.at_ m + ceilDiv x.bytes 4096 * 4096)] else (j.viewIn c t m (j.roleForm t)).tails
      s.each (tails.filter (fun q => decide (q.1 < q.2))) (fun u q => u.zeroMem c q.1 q.2)

/-- Value of an element, widened exactly (R132). -/
def State.elem (s : State) (v : View) (r col : Nat) : Val :=
  let n := v.index r col
  match v.form.fmt with
  | 0 => ofA8 v.form.beta (s.rdByte v.claim (v.base + n)).toNat
  | 1 => ofG16 5 10 v.form.beta (s.rdNat v.claim (v.base + 2 * n) 2)
  | 2 => ofG16 8 7 v.form.beta (s.rdNat v.claim (v.base + 2 * n) 2)
  | 3 => ofB16 (s.rdByte v.claim (v.expBase + r * (v.width / 32) + col / 32)).toNat v.form.beta
      (s.rdNat v.claim (v.base + 2 * n) 2)
  | _ => dec32 (s.rdNat v.claim (v.base + 4 * n) 4)

/-- Does a value enter its leaf as non-finite (R148)? -/
def Val.nonfin : Val → Bool
  | .inf _ => true
  | .nan => true
  | _ => false

/-- The exact value of a finite value. -/
def Val.dy : Val → Dy
  | .fin d => d
  | _ => Dy.zero

/-- Sum of two kinds' statistics. -/
def KindStat.add (a b : KindStat) : KindStat :=
  { max := max32 a.max b.max, non := a.non + b.non, under := a.under + b.under, u5 := a.u5 + b.u5, o5 := a.o5 + b.o5 }

/-- Magnitude of a binary32 word. -/
def abs32 (y : Nat) : Nat := y % 2 ^ 31

/-- Statistics of one conversion (R136). -/
def statOf (beta : Int) (under : Bool) (y : Nat) : KindStat :=
  let fin := isFin32 y
  let t := toG16 5 10 beta y
  { max := if fin then abs32 y else 0, non := if fin && !isZero32 y then 1 else 0, under := if under then 1 else 0
    u5 := if t.under then 1 else 0, o5 := if t.ovf then 1 else 0 }

/-- What writing elements gave: statistics, overflow (R153), clamped A8 elements (R61). -/
structure Put where
  stat  : KindStat
  ovf   : Bool
  clamps : Nat
deriving DecidableEq, Repr

def Put.none : Put := { stat := KindStat.none, ovf := false, clamps := 0 }

def Put.add (a b : Put) : Put := { stat := a.stat.add b.stat, ovf := a.ovf || b.ovf, clamps := a.clamps + b.clamps }

/-- Write one element of a format without blocks. -/
def State.putElem (s : State) (v : View) (r col y : Nat) : State × Put :=
  let n := v.index r col
  match v.form.fmt with
  | 0 =>
    let a := toA8 v.form.beta y
    (s.wrNat v.claim (v.base + n) 1 a.1, { stat := statOf 0 false y, ovf := false, clamps := if a.2 then 1 else 0 })
  | 1 =>
    let g := toG16 5 10 v.form.beta y
    (s.wrNat v.claim (v.base + 2 * n) 2 g.code, { stat := statOf v.form.beta g.under y, ovf := g.ovf, clamps := 0 })
  | 2 =>
    let g := toG16 8 7 v.form.beta y
    (s.wrNat v.claim (v.base + 2 * n) 2 g.code, { stat := statOf v.form.beta g.under y, ovf := g.ovf, clamps := 0 })
  | _ => (s.wrNat v.claim (v.base + 4 * n) 4 y, { stat := statOf 0 false y, ovf := false, clamps := 0 })

/-- Write one block of 32 elements (R129, R131). -/
def State.putBlock (s : State) (v : View) (r col : Nat) (ys : List Nat) : State × Put :=
  let b := toB16 v.form.beta (ys ++ List.replicate (32 - ys.length) 0)
  let s1 := s.wrNat v.claim (v.expBase + r * (v.width / 32) + col / 32) 1 b.e
  let s2 := s1.each ((List.range 32).zip b.ms) (fun u x => u.wrNat v.claim (v.base + 2 * v.index r (col + x.1)) 2 x.2)
  let st := (ys.zip b.under).foldl (fun a x => a.add (statOf v.form.beta x.2 x.1)) KindStat.none
  (s2, { stat := st, ovf := b.ovf, clamps := 0 })

/-- Write the binary32 words of a row from a column that is a multiple of 32; columns beyond the tensor fall away. -/
def State.putRow (s : State) (v : View) (r col : Nat) (ys : List Nat) : State × Put :=
  if v.rows ≤ r then (s, Put.none)
  else
    let l := ys.take (v.cols - col)
    if v.form.fmt = fmtB16 then
      (List.range (ceilDiv l.length 32)).foldl (fun a k =>
        let w := a.1.putBlock v r (col + 32 * k) ((l.drop (32 * k)).take 32)
        (w.1, a.2.add w.2)) (s, Put.none)
    else
      ((List.range l.length).zip l).foldl (fun a x =>
        let w := a.1.putElem v r (col + x.1) x.2
        (w.1, a.2.add w.2)) (s, Put.none)

/-! ### Blocks that wait (R184, R342, R343, R348) -/

/-- Keys of the blocks of a byte range of a claim. -/
def blockKeys (c addr n : Nat) : Nat × Nat := (memKey c addr / 4096, (memKey c addr + n + 4095) / 4096)

/-- Is every block of a range released: not pending, and no rebuild under way? -/
def State.released (s : State) (c addr n : Nat) : Bool :=
  let k := blockKeys c addr n
  s.marks.all (fun e => !(decide (k.1 ≤ e.1) && decide (e.1 < k.2) && (e.2.pending.isSome || e.2.damaged)))

/-- Does a range hold a LOST block? -/
def State.anyLost (s : State) (c addr n : Nat) : Bool :=
  let k := blockKeys c addr n
  s.marks.any (fun e => decide (k.1 ≤ e.1) && decide (e.1 < k.2) && e.2.lost)

/-- Park the blocks of a range until a notice of a generation arrives (R348). -/
def State.park (s : State) (c addr n gen : Nat) : State :=
  s.each (List.range (ceilDiv (addr % 4096 + n) 4096)) (fun u k =>
    let b := addr / 4096 * 4096 + 4096 * k
    u.setMark c b { u.mark c b with pending := some gen })

/-- Is a tensor instance released? -/
def State.tensorReady (s : State) (c : Nat) (j : Job) (t m : Nat) : Bool :=
  match j.tensor? t with
  | some x => s.released c (x.at_ m) x.bytes
  | none => true

/-- The tensor that an entry writes when it completes: RESULT of a pass, of HEW_DX, HEW_DW, WIDE_OP and REDUCE, the landing
tensor of a RECV (Table 5.5). A re-run forward writes planes alone. -/
def HoistE.writes (h : HoistE) : Option Nat :=
  match h.action with
  | 1 => if h.recompute then none else some h.result
  | 2 => some h.result
  | 3 => some h.result
  | 4 => some h.result
  | 6 => some h.a
  | 7 => some h.result
  | _ => none

/-- Tensor entries that hold all bytes of a tensor's entry, itself among them: a REDUCE reads a slice of what another hoist writes
(R329). -/
def Job.holders (j : Job) (t : Nat) : List Nat :=
  match j.tensor? t with
  | none => [t]
  | some x => (List.range j.tensors.length).filter (fun k => k == t || (match j.tensor? k with
    | some y => decide (y.addr ≤ x.addr) && decide (x.addr + x.bytes ≤ y.addr + y.bytes)
    | none => false))

/-- Does entry w (at index i) write the instance of tensor t that reader h (at index e) reads? Instances of a tensor with a
stride are told apart by micro-batch; a tensor without one is a single instance, of which a reader waits for the writers
of its own micro-batch where the table has any, and HEW_DW and REDUCE write it from every micro-batch (R149, R207). An
entry that also writes the tensor it reads waits for earlier entries only. A REDUCE, whose MBATCH is no micro-batch (R329), reads
what every HEW_DW and HEW_DX and every earlier REDUCE writes there, whichever entry of the placement names it. -/
def Job.feeds (j : Job) (e : Nat) (h : HoistE) (t : Nat) (every : Bool) (i : Nat) (w : HoistE) : Bool :=
  if h.action = 7 then
    i != e && (match w.writes with | some x => (j.holders t).contains x | none => false) && (w.action != 7 || decide (i < e))
  else
    let strided := match j.tensor? t with | some x => decide (x.stride ≠ 0) | none => false
    let own := j.entries.any (fun x => x.writes == some t && x.mb == h.mb)
    i != e && w.writes == some t && (decide (i < e) || h.writes != some t) &&
      (every || w.mb == h.mb || (!strided && (w.action == 3 || w.action == 7 || !own)))

/-- Has every entry that writes the instance read completed in this step slot, with nothing of it withheld for an overflow (R153)
or a failed check (R350)? -/
def Job.fed (j : Job) (e : Nat) (h : HoistE) (t : Nat) (every : Bool) : Bool :=
  ((List.range j.entries.length).zip j.entries).all (fun x =>
    !j.feeds e h t every x.1 x.2 || ((j.run x.1).complete && !(j.run x.1).withheld))

/-- Is an operand of a hoist ready: written in this slot by the entries that write it, and its blocks released (R184, R244)?
A tensor that no entry writes is the host's (R179). A REDUCE reads every micro-batch's contribution (R149). -/
def State.operandReady (s : State) (c : Nat) (j : Job) (e : Nat) (h : HoistE) (t m : Nat) : Bool :=
  j.fed e h t (h.action == 8) &&
    (if h.action = 7 then (j.holders t).all (fun k => (List.range j.desc.micro).all (fun i =>
        (i != 0 && (match j.tensor? k with | some x => x.stride == 0 | none => true)) || s.tensorReady c j k i))
      else s.tensorReady c j t m)

/-- A hoist reads a tensor instance: a LOST block makes a training step unsound with CHECK_FAIL (R343). -/
def State.readsTensor (s : State) (c e t m : Nat) (serve : Bool) : State :=
  match s.job? c with
  | none => s
  | some j =>
    match j.tensor? t with
    | none => s
    | some x =>
      if serve || !s.anyLost c (x.at_ m) x.bytes then s
      else (s.unsound c 2 e).modJob c (fun y => { y with lostHit := true })

/-- A row of a tensor has been written: its blocks wait for their notice. -/
def State.parkRow (s : State) (v : View) (r : Nat) (gen : Nat) : State :=
  let w := match v.form.fmt with | 0 => 1 | 4 => 4 | _ => 2
  if v.orient then s.park v.claim v.base (w * v.rows * v.width) gen
  else s.park v.claim (v.base + w * r * v.width) (w * v.width) gen

/-! ### Stashes (R223 to R226) -/

/-- Bytes of a saved output element (Table 6.5). -/
def LayerD.savedBytes (d : LayerD) : Nat :=
  match d.act with
  | 0 => if d.stashIn then 4 else 0
  | 1 => 2
  | 2 => 2
  | 8 => 2
  | _ => 4

/-- Blocks of the three planes of a layer's stash. -/
def Job.stashBlocks (j : Job) (d : LayerD) : Nat × Nat × Nat :=
  let b := j.vectors d
  (ceilDiv (b * d.inputs) 4096, ceilDiv (b * d.outputs * d.savedBytes) 4096
   , if d.maxPool && decide (1 < d.pool) then ceilDiv (ceilDiv (b / d.pool * d.outputs) 2) 4096 else 0)

def Job.stashSize (j : Job) (d : LayerD) : Nat := let b := j.stashBlocks d; b.1 + b.2.1 + b.2.2

/-- The largest stash of any layer. -/
def Job.largestStash (j : Job) : Nat := j.layers.foldl (fun a d => max a (j.stashSize d)) 0

/-- Usable stockpile and high mark (R226). -/
def Job.usable (j : Job) : Nat := j.head.stockFast - 2 * j.largestStash
def Job.highMark (j : Job) : Nat := j.usable * (if j.head.stockHigh = 0 then 48 else j.head.stockHigh) / 64

/-- Tiers of a stash: 0 fast, 1 spill under way, 2 spilled, 3 being formed. -/
abbrev tierFast : Nat := 0
abbrev tierSpilling : Nat := 1
abbrev tierSpilled : Nat := 2
abbrev tierForming : Nat := 3

/-- Blocks that a stash still holds. -/
def Stash.held (x : Stash) : Nat :=
  (if x.inHeld then x.inBlk else 0) + (if x.outHeld then x.outBlk else 0) + (if x.posHeld then x.posBlk else 0)

/-- Occupancy: blocks of stash held in the fast tier (R226); planes in the recompute reserve are apart (R229). -/
def Job.occupancy (j : Job) : Nat :=
  j.stashes.foldl (fun a x => if decide (x.tier < 2) && !x.reserve then a + x.held else a) 0

/-- Blocks of the recompute reserve in use. -/
def Job.reserveUsed (j : Job) : Nat := j.stashes.foldl (fun a x => if x.reserve then a + x.held else a) 0

/-- A stash of a layer and micro-batch. -/
def Job.stash? (j : Job) (l mb : Nat) : Option Stash := j.stashes.find? (fun x => x.layer == l && x.mb == mb)

/-- Change the stash of a layer and micro-batch. -/
def Job.modStash (j : Job) (l mb : Nat) (f : Stash → Stash) : Job :=
  { j with stashes := j.stashes.map (fun x => if x.layer == l && x.mb == mb then f x else x) }

/-- Is the layer and micro-batch marked RECOMPUTE (R227)? -/
def Job.marked (j : Job) (l mb : Nat) : Bool := j.marks.contains (mb, l)

/-- Latch a stockpile event on every FTC instance that shows the claim to a source (R233). -/
def State.raiseStock (s : State) (c evBit : Nat) : State :=
  s.each [Source.portA, Source.portB, Source.monitor] (fun u src =>
    u.each (List.range 8) (fun w i =>
      let r := w.roleOf src
      let shown := if r = 1 then w.sessClaim src == c
        else (r == 2 || r == 3) && w.fld (Page.FTC i) Reg.FTC.CLAIM_SELECT 5 0 == c
      w.on shown (fun x => (x.raiseFor src (Page.FTC i) evBit).noteLive (Page.FTC i) (2 ^ evBit))))

/-- A word of a claim's memory view, the same on all eight FTC instances (R232). -/
def State.wrStock (s : State) (c off v : Nat) : State := s.wrB (claimBank c) (Page.FTC 0) off v

/-- Show a claim's stockpile (Table 6.9), with HIGH_MARK when the occupancy rises above the mark (R233). -/
def State.showStock (s : State) (c : Nat) : State :=
  match s.job? c with
  | none => s
  | some j =>
    let old := s.rdB (claimBank c) (Page.FTC 0) Reg.FTC.STOCK_OCC
    let occ := j.occupancy
    let s1 := ((s.wrStock c Reg.FTC.STOCK_OCC occ).wrStock c Reg.FTC.STOCK_PEAK
      (max occ (s.rdB (claimBank c) (Page.FTC 0) Reg.FTC.STOCK_PEAK))).wrStock c Reg.FTC.SPILL_OCC j.spillOcc
    s1.on (decide (old ≤ j.highMark) && decide (j.highMark < occ)) (fun u => u.raiseStock c 5)

/-- Free planes of a stash (R225), in the spill area as in the fast tier (R227). -/
def State.freePlanes (s : State) (c l mb : Nat) (inPlane outPlane : Bool) : State :=
  match s.job? c with
  | none => s
  | some j =>
    match j.stash? l mb with
    | none => s
    | some x =>
      let y := { x with inHeld := x.inHeld && !inPlane, outHeld := x.outHeld && !outPlane, posHeld := x.posHeld && !outPlane }
      let back := if x.tier = tierSpilled ∨ x.tier = tierSpilling then x.held - y.held else 0
      ((s.setJob c { j.modStash l mb (fun _ => y) with spillOcc := j.spillOcc - back })).showStock c

/-- A consumer has begun to read a stash, which cannot be chosen for a spill any more (Table 6.6). -/
def State.beginStash (s : State) (c l mb : Nat) : State := s.modJob c (fun j => j.modStash l mb (fun x => { x with begun := true }))

/-! ### Sets, extents and the areas of the slow tier (R239, R241, R266) -/

/-- The layer of a dense set. -/
def Job.setLayer (j : Job) (d : SetD) : Option LayerD := if d.kind = 0 then j.layer? d.layer else none

/-- Columns rounded up to mill blocks, and elements of a dense set (R241). -/
def LayerD.padded (d : LayerD) : Nat := ceilDiv d.outputs 64 * 64
def LayerD.elements (d : LayerD) : Nat := (d.inputs + (if d.bias then 1 else 0)) * d.padded

/-- Moment planes of an optimiser. -/
def SetD.moments (d : SetD) : Nat := match d.opt with | 0 => 1 | 1 => 2 | _ => 0

def roundBlock (n : Nat) : Nat := ceilDiv n 4096 * 4096

/-- Bytes of one dense bank (Table 7.3). -/
def SetD.bankBytes (d : SetD) (n : Nat) : Nat := roundBlock (5 * n) + d.moments * (roundBlock (2 * n) + roundBlock (n / 64))

/-- Base of a bank. -/
def SetD.bankAt (d : SetD) (n b : Nat) : Nat := d.bank + b * d.bankBytes n

/-- Bases of the planes of moment k (0 or 1) in a bank: mantissas and exponents. -/
def SetD.momentAt (d : SetD) (n b k : Nat) : Nat × Nat :=
  let m := d.bankAt n b + roundBlock (5 * n) + k * (roundBlock (2 * n) + roundBlock (n / 64))
  (m, m + roundBlock (2 * n))

/-- A master word (M40). -/
def State.master (s : State) (c : Nat) (d : SetD) (n b idx : Nat) : Nat := s.rdNat c (d.bankAt n b + 5 * idx) 5

/-- Bytes of an embedding row slot, and the address of slot k of row r (R242). -/
def SetD.slotBytes (d : SetD) : Nat := 16 + 5 * d.dim
def SetD.slotAt (d : SetD) (r k : Nat) : Nat := d.bank + (2 * r + k) * d.slotBytes

/-- Blocks of a set's storage (Table 7.9). -/
def Job.setBlocks (j : Job) (d : SetD) : Nat :=
  match j.setLayer d with
  | some l => 2 * (d.bankBytes l.elements / 4096)
  | none => ceilDiv (2 * d.rows * d.slotBytes) 4096

/-- Blocks of a set's section in a checkpoint image (Table 7.9). -/
def Job.sectionBlocks (j : Job) (d : SetD) : Nat :=
  match j.setLayer d with
  | some l =>
    let vecs := ceilDiv (4 * l.outputs) 4096
    d.bankBytes l.elements / 4096 + 40 * l.rowBlocks * l.colBlocks + vecs + (if l.bias then vecs else 0)
  | none => ceilDiv (d.rows * d.slotBytes) 4096

def Job.dirBlocks (j : Job) : Nat := ceilDiv (64 * j.sets.length) 4096
def Job.numBlocks (j : Job) : Nat := ceilDiv (320 * j.desc.tableLayers) 4096

/-- F of R266: blocks of the image. -/
def Job.imageBlocks (j : Job) : Nat := 1 + j.dirBlocks + j.numBlocks + (j.sets.map j.sectionBlocks).foldl (· + ·) 0

/-- Tensors that R239 requires to hold two instances. -/
def Job.twoInstances (j : Job) : List Nat :=
  j.sets.flatMap (fun d => match j.setLayer d with
    | some l => [l.codesT, l.gainT] ++ (if l.bias then [l.biasT] else [])
    | none => if d.kind = 1 then [d.serveT] else [])

/-- Instances of tensor t. -/
def Job.instances (j : Job) (t : Nat) (x : TensorD) : Nat :=
  if x.stride = 0 then 1 else if j.twoInstances.contains t then 2 else j.desc.micro

/-- First byte and the byte after the last of a tensor's extent. -/
def Job.extent (j : Job) (t : Nat) (x : TensorD) : Nat × Nat := (x.addr, x.addr + (j.instances t x - 1) * x.stride * 4096 + x.bytes)

/-- Offset in blocks of an address of the slow region; 0 for other regions. -/
def slowOffset (a : Nat) : Nat := if a / 2 ^ 46 = 1 then a % 2 ^ 46 else 0

/-- E of R266: the highest end, in blocks, of set storage, of all instances of slow-region tensors, and of the spill area. -/
def Job.slowEnd (j : Job) : Nat :=
  let sets := j.sets.map (fun d => slowOffset d.bank / 4096 + j.setBlocks d)
  let tens := (((List.range j.tensors.length).zip j.tensors).filter (fun x => x.2.addr / 2 ^ 46 == 1)).map (fun x =>
    ceilDiv ((j.extent x.1 x.2).2 % 2 ^ 46) 4096)
  (sets ++ tens ++ [slowOffset j.head.spillBase / 4096 + j.head.stockSpill]).foldl max 0

/-- Base of the freeze area (R266). -/
def Job.freezeBase (j : Job) : Nat := 2 ^ 46 + 4096 * j.slowEnd

/-! ### Starting a hoist -/

/-- Is an entry free work? -/
def HoistE.free (h : HoistE) : Bool := h.launch == 0xFFFFFFFF

/-- Work that the device generates for RECOMPUTE segments has entry numbers of its own (R228). -/
abbrev genBase : Nat := 2 ^ 32
def genEntry (l mb : Nat) : Nat := genBase + l * 65536 + mb

/-- The entry that a work unit belongs to: of the table, or generated as a reference pass of its layer (R118, R228). -/
def Job.work (j : Job) (e : Nat) : Option HoistE :=
  if e < genBase then j.entries[e]?
  else
    let l := (e - genBase) / 65536
    match j.layer? l with
    | some d => some
      { launch := 0xFFFFFFFF, action := 1, tkind := 0, ref := true, ideal := false, serve := false, recompute := true
        notify := false, target := 0, a := d.inT, b := 0, result := d.outT, layer := l, mb := (e - genBase) % 65536 }
    | none => none

/-- Does an entry serve (R186)? -/
def Job.serves (j : Job) (e : Nat) : Bool := match j.work e with | some h => h.serve | none => false

/-- Tally at which a fixed entry launches in the slot under way (R181). -/
def State.launchAt (s : State) (j : Job) (h : HoistE) : Nat := s.slotOrigin + h.launch * 2 ^ j.desc.offsetUnit

/-- Do two entries have one sequencer: the same target, and for CLAIM targets the same layer (R180)? -/
def HoistE.sameTarget (h w : HoistE) : Bool := h.tkind == w.tkind && h.target == w.target && (h.tkind != 0 || h.layer == w.layer)

/-- Fixed hoists with equal offsets at one sequencer launch in entry order, those of two claims in ascending claim number (R181,
Table 5.10): has every one that goes before an entry launched? -/
def State.inTurn (s : State) (c e : Nat) (j : Job) (h : HoistE) : Bool :=
  s.jobs.all (fun x => !(s.jobState x.1 == jsRunning || s.jobState x.1 == jsStopping) || x.2.probe || x.2.abortDue ||
    ((List.range x.2.entries.length).zip x.2.entries).all (fun y =>
      !(!y.2.free && h.sameTarget y.2 && s.launchAt x.2 y.2 == s.launchAt j h && (decide (x.1 < c) || (x.1 == c && decide (y.1 < e)))) ||
        (x.2.run y.1).started || (x.2.run y.1).late))

/-- The hoist of an entry that may start now: its job runs and is not aborted, it has not started in this slot, and the slot's SEAL has
not launched or it serves (R178, R184); a fixed one once its launch tally has come, in its turn (R181). No table entry runs in the
slot of a probe step (R145). -/
def State.hoistFor (s : State) (c e act : Nat) : Option (Job × HoistE) :=
  match s.job? c with
  | none => none
  | some j =>
    match j.entries[e]? with
    | none => none
    | some h =>
      if h.action = act ∧ (s.jobState c = jsRunning ∨ s.jobState c = jsStopping) ∧ (j.run e).started = false ∧
          (s.sealing.phase = 0 ∨ h.serve) ∧ j.probe = false ∧ j.abortDue = false ∧
          (h.free ∨ (s.launchAt j h ≤ s.tally ∧ s.inTurn c e j h))
      then some (j, h) else none

/-- A hoist starts with `left` units of work, on the instance of its layer's weights in force (R186); a fixed one whose operands
were not ready at its launch is late (R183). A serving pass starts in the placement's format (R155). -/
def State.startRun (s : State) (c e : Nat) (h : HoistE) (left : Nat) : State :=
  match s.job? c with
  | none => s
  | some j =>
    let r := j.run e
    let j1 := if h.serve then { j with serveFmt := Sparse.drop e j.serveFmt } else j
    let s0 := s.setJob c (j1.setRun e { r with started := true, left := left, inst := j.cur h.layer })
    let s1 := match h.writes with | some t => s0.zeroTails c j t h.mb | none => s0
    s1.on (r.late && !h.free) (fun u =>
      ((u.countB c Page.HOI Reg.HOI.LATE_HOISTS 1 1).raise Page.HOI 2).record 0x5004 Src.deputy (some c)
        (items [c, e, u.tally - (u.slotOrigin + h.launch * 2 ^ j.desc.offsetUnit)]))

/-- A fixed hoist whose operands are not ready at its launch waits (R183); a free one is not ready. -/
def State.waitRun (s : State) (c e : Nat) (h : HoistE) : State :=
  if h.free then s else s.modRun c e (fun r => { r with late := true })

/-- Does the target of an entry name a physical stope, by the logical stope that it serves (Table 5.6)? -/
def State.targets (s : State) (h : HoistE) (p : Nat) : Bool :=
  match h.tkind with
  | 1 => match s.worksFor p with | some l => decide (bits h.target 9 0 ≤ l) && decide (l ≤ bits h.target 25 16) | none => false
  | 4 => true
  | _ => false

/-- Does an IDLE hoist hold a stope idle (Table 5.5)? -/
def State.idleHeld (s : State) (p : Nat) : Bool :=
  s.jobs.any (fun x => x.2.runs.any (fun r => r.2.started && !r.2.complete &&
    (match x.2.entries[r.1]? with | some h => h.action == 0 && s.targets h p | none => false)))

/-- Does the allowance of R194 hold a free start back? Allowances are kept as their distance below the full 65,536
cycles, in 1/256 of a cycle, so that an unlisted unit's is full. -/
def govHolds (allow : Int) : Bool := decide (allow < -(65536 * 256))

/-- May compute work of a stope start: no IDLE hoist holds it, and no clamp of the module or the stope holds it (R490, R505, R507)? -/
def State.computeFree (s : State) (p : Nat) : Bool := !s.holdAll && !s.clampActs && !(s.stope p).clamped && !s.idleHeld p

/-- A check of a claim's work on a stope has failed: the stope is charged (R354); the second failure of the same work
makes a training step unsound (R350). -/
def State.workFailed (s : State) (c e p cause : Nat) (again serve : Bool) : State :=
  let s1 := s.stopeFailure p cause
  if !again then s1
  else if serve then
    (((s1.count Page.INT Reg.INT.RECOMPUTE_FAILS 2 1).raise Page.INT 1).record 0x7002 Src.deputy (some c)
      (items [c, s1.jobStep c, e])).modRun c e (fun r => { r with withheld := true })
  else s1.recomputeFailed c e

/-- Order of ready work (R115, R182): fixed work first, then backward work where the stockpile stands above its high mark,
then the oldest micro-batch, HEW_DX before HEW_DW, higher layers first, the lower entry last. -/
def State.orderKey (s : State) (c e : Nat) : Nat :=
  match s.job? c with
  | none => 0
  | some j =>
    match j.work e with
    | none => 0
    | some h =>
      let fixed := if h.free then 1 else 0
      let back := h.action = 2 ∨ h.action = 3 ∨ genBase ≤ e
      let press := decide (j.highMark < j.occupancy)
      let side := if press ∧ !back then 1 else 0
      let kind := if h.action = 2 then 0 else if h.action = 3 then 1 else 2
      ((((fixed * 2 + side) * 65536 + h.mb) * 4 + kind) * 65536 + (65535 - h.layer)) * 2 ^ 34 + e

end Sys2Proof.Machine
end

