-- ==== Sys2Proof/Machine/GovTally.lean ====
section
/-!
DEFINITION. The power governor (R192 to R195, R504, R505) and the tally: markers, reference, calendar and grid (R162 to
R173).
-/

namespace Sys2Proof.Machine

/-! ### The governor -/

/-- The oldest micro-batch of free work that waits, as (claim, entry). -/
def State.oldest (s : State) (l : List (Nat × Nat)) : Option Nat :=
  l.foldl (fun a w =>
    match (s.job? w.1).bind (fun j => j.work w.2) with
    | some h => if h.free then some (min h.mb (a.getD h.mb)) else a
    | none => a) none

/-- Work that waits for the hewers, and for the seams. -/
def State.hewWaits (s : State) : List (Nat × Nat) := s.stopes.flatMap (fun e => e.2.queue.map (fun w => (w.claim, w.entry)))
def State.seamWaits (s : State) : List (Nat × Nat) :=
  s.stopes.flatMap (fun e => e.2.arrs.flatMap (fun a => a.2.job.map (fun w => (w.claim, w.entry))))

/-- Is the seam field the giver (R193)? A field without work that waits counts as the youngest (log 36). -/
def State.seamGives (s : State) : Bool :=
  s.jobs.any (fun e => decide (e.2.highMark < e.2.occupancy)) ||
    (match s.oldest s.hewWaits, s.oldest s.seamWaits with
    | some a, some b => decide (a ≤ b)
    | none, some _ => false
    | _, none => true)

/-- The efficiencies of the last completed mains window (R503) as (numerator, denominator) of 1 ÷ (η1 × η2): input over bus power,
times stage-2 input over core power; 1 before the first window. -/
def State.lossRatio (s : State) : Nat × Nat :=
  match s.pwr.wins with
  | [_, pin, bus, core, s2] :: _ => (pin * s2, bus * core)
  | _ => (1, 1)

/-- S_cyc in W, the stopes' core power over the last completed mains window (R503, R504); 0 before the first window. -/
def State.coreMean (s : State) : Nat := roundDiv ((s.pwr.wins.headD []).getD 3 0) 1000

/-- S_now in W: the latest readings of VCORE in mV and ICORE in mA of the stope that serves each logical stope, their products
summed over the stopes in service (R504). -/
def State.corePower (s : State) (vcore icore : List Nat) : Nat :=
  let l := ((List.range 1024).zip (vcore.zip icore)).filter (fun x => decide (s.serving x.1 < 1056))
  roundDiv (l.foldl (fun a x => a + x.2.1 * x.2.2) 0) 1000000

/-- The estimate p_est in W (R504); where an efficiency is zero the quotient is a free value (log 2). -/
def State.estimate (s : State) (sNow : Nat) : Nat :=
  let rest := roundDiv s.pwr.pCyc 1000
  let sCyc := s.coreMean
  let r := s.lossRatio
  if r.2 = 0 ∨ r.1 = 0 then (s.draw 32).toNat
  else if sCyc ≤ sNow then rest + roundDiv ((sNow - sCyc) * r.1) r.2 else rest - roundDiv ((sCyc - sNow) * r.1) r.2

/-- One window of R193 on the giver's and the keeper's ratio: the new ratios, and whether both stood at the floor. -/
def ratios (giver keeper low : Nat) (pEst budget : Nat) : Nat × Nat × Bool :=
  if budget < pEst then
    if low + 4 ≤ giver then (giver - 4, keeper, false)
    else if low + 4 ≤ keeper then (low, keeper - 4, false)
    else (low, low, true)
  else if pEst * 32 < budget * 31 then
    if keeper < 64 then (giver, min 64 (keeper + 2), false) else (min 56 (giver + 2), keeper, false)
  else (giver, keeper, false)

/-- Windows counted by slot: one more in slot n; slots before n − 64 fall away. -/
def countSlot (n : Nat) (l : List (Nat × Nat)) : List (Nat × Nat) :=
  let k := l.filter (fun e => decide (n < e.1 + 65))
  k.filter (fun e => e.1 != n) ++ [(n, Sparse.get 0 (k.filter (fun e => e.1 == n)) n + 1)]

/-- Windows of the 64 slots before slot n. -/
def slotSum (n : Nat) (l : List (Nat × Nat)) : Nat :=
  l.foldl (fun a e => if n ≤ e.1 + 64 ∧ e.1 < n then a + e.2 else a) 0

/-- A stope clamped in more than half of the windows of 64 consecutive step slots is proposed for retirement (R507); the slots
are judged at the first window after them. -/
def State.clampWindow (s : State) : State :=
  let n := s.slotNo
  let full := !(s.gov.slots.any (fun e => e.1 == n)) && s.gov.slots.any (fun e => e.1 + 64 == n)
  let total := slotSum n s.gov.slots
  let s1 := s.on full (fun u => u.each u.stopeNos (fun v p =>
    v.on (decide (total < 2 * slotSum n (v.stope p).clampSlots)) (fun w => w.propose p 14)))
  let s2 := s1.each s1.stopeNos (fun u p => u.on (u.stope p).clamped (fun v =>
    v.modStope p (fun x => { x with clampSlots := countSlot n x.clampSlots })))
  { s2 with gov := { s2.gov with slots := countSlot n s2.gov.slots } }

/-- The input limit (R505): eight windows of p_est above INPUT_LIMIT start the clamp; it ends after sixteen windows below
the budget in force, with the last P_cyc below INPUT_LIMIT. -/
def State.limitWindow (s : State) (pEst budget : Nat) : State :=
  let limit := s.fld Page.PWR Reg.PWR.INPUT_LIMIT 11 0
  let up := if limit < pEst then s.pwr.overEst + 1 else 0
  let below := if pEst < budget then s.pwr.below + 1 else 0
  let s1 := s.modPwr (fun x => { x with overEst := up, below := below })
  let s2 := s1.on (decide (8 ≤ up)) (fun u => u.clampOn clampLimit)
  s2.on (decide (16 ≤ below) && decide (s.pwr.pCyc < limit * 1000)) (fun u => u.clampOff clampLimit)

/-- GOV_WINDOW (R193): the ratios of the two fields, which exchange with their roles; LIMITING; FIXED_OVER after sixteen
windows (R195). -/
def State.govWindow (s : State) (sNow : Nat) : State :=
  let pEst := s.estimate sNow
  let s := s.on (s.lossRatio.1 * s.lossRatio.2 == 0) (fun u => u.drawn)
  let budget := s.rd Page.PWR Reg.PWR.BUDGET_IN_FORCE
  let w := s.rd Page.HOI Reg.HOI.GOV_STATE
  let gives := s.seamGives
  let swap := gives != bit w 16
  let ah := if swap then bits w 14 8 else bits w 6 0
  let az := if swap then bits w 6 0 else bits w 14 8
  let low := s.fld Page.HOI Reg.HOI.GOV_FLOOR 5 0
  let r := if gives then ratios az ah low pEst budget else ratios ah az low pEst budget
  let ah := if gives then r.2.1 else r.1
  let az := if gives then r.1 else r.2.1
  let limiting := decide (budget < pEst)
  let ovf := if r.2.2 then s.gov.ovf + 1 else if limiting then s.gov.ovf else 0
  let fixed := decide (16 ≤ ovf)
  let word := ah + az * 256 + (if gives then 2 ^ 16 else 0) + (if limiting then 2 ^ 17 else 0) + (if fixed then 2 ^ 18 else 0)
  let s1 := ({ s with gov := { s.gov with ovf := min 16 ovf } }).wr Page.HOI Reg.HOI.GOV_STATE word
  let s2 := s1.on (limiting && !bit w 17) (fun u => u.raise Page.HOI 3)
  let s3 := s2.on (fixed && !bit w 18) (fun u => (u.raise Page.HOI 4).record 0x500A Src.deputy none (items [pEst, budget]))
  (s3.limitWindow pEst budget).clampWindow

/-- GOV_WINDOW (R193). -/
def execGovWindow (vcore icore : List Nat) (s : State) : Out :=
  perform (.govWindow vcore icore) s (s.govWindow (s.corePower vcore icore))

/-! ### Rate and phase of the tally (R163) -/

/-- Does any job run in the cascade, as far as this member knows: one of its own claims, or one that another member has reported
started (R175)? -/
def State.jobsRun (s : State) : Bool :=
  s.jobs.any (fun e => s.jobActive e.1) || s.casc.ready.any (fun r => r.member != s.memberNo)

/-- Is any job loaded in the cascade: here, or where another member holds a job's role? -/
def State.jobsLoaded (s : State) : Bool :=
  !s.jobs.isEmpty || s.casc.roles.any (fun (r : RoleEntry) => r.member != s.memberNo && bits r.role 3 0 == 0)

/-- The rate correction in force, within ±50 ppm; the spec gives the bound and not the law of the loop, so that a new
correction is a free value within it (logs 2, 37). -/
def State.setRate (s : State) (r : Int) : State :=
  let s1 := ({ s with clock := { s.clock with rate := r } }).wr Page.TAL Reg.TAL.FREQ_ADJ (unsigned 32 r)
  s1.setFld Page.TAL Reg.TAL.STATUS 6 6 (if r = 50000 ∨ r = -50000 then 1 else 0)

/-- Correct the rate. -/
def State.slew (s : State) : State :=
  (s.drawn).setRate ((((s.draw 32).toNat % 100001 : Nat) : Int) - 50000)

/-- OFFSET in 1/16 ns, clipped. -/
def State.showOffset (s : State) (sixteenths : Int) : State :=
  s.wr Page.TAL Reg.TAL.OFFSET (unsigned 32 (max (-(2 ^ 31 - 1)) (min (2 ^ 31 - 1) sixteenths)))

/-- The headframe in REF brings the tally onto a whole second: by one step where the offset is 1 ms or more and no job runs,
otherwise by rate (R163, R165). -/
def State.bring (s : State) (target : Nat) : State :=
  let gap : Int := (target : Int) - s.tally
  if 1000000 ≤ gap.natAbs ∧ !s.jobsRun then { s with tally := target } else s.slew

/-- Has the headframe stepped its tally since the last marker followed: did its tally move against this member's by 1 ms or more,
beyond what two clocks of ±50 ppm may part in the time (R163, log 77)? -/
def State.headStepped (s : State) (now : Nat) : Bool :=
  match s.clock.marked with
  | none => false
  | some (own, head) =>
    let jump : Int := ((now : Int) - head) - ((s.tally : Int) - own)
    decide (1000000 + (s.tally - own) / 10000 ≤ jump.natAbs)

/-- A follower takes a step of the headframe at its next marker while no job runs, and otherwise corrects its rate (R163). -/
def State.followTo (s : State) (now : Nat) : State :=
  let s1 := if s.headStepped now && !s.jobsRun then { s with tally := now } else s.slew
  { s1 with clock := { s1.clock with marked := some (s1.tally, now) } }

/-! ### Markers (R168 to R170) -/

/-- A marker or an echo leaves a port as one tub of a link class; every thousandth marker carries a tag (R313). -/
def State.sendMarker (s : State) (n value epoch hops : Nat) (echo : Bool) : State :=
  let k := (s.port n).marks
  let tag := !echo && k % 1000 == 999
  (s.modPort n (fun p => { p with
    marks := if echo then p.marks else (k + 1) % 1000
    marker := [value, epoch, hops, if echo then 1 else 0, if tag then 1 else 0] })).count64 (Page.DRF n) Reg.DRF.TX_TUBS_LO 3 1

/-- MARKER_SEND (R168): the headframe's marker on every drift. -/
def execMarkerSend (s : State) : Out :=
  perform .markerSend s
    (if !s.isHead then s
    else s.each s.upPorts (fun u n => u.sendMarker n u.tally (u.rd Page.CAS Reg.CAS.HEAD_EPOCH) 0 false))

/-- The port whose markers the member follows: the least hops to the headframe, then the lowest number. -/
def State.upstream (s : State) : Option Nat :=
  (s.upPorts.filter (fun n => (s.port n).follow)).foldl (fun b n => match b with
    | none => some n
    | some k => if (s.port n).hops < (s.port k).hops then some n else some k) none

/-- A marker of the upstream neighbour: the two-way delay averaged over the last 64, half of it as the path delay, the
offset, the correction, the source, and the markers forwarded on all other drifts. -/
def State.follow (s : State) (n value epoch hops : Nat) (ref : Bool) (delay : Nat) : State :=
  let echoes := (delay :: s.clock.echoes).take 64
  let path := echoes.foldl (· + ·) 0 / echoes.length / 2
  let now := value + path / 16
  let s1 := ({ s with clock := { s.clock with echoes := echoes } }).wr Page.TAL Reg.TAL.PATH_DELAY path
  let s2 := (s1.showOffset (((value : Int) - s1.tally) * 16 + path)).followTo now
  let s3 := s2.wr Page.TAL Reg.TAL.UPSTREAM (bits (s2.partner n) 11 0 + n * 2 ^ 12 + min 255 (hops + 1) * 2 ^ 16)
  let s4 := s3.setSource (if ref then 2 else 3)
  s4.each (s4.upPorts.filter (· != n)) (fun u k => u.sendMarker k u.tally epoch (hops + 1) false)

/-- TALLY_MARKER (R168, R313): the receiving port echoes; a failed tag ends the following of that port and is a fault of
the partner; markers of an older headframe epoch are not followed, and a later epoch is heard (R319). A member that is
UP but not admitted sends JOIN (R318). -/
def State.markerArrives (s : State) (n value epoch hops : Nat) (ref : Bool) (delay : Nat) (tagOk : Bool) : State :=
  if !s.portUp n then s
  else
    let s0 := (s.count64 (Page.DRF n) Reg.DRF.RX_TUBS_LO 4 1).wr (Page.DRF n) Reg.DRF.LINK_DELAY (delay / 2)
    let s1 := s0.sendMarker n value epoch hops true
    if !tagOk then (s1.modPort n (fun p => { p with follow := false })).quarantine n (s1.port n).identity 3
    else if !(s1.port n).follow ∨ epoch < s1.rd Page.CAS Reg.CAS.HEAD_EPOCH then s1
    else
      let s2 := (s1.heardHead epoch).modPort n (fun p => { p with hops := min 255 hops })
      let st := s2.fld Page.CAS Reg.CAS.STATE 2 0
      if st = 0 ∨ st = 1 then s2.startJoin
      else if (st = 3 ∨ st = 5) ∧ s2.upstream = some n then s2.follow n value epoch hops ref delay
      else s2

/-- TALLY_MARKER (R168). -/
def execTallyMarker (port value epoch hops : Nat) (refSource : Bool) (delay : Nat) (tagOk : Bool) (s : State) : Out :=
  perform (.tallyMarker port value epoch hops refSource delay tagOk) s
    (s.markerArrives port value epoch hops refSource delay tagOk)

/-- MARKER_LOSS (R170): a follower without markers runs FREE and counts one; what it knew of its neighbours' distance
goes. -/
def execMarkerLoss (s : State) : Out :=
  perform .markerLoss s
    (let src := s.fld Page.TAL Reg.TAL.STATUS 2 0
    if src ≠ 2 ∧ src ≠ 3 then s
    else
      let s1 := s.each (List.range 12) (fun u n => u.modPort n (fun p => { p with hops := 255 }))
      ({ s1 with clock := { s1.clock with echoes := [] } }.wr Page.TAL Reg.TAL.UPSTREAM 0xFFFF |>.setSource 0).count
        Page.TAL Reg.TAL.MARKER_LOSSES 0 1)

/-! ### The reference (R165) -/

/-- The headframe leaves REF or ACQUIRING for FREE, holding its last correction: REF_FAULTS, which counts such a loss and not each
rejected edge (DEDUCED, log 95), event 1 and 0x5002. -/
def State.loseRef (s : State) (ppm err : Int) : State :=
  let src := s.fld Page.TAL Reg.TAL.STATUS 2 0
  let s1 := { s with clock := { s.clock with refRun := 0, miss := 0 } }
  if src ≠ 1 ∧ src ≠ 4 then s1
  else
    (((s1.setSource 0).count Page.TAL Reg.TAL.REF_FAULTS 1 1).raise Page.TAL 1).record 0x5002 (Src.cascade 0) none
      [itS 1 ppm, itS 2 err]

/-- A calendar value takes effect (R166): tally is set, CAL_SET, event 2 and 0x5003. -/
def State.setCalendar (s : State) (second : Nat) : State :=
  let before := s.tally
  let s1 := { s with tally := second * 1000000000, clock := { s.clock with setPending := none } }
  ((s1.setFld Page.TAL Reg.TAL.STATUS 3 3 1).raise Page.TAL 2).record 0x5003 (Src.cascade 0) none (items [second, 0, before])

/-- A held calendar value at an accepted edge: it takes effect unless a job has started meanwhile, which refuses it (R163, R166,
log 77). -/
def State.heldCalendar (s : State) (second : Nat) : State :=
  if s.jobsRun then
    (({ s with clock := { s.clock with setPending := none } }).raise Page.TAL 3).record 0x5003 (Src.cascade 0) none (items [second, 1, s.tally])
  else s.setCalendar second

/-- An accepted edge: ACQUIRING at the first, REF at the eighth in succession; a calendar value that waits takes effect,
and in REF the edge falls on a whole second of tally by rate below 1 ms, otherwise by one step while no job runs. -/
def State.edgeAccepted (s : State) : State :=
  let run := s.clock.refRun + 1
  let src := s.fld Page.TAL Reg.TAL.STATUS 2 0
  let s1 := ({ s with clock := { s.clock with refRun := min 8 run, miss := 0 } }).setFld Page.TAL Reg.TAL.STATUS 5 4 3
  let s2 := if src = 1 then s1 else if 8 ≤ run then s1.setSource 1 else s1.setSource 4
  let s3 := match s2.clock.setPending with
    | some v => s2.heldCalendar v
    | none =>
      let second := roundDiv s2.tally 1000000000 * 1000000000
      let s4 := s2.showOffset (((second : Int) - s2.tally) * 16)
      if s4.fld Page.TAL Reg.TAL.STATUS 2 0 = 1 then s4.bring second else s4
  s3.wr64 Page.TAL Reg.TAL.PPS_TALLY_LO s3.tally

/-- REF_PPS_EDGE (R165): an edge within ±100 ns of one second after the last accepted one is accepted; the third edge in
succession that is rejected or missing ends REF. Only the headframe locks to the reference. -/
def execRefPpsEdge (err : Int) (s : State) : Out :=
  perform (.refPpsEdge err) s
    (if !s.isHead then s
    else if err.natAbs ≤ 100 then s.edgeAccepted
    else
      let miss := s.clock.miss + 1
      let s1 := ({ s with clock := { s.clock with refRun := 0, miss := miss } }).setFld Page.TAL Reg.TAL.STATUS 5 5 0
      s1.on (decide (3 ≤ miss)) (fun u => u.loseRef 0 err))

/-- PPS_MISSING (R165): the third edge in succession is missing. -/
def execPpsMissing (s : State) : Out :=
  perform .ppsMissing s (if !s.isHead then s else (s.setFld Page.TAL Reg.TAL.STATUS 5 5 0).loseRef 0 0)

/-- REF_CLK_REJECT (R165): REF_CLK lies outside ±50 ppm of 25 MHz. -/
def execRefClkReject (ppm : Int) (s : State) : Out :=
  perform (.refClkReject ppm) s
    (if !s.isHead ∨ ppm.natAbs ≤ 50 then s else (s.setFld Page.TAL Reg.TAL.STATUS 4 4 0).loseRef ppm 0)

/-! ### Calendar and stored tally (R166, R167) -/

/-- A completed pair on TALLY_SET. -/
def State.tallySetAct (s : State) (src : Source) (v : Nat) : State × Bool :=
  let second := s.rd64 Page.TAL Reg.TAL.SET_SECOND_LO
  let from_ := s.fld Page.TAL Reg.TAL.STATUS 2 0
  if !bit v 0 then refusedWrite (s.ignoreWrite src Page.TAL Reg.TAL.TALLY_SET v)
  else if !s.isHead ∨ s.jobsRun then
    refusedWrite ((s.raise Page.TAL 3).recordBy src 0x5003 (Src.cascade 0) none (items [second, 1, s.tally]))
  else if from_ = 1 ∨ from_ = 4 then done { s with clock := { s.clock with setPending := some second } }
  else done (s.setCalendar second)

/-- TALLY_SET (R166). -/
def execTallySet (src : Source) (v : Word) (s : State) : Out :=
  perform (.tallySet src v) s
    (s.guarded src Page.TAL Reg.TAL.TALLY_SET v.toNat (fun u => u.tallySetAct src v.toNat))

/-- TALLY_STORE (R167). -/
def execTallyStore (s : State) : Out := perform .tallyStore s { s with clock := { s.clock with stored := s.tally } }

/-! ### The grid (R172, R173) -/

/-- Reason for which a staged grid is refused, 0 for none: 1 a job is loaded, 2 the origin is less than 1 s ahead, 3 P or
W lies outside R172, 4 not the headframe (the codes are the model's, log 38). -/
def State.gridFault (s : State) (o p w : Nat) : Nat :=
  let d := s.fld Page.CAS Reg.CAS.DIAMETER 7 0
  if !s.isHead then 4
  else if s.jobsLoaded then 1
  else if o < s.tally + 1000000000 then 2
  else if p < 100000 ∨ 60000000000 < p ∨ w < 4000 + 500 * d ∨ p < 2 * w then 3
  else 0

/-- A completed pair on GRID_SET. -/
def State.gridSetAct (s : State) (src : Source) (v : Nat) : State × Bool :=
  let p := s.rd64 Page.HOI Reg.HOI.GRID_PERIOD_LO
  let o := s.rd64 Page.HOI Reg.HOI.GRID_ORIGIN_LO
  let w := s.rd Page.HOI Reg.HOI.GRID_SEAL_W
  if !bit v 0 then refusedWrite (s.ignoreWrite src Page.HOI Reg.HOI.GRID_SET v)
  else
    let why := s.gridFault o p w
    let s1 := s.recordBy src 0x5009 (Src.cascade 0) none (items [o, p, w, why])
    if why ≠ 0 then refusedWrite s1
    else done (({ s1 with clock := { s1.clock with grid := some (o, p, w) } }).toMembers 5 [11, o, p, w])

/-- GRID_SET (R173). -/
def execGridSet (src : Source) (v : Word) (s : State) : Out :=
  perform (.gridSet src v) s
    (s.guarded src Page.HOI Reg.HOI.GRID_SET v.toNat (fun u => u.gridSetAct src v.toNat))

/-- GRID_TAKES_EFFECT (R173): the accepted grid is in force from its origin. -/
def execGridTakesEffect (s : State) : Out :=
  perform .gridTakesEffect s
    (match s.clock.grid with
    | none => s
    | some (o, p, w) =>
      let s1 := { s with clock := { s.clock with grid := none } }
      ((s1.wr64 Page.HOI Reg.HOI.PERIOD_LO p).wr64 Page.HOI Reg.HOI.ORIGIN_LO o).wr Page.HOI Reg.HOI.SEAL_W w)

end Sys2Proof.Machine
end

