-- ==== Sys2Proof/Machine/Stockpile.lean ====
section
/-!
DEFINITION. The stockpile: writing, spilling and dropping stashes (R227), RECOMPUTE segments and their runs (R228, R229),
and the division of a product among hewers that both need (R94).
-/

namespace Sys2Proof.Machine

/-! ### Dividing a product (R86, R94) -/

/-- Shape of a product: kind (1 HEW_DX, 2 HEW_DW, 3 forward), rows, columns and contraction length. -/
structure Geo where
  kind : Nat
  rows : Nat
  cols : Nat
  len  : Nat
deriving DecidableEq, Repr

/-- Logical rows of a tensor. -/
def Job.dim0 (j : Job) (t : Nat) : Nat := match j.tensor? t with | some x => x.dim0 | none => 0

/-- Shape of an entry's product (Table 3.2). -/
def Job.geo (j : Job) (h : HoistE) : Option Geo :=
  match j.layer? h.layer with
  | none => none
  | some d =>
    match h.action with
    | 1 => some { kind := 3, rows := j.dim0 h.a, cols := d.outputs, len := d.inputs }
    | 2 => some { kind := 1, rows := j.dim0 h.a, cols := d.inputs, len := d.outputs }
    | 3 => some { kind := 2, rows := d.inputs + (if d.bias then 1 else 0), cols := d.outputs, len := j.dim0 h.b }
    | _ => none

def Geo.tileCols (g : Geo) : Nat := ceilDiv g.cols 64
def Geo.tiles (g : Geo) : Nat := ceilDiv g.rows 64 * g.tileCols
def Geo.leaves (g : Geo) : Nat := ceilDiv g.len 64
/-- Exponent of L′, the power of two at or above the leaves. -/
def Geo.depth (g : Geo) : Nat := log2Up g.leaves

/-- The split exponent (R94): the least that gives every one of n stopes a unit. -/
def Geo.splitFor (g : Geo) (n : Nat) : Nat :=
  ((List.range (g.depth + 1)).find? (fun k => decide (n ≤ g.tiles * 2 ^ k))).getD g.depth

/-- Does a tile's contraction exceed the 16,384 leaves of R92 when the product is divided among n stopes? -/
def Geo.tooLong (g : Geo) (n : Nat) : Bool := decide (16384 < min g.leaves (2 ^ (g.depth - g.splitFor n)))

/-- The split exponent of a product: that of R94, and no part longer than R92 allows (the last sentence of R94). -/
def Geo.split (g : Geo) (n : Nat) : Nat := max (g.splitFor n) (g.depth - 14)

/-- Give the claim's stopes the work units of an entry (R94); its tiles are what the hoist has left. The division stands for
the whole hoist. -/
def State.queueUnits (s : State) (c e : Nat) (g : Geo) : State :=
  let hs := s.hewers c
  let n := hs.length
  let s1 := s.modRun c e (fun r => { r with split := g.split n, homes := hs.filterMap s.worksFor })
  s1.each ((List.range n).zip hs) (fun u x =>
    let mine := (List.range (g.tiles * 2 ^ g.split n)).filter (fun k => k % n == x.1)
    u.modStope x.2 (fun y => { y with queue := y.queue ++ mine.map (fun k => { claim := c, entry := e, unit := k, again := false }) }))

/-- The stope that holds a unit of an entry: the one that now does the work of the logical stope it was given to. -/
def State.homeOf (s : State) (r : HoistRun) (unit : Nat) : Nat :=
  ((r.homes[unit % max 1 r.homes.length]?).bind s.actor).getD 0x7FF

/-! ### Stashes -/

/-- Tier of a stash that waits for space (R227). -/
abbrev tierWaiting : Nat := 4

/-- The training pass of a layer and micro-batch that is under way. -/
def Job.passOf (j : Job) (l mb : Nat) : Option Nat :=
  (List.range j.entries.length).find? (fun e =>
    match j.entries[e]? with
    | some h => h.action == 1 && h.layer == l && h.mb == mb && !h.serve && (j.run e).started && !(j.run e).complete
    | none => false)

/-- Layer numbers of the placement in rising order. -/
def Job.order (j : Job) : List Nat := (j.layers.map (·.layer)).mergeSort (fun a b => decide (a ≤ b))

/-- Start of the segment below a layer (R228): the highest layer below it whose input plane is retained, otherwise the
member's lowest layer. -/
def Job.segStart (j : Job) (l mb : Nat) : Nat :=
  let low := j.order.filter (fun k => decide (k < l))
  let kept := low.filter (fun k => match j.stash? k mb with | some x => x.inHeld && !x.reserve && decide (x.tier < 3) | none => false)
  (kept.getLast?).getD ((low.head?).getD l)

/-- The stash to spill next (R227): the fast-tier stash of the lowest micro-batch, then lowest layer, that no consumer
has begun to read. -/
def Job.spillChoice (j : Job) : Option Stash :=
  (j.stashes.filter (fun x => x.tier == tierFast && !x.begun && !x.reserve && decide (0 < x.held))).foldl (fun a x =>
    match a with
    | none => some x
    | some y => if x.mb < y.mb ∨ (x.mb = y.mb ∧ x.layer < y.layer) then some x else some y) none

/-- Send a stash to the spill area (R227). -/
def State.spillStash (s : State) (c : Nat) (v : Stash) : State :=
  let s1 := s.modJob c (fun j => { j.modStash v.layer v.mb (fun x => { x with tier := tierSpilling }) with spillOcc := j.spillOcc + v.held })
  (((s1.countB c (Page.FTC 0) Reg.FTC.SPILLS 8 1).raiseStock c 3).record 0x3001 (Src.fast 0) (some c)
    (items [c, s.jobStep c, v.mb, v.layer, v.held])).showStock c

/-- Drop a stash and mark its layer and micro-batch RECOMPUTE (R227). -/
def State.dropStash (s : State) (c l mb : Nat) : State :=
  match s.job? c with
  | none => s
  | some j =>
    let s1 := s.setJob c { j with
      stashes := j.stashes.filter (fun x => !(x.layer == l && x.mb == mb)), marks := j.marks ++ [(mb, l)] }
    ((s1.countB c (Page.FTC 0) Reg.FTC.RECOMPUTES 9 1).raiseStock c 4).record 0x3002 (Src.fast 0) (some c)
      (items [c, s.jobStep c, mb, l, j.segStart l mb])

/-- The pass that wrote a stash has done with it. -/
def State.stashDone (s : State) (c l mb : Nat) : State :=
  match (s.job? c).bind (fun j => j.passOf l mb) with
  | some e => s.unitDone c e
  | none => s

/-- The loop of R227: at each turn one more stash is spilled, until the new one fits once the spills are complete, or it
is dropped. `fuel` bounds the turns by the stashes there are. -/
def State.placeStash (c l mb : Nat) : Nat → State → State
  | 0, s => s
  | fuel + 1, s =>
    match s.job? c with
    | none => s
    | some j =>
      match j.stash? l mb with
      | none => s
      | some x =>
        let z := x.held
        let leaving := j.stashes.foldl (fun a y => if y.tier = tierSpilling then a + y.held else a) 0
        if j.occupancy + z ≤ j.usable then
          ((s.setJob c (j.modStash l mb (fun y => { y with tier := tierFast }))).showStock c).stashDone c l mb
        else if j.occupancy - leaving + z ≤ j.usable then s.setJob c (j.modStash l mb (fun y => { y with tier := tierWaiting }))
        else
          match j.spillChoice with
          | some v =>
            if j.spillOcc + v.held ≤ j.head.stockSpill then (s.spillStash c v).placeStash c l mb fuel
            else (s.dropStash c l mb).stashDone c l mb
          | none => (s.dropStash c l mb).stashDone c l mb

/-- Stashes that wait for space are written once it suffices (R227, Table 6.6). -/
def State.placeWaiting (s : State) (c : Nat) : State :=
  match s.job? c with
  | none => s
  | some j => s.each (j.stashes.filter (fun y => y.tier == tierWaiting)) (fun u y => u.placeStash c y.layer y.mb (j.stashes.length + 1))

/-- Planes of a stash are freed, and writes that waited for space go on (R225, Table 6.6). -/
def State.freeStash (s : State) (c l mb : Nat) (inPlane outPlane : Bool) : State := (s.freePlanes c l mb inPlane outPlane).placeWaiting c

/-- STASH_WRITE (R227): the pass has formed every output of the stash. -/
def execStashWrite (c layer mb : Nat) (s : State) : Out :=
  perform (.stashWrite c layer mb) s
    (match s.job? c with
    | none => s
    | some j =>
      match j.stash? layer mb, j.passOf layer mb with
      | some x, some e =>
        if x.tier = tierForming ∧ (j.run e).left ≤ 1 then s.placeStash c layer mb (j.stashes.length + 1) else s
      | _, _ => s)

/-- SPILL_COMPLETE (R227): the fast copy is freed, and a stash that waits for the space is written. -/
def execSpillComplete (c layer mb : Nat) (s : State) : Out :=
  perform (.spillComplete c layer mb) s
    (match s.job? c with
    | none => s
    | some j =>
      match j.stash? layer mb with
      | some x =>
        if x.tier ≠ tierSpilling then s
        else
          (((s.setJob c (j.modStash layer mb (fun y => { y with tier := tierSpilled }))).showStock c).tierTraffic true).placeWaiting c
      | none => s)

/-! ### RECOMPUTE (R228, R229) -/

/-- Targets of the next run for a micro-batch: the highest marked layers not yet regenerated, consecutive in the
placement, as many as the free reserve and the free usable space hold, each wholly in one of them. -/
def Job.targets (j : Job) (mb : Nat) : List Nat :=
  let todo := j.order.reverse.filter (fun l => j.marked l mb && (j.stash? l mb).isNone)
  match todo with
  | [] => []
  | t :: _ =>
    let seg := (j.order.reverse.dropWhile (fun l => l != t)).takeWhile (fun l => todo.contains l)
    (seg.foldl (fun (a : List Nat × Nat × Nat × Bool) l =>
      let z := match j.layer? l with | some d => j.stashSize d | none => 0
      if a.2.2.2 then a
      else if z ≤ a.2.1 then (a.1 ++ [l], a.2.1 - z, a.2.2.1, false)
      else if z ≤ a.2.2.1 then (a.1 ++ [l], a.2.1, a.2.2.1 - z, false)
      else (a.1, a.2.1, a.2.2.1, true)) ([], 2 * j.largestStash - j.reserveUsed, j.usable - j.occupancy, false)).1

/-- Have the planes that the last runs of a micro-batch regenerated been read and freed (R229)? -/
def Job.runsFreed (j : Job) (mb : Nat) : Bool :=
  j.stashes.all (fun x => x.mb != mb || !j.marked x.layer mb || x.held == 0)

/-- Lowest layer of the segment of marked layers that a layer belongs to. -/
def Job.segLow (j : Job) (l mb : Nat) : Nat :=
  (((j.order.reverse.dropWhile (fun k => k != l)).takeWhile (fun k => j.marked k mb)).getLast?).getD l

/-- The A8 bytes of a tensor instance in vector-major order, as a pass applies them (R44, R60). -/
def State.appliedBytes (s : State) (c : Nat) (j : Job) (t m vecs cols : Nat) : List Nat :=
  let v := j.viewIn c t m { fmt := fmtA8, beta := 0 }
  (List.range (vecs * cols)).map (fun n => (s.rdByte c (v.base + v.index (n / cols) (n % cols))).toNat)

/-- The input that a recompute run applies to a layer: the run's own output below it, otherwise the retained input
plane, otherwise the input tensor, which stays until the seal (R228). -/
def State.runInput (s : State) (c : Nat) (j : Job) (d : LayerD) (mb : Nat) : List Nat :=
  match (j.below d).bind (fun b => (j.regen.find? (fun e => e.1 == b.layer)).map (·.2)) with
  | some l => l
  | none =>
    match j.stash? d.layer mb with
    | some x => if x.inHeld && decide (x.tier < 3) then x.inData else s.appliedBytes c j d.inT mb (j.vectors d) d.inputs
    | none => s.appliedBytes c j d.inT mb (j.vectors d) d.inputs

/-- A stash of a layer and micro-batch that is being formed (R60, R223). -/
def Job.formStash (j : Job) (d : LayerD) (mb : Nat) (input : List Nat) : Stash :=
  let b := j.stashBlocks d
  let n := j.vectors d
  { layer := d.layer, mb := mb, inBlk := b.1, outBlk := b.2.1, posBlk := b.2.2, inHeld := true, outHeld := true, posHeld := true
    tier := tierForming, begun := false, reserve := false, e := (j.form d.inT mb).beta, inData := input
    outData := List.replicate (if d.savedBytes = 0 then 0 else n * d.outputs) 0
    posData := List.replicate (if b.2.2 = 0 then 0 else n / d.pool * d.outputs) 0 }

/-- Queue the forward tiles of the next layer of the run under way; after the last one the run is over. -/
def State.runLayer (s : State) (c : Nat) : State :=
  match s.job? c with
  | none => s
  | some j =>
    match j.recomp with
    | some (mb, l :: _, _) =>
      let e := genEntry l mb
      match (j.work e).bind (fun h => j.geo h), j.layer? l with
      | some g, some d =>
        let j1 := j.setRun e { HoistRun.idle with started := true, left := g.tiles, inst := j.cur l }
        let target := match j.recomp with | some (_, _, ts) => ts.contains l | none => false
        let j2 := if target then { j1 with stashes := j1.stashes ++ [j.formStash d mb (s.runInput c j d mb)] } else j1
        (s.setJob c j2).queueUnits c e g
      | _, _ => s
    | _ => s.setJob c { j with recomp := none, regen := [] }

/-- Start a run towards given targets (R229). -/
def State.startRecompute (s : State) (c mb : Nat) (ts : List Nat) : State :=
  match s.job? c with
  | none => s
  | some j =>
    match ts with
    | [] => s
    | top :: _ =>
      if j.recomp.isSome then s
      else
        let lo := j.segStart (j.segLow top mb) mb
        let way := j.order.filter (fun l => decide (lo ≤ l) && decide (l ≤ top))
        (s.setJob c { j with recomp := some (mb, way, ts), regen := [] }).runLayer c

/-- RECOMPUTE_RUN (R229). -/
def execRecomputeRun (c mb : Nat) (s : State) : Out :=
  perform (.recomputeRun c mb) s
    (match s.job? c with
    | none => s
    | some j => if s.jobActive c ∧ s.sealing.phase = 0 ∧ j.runsFreed mb then s.startRecompute c mb (j.targets mb) else s)

/-- Entries of the table with RECOMPUTE set whose layer and micro-batch are regenerated complete (R228). -/
def State.recomputeDone (s : State) (c l mb : Nat) : State :=
  match s.job? c with
  | none => s
  | some j => s.each (List.range j.entries.length) (fun u e => match j.entries[e]? with
    | some h => u.on (h.recompute && h.layer == l && h.mb == mb && (j.run e).started && !(j.run e).complete) (fun w => w.hoistDone c e)
    | none => u)

/-- The tiles of a layer of the run are drained: a target's planes are held, in the reserve where it has room, otherwise
in the usable stockpile where that has room (R229), and the run goes on to the next layer. A target that finds room in neither,
because stashes have been written meanwhile, is left to a later run. -/
def State.layerRegenerated (s : State) (c : Nat) : State :=
  match s.job? c with
  | none => s
  | some j =>
    match j.recomp with
    | some (mb, l :: rest, ts) =>
      let z := match j.layer? l with | some d => j.stashSize d | none => 0
      let inReserve := decide (j.reserveUsed + z ≤ 2 * j.largestStash)
      let room := inReserve || decide (j.occupancy + z ≤ j.usable)
      let j1 := if !ts.contains l then j
        else if room then j.modStash l mb (fun x => { x with tier := tierFast, reserve := inReserve })
        else { j with stashes := j.stashes.filter (fun x => !(x.layer == l && x.mb == mb)) }
      let s1 := (s.setJob c { j1 with recomp := some (mb, rest, ts) }).showStock c
      (s1.on (ts.contains l && room) (fun u => u.recomputeDone c l mb)).runLayer c
    | _ => s

end Sys2Proof.Machine
end

