-- ==== Sys2Proof/Machine/Collar.lean ====
section
/-!
DEFINITION. The output stage that head collars and the drain of forward tiles share: pooling (R59), stash data (R60,
R224), conversion and overflow (R61, R153 to R155), output maxima (R62), and the range monitors (R346).
-/

namespace Sys2Proof.Machine

/-! ### Pooling (R59) -/

/-- The value that max pooling keeps and its position: the earliest NaN, otherwise the earliest largest, +0 above −0. -/
def maxPool (l : List Nat) : Nat × Nat :=
  match l.findIdx? isNan32 with
  | some i => (nan32, i)
  | none =>
    ((List.range l.length).zip l).foldl (fun (a : Nat × Nat) x => if less32 a.1 x.2 then (x.2, x.1) else a) (l.headD 0, 0)

/-- The mean of a window of 2^k values: adjacent pairs, then × 1/P. -/
def meanPool (l : List Nat) : Nat := mul32 (treeSum add32 l) (dy32 ⟨1, -(log2Up l.length : Int)⟩)

/-- A pooled column: value and kept position. -/
def poolColumn (d : LayerD) (l : List Nat) : Nat × Nat :=
  if d.pool ≤ 1 then (l.headD 0, 0) else if d.maxPool then maxPool l else (meanPool l, 0)

/-! ### Overflow (R153 to R155) -/

/-- Blocks of a tensor instance. -/
def Job.blocksOf (j : Job) (t : Nat) : Nat := match j.tensor? t with | some x => ceilDiv x.bytes 4096 | none => 0

/-- An overflow of a training step: the step is unsound, its replay widens the kind (R154), and the tensor is withheld from its
consumers, with an UNSOUND notice for what was sent early (R153); recorded once a step for a kind and layer, or for the entry
where its result is no kind of a layer (log 75). -/
def State.overflows (s : State) (c e l kind fmt : Nat) : State :=
  match s.job? c with
  | none => s
  | some j =>
    let x := j.statOf l
    let held := s.modRun c e (fun r => { r with withheld := true })
    if (kind = kindGz ∧ x.ovGz) ∨ (kind = kindDw ∧ x.ovDw) ∨ (kind = kindOut ∧ x.ovOut) ∨ (kind = kindOther ∧ (j.run e).withheld) then held
    else
      let s1 := held.modJob c (fun k =>
        let k1 := if kind = kindOther then { k with serveFmt := Sparse.set 0 k.serveFmt e (widerFmt fmt + 1) } else k
        k1.modStat l (fun y =>
          { y with ovGz := y.ovGz || kind == kindGz, ovDw := y.ovDw || kind == kindDw, ovOut := y.ovOut || kind == kindOut }))
      let result := match j.entries[e]? with | some h => h.result | none => 0xFFFFFFFF
      let s2 := s1.unsoundNotice c result (j.blocksOf result) 0
      (s2.record 0x2011 Src.deputy (some c) (items [kind, j.launchOf e, fmt, widerFmt fmt, 1] ++ (if kind = kindOther then [] else [it 0xF3 l]))).unsound
        c 4 e

/-! ### Taking outputs -/

/-- Format that a pass writes its output in: a training pass the layer's (R154), a serving pass the placement's, or the
wider one in which it is being repeated (R155). -/
def Job.passForm (j : Job) (e : Nat) (d : LayerD) (serve : Bool) : Fmt :=
  if serve then
    let f := match Sparse.get 0 j.serveFmt e with | 0 => d.outFmt | k + 1 => k
    { fmt := f, beta := if f = fmtA8 then (j.numOf d.layer).outE else if f = fmtF32 then 0 else (j.numOf d.layer).outBias }
  else j.outForm d

/-- Saved form of an output (R224), widened to binary32. -/
def savedWord (d : LayerD) (y : Nat) : Nat := if d.savedBytes = 2 then toY16 y * 65536 else y

/-- Write consecutive elements of a list. -/
def putList (l : List Nat) (i : Nat) (ys : List Nat) : List Nat :=
  ((List.range ys.length).zip ys).foldl (fun a x => setNth a (i + x.1) x.2) l

/-- The activated outputs of a vector's columns enter its stash (R60). -/
def Job.stashOutputs (j : Job) (d : LayerD) (mb vec col : Nat) (ys : List Nat) : Job :=
  if d.savedBytes = 0 then j
  else j.modStash d.layer mb (fun x =>
    if x.tier = tierForming then { x with outData := putList x.outData (vec * d.outputs + col) (ys.map (savedWord d)) } else x)

/-- The positions kept by a window's columns enter the stash (R60). -/
def Job.stashPositions (j : Job) (d : LayerD) (mb win col : Nat) (ps : List Nat) : Job :=
  if d.maxPool && decide (1 < d.pool) then
    j.modStash d.layer mb (fun x =>
      if x.tier = tierForming then { x with posData := putList x.posData (win * d.outputs + col) ps } else x)
  else j

/-- The largest finite magnitude of some outputs enters the step's maximum (R62). -/
def Job.noteMax (j : Job) (l : Nat) (ys : List Nat) : Job :=
  j.modStat l (fun x => { x with outMax := ys.foldl (fun a y => if isFin32 y then max32 a (abs32 y) else a) x.outMax })

/-- Write a window's pooled columns to the output tensor, with what A8 clamps (R61) count for the stope and what an
overflow brings (R154, R155): the state, and whether a serving pass has to be repeated. -/
def State.writeOutputs (s : State) (c e p : Nat) (h : HoistE) (d : LayerD) (win col : Nat) (ys : List Nat) (gen : Nat) :
    State × Bool :=
  match s.job? c with
  | none => (s, false)
  | some j =>
    let f := j.passForm e d h.serve
    let v := j.viewIn c h.result h.mb f
    let w := (s.setJob c (j.noteForm h.result h.mb f)).putRow v win col ys
    let s1 := (w.1.parkRow v win gen).countStp p Reg.STP.A8_CLAMPS 6 w.2.clamps
    let s2 := if h.serve then s1 else s1.modJob c (fun k => k.modStat d.layer (fun x => { x with out := x.out.add w.2.stat }))
    if !w.2.ovf then (s2, false)
    else if h.serve then
      let s3 := s2.modJob c (fun k => { k with serveFmt := Sparse.set 0 k.serveFmt e (widerFmt f.fmt + 1) })
      (s3.record 0x2011 Src.deputy (some c) (items [kindOut, j.launchOf e, f.fmt, widerFmt f.fmt, 0] ++ [it 0xF3 d.layer]), true)
    else (s2.overflows c e d.layer kindOut f.fmt, false)

/-- A recompute run keeps a layer's outputs as the A8 bytes that the next layer applies (R228). -/
def State.keepRegen (s : State) (c : Nat) (d : LayerD) (win col : Nat) (ys : List Nat) : State :=
  s.modJob c (fun j =>
    let old := match j.regen.find? (fun e => e.1 == d.layer) with
      | some e => e.2
      | none => List.replicate (j.vectors d / max 1 d.pool * d.outputs) 0
    let new := putList old (win * d.outputs + col) (ys.map (fun y => (toA8 (j.numOf d.layer).outE y).1))
    { j with regen := (d.layer, new) :: j.regen.filter (fun e => e.1 != d.layer) })

/-- Activated outputs of one vector from a column that is a multiple of 64: stash data, maxima and, with the last vector
of a pooling window, the pooled outputs. The flag tells that a serving pass has to be repeated. The outputs of SERVE passes do
not enter the step's maximum: R62 does not say that they do or do not (log 76). -/
def State.takeOutputs (s : State) (c e p : Nat) (h : HoistE) (d : LayerD) (vec col : Nat) (ys : List Nat) (gen : Nat) :
    State × Bool :=
  match s.job? c with
  | none => (s, false)
  | some j =>
    let made := decide (genBase ≤ e)
    let j1 := if h.serve then j else j.stashOutputs d h.mb vec col ys
    let j2 := if h.serve || made then j1 else j1.noteMax d.layer ys
    let row : ActRow := { entry := e, layer := d.layer, cb := col / 64, vec := vec, vals := ys, wait := [] }
    let p0 := max 1 d.pool
    let win := vec / p0
    let others := j2.acts.filter (fun r => r.entry == e && r.cb == col / 64 && r.vec / p0 == win && r.vec != vec && r.wait == [])
    if others.length + 1 < p0 then (s.setJob c { j2 with acts := row :: j2.acts }, false)
    else
      let rows := (List.range p0).map (fun k => ((row :: others).find? (fun r => r.vec == win * p0 + k)).map (·.vals) |>.getD [])
      let pooled := (List.range ys.length).map (fun k => poolColumn d (rows.map (fun r => nth 0 r k)))
      let j3 := if h.serve then j2 else j2.stashPositions d h.mb win col (pooled.map (·.2))
      let s1 := s.setJob c { j3 with acts := j3.acts.filter (fun r => !(others.contains r)) }
      if made then (s1.keepRegen c d win col (pooled.map (·.1)), false)
      else s1.writeOutputs c e p h d win col (pooled.map (·.1)) gen

/-! ### Range monitors (R346) -/

/-- Key of a column's envelope, and of a layer's count of learning steps. -/
def envKey (l col : Nat) : Nat := l * 2 ^ 24 + col
def learnKey (l : Nat) : Nat := 2 ^ 48 + l

/-- Envelope of a column: [least, greatest of the step] and then [lo, hi], as far as they exist. -/
def Job.env (j : Job) (l col : Nat) : List Nat := Sparse.get [] j.envelope (envKey l col)

/-- Sealed steps of a layer since its envelopes began to learn. -/
def Job.learned (j : Job) (l : Nat) : Nat := (Sparse.get [] j.envelope (learnKey l)).headD 0

/-- The envelope with a value of the step seen. A NaN is no value of an envelope. -/
def envSee (l : List Nat) (y : Nat) : List Nat :=
  if isNan32 y then l
  else match l with
    | lo :: hi :: rest => if isNan32 lo then y :: y :: rest else min32 lo y :: max32 hi y :: rest
    | _ => [y, y]

/-- Is a value an excursion: beyond the envelope by more than m = (hi − lo) × MARGIN ÷ 16, rounded to nearest-even? -/
def excursion (l : List Nat) (margin y : Nat) : Bool :=
  match l with
  | [_, _, lo, hi] =>
    if isNan32 y then false
    else
      let m := dy32 ((((val32 hi).add (val32 lo).neg).mul (Dy.ofInt margin)).shift (-4))
      if !isFin32 y then true
      else ((val32 hi).add (val32 m)).lt (val32 y) || (val32 y).lt ((val32 lo).add (val32 m).neg)
  | _ => false

/-- Compare a vector's values with their envelopes and track them: the state and the columns that make an excursion. -/
def State.monitor (s : State) (c : Nat) (l col : Nat) (ys : List Nat) : State × List Nat :=
  match s.job? c with
  | none => (s, [])
  | some j =>
    let w := s.rd Page.INT Reg.INT.RANGE_CTL
    let active := decide (bits w 12 8 ≤ j.learned l)
    let cols := (List.range ys.length).zip ys
    let out := if active then cols.filter (fun x => excursion (j.env l (col + x.1)) (bits w 4 0) x.2) else []
    let env := cols.foldl (fun m x =>
      Sparse.set [] m (envKey l (col + x.1)) (envSee (Sparse.get [] m (envKey l (col + x.1))) x.2)) j.envelope
    (s.setJob c { j with envelope := env }, out.map (fun x => col + x.1))

end Sys2Proof.Machine
end

