-- ==== Sys2Proof/Machine/Hewer.lean ====
section
/-!
DEFINITION. The hewer: products and their division (R86 to R95), leaves, accumulation and checks (R78, R79, R90 to
R99), node stacks (R92, R146, R147), and draining (R100 to R108).
-/

namespace Sys2Proof.Machine

/-! ### Operands of a product -/

/-- Exact product 1 × 2^e of a signed magnitude byte (R44). -/
def byteVal (e : Int) (b : Nat) : Val := ofA8 e b

/-- Does a product use ideal shadow weights (R85, R117, R118)? -/
def Job.idealFor (j : Job) (h : HoistE) : Bool := (h.ref && h.ideal) || j.hewerOnly h.layer

/-- Byte and exponent of input element i of vector b of a forward product (R117, R228). -/
def State.forwardInput (s : State) (c : Nat) (j : Job) (h : HoistE) (d : LayerD) (b i : Nat) : Val :=
  if h.recompute then
    let e := match (j.below d).bind (fun x => if j.regen.any (fun r => r.1 == x.layer) then some (j.numOf x.layer).outE else none) with
      | some o => o
      | none => (j.form h.a h.mb).beta
    byteVal e (nth 0 (s.runInput c j d h.mb) (b * d.inputs + i))
  else
    let v := j.viewIn c h.a h.mb { fmt := fmtA8, beta := 0 }
    byteVal (j.form h.a h.mb).beta (s.rdByte c (v.base + v.index b i)).toNat

/-- Row operand value: element `r` of the result's rows at contraction index `k` (Table 3.2, R87, R88). Rows and indices
beyond the product are zero (R78). -/
def State.rowOperand (s : State) (c : Nat) (j : Job) (h : HoistE) (d : LayerD) (g : Geo) (inst r k : Nat) : Val :=
  if g.rows ≤ r ∨ g.len ≤ k then .zero false
  else
    match g.kind with
    | 1 => (dec32 (s.gainAt c j d inst k)).mul (s.elem (j.view c h.a h.mb) r k)
    | 2 =>
      if d.inputs ≤ r then .fin (Dy.ofInt 1)
      else match j.stash? d.layer h.mb with
        | some x => byteVal x.e (nth 0 x.inData (k * d.inputs + r))
        | none => .zero false
    | _ => s.forwardInput c j h d r k

/-- Column operand value: element `q` of the result's columns at contraction index `k` (Table 3.2). -/
def State.colOperand (s : State) (c : Nat) (j : Job) (h : HoistE) (d : LayerD) (g : Geo) (kept : List Nat) (inst q k : Nat) : Val :=
  if g.cols ≤ q ∨ g.len ≤ k then .zero false
  else
    match g.kind with
    | 1 => .fin ⟨s.shadowIn c j d (j.idealFor h) kept inst q k, -10⟩
    | 2 => s.elem (j.view c h.b h.mb) k q
    | _ => .fin ⟨s.shadowIn c j d (j.idealFor h) kept inst k q, -10⟩

/-- An operand vector over one leaf: its leaf form (R79) and whether it holds an infinite or NaN value (R148). -/
structure Operand where
  e      : Int
  ms     : List Int
  nonfin : Bool
deriving DecidableEq, Repr

def operand (l : List Val) : Operand :=
  let f := leafForm (l.map (fun (v : Val) => v.dy))
  { e := f.1, ms := f.2, nonfin := l.any (fun (v : Val) => v.nonfin) }

/-- Does an operand hold only zeros in leaf form? -/
def Operand.zero (o : Operand) : Bool := o.ms.all (· == 0)

/-- The 64 row and the 64 column operands of a leaf of a tile. -/
structure Leaf where
  rows : List Operand
  cols : List Operand
deriving DecidableEq, Repr

def State.leafOf (s : State) (c : Nat) (j : Job) (h : HoistE) (d : LayerD) (g : Geo) (t : Tile) (l : Nat) : Leaf :=
  { rows := (List.range 64).map (fun i => operand ((List.range 64).map (fun k =>
      s.rowOperand c j h d g t.inst (64 * t.row + i) (64 * l + k))))
    cols := (List.range 64).map (fun i => operand ((List.range 64).map (fun k =>
      s.colOperand c j h d g (j.run t.unit.entry).coefs t.inst (64 * t.col + i) (64 * l + k)))) }

/-- A leaf that the feeder issues no pairs for (R93). -/
def Leaf.skip (x : Leaf) : Bool :=
  (x.rows.all (·.zero) || x.cols.all (·.zero)) && !(x.rows.any (·.nonfin)) && !(x.cols.any (·.nonfin))

/-! ### Accumulation and checks -/

def dot (a b : List Int) : Int := (a.zip b).foldl (fun t x => t + x.1 * x.2) 0

/-- Sums of the mantissas of 64 operands, index by index (R96). -/
def sums (l : List Operand) : List Int := (List.range 64).map (fun k => l.foldl (fun a o => a + nth 0 o.ms k) 0)

/-- Limit of an accumulator (R91). -/
def accLimit (row col : Nat) : Int := if row = 64 ∧ col = 64 then 2 ^ 55 - 1 else 2 ^ 47 - 1

/-- What every accumulator holds at the end of a leaf: the exact sum plus its error, saturated (R90, R91), and every
accumulator that saturated with its sign. Row and column 64 are the check elements. -/
def accum (x : Leaf) (dev : List (Nat × Nat × Int)) : List (List Int) × List (Nat × Nat × Bool) :=
  let rk := sums x.rows
  let ck := sums x.cols
  let raw := (List.range 65).map (fun i => (List.range 65).map (fun q =>
    let a := if i = 64 then rk else match x.rows[i]? with | some o => o.ms | none => []
    let b := if q = 64 then ck else match x.cols[q]? with | some o => o.ms | none => []
    dev.foldl (fun t v => if v.1 = i ∧ v.2.1 = q then t + v.2.2 else t) (dot a b)))
  let cells := (List.range 4225).map (fun n => (n / 65, n % 65))
  let sat := cells.filter (fun n => decide (accLimit n.1 n.2 < ((nth 0 (nth [] raw n.1) n.2).natAbs : Int)))
  (((List.range 65).zip raw).map (fun r => ((List.range 65).zip r.2).map (fun v =>
      max (-(accLimit r.1 v.1)) (min (accLimit r.1 v.1) v.2)))
    , sat.map (fun n => (n.1, n.2, decide (nth 0 (nth [] raw n.1) n.2 < 0))))

/-- The first row and column that miss their checks, with the expected and measured sums (R97). -/
structure Miss where
  row : Option Nat
  col : Option Nat
  expected : Int
  measured : Int
deriving DecidableEq, Repr

def leafCheck (m : List (List Int)) : Option Miss :=
  let at2 (i q : Nat) : Int := nth 0 (nth [] m i) q
  let colSum (q : Nat) : Int := (List.range 64).foldl (fun a i => a + at2 i q) 0
  let rowSum (i : Nat) : Int := (List.range 64).foldl (fun a q => a + at2 i q) 0
  let total := (List.range 64).foldl (fun a i => a + rowSum i) 0
  let row := (List.range 64).find? (fun i => rowSum i != at2 i 64)
  let col := (List.range 64).find? (fun q => colSum q != at2 64 q)
  match row, col with
  | some i, _ => some { row := row, col := col, expected := at2 i 64, measured := rowSum i }
  | none, some q => some { row := row, col := col, expected := at2 64 q, measured := colSum q }
  | none, none =>
    if total = at2 64 64 then none else some { row := none, col := none, expected := at2 64 64, measured := total }

/-- The level-0 nodes of a leaf, element by element (R146, R148). -/
def leafNodes (x : Leaf) (m : List (List Int)) : List Node :=
  (List.range 4096).map (fun n =>
    match x.rows[n / 64]?, x.cols[n % 64]? with
    | some a, some b =>
      if a.nonfin || b.nonfin then .nonfin else leafNode (.fin ⟨nth 0 (nth [] m (n / 64)) (n % 64), a.e + b.e⟩)
    | _, _ => .zero)

/-! ### Node stacks (R92) -/

/-- Index of a tile's element in the product's row-major order. -/
def Geo.elem (g : Geo) (t : Tile) (n : Nat) : Nat := (64 * t.row + n / 64) * g.cols + 64 * t.col + n % 64

/-- Combine two lists of 4,096 nodes at a level. -/
def combineAll (x : TreeCtx) (g : Geo) (t : Tile) (level pos : Nat) (a b : List Node) : List Node :=
  (List.range 4096).map (fun n => combine x level (g.elem t n) pos (nth .zero a n) (nth .zero b n))

/-- Push the nodes of index `pos` at a level on the stack, combining equal levels. -/
def pushNodes (x : TreeCtx) (g : Geo) (t : Tile) : Nat → Nat → Nat → List Node → List (Nat × List Node) → List (Nat × List Node)
  | 0, level, _, l, st => (level, l) :: st
  | fuel + 1, level, pos, l, st =>
    match st with
    | (k, a) :: rest =>
      if k = level then pushNodes x g t fuel (level + 1) (pos / 2) (combineAll x g t (level + 1) (pos / 2) a l) rest
      else (level, l) :: st
    | [] => [(level, l)]

/-- Root nodes of a tile: what the stack holds, combined from the lowest level up; the leaves that are missing are zero
nodes, which pass the other node through exactly (R146, R147). -/
def Tile.root (x : TreeCtx) (g : Geo) (t : Tile) : List Node :=
  match t.stack with
  | [] => List.replicate 4096 .zero
  | b :: rest =>
    (rest.foldl (fun a e =>
      (e.1 + 1, combineAll x g t (e.1 + 1) ((t.first + t.leaves - 1) / 2 ^ (e.1 + 1)) e.2 a.2)) b).2

/-- What the draws of a job's contraction depend on (R147). -/
def State.treeCtx (s : State) (c : Nat) (j : Job) (result tree : Nat) : TreeCtx :=
  { seed := j.desc.seed, step := s.jobStep c, result := result, tree := tree }

/-! ### Hoists -/

/-- A stash whose planes can be read: written, in the fast tier or the spill area. -/
def Stash.readable (x : Stash) : Bool := decide (x.tier < 3)

/-- Does the drain of HEW_DX read planes of the layer below? -/
def LayerD.planesRead (d : LayerD) : Bool := decide (d.savedBytes ≠ 0) || (d.maxPool && decide (1 < d.pool))

/-- Are the operands of a hewer hoist ready (R184, R228)? -/
def State.operandsReady (s : State) (c : Nat) (j : Job) (e : Nat) (h : HoistE) (d : LayerD) : Bool :=
  let codes := s.tensorReady c j d.codesT (j.cur d.layer) && s.tensorReady c j d.gainT (j.cur d.layer)
  match h.action with
  | 2 =>
    s.operandReady c j e h h.a h.mb && codes &&
      (match j.below d with
      | none => true
      | some b => !b.planesRead || (match j.stash? b.layer h.mb with
        | some x => x.readable && (x.outHeld || x.outBlk == 0) && (x.posHeld || x.posBlk == 0)
        | none => false))
  | 3 =>
    s.operandReady c j e h h.b h.mb &&
      (match j.stash? d.layer h.mb with
      | some x => x.readable && x.inHeld
      | none => false)
  | _ => codes && (h.recompute || s.operandReady c j e h h.a h.mb)

/-- A HEW_DX or HEW_DW hoist starts: its work units go to the claim's hewers (R94). -/
def State.hewHoist (s : State) (c e act grad : Nat) : State :=
  match s.hoistFor c e act with
  | none => s
  | some (j, h) =>
    match j.layer? h.layer, j.geo h with
    | some d, some g =>
      if !s.operandsReady c j e h d then s.waitRun c e h
      else (((s.readsTensor c e grad h.mb h.serve).startRun c e h g.tiles)).queueUnits c e g
    | _, _ => s

/-- HEW_DX (R94). -/
def execHewDx (c e : Nat) (s : State) : Out :=
  perform (.hewDx c e) s
    (s.hewHoist c e 2 (match (s.job? c).bind (fun j => j.entries[e]?) with | some h => h.a | none => 0))

/-- HEW_DW (R94). -/
def execHewDw (c e : Nat) (s : State) : Out :=
  perform (.hewDw c e) s
    (s.hewHoist c e 3 (match (s.job? c).bind (fun j => j.entries[e]?) with | some h => h.b | none => 0))

/-! ### Tiles -/

/-- What a work unit names. -/
def State.unitWork (s : State) (w : WorkUnit) : Option (Job × HoistE × LayerD × Geo) :=
  match s.job? w.claim with
  | none => none
  | some j =>
    match j.work w.entry with
    | none => none
    | some h =>
      match j.layer? h.layer, j.geo h with
      | some d, some g => some (j, h, d, g)
      | _, _ => none

/-- May a unit start now: its operands ready, and its slot not sealing unless it serves (R184)? -/
def State.unitReady (s : State) (w : WorkUnit) : Bool :=
  match s.unitWork w with
  | none => false
  | some (j, h, d, _) => (s.sealing.phase == 0 || h.serve) && s.operandsReady w.claim j w.entry h d

/-- The unit that a hewer takes next (R115, R182, R184): a tile to be issued again comes first (R350). -/
def State.nextUnit (s : State) (p : Nat) : Option WorkUnit :=
  let ready := (s.stope p).queue.filter s.unitReady
  (ready.find? (·.again)).orElse (fun _ => ready.foldl (fun (a : Option WorkUnit) x =>
    match a with
    | none => some x
    | some y => if s.orderKey x.claim x.entry < s.orderKey y.claim y.entry then some x else some y) none)

/-- The tile of a work unit (R94): 2^s units to a tile, each a part of L′ ÷ 2^s leaves. -/
def tileOf (w : WorkUnit) (j : Job) (g : Geo) : Tile :=
  let r := j.run w.entry
  let k := r.split
  let span := 2 ^ (g.depth - k)
  let part := w.unit % 2 ^ k
  let tile := w.unit / 2 ^ k
  { unit := w, kind := g.kind, row := tile / g.tileCols, col := tile % g.tileCols, first := part * span
    leaves := min span (g.leaves - part * span), next := 0, issued := 0, stack := [], failed := w.again, inst := r.inst }

/-- First place of the reserved code among the codes that a tile expands: seam-map entry, row and column (R83). That a hoist's
images "hold" the code is judged by the codes that are expanded (DESIGN CHOICE, log 64). -/
def State.reservedCode (s : State) (c : Nat) (j : Job) (d : LayerD) (g : Geo) (t : Tile) : Option (Nat × Nat × Nat) :=
  let ks := ((List.range (64 * t.leaves)).map (fun k => 64 * t.first + k)).filter (fun k => decide (k < g.len))
  let qs := ((List.range 64).map (fun q => 64 * t.col + q)).filter (fun q => decide (q < g.cols))
  let pairs := if g.kind = 1 then qs.flatMap (fun i => ks.map (fun k => (i, k)))
    else if g.kind = 3 then ks.flatMap (fun i => qs.map (fun k => (i, k))) else []
  (pairs.find? (fun x => s.codeAt c j d t.inst x.1 x.2 == 16)).map (fun x =>
    (x.2 / 512 * d.rowBlocks + x.1 / 512, x.1 % 512, x.2 % 512))

/-- Record the reserved code once for a hoist (R83). -/
def State.noteReservedCode (s : State) (p : Nat) (t : Tile) (j : Job) (d : LayerD) (g : Geo) : State :=
  let c := t.unit.claim
  if (j.run t.unit.entry).reserved then s
  else
    match s.reservedCode c j d g t with
    | none => s
    | some (ix, r, q) =>
      (s.modRun c t.unit.entry (fun x => { x with reserved := true })).record 0x2009 (Src.stope p) (some c)
        (items [j.launchOf t.unit.entry, ix, r, q] ++ s.stopeItems p)

/-- Put a tile in the hewer of a stope. -/
def State.setTile (s : State) (p : Nat) (t : Option Tile) : State := s.modStope p (fun x => { x with tile := t })

/-- Pass over the zero leaves that come next (R93). -/
def State.skipLeaves (p : Nat) : Nat → State → State
  | 0, s => s
  | fuel + 1, s =>
    match (s.stope p).tile with
    | none => s
    | some t =>
      match s.unitWork t.unit with
      | none => s
      | some (j, h, d, g) =>
        if t.leaves ≤ t.next then s
        else if (s.leafOf t.unit.claim j h d g t (t.first + t.next)).skip then
          let x := s.treeCtx t.unit.claim j h.result 0
          let st := pushNodes x g t 64 0 (t.first + t.next) (List.replicate 4096 .zero) t.stack
          State.skipLeaves p fuel ((s.setTile p (some { t with next := t.next + 1, stack := st })).countStp p Reg.STP.LEAVES_SKIPPED 13 1)
        else s

/-- After its last leaf a tile waits for its drain, and the hewer may issue another on the other bank (R109). -/
def State.afterLeaf (s : State) (p : Nat) : State :=
  match (s.stope p).tile with
  | none => s
  | some t =>
    let s1 := State.skipLeaves p (t.leaves - t.next) s
    match (s1.stope p).tile with
    | some u => s1.on (decide (u.leaves ≤ u.next)) (fun v =>
        v.modStope p (fun x => { x with tile := none, drains := x.drains ++ [u] }))
    | none => s1

/-- The consumer of a unit has begun to read its stash (Table 6.6). -/
def State.beginRead (s : State) (c : Nat) (j : Job) (h : HoistE) (d : LayerD) : State :=
  match h.action with
  | 2 => match j.below d with | some b => s.beginStash c b.layer h.mb | none => s
  | 3 => s.beginStash c d.layer h.mb
  | _ => s

/-- Is the hewer of a stope at a boundary and free to work: it issues no tile, and one of its two banks of node stacks is free
(R92, R109)? -/
def State.hewerFree (s : State) (p : Nat) : Bool :=
  (s.stope p).tile.isNone && decide ((s.stope p).drains.length ≤ 1) && !(s.stope p).slotted && !(s.stope p).fenced && s.computeFree p

/-- TILE_START (R109, R116): the tile's issue cycles are taken from the allowance (R194), and its bank is the other one than the
last tile's, bank 1 for the first after power-up (DESIGN CHOICE, log 65). -/
def State.tileStart (s : State) (p : Nat) : State :=
  if !s.hewerFree p then s
  else
    match s.nextUnit p with
    | none => s
    | some w =>
      match s.unitWork w with
      | none => s
      | some (j, h, d, g) =>
        if h.free && govHolds (s.stope p).allow then s.count Page.HOI Reg.HOI.GOV_WITHHELD_HEW 2 1
        else
          let t := tileOf w j g
          let bank := s.fld (Page.STX p) Reg.STX.HEW_STATE 5 5
          let s1 := s.modStope p (fun x =>
            { x with queue := x.queue.erase w, tile := some t, allow := x.allow - (64 * 256 * t.leaves : Nat) })
          let s2 := s1.setFld (Page.STX p) Reg.STX.HEW_STATE 5 5 (1 - bank)
          ((s2.noteReservedCode p t j d g).beginRead w.claim j h d).afterLeaf p

/-- TILE_START (R109). -/
def execTileStart (p : Nat) (s : State) : Out := perform (.tileStart p) s (s.tileStart p)

/-! ### Failed tiles (R91, R98, R99, R350) -/

/-- CHECK_LAST of a failed tile (Table 3.11): row, column and which of their checks missed. -/
def State.showCheck (s : State) (p : Nat) (t : Tile) (row col rowMiss colMiss leaf : Nat) : State :=
  (s.wr (Page.STX p) Reg.STX.CHECK_LAST (row % 64 + 64 * (col % 64) + rowMiss * 2 ^ 12 + colMiss * 2 ^ 13 + t.kind * 2 ^ 14 +
    leaf % 65536 * 65536)).raise (Page.STX p) 3

/-- A tile has failed its checks: it is discarded and issued again once from leaf 0; a second failure ends its unit (R99,
R350). -/
def State.tileFailed (s : State) (p cause : Nat) (t : Tile) (h : HoistE) : State :=
  let c := t.unit.claim
  let s1 := ((s.countStp p Reg.STP.CHECK_FAILS 14 1).stageStp p 6).unsoundNotice c h.result 1 cause
  let s2 := (s1.workFailed c t.unit.entry p cause t.failed h.serve).modStope p (fun x =>
    { x with tile := x.tile.filter (· != t), drains := x.drains.erase t })
  if t.failed then s2 else s2.modStope p (fun x => { x with queue := { t.unit with again := true } :: x.queue })

/-- Event 0x2001 of a mismatch, with the failing operands in the sealed part (R99). Where only the row, only the column or only
the corner misses, the other number is shown as 0 with its MISS bit clear, and the sums recorded are those of the row check where
it misses, otherwise of the column check, otherwise of the corner (DESIGN CHOICE, log 66). -/
def State.noteMiss (s : State) (p : Nat) (t : Tile) (j : Job) (x : Leaf) (m : Miss) : State :=
  let l := t.first + t.next
  let row := m.row.getD 0
  let col := m.col.getD 0
  let half (o : Option Operand) : List Byte :=
    match o with
    | some y => y.ms.flatMap (fun v => leBytes 2 (unsigned 16 v))
    | none => []
  let exps := [x.rows[row]?, x.cols[col]?].map (fun o => match o with | some y => itS 10 y.e | none => itS 10 0)
  let s1 := s.showCheck p t row col (if m.row.isSome then 1 else 0) (if m.col.isSome then 1 else 0) l
  s1.recordSealed 0x2001 (Src.stope p) t.unit.claim
    ([it 1 t.kind, it 2 (j.launchOf t.unit.entry), it 3 t.unit.unit, it 4 l, it 5 row, it 6 col, itS 7 m.expected, itS 8 m.measured]
      ++ s.stopeItems p)
    (itB 9 (half x.rows[row]? ++ half x.cols[col]?) :: exps)

/-- An accumulator has saturated (R91). ACC_SAT_LAST has six bits for row and column: a check element, of row or column 64,
shows there modulo 64, and the element of event 0x2002 is row × 65 + column (DESIGN CHOICE, log 67). -/
def State.noteSat (s : State) (p : Nat) (t : Tile) (sat : Nat × Nat × Bool) : State :=
  let l := t.first + t.next
  let neg := if sat.2.2 then 1 else 0
  let w := sat.1 % 64 + 64 * (sat.2.1 % 64) + neg * 2 ^ 12 + t.kind * 2 ^ 14 + l % 65536 * 65536
  let s1 := ((s.countStp p Reg.STP.ACC_SATS 15 1).stageStp p 7).wr (Page.STX p) Reg.STX.ACC_SAT_LAST w
  (s1.raise (Page.STX p) 4).record 0x2002 (Src.stope p) (some t.unit.claim)
    (items [t.kind, t.unit.unit, l, sat.1 * 65 + sat.2.1, neg] ++ s.stopeItems p)

/-- A tile's check failure without a mismatch of R97: CHECK_LAST shows the saturated element, or, where a duplicated unit
disagreed, a row and a column that the spec leaves open (free values, log 66). -/
def State.noteOther (s : State) (p : Nat) (t : Tile) (sat : List (Nat × Nat × Bool)) (leaf : Nat) : State :=
  match sat with
  | v :: _ => s.showCheck p t v.1 v.2.1 0 0 leaf
  | [] => s.drawn.drawn.showCheck p t (s.draw 6).toNat (s.drawn.draw 6).toNat 0 0 leaf

/-- A duplicated unit disagrees (R98). Which row or lane it was is open: a free value (log 2). -/
def State.noteDup (s : State) (p : Nat) (t : Tile) (unit place : Nat) : State :=
  let row := (s.draw 6).toNat
  let s1 := ((s.drawn.countStp p Reg.STP.DUP_FAILS 16 1).stageStp p 8).wr (Page.STX p) Reg.STX.DUP_LAST (unit + 4 * row)
  (s1.raise (Page.STX p) 5).record 0x2003 (Src.stope p) (some t.unit.claim) (items [unit, t.unit.unit, place] ++ s.stopeItems p)

/-- Event 0x2013, once for a hoist (R148): operand 0 is a row operand, 1 a column operand, and the contraction index is the
first of the leaf that holds the non-finite operand (DESIGN CHOICE, log 68). -/
def State.noteNonfinite (s : State) (p : Nat) (t : Tile) (j : Job) (x : Leaf) : State :=
  let rows := x.rows.any (·.nonfin)
  if (rows || x.cols.any (·.nonfin)) && !(j.run t.unit.entry).nonfin then
    (s.modRun t.unit.claim t.unit.entry (fun r => { r with nonfin := true })).record 0x2013 (Src.stope p) (some t.unit.claim)
      (items [j.launchOf t.unit.entry, if rows then 0 else 1, 64 * (t.first + t.next)] ++ s.stopeItems p ++
        [it 0xF3 ((j.work t.unit.entry).map (·.layer) |>.getD 0)])
  else s

/-- LEAF_END (R97). `dev` gives the elements whose accumulators are wrong and by how much; the duplicated unit that
disagrees is the feeder or the node combiner, which of them is a free value. -/
def State.leafEnd (s : State) (p : Nat) (dev : List (Nat × Nat × Int)) (dupOk : Bool) : State :=
  match (s.stope p).tile with
  | none => s
  | some t =>
    match s.unitWork t.unit with
    | none => s
    | some (j, h, d, g) =>
      if t.leaves ≤ t.next then s
      else
        let c := t.unit.claim
        let x := s.leafOf c j h d g t (t.first + t.next)
        let a := accum x dev
        let s1 := ((s.countStp64 p Reg.STP.HEW_MACS_LO 8 (4096 * 64)).countStp64 p Reg.STP.HEW_BUSY_LO 9 64).noteNonfinite p t j x
        let miss := leafCheck a.1
        let s2 := match miss with | some m => s1.noteMiss p t j x m | none => s1
        let s3 := s2.each a.2 (fun u v => u.noteSat p t v)
        let s4 := if dupOk then s3 else s3.drawn.noteDup p t (s3.draw 1).toNat (t.first + t.next)
        if miss.isSome then s4.tileFailed p 1 t h
        else if a.2 != [] then (s4.noteOther p t a.2 (t.first + t.next)).tileFailed p 3 t h
        else if !dupOk then (s4.noteOther p t [] (t.first + t.next)).tileFailed p 2 t h
        else
          let st := pushNodes (s.treeCtx c j h.result 0) g t 64 0 (t.first + t.next) (leafNodes x a.1) t.stack
          (s4.setTile p (some { t with next := t.next + 1, issued := t.issued + 1, stack := st })).afterLeaf p

/-- LEAF_END (R97). -/
def execLeafEnd (p : Nat) (dev : List (Nat × Nat × Int)) (dupOk : Bool) (s : State) : Out :=
  perform (.leafEnd p dev dupOk) s (s.leafEnd p dev dupOk)

/-! ### Draining -/

/-- A root node rounded once to binary32 (R102, R148). -/
def rootWord (n : Node) : Nat :=
  match n with
  | .zero => 0
  | .num m u => dy32 ⟨m, u⟩
  | .nonfin => nan32

/-- Derivative code of a layer (R103, R104): a layer compiled with its input stashed carries identity. -/
def LayerD.derivCode (d : LayerD) : Nat := if d.stashIn then 0 else d.act

/-- The gradient at the pre-activation output of the layer below, for vector k of the window that a row of dX stands for
(R102, R103, R105). -/
def drainDx (b : LayerD) (x : Stash) (win k col y : Nat) : Nat :=
  let vec := win * max 1 b.pool + k
  let g := if b.pool ≤ 1 then y
    else if b.maxPool then (if nth 0 x.posData (win * b.outputs + col) = k then y else 0)
    else mul32 y (dy32 ⟨1, -(log2Up b.pool : Int)⟩)
  mul32 g (derivative b.derivCode b.p0 b.p1 (nth 0 x.outData (vec * b.outputs + col)))

/-- Write a row of a drained tensor and take its statistics and overflow: kind, layer, and format in force. A result that is no
tensor kind of a layer has no statistics (R136). -/
def State.drainRow (s : State) (c e : Nat) (h : HoistE) (layer kind : Nat) (f : Fmt) (row col gen : Nat) (ys : List Nat) : State :=
  match s.job? c with
  | none => s
  | some j =>
    let v := j.viewIn c h.result h.mb f
    let w := (s.setJob c (j.noteForm h.result h.mb f)).putRow v row col ys
    let s1 := (w.1.parkRow v row gen).modJob c (fun k => if kind = kindOther then k else k.modStat layer (fun y =>
      if kind = kindGz then { y with gz := y.gz.add w.2.stat } else { y with dw := y.dw.add w.2.stat, trained := true }))
    s1.on w.2.ovf (fun u => u.overflows c e layer kind f.fmt)

/-- Kind, layer and format of an input gradient where the member's placement has no layer below: those of the kind that its result
tensor is, if any, otherwise as the tensor's entry gives it. -/
def Job.dxKind (j : Job) (e : Nat) (h : HoistE) : Nat × Nat × Fmt :=
  match j.kindOf h.result with
  | some (k, l) => (k, l, j.roleForm h.result)
  | none => (kindOther, h.layer, j.otherForm e h.result)

/-- Rows of a tile that lie within the product. -/
def Geo.rowsOf (g : Geo) (t : Tile) : List Nat := (List.range 64).filter (fun r => decide (64 * t.row + r < g.rows))

/-- Columns of a tile that lie within the product. -/
def Geo.colsOf (g : Geo) (t : Tile) : Nat := min 64 (g.cols - 64 * t.col)

/-- FORMAT 7, raw bytes: node words stand in such a tensor (Table 6.4). -/
abbrev fmtRaw : Nat := 7

/-- Node words into a raw tensor. -/
def State.putNodes (s : State) (c addr gen : Nat) (l : List Node) : State :=
  (s.each ((List.range l.length).zip l) (fun u x => u.wrNat c (addr + 8 * x.1) 8 x.2.word)).park c addr (8 * l.length) gen

/-- A HEW_DX whose result tensor is raw leaves its root nodes, for REDUCE to combine (R329): one row of a tile. -/
def State.putRootRow (s : State) (c : Nat) (h : HoistE) (g : Geo) (t : Tile) (x : TensorD) (r : Nat) (l : List Node) (gen : Nat) : State :=
  s.putNodes c (x.at_ h.mb + 8 * ((64 * t.row + r) * g.cols + 64 * t.col)) gen
    ((List.range (g.colsOf t)).map (fun q => nth .zero l (64 * r + q)))

/-- Drain of HEW_DX (R102 to R106). Where the member's placement has no layer below, the value is converted as the result
tensor's entry gives it, with derivative 1 and no pooling. -/
def State.drainDxTile (s : State) (c e : Nat) (j : Job) (h : HoistE) (d : LayerD) (g : Geo) (t : Tile) (l : List Node) (gen : Nat) : State :=
  s.each (g.rowsOf t) (fun u r =>
    let win := 64 * t.row + r
    let ys := (List.range (g.colsOf t)).map (fun q => rootWord (nth .zero l (64 * r + q)))
    match (j.tensor? h.result).filter (fun x => x.fmt == fmtRaw) with
    | some x => u.putRootRow c h g t x r l gen
    | none =>
    match j.below d with
    | none =>
      let k := j.dxKind e h
      u.drainRow c e h k.2.1 k.1 k.2.2 win (64 * t.col) gen ys
    | some b =>
      match (if b.planesRead then j.stash? b.layer h.mb else some (j.formStash b h.mb [])) with
      | none => u
      | some x =>
        u.each (List.range (max 1 b.pool)) (fun v k =>
          v.drainRow c e h b.layer kindGz (j.gzForm b.layer) (win * max 1 b.pool + k) (64 * t.col) gen
            (((List.range ys.length).zip ys).map (fun y => drainDx b x win k (64 * t.col + y.1) y.2))))

/-- Drain of HEW_DW (R107). -/
def State.drainDwTile (s : State) (c e : Nat) (j : Job) (h : HoistE) (d : LayerD) (g : Geo) (t : Tile) (l : List Node) (gen : Nat) : State :=
  s.each (g.rowsOf t) (fun u r =>
    u.drainRow c e h d.layer kindDw (j.dwForm d.layer) (64 * t.row + r) (64 * t.col) gen
      ((List.range (g.colsOf t)).map (fun q => rootWord (nth .zero l (64 * r + q)))))

/-- Drain of a forward tile (R107): the flag tells that a serving pass has to be repeated. -/
def State.drainFwdTile (s : State) (c e p : Nat) (j : Job) (h : HoistE) (d : LayerD) (g : Geo) (t : Tile) (l : List Node) (gen : Nat) :
    State × Bool :=
  (g.rowsOf t).foldl (fun (a : State × Bool) r =>
    let ys := (List.range (g.colsOf t)).map (fun q =>
      let col := 64 * t.col + q
      match nth .zero l (64 * r + q) with
      | .nonfin => nan32
      | .zero => collarValue Dy.zero 0 (s.gainAt c j d t.inst col) (s.biasAt c j d t.inst col)
      | .num m u => collarValue ⟨m, u⟩ 0 (s.gainAt c j d t.inst col) (s.biasAt c j d t.inst col))
    let w := a.1.takeOutputs c e p h d (64 * t.row + r) (64 * t.col) (ys.map (activate d.act d.p0 d.p1)) gen
    (w.1, a.2 || w.2)) (s, false)

/-- A serving pass on the hewers starts again in the wider format (R155). -/
def State.repeatTiles (s : State) (c e : Nat) (g : Geo) : State :=
  let s1 := (s.dropWork c 3 (fun k => k != e)).modJob c (fun j => { j with
    acts := j.acts.filter (fun x => x.entry != e), roots := j.roots.filter (fun x => x.entry != e) })
  (s1.modRun c e (fun r => { r with left := g.tiles })).queueUnits c e g

/-- Planes that a completed hoist has read are freed (R225), and a recompute run goes on to its next layer. A HEW_DX with a raw
result has not drained yet: the REDUCE that drains it frees them. -/
def State.afterHoist (s : State) (c e : Nat) (j : Job) (h : HoistE) (d : LayerD) : State :=
  match s.job? c with
  | none => s
  | some k =>
    if !(k.run e).complete then s
    else
      match h.action with
      | 2 => match j.below d with
        | some b => s.on ((j.tensor? h.result).all (fun x => x.fmt != fmtRaw)) (fun u => u.freeStash c b.layer h.mb false true)
        | none => s
      | 3 => s.freeStash c d.layer h.mb true false
      | _ => if genBase ≤ e then s.layerRegenerated c else s

/-- Drain the root nodes of a whole tile (R100 to R108) and count it. -/
def State.drainTile (s : State) (p : Nat) (t : Tile) (j : Job) (h : HoistE) (d : LayerD) (g : Geo) (l : List Node) : State :=
  let c := t.unit.claim
  let e := t.unit.entry
  let gen := if t.failed then 1 else 0
  let s0 := s.on t.failed (fun u => u.count Page.INT Reg.INT.RECOMPUTES 1 1)
  match h.action with
  | 2 => (((s0.drainDxTile c e j h d g t l gen).countStp p Reg.STP.DX_TILES 10 1).unitDone c e).afterHoist c e j h d
  | 3 => (((s0.drainDwTile c e j h d g t l gen).countStp p Reg.STP.DW_TILES 11 1).unitDone c e).afterHoist c e j h d
  | _ =>
    let w := s0.drainFwdTile c e p j h d g t l gen
    let s1 := w.1.countStp p Reg.STP.FWD_TILES 12 1
    if w.2 then s1.repeatTiles c e g else (s1.unitDone c e).afterHoist c e j h d

/-- Parts of the tile that a unit belongs to, with split exponent k. -/
def partsOf (unit k : Nat) : List Nat := (List.range (2 ^ k)).map (fun i => unit / 2 ^ k * 2 ^ k + i)

/-- Combine the parts of a tile that are all at the stope of part 0 (R94), element by element. -/
def combineParts (x : TreeCtx) (g : Geo) (t : Tile) (k : Nat) (parts : List PartRoot) : List Node :=
  (List.range 4096).map (fun n =>
    treeRoot x (g.elem t n) (g.depth - k) k 0 ((partsOf t.unit.unit k).map (fun u =>
      match parts.find? (fun r => r.unit == u) with
      | some r => Node.ofWord (nth 0 r.nodes n)
      | none => .zero)))

/-- Drain a divided tile once every part's root is at the stope that holds part 0. Its combination and drain are compared like
any other (R98): a disagreement, of which unit is open, discards the combined values and issues part 0 again. -/
def State.joinParts (s : State) (c e unit : Nat) (dupOk : Bool) : State :=
  match s.unitWork { claim := c, entry := e, unit := unit, again := false } with
  | none => s
  | some (j, h, d, g) =>
    let k := (j.run e).split
    let us := partsOf unit k
    let parts := j.roots.filter (fun r => r.entry == e && us.contains r.unit)
    if parts.length = 2 ^ k ∧ parts.all (·.here) then
      let u0 := unit / 2 ^ k * 2 ^ k
      let w : WorkUnit := { claim := c, entry := e, unit := u0, again := parts.any (·.again) }
      let t := { tileOf w j g with first := 0 }
      let p := s.homeOf (j.run e) u0
      if !dupOk then
        let s1 := s.setJob c { j with roots := j.roots.filter (fun r => !(r.entry == e && r.unit == u0)) }
        ((s1.drawn.noteDup p t (1 + (s.draw 1).toNat) (s.draw 6).toNat).noteOther p t [] 0).tileFailed p 2 t h
      else
        let s1 := s.setJob c { j with roots := j.roots.filter (fun r => !(r.entry == e && us.contains r.unit)) }
        (s1.meshDrop (fun q => q.kind == 1 && q.claim == c && q.entry == e && us.contains (q.tag.headD 0))).drainTile p t j h d g
          (combineParts (s.treeCtx c j h.result 0) g t k parts)
    else s

/-- PART_ROOT_ARRIVAL (R94): a root that is under way lands at the stope of part 0, which then takes it. -/
def State.rootArrives (s : State) (c e unit : Nat) (dupOk : Bool) : State :=
  match s.meshFind c e 1 [unit] with
  | none => s
  | some q =>
    if !s.mayArrive q then s
    else
      ((s.meshLand q).modJob c (fun j => { j with roots := j.roots.map (fun r =>
        if r.entry == e && r.unit == unit then { r with here := true } else r) })).joinParts c e unit dupOk

/-- PART_ROOT_ARRIVAL (R94). -/
def execPartRootArrival (c e : Nat) (part : PartArrival) (s : State) : Out :=
  perform (.partRootArrival c e part) s (s.rootArrives c e part.unit part.dupOk)

/-- Tensor blocks of a root: 4,096 node words of 8 bytes. -/
abbrev rootBlocks : Nat := 8

/-- TILE_DRAIN (R100): the oldest tile whose leaves are complete leaves its bank, behind the fence, which in the model always
takes the 96 cycles that bound it (R101). -/
def State.tileDrain (s : State) (p : Nat) (dupOk : Bool) : State :=
  match (s.stope p).drains with
  | [] => s
  | t :: _ =>
    match s.unitWork t.unit with
    | none => s
    | some (j, h, d, g) =>
      let c := t.unit.claim
      let s1 := s.wr (Page.STX p) Reg.STX.FENCE_MAX 96
      if !dupOk then ((s1.noteDup p t 2 (s1.draw 6).toNat).noteOther p t [] (t.first + t.next - 1)).tileFailed p 2 t h
      else
        let l := t.root (s.treeCtx c j h.result 0) g
        let r := j.run t.unit.entry
        let u0 := t.unit.unit / 2 ^ r.split * 2 ^ r.split
        let s2 := s1.modStope p (fun x => { x with drains := x.drains.erase t })
        if r.split = 0 then s2.drainTile p t j h d g l
        else
          let home := s.homeOf r u0
          let here := t.unit.unit == u0 || home == p
          let root : PartRoot := { entry := t.unit.entry, unit := t.unit.unit, here := here
                                   nodes := l.map (fun (n : Node) => n.word), again := t.failed }
          let s3 := s2.modJob c (fun y => { y with roots := y.roots.filter (fun x => !(x.entry == root.entry && x.unit == root.unit)) ++ [root] })
          let s4 := s3.on (!here) (fun u => u.meshSend
            { plane := 0, src := p, dst := home, claim := c, entry := root.entry, kind := 1, tag := [root.unit], blocks := rootBlocks, phase := 0 })
          s4.joinParts c t.unit.entry t.unit.unit dupOk

/-- TILE_DRAIN (R100). -/
def execTileDrain (p : Nat) (dupOk : Bool) (s : State) : Out := perform (.tileDrain p dupOk) s (s.tileDrain p dupOk)

end Sys2Proof.Machine
end

