-- ==== Sys2Proof/Machine/Movers.lean ====
section
/-!
DEFINITION. Hoists that move or hold: IDLE (R180, R182), WIDE_OP and the wide unit (R110 to R114), SEND, RECV and REDUCE
(R183, R308, R329), the acceptance of messages (R309, R326, R330, R341) and the mill bridge (R236).
-/

namespace Sys2Proof.Machine

/-! ### IDLE -/

/-- IDLE (R182): the hoist launches and holds its targets idle. -/
def execIdle (c e : Nat) (s : State) : Out :=
  perform (.idle c e) s
    (match s.hoistFor c e 0 with
    | some (_, h) => s.startRun c e h 1
    | none => s)

/-- IDLE_END (R180). -/
def execIdleEnd (c e : Nat) (s : State) : Out :=
  perform (.idleEnd c e) s
    (match (s.job? c).bind (fun j => j.entries[e]?) with
    | some h => if h.action = 0 then s.unitDone c e else s
    | none => s)

/-! ### The wide unit -/

/-- A function of the evaluators (R111). -/
def wideFn : WideFn → Nat → Nat
  | .exp => exp32 | .exp2 => exp2_32 | .ln => ln32 | .recip => recip32 | .sqrt => sqrt32 | .rsqrt => rsqrt32
  | .tanh => tanh32 | .sigmoid => sigmoid32 | .softplus => softplus32

/-- One operation over the values formed so far (R110, R112). A comparison gives 1.0 or +0. -/
def wideInsn (vs : List Nat) : WideInsn → Nat
  | .const v => v.toNat
  | .add a b => add32 (nth 0 vs a) (nth 0 vs b)
  | .mul a b => mul32 (nth 0 vs a) (nth 0 vs b)
  | .fma a b c => fma32 (nth 0 vs a) (nth 0 vs b) (nth 0 vs c)
  | .min a b => min32 (nth 0 vs a) (nth 0 vs b)
  | .max a b => max32 (nth 0 vs a) (nth 0 vs b)
  | .less a b => if lt32 (nth 0 vs a) (nth 0 vs b) then 0x3F800000 else 0
  | .fn f a => wideFn f (nth 0 vs a)
  | .sum first n => treeSum add32 ((vs.drop first).take n)
  | .maximum first n => treeSum max32 ((vs.drop first).take n)

/-- Values of a wide program: its inputs, then each operation's result. -/
def wideRun (p : WideProg) (inputs : List Nat) : List Nat :=
  let vs := p.ops.foldl (fun vs i => vs ++ [wideInsn vs i]) inputs
  p.outs.map (fun k => nth 0 vs k)

/-- Elements of a tensor view in logical row-major order, widened to binary32 (R132). -/
def State.elements (s : State) (v : View) : List Nat :=
  (List.range (v.rows * v.cols)).map (fun n => encSigned (s.elem v (n / v.cols) (n % v.cols)))

/-- Write a wide program's results in a format: the state and what the conversions give. -/
def State.putWideIn (s : State) (c : Nat) (j : Job) (h : HoistE) (f : Fmt) (ys : List Nat) (gen : Nat) : State × Put :=
  let v := j.viewIn c h.result h.mb f
  (List.range v.rows).foldl (fun (a : State × Put) r =>
    let x := a.1.putRow v r 0 ((ys.drop (r * v.cols)).take v.cols)
    (x.1.parkRow v r gen, a.2.add x.2)) (s.modJob c (fun k => k.noteForm h.result h.mb f), Put.none)

/-- A serving WIDE_OP whose results overflow is repeated at once in the next wider format (R155); no format is widened more often
than twice. -/
def State.serveWide (c e : Nat) (j : Job) (h : HoistE) (layer kind : Nat) (ys : List Nat) (gen : Nat) : Nat → Fmt → State → State
  | 0, f, s => (s.putWideIn c j h f ys gen).1
  | fuel + 1, f, s =>
    let w := s.putWideIn c j h f ys gen
    if !w.2.ovf then w.1
    else
      let x := (w.1.modJob c (fun k => { k with serveFmt := Sparse.set 0 k.serveFmt e (widerFmt f.fmt + 1) })).record 0x2011 Src.deputy (some c)
        (items [kind, j.launchOf e, f.fmt, widerFmt f.fmt, 0] ++ (if kind = kindOther then [] else [it 0xF3 layer]))
      State.serveWide c e j h layer kind ys gen fuel { fmt := widerFmt f.fmt, beta := if widerFmt f.fmt = fmtF32 then 0 else f.beta } x

/-- Write a wide program's results with statistics and overflow of the tensor kind (R136, R153 to R155). -/
def State.putWide (s : State) (c e : Nat) (j : Job) (h : HoistE) (ys : List Nat) (gen : Nat) : State :=
  let k := j.kindOf h.result
  let kind := (k.map (·.1)).getD kindOther
  let l := (k.map (·.2)).getD h.layer
  if h.serve then s.serveWide c e j h l kind ys gen 2 (j.roleForm h.result)
  else
    let f := if k.isSome then j.roleForm h.result else j.otherForm e h.result
    let w := s.putWideIn c j h f ys gen
    let s1 := if k.isNone then w.1 else w.1.modJob c (fun y => y.modStat l (fun x =>
      if kind = kindGz then { x with gz := x.gz.add w.2.stat }
      else if kind = kindDw then { x with dw := x.dw.add w.2.stat } else { x with out := x.out.add w.2.stat }))
    s1.on w.2.ovf (fun u => u.overflows c e l kind f.fmt)

/-- The stope whose wide unit runs an entry: the first of its target. -/
def State.wideStope (s : State) (c : Nat) (h : HoistE) : Nat :=
  let ls := if h.tkind = 1 then (s.claimStopes c).filter (fun l => decide (bits h.target 9 0 ≤ l) && decide (l ≤ bits h.target 25 16))
    else s.claimStopes c
  ((ls.head?).bind s.actor).getD 0x7FF

/-- The layer of an entry is a top layer and no WIDE_OP of it and its micro-batch is left: its output and position
planes are freed (R225). -/
def State.freeTop (s : State) (c : Nat) (h : HoistE) : State :=
  match s.job? c with
  | none => s
  | some j =>
    match j.layer? h.layer with
    | none => s
    | some d =>
      let top := !(j.layers.any (fun x => x.inT == d.outT && x.layer != d.layer))
      let left := ((List.range j.entries.length).zip j.entries).any (fun x =>
        x.2.action == 4 && x.2.layer == h.layer && x.2.mb == h.mb && !(j.run x.1).complete)
      s.on (top && !left) (fun u => u.freeStash c h.layer h.mb false true)

/-- The entry of a WIDE_OP that may run now, for the first time or again after a failed check (R350). -/
def State.wideFor (s : State) (c e : Nat) : Option (Job × HoistE × Bool) :=
  match s.hoistFor c e 4 with
  | some (j, h) => some (j, h, false)
  | none =>
    match s.job? c with
    | none => none
    | some j =>
      match j.entries[e]? with
      | none => none
      | some h =>
        if h.action = 4 ∧ (j.run e).again ∧ !(j.run e).complete ∧ (s.sealing.phase = 0 ∨ h.serve) then some (j, h, true) else none

/-- Is it an entry's turn on its wide unit (R182, R184): no launched fixed WIDE_OP waits for the unit, and no free one that is ready goes
before it in the order of R115? -/
def State.wideTurn (s : State) (c e p : Nat) : Bool :=
  s.jobs.all (fun x => ((List.range x.2.entries.length).zip x.2.entries).all (fun y =>
    y.2.action != 4 || (x.1 == c && y.1 == e) || (s.hoistFor x.1 y.1 4).isNone || s.wideStope x.1 y.2 != p ||
      (y.2.free && !s.operandReady x.1 x.2 y.1 y.2 y.2.a y.2.mb) || decide (s.orderKey c e ≤ s.orderKey x.1 y.1)))

/-- WIDE_OP (R110): the program runs over the elements of OPND_A and writes those of RESULT. -/
def State.wideOp (s : State) (c e : Nat) (prog : WideProg) (checkOk : Bool) : State :=
  match s.wideFor c e with
  | none => s
  | some (j, h, again) =>
    let p := s.wideStope c h
    if !s.operandReady c j e h h.a h.mb then s.waitRun c e h
    else if !s.computeFree p ∨ (!again ∧ !s.wideTurn c e p) then s
    else
      let s0 := (s.on (!again) (fun u => (u.readsTensor c e h.a h.mb h.serve).startRun c e h 1)).beginStash c h.layer h.mb
      if !checkOk then
        let lane := (s0.draw 5).toNat
        let fn := (s0.drawn.draw 4).toNat
        let s1 := ((s0.drawn.drawn.countStp p Reg.STP.WIDE_FAILS 17 1).stageStp p 9).raise (Page.STX p) 6
        let s2 := s1.record 0x2004 (Src.stope p) (some c) (items [h.launch, lane, fn] ++ s.stopeItems p)
        ((s2.unsoundNotice c h.result 1 4).workFailed c e p 4 again h.serve).modRun c e (fun r => { r with again := !again })
      else
        let ys := wideRun prog (s.elements (j.view c h.a h.mb))
        let j0 := (s0.job? c).getD j
        let s1 := s0.putWide c e j0 h ys (if again then 1 else 0)
        let s2 := match ys.findIdx? isNan32 with
          | some k => ((s1.countStp p Reg.STP.WIDE_NANS 18 1).stageStp p 10).record 0x2005 (Src.stope p) (some c)
              (items [h.launch, k % 32, k] ++ s.stopeItems p)
          | none => s1
        let s3 := s2.on again (fun u => u.count Page.INT Reg.INT.RECOMPUTES 1 1)
        ((s3.modRun c e (fun r => { r with again := false })).unitDone c e).freeTop c h

/-- WIDE_OP (R110). -/
def execWideOp (c e : Nat) (prog : WideProg) (checkOk : Bool) (s : State) : Out :=
  perform (.wideOp c e prog checkOk) s (s.wideOp c e prog checkOk)

/-! ### SEND -/

/-- Bytes of a tensor instance as it is stored in its format in force. -/
def Job.viewBytes (j : Job) (c t m : Nat) : Nat :=
  let v := j.view c t m
  match j.tensor? t with
  | some x => if v.form.fmt = fmtF32 ∧ x.fmt ≠ fmtF32 then 4 * v.rows * v.cols else x.bytes
  | none => 0

/-- Send a message on a port of a mask that is up, or by its role's route where the mask is 0 (Table 5.6). -/
def State.sendVia (s : State) (mask : Nat) (m : OutMsg) : State :=
  if mask = 0 then s.sendMsg m
  else
    let q := s.nextMseq m.key m.dest
    let s1 := { s with casc := { s.casc with sentSeq := Sparse.set 0 s.casc.sentSeq (m.key * 4096 + m.dest) q } }
    let ports := (List.range 12).filter (fun n => bit mask n && s.portUp n)
    if ports = [] then s1 else s1.queueOn (nth 0 ports (q % ports.length)) { m with mseq := q, epoch := s.epoch }

/-- Send a claim's blocks as messages of eight of a class (R308) and keep them for a STALE_ROLE (R326). -/
def State.sendBlocks (s : State) (cls c : Nat) (role : RoleEntry) (srcRole tag mask : Nat) (blocks : List (List Byte))
    (origin : Option (Nat × Nat)) : State :=
  s.each (List.range (ceilDiv blocks.length 8)) (fun u k =>
    let m : OutMsg :=
      { cls := cls, dest := role.member, destRole := role.role, destEpoch := role.epoch, srcRole := srcRole, key := c, mseq := 0
        tag := tag, epoch := 0, first := 8 * k, blocks := (blocks.drop (8 * k)).take 8, content := [], detour := false, origin := origin }
    let u1 := { u with casc := { u.casc with sent := u.casc.sent ++ [{ m with mseq := u.nextMseq c role.member }] } }
    u1.sendVia mask m)

/-- Where a message's blocks land: the first RECV of the claim that is not complete and names its tag and source role. -/
def Job.landing (j : Job) (tag srcRole : Nat) : Option (Nat × HoistE) :=
  ((List.range j.entries.length).zip j.entries).find? (fun x =>
    x.2.action == 6 && x.2.result == tag && x.2.b == srcRole && !(j.run x.1).complete)

/-- Have all blocks of a RECV landed and been released? -/
def State.recvReady (s : State) (c : Nat) (j : Job) (e : Nat) (h : HoistE) : Bool × Bool :=
  let n := ceilDiv (j.viewBytes c h.a h.mb) 4096
  let all := (List.range n).all (fun k => j.landed.contains (e, k))
  (all, all && s.tensorReady c j h.a h.mb)

/-- A RECV that has launched completes when every tub has landed and been released (Table 5.5). -/
def State.tryRecvs (s : State) (c : Nat) : State :=
  match s.job? c with
  | none => s
  | some j =>
    s.each ((List.range j.entries.length).zip j.entries) (fun u x =>
      u.on (x.2.action == 6 && (j.run x.1).started && !(j.run x.1).complete && (u.recvReady c j x.1 x.2).2)
        (fun v => v.unitDone c x.1))

/-- The stope whose buffer an address of region 0b10 lies in: the claim's in-service stope of that ordinal (R202, R203). -/
def State.bufferStope (s : State) (c addr : Nat) : Option Nat :=
  if bits addr 47 46 = 2 then
    ((s.claimStopes c).filterMap (fun l => if s.serving l < 1056 then some (s.serving l) else none))[bits addr 31 22]?
  else none

/-- Blocks land in the tensor that the RECV names and wait for their notice (R348); in a stope's landing area each holds its landing
credit until it is released or discarded (R351). -/
def State.landNow (s : State) (c e : Nat) (h : HoistE) (first : Nat) (blocks : List (List Byte)) : State :=
  match s.job? c with
  | none => s
  | some j =>
    let v := j.view c h.a h.mb
    let size := j.viewBytes c h.a h.mb
    let stope := s.bufferStope c v.base
    let s1 := s.each ((List.range blocks.length).zip blocks) (fun u x =>
      let off := 4096 * (first + x.1)
      if size ≤ off then u
      else
        let u1 := u.wrBytes c (v.base + off) (x.2.take (min 4096 (size - off)))
        let u2 := u1.setMark c (v.base + off) { u1.mark c (v.base + off) with pending := some 0 }
        match stope with
        | none => u2
        | some p => { u2 with mesh := u2.mesh ++
            [{ plane := 0, src := p, dst := p, claim := c, entry := e, kind := 3, tag := [v.base + off], blocks := 1, phase := 2 }] })
    (s1.modJob c (fun k => { k with landed := k.landed ++ (List.range blocks.length).map (fun i => (e, first + i)) })).tryRecvs c

/-- Blocks that wait in the drift's buffers land once their stope has granted them credits (R351). -/
def State.landHeld (s : State) : State :=
  s.each s.casc.held (fun u x =>
    match u.mesh.find? (fun q => q.claim == x.claim && q.kind == 3 && q.tag == [x.tag, x.srcRole, x.first] && q.phase == 1) with
    | none => u
    | some q =>
      match (u.job? x.claim).bind (fun j => j.entries[q.entry]?) with
      | none => u
      | some h =>
        let w : State := { u with mesh := u.mesh.erase q, casc := { u.casc with held := u.casc.held.erase x } }
        w.landNow x.claim q.entry h x.first x.blocks)

/-- Blocks of a TENSOR message arrive (R348): in a tier they land at once, in a stope's landing area when it grants a credit for
each of them (R351). -/
def State.landBlocks (s : State) (c tag srcRole first : Nat) (blocks : List (List Byte)) : State :=
  match s.job? c with
  | none => s
  | some j =>
    match j.landing tag srcRole with
    | none => s
    | some (e, h) =>
      match s.bufferStope c (j.view c h.a h.mb).base with
      | none => s.landNow c e h first blocks
      | some p =>
        (s.each (List.range (ceilDiv blocks.length 8)) (fun u k =>
          let part := (blocks.drop (8 * k)).take 8
          let held : List HeldBlocks := u.casc.held ++ [{ claim := c, tag := tag, srcRole := srcRole, first := first + 8 * k, blocks := part }]
          State.meshSend { u with casc := { u.casc with held := held } }
            { plane := 0, src := p, dst := p, claim := c, entry := e, kind := 3, tag := [tag, srcRole, first + 8 * k], blocks := part.length, phase := 0 })).landHeld

/-- SEND (R308). The blocks that leave are sound, and a SOUND notice follows them to the member (R349). A role that this
member itself holds is served without a drift. -/
def State.sendHoist (s : State) (c e : Nat) : State :=
  match s.hoistFor c e 5 with
  | none => s
  | some (j, h) =>
    if !s.operandReady c j e h h.a h.mb then s.waitRun c e h
    else
      let size := j.viewBytes c h.a h.mb
      let v := j.view c h.a h.mb
      let blocks := (List.range (ceilDiv size 4096)).map (fun k => s.rdBytes c (v.base + 4096 * k) 4096)
      let s0 := (s.readsTensor c e h.a h.mb h.serve).startRun c e h (ceilDiv blocks.length 8)
      match s.roleEntry h.b with
      | none => s0
      | some r =>
        if r.member = s.memberNo then (s0.landBlocks c h.result j.role 0 blocks).hoistDone c e
        else
          let s1 := s0.sendBlocks 7 c r j.role h.result (h.target % 4096) blocks (some (c, e))
          s1.sendMsg { OutMsg.plain 4 r.member [1, 1, 0, c, h.result, h.mb, 0, blocks.length, s.memberNo * 4096, s.epoch] with
                       destRole := r.member * 16 + 1 }

/-- SEND (R308). -/
def execSend (c e : Nat) (s : State) : Out := perform (.send c e) s (s.sendHoist c e)

/-- RECV (R183): tubs that have not all landed at its launch make the step unsound with LATE_RECV. -/
def State.recvHoist (s : State) (c e : Nat) : State :=
  match s.hoistFor c e 6 with
  | none => s
  | some (j, h) =>
    let ready := s.recvReady c j e h
    let s1 := s.startRun c e h 1
    if ready.2 then s1.unitDone c e
    else if ready.1 then s1
    else
      let late := match s1.roleEntry h.b with
        | some r => s1.chargeLate r.member s1.slotNo
        | none => s1
      late.unsound c 3 e

/-- RECV (R183). -/
def execRecv (c e : Nat) (s : State) : Out := perform (.recv c e) s (s.recvHoist c e)

/-! ### REDUCE -/

/-- Level, ROOT and TREE of a REDUCE (R329). -/
def HoistE.level (h : HoistE) : Nat := bits h.mb 4 0
def HoistE.root (h : HoistE) : Bool := bit h.mb 5
def HoistE.tree (h : HoistE) : Nat := bits h.mb 6 6

/-- Replicas and widening of a cascade job: the largest index held, plus one (R327). -/
def State.replicas (s : State) (j : Job) : Nat :=
  s.casc.roles.foldl (fun a (r : RoleEntry) =>
    if bits r.role 31 26 = j.number ∧ bits r.role 3 0 = 0 then max a (bits r.role 15 4 + 1) else a) (bits j.role 15 4 + 1)
def State.widening (s : State) (j : Job) : Nat :=
  s.casc.roles.foldl (fun a (r : RoleEntry) =>
    if bits r.role 31 26 = j.number ∧ bits r.role 3 0 = 0 then max a (bits r.role 25 22 + 1) else a) (bits j.role 25 22 + 1)

/-- First element and number of elements of OPND_A within the tensor that its tree is over. -/
def Job.span (j : Job) (t : TensorD) : Nat × Nat :=
  let b := j.container t
  if t.fmt = fmtRaw then ((t.addr - b.addr) / 8, t.bytes / 8)
  else
    let w := if t.fmt = fmtF32 then 4 else 2
    let cols := if t.fmt = fmtB16 then ceilDiv b.dim1 32 * 32 else b.dim1
    let off := (t.addr - b.addr) / w
    (off / max 1 cols * b.dim1 + off % max 1 cols, t.dim0 * t.dim1)

/-- Local node of an element at a level, from the member's own contributions to the gathering (R149). -/
def State.localNode (s : State) (c : Nat) (j : Job) (d : LayerD) (x : TreeCtx) (level pos elem : Nat) : Node :=
  let base := bits j.role 15 4 * j.desc.micro
  let v := j.view c d.dwT 0
  let leaves := (List.range (2 ^ level)).map (fun i =>
    let g := pos * 2 ^ level + i
    if base ≤ g ∧ g < base + j.desc.micro then
      leafNode (s.elem (j.view c d.dwT (g - base)) (elem / max 1 v.cols) (elem % max 1 v.cols))
    else .zero)
  treeRoot x elem 0 level (pos * 2 ^ level) leaves

/-- What a REDUCE works on: draws, position of the local node, nodes at its level, first element and local nodes. -/
structure Gather where
  ctx   : TreeCtx
  pos   : Nat
  count : Nat
  first : Nat
  nodes : List Node
deriving DecidableEq, Repr

def State.gather (s : State) (c : Nat) (j : Job) (h : HoistE) (d : LayerD) (t : TensorD) : Gather :=
  let sp := j.span t
  let dx := match j.entries.find? (fun x => x.action == 2 && x.layer == h.layer) with | some x => x.result | none => h.a
  let ctx := s.treeCtx c j (if h.tree = 1 then d.dwT else dx) h.tree
  let leaves := 2 ^ log2Up (ceilDiv d.outputs 64)
  let pos := if h.tree = 1 then bits j.role 15 4 * j.desc.micro / 2 ^ h.level else bits j.role 25 22 * leaves / 2 ^ h.level
  let total := if h.tree = 1 then 2 ^ log2Up (s.replicas j * j.desc.micro) else leaves * s.widening j
  let nodes := (List.range sp.2).map (fun i =>
    if t.fmt = fmtRaw then Node.ofWord (s.rdNat c (t.addr + 8 * i) 8)
    else s.localNode c j d ctx h.level pos (sp.1 + i))
  { ctx := ctx, pos := pos, count := total / 2 ^ h.level, first := sp.1, nodes := nodes }

/-- Nodes combined with the partner's at the next level (R329 step 3): the node at the even position is a. -/
def Gather.combined (g : Gather) (level : Nat) (other : List Node) : List Node :=
  (List.range g.nodes.length).map (fun i =>
    let mine := nth .zero g.nodes i
    let them := nth .zero other i
    if g.pos % 2 = 0 then combine g.ctx (level + 1) (g.first + i) (g.pos / 2) mine them
    else combine g.ctx (level + 1) (g.first + i) (g.pos / 2) them mine)

/-- The converted gathering of a slice of Dw (R149): binary32, then the Dw format. -/
def State.putGathered (s : State) (c e : Nat) (j : Job) (h : HoistE) (d : LayerD) (l : List Node) : State :=
  let f := j.dwForm d.layer
  let v := j.viewIn c h.result 0 f
  let ys := l.map rootWord
  let w := (List.range v.rows).foldl (fun (a : State × Put) r =>
    let x := a.1.putRow v r 0 ((ys.drop (r * v.cols)).take v.cols)
    (x.1.parkRow v r 0, a.2.add x.2)) (s.setJob c (j.noteForm h.result 0 f), Put.none)
  let s1 := w.1.modJob c (fun k => k.modStat d.layer (fun y => { y with dw := y.dw.add w.2.stat }))
  s1.on w.2.ovf (fun u => u.overflows c e d.layer kindDw f.fmt)

/-- Drain one element of an input gradient: a result that is no kind of a layer has no statistics (R136). -/
def State.drainElem (s : State) (c e : Nat) (h : HoistE) (layer kind : Nat) (f : Fmt) (row col y : Nat) : State :=
  match s.job? c with
  | none => s
  | some j =>
    let v := j.viewIn c h.result 0 f
    let w := (s.setJob c (j.noteForm h.result 0 f)).putElem v row col y
    let s1 := (w.1.parkRow v row 0).modJob c (fun k => if kind = kindGz then k.modStat layer (fun z => { z with gz := z.gz.add w.2.stat }) else k)
    s1.on w.2.ovf (fun u => u.overflows c e layer kind f.fmt)

/-- The stash of the layer below that the drain of a divided input gradient reads: that of the earliest micro-batch which still
holds its output planes. -/
def Job.drainStash (j : Job) (b : LayerD) : Option Stash :=
  if b.planesRead then j.stashes.find? (fun y => y.layer == b.layer && (y.outHeld || y.posHeld)) else some (j.formStash b 0 [])

/-- Does a ROOT of tree 0 of a layer other than entry e still have to drain? -/
def Job.drainsLeft (j : Job) (e layer : Nat) : Bool :=
  ((List.range j.entries.length).zip j.entries).any (fun x =>
    x.1 != e && x.2.action == 7 && x.2.layer == layer && bit x.2.mb 5 && !bit x.2.mb 6 && !(j.run x.1).complete)

/-- The drain of an input gradient whose contraction the members divided (R102, R329): element by element. The last one of the
layer frees the planes that the drains have read (R225). -/
def State.putReducedDx (s : State) (c e : Nat) (j : Job) (h : HoistE) (d : LayerD) (first : Nat) (l : List Node) : State :=
  match j.below d with
  | none =>
    let k := j.dxKind e h
    s.each ((List.range l.length).zip l) (fun u x =>
      u.drainElem c e h k.2.1 k.1 k.2.2 ((first + x.1) / max 1 d.inputs) ((first + x.1) % max 1 d.inputs) (rootWord x.2))
  | some b =>
    match j.drainStash b with
    | none => s
    | some y =>
      let s1 := s.each ((List.range l.length).zip l) (fun u x =>
        let win := (first + x.1) / max 1 d.inputs
        let col := (first + x.1) % max 1 d.inputs
        u.each (List.range (max 1 b.pool)) (fun w k =>
          w.drainElem c e h b.layer kindGz (j.gzForm b.layer) (win * max 1 b.pool + k) col (drainDx b y win k col (rootWord x.2))))
      s1.on (b.planesRead && !j.drainsLeft e h.layer) (fun u => u.freeStash c b.layer y.mb false true)

/-- REDUCE (R329). `words` are the partner's node words; where the partner's position lies beyond the padded count, its
node is zero and nothing is exchanged. -/
def State.reduceHoist (s : State) (c e : Nat) (words : List Nat) : State :=
  match s.hoistFor c e 7 with
  | none => s
  | some (j, h) =>
    match j.layer? h.layer, j.tensor? h.a, j.tensor? h.result with
    | some d, some t, some res =>
      let g := s.gather c j h d t
      let partner := if g.pos % 2 = 0 then g.pos + 1 else g.pos - 1
      let alone := decide (g.count ≤ partner)
      if !s.operandReady c j e h h.a 0 ∨ (!alone ∧ words.length ≠ g.nodes.length) then s.waitRun c e h
      else
        let s0 := (s.readsTensor c e h.a 0 h.serve).startRun c e h 1
        let bytes := g.nodes.flatMap (fun n => leBytes 8 n.word)
        let blocks := (List.range (ceilDiv bytes.length 4096)).map (fun k => (bytes.drop (4096 * k)).take 4096)
        let s1 := match s.roleEntry h.b with
          | some r => s0.on (!alone) (fun u => u.sendBlocks 7 c r j.role h.result (h.target % 4096) blocks none)
          | none => s0
        let l := g.combined h.level (if alone then [] else words.map Node.ofWord)
        let j1 := (s1.job? c).getD j
        let s2 := if !h.root then s1.putNodes c res.addr 0 l
          else if h.tree = 1 then s1.putGathered c e j1 h d l
          else s1.putReducedDx c e j1 h d g.first l
        s2.unitDone c e
    | _, _, _ => s

/-- REDUCE (R329). -/
def execReduce (c e : Nat) (words : List Nat) (s : State) : Out := perform (.reduce c e words) s (s.reduceHoist c e words)

/-! ### Messages -/

/-- A message that fails its tag or MSEQ check (R309, R330): the eighth from a member within 1 s quarantines the port,
and the member's messages are dropped until its links authenticate again. -/
def State.rejectMsg (s : State) (n : Nat) (m : Message) : State :=
  let recent := (s.peer m.src).rejects.filter (fun t => decide (s.osc < t + 1000000000)) ++ [s.osc]
  let s1 := ((s.count (Page.DRF n) Reg.DRF.REPLAYS 6 1).modPeer m.src (fun p => { p with rejects := recent })).record 0x6004
    (Src.drift n) none (items [m.src, m.key, m.mseq])
  if recent.length < 8 then s1
  else (s1.modPeer m.src (fun p => { p with dropped := true })).quarantine n (s1.peer m.src).identity 3

/-- A message for a role that this member does not hold at its epoch (R326). -/
def State.staleRole (s : State) (n : Nat) (m : Message) : State :=
  let now := (s.roleEntry m.destRole).getD { role := m.destRole, member := 0xFFF, epoch := 0 }
  let s1 := ((s.count (Page.DRF n) Reg.DRF.STALE_ROLES 7 1).raise (Page.DRF n) 4).record 0x6007 (Src.drift n) none
    (items [m.destRole, m.destEpoch, now.epoch])
  s1.sendMsg (OutMsg.plain 4 m.src [2, m.destRole, now.member, now.epoch, m.mseq])

/-- Content of a message without blocks as 8-byte words. -/
def contentWords (l : List Byte) : List Nat := (List.range (l.length / 8)).map (fun k => leNat ((l.drop (8 * k)).take 8))

/-- Halves of a claim's buddy area (R266). -/
def Job.buddyBase (j : Job) (half : Nat) : Nat := j.freezeBase + 4096 * j.imageBlocks * (1 + half)

/-- Blocks of a partner's checkpoint image land in the half of the claim's buddy area that holds no complete image; once all are
there and the header's check holds, the older image is discarded (R262). They stay under the role's checkpoint key (R391). A member hosts
only an image no larger than its own. -/
def State.hostBlocks (s : State) (m : Message) : State :=
  match s.job? m.key with
  | none => s
  | some j =>
    let key := s.ckptKey m.srcRole
    let old := (s.mill.hosting.find? (fun h => h.member == m.src && h.claim == m.key)).getD
      { member := m.src, role := m.srcRole, claim := m.key, whole := none, step := m.tag, got := [] }
    let half := match old.whole with | some 0 => 1 | _ => 0
    let base := j.buddyBase half
    let size := if m.first = 0 then slice (Config.xtsOpen key 0 (m.blocks.headD [])) 0x48 8 else 0
    if j.imageBlocks < size ∨ j.imageBlocks < m.first + m.blocks.length then s
    else
      let got0 := if old.step = m.tag then old.got else []
      let s1 := s.each ((List.range m.blocks.length).zip m.blocks) (fun u x => u.wrBytes m.key (base + 4096 * (m.first + x.1)) (x.2.take 4096))
      let got := (got0 ++ (List.range m.blocks.length).map (fun k => m.first + k)).eraseDups
      let head := (Config.xtsOpen key 0 (s1.rdBytes m.key base 4096)).take 256
      let whole := got.contains 0 && (List.range (slice head 0x48 8)).all (fun k => got.contains k) && slice head 0xFC 4 == crc32c (head.take 0xFC)
      let new : Hosted := { old with role := m.srcRole, whole := if whole then some half else old.whole, step := m.tag, got := if whole then [] else got }
      ({ s1 with mill := { s1.mill with hosting := s1.mill.hosting.filter (fun (h : Hosted) => !(h.member == m.src && h.claim == m.key)) ++ [new] } }).setFld
        (Page.MIL 0) Reg.MIL.MILL_STATE 4 4 1

/-- A member asks for the image of a role that this one hosts: its blocks go out as they stand (R331). -/
def State.giveImage (s : State) (m : Message) : State :=
  let w := contentWords m.content
  match s.job? m.key, s.mill.hosting.find? (fun h => h.claim == m.key && h.role == nth 0 w 2) with
  | some j, some h =>
    match h.whole with
    | none => s
    | some half =>
      let blocks := (List.range j.imageBlocks).map (fun k => s.rdBytes m.key (j.buddyBase half + 4096 * k) 4096)
      s.sendBlocks 8 m.key { role := m.src * 16 + 1, member := m.src, epoch := 0 } h.role (nth 0 w 1) 0 blocks none
  | _, _ => s

/-- Blocks of the image that this member has asked for are decrypted into claim memory (R331, R391): into the claim's freeze area, from
where IMAGE_FETCH_DONE names them; the spec does not say where they land (log 90). -/
def State.takeImage (s : State) (m : Message) : State :=
  match s.job? m.key with
  | none => s
  | some j => s.each ((List.range m.blocks.length).zip m.blocks) (fun u x =>
      if j.imageBlocks ≤ m.first + x.1 then u
      else u.wrBytes m.key (j.freezeBase + 4096 * (m.first + x.1)) ((Config.xtsOpen (u.ckptKey j.role) (m.first + x.1) x.2).take 4096))

/-- A CKPT message: a request for an image, an image that this member has asked for, or blocks of an image to host. -/
def State.ckptMessage (s : State) (m : Message) : State :=
  let mine := match s.job? m.key with | some j => j.role == m.srcRole && s.casc.restarts.any (fun e => e.1 == j.number) | none => false
  if m.blocks = [] then s.giveImage m else if mine then s.takeImage m else s.hostBlocks m

/-- Content of an accepted message. Notices, joins, routes, role moves and seal traffic act by their own commands. -/
def State.deliver (s : State) (m : Message) : State :=
  if m.cls = 7 then s.landBlocks m.key m.tag m.srcRole m.first m.blocks
  else if m.cls = 8 then s.ckptMessage m
  else if m.cls = 5 then s.hearRole (contentWords m.content)
  else s

/-- The claim-relative address at which a message's blocks would land, 0 where no RECV names it. -/
def State.landingAddr (s : State) (m : Message) : Nat :=
  match (s.job? m.key).bind (fun j => (j.landing m.tag m.srcRole).map (fun x => (j.view m.key x.2.a x.2.mb).base + 4096 * m.first)) with
  | some a => a
  | none => 0

/-- A block check of a message fails (R341): the source sends the message again; the fourth failure is a check failure, charged to
the port, with event 0x7003 (hop 3, log 85). -/
def State.failedArrival (s : State) (n : Nat) (m : Message) : State :=
  let key := m.src * 2 ^ 64 + m.mseq
  let fails := Sparse.get 0 s.casc.hopFails key + 1
  let s1 := { s with casc := { s.casc with hopFails := Sparse.set 0 s.casc.hopFails key fails } }
  (s1.count Page.INT Reg.INT.HOP_FAILS 3 1).on (decide (fails = 4)) (fun u =>
    (u.unsound m.key 2 0xFFFFFFFF).record 0x7003 (Src.drift n) (some (m.key % 64)) (items [3, u.landingAddr m, m.key, 5]))

/-- MESSAGE_RECEIVE (R309). -/
def State.messageReceive (s : State) (n : Nat) (m : Message) : State :=
  let key := m.key * 4096 + m.src
  let seen := Sparse.get [] s.casc.gotSeq key
  let top := seen.foldl max 0
  if (s.peer m.src).dropped ∨ m.cls < 4 ∨ 8 < m.cls then s
  else if !m.tagOk ∨ m.mseq + 64 ≤ top ∨ seen.contains m.mseq then s.rejectMsg n m
  else if m.epoch ≠ s.epoch then s.count (Page.DRF n) Reg.DRF.REPLAYS 6 1
  else if !m.checksOk then s.failedArrival n m
  else if m.cls = 5 ∧ m.headEpoch < s.casc.heardEpoch then
    (s.modPeer m.src (fun p => { p with dropped := true })).quarantine n (s.peer m.src).identity 4
  else
    let s1 := { s with casc := { s.casc with
      gotSeq := Sparse.set [] s.casc.gotSeq key ((seen ++ [m.mseq]).filter (fun q => decide (max top m.mseq < q + 64))) } }
    let s2 := s1.on (m.cls == 5) (fun u => u.heardHead m.headEpoch)
    if !s2.holdsRole m.destRole m.destEpoch then s2.staleRole n m else s2.deliver m

/-- MESSAGE_RECEIVE (R309). -/
def execMessageReceive (port : Nat) (m : Message) (s : State) : Out :=
  perform (.messageReceive port m) s (s.messageReceive port m)

/-- STALE_ROLE_REPLY (R326): the message is sent once more to the current holder while its hoist is not complete. -/
def State.staleReply (s : State) (r : RoleEntry) (mseq : Nat) : State :=
  let s1 := { s with casc := { s.casc with roles := mergeRoles s.casc.roles [r] } }
  match s1.casc.sent.find? (fun m => m.destRole == r.role && m.mseq == mseq) with
  | none => s1
  | some m =>
    let gone : Bool := match m.origin with
      | some (c, e) => match s1.job? c with | some j => (j.run e).complete | none => true
      | none => false
    if gone ∨ s1.casc.resent.contains mseq then s1
    else
      let s2 := { s1 with casc := { s1.casc with resent := s1.casc.resent ++ [mseq, s1.nextMseq m.key r.member] } }
      s2.sendMsg { m with dest := r.member, destEpoch := r.epoch }

/-- STALE_ROLE_REPLY (R326). -/
def execStaleRoleReply (port : Nat) (r : RoleEntry) (mseq : Nat) (s : State) : Out :=
  perform (.staleRoleReply port r mseq) s (s.staleReply r mseq)

/-! ### The mill bridge -/

/-- BRIDGE_BLOCK (R236): each resend counts; a block whose check fails a fourth time does not become ready, and the step
is unsound. -/
def execBridgeBlock (c addr fails : Nat) (s : State) : Out :=
  perform (.bridgeBlock c addr fails) s
    (let s1 := s.count (Page.MIL 0) Reg.MIL.BRIDGE_RETRIES 4 (min 3 fails)
    if fails < 4 then s1
    else ((s1.setMark c addr { s1.mark c addr with pending := some 2 }).unsound c 2 0xFFFFFFFF).record 0x7003 (Src.mill 0) (some c)
      (items [1, addr / 4096 * 4096, c, 5]))

end Sys2Proof.Machine
end

