-- ==== Sys2Proof/Machine/Mill.lean ====
section
/-!
DEFINITION. The mill (chapter 7): master sets and their storage, pushes and the step count, update arithmetic, projection
to levels and write lists, checkpoint images, and resynchronisation.
-/

namespace Sys2Proof.Machine

/-! ### Sets -/

/-- Index of the set that a descriptor tensor names (R237). -/
def Job.setIx (j : Job) (t : Nat) : Option Nat := j.sets.findIdx? (fun d => d.id == t)

/-- A set's state before anything is committed (R265). -/
def SetS.fresh (n : Nat) : SetS :=
  { cur := 0, skipped := false, resync := false, next := n, steps := 0, p1 := 0x3F800000, p2 := 0x3F800000, writes := 0, held := 0
    lastL := [], pushed := false, staged := false, sSkip := false, sP1 := 0x3F800000, sP2 := 0x3F800000, sWrites := 0
    sHeld := 0, sL := [], rowsStaged := [], rowsLast := [] }

/-- Change the state of a set. -/
def State.modSet (s : State) (c ix : Nat) (f : SetS → SetS) : State :=
  s.modJob c (fun j => match j.sstate[ix]? with | some x => { j with sstate := setNth j.sstate ix (f x) } | none => j)

/-! ### Embedding rows -/

/-- The current slot of a row (R243): the greatest STAMP that does not exceed NEXT, slot 0 where both are equal. -/
def State.rowSlot (s : State) (c : Nat) (d : SetD) (next r : Nat) : Nat :=
  let a := s.rdNat c (d.slotAt r 0) 8
  let b := s.rdNat c (d.slotAt r 1) 8
  if next < a then 1 else if next < b then 0 else if a < b then 1 else 0

/-- Records of a row list (R244): row and address of its values, or the reason why the list is refused (R248): 1 rows
unsorted or repeated, 2 a row at or beyond ROWS, 3 the record layout, the zeros after the last record among it; with the record's
index. -/
def State.rowList (s : State) (c : Nat) (d : SetD) (base bytes : Nat) : Nat → Nat → Nat → Option Nat → List (Nat × Nat) →
    Except (Nat × Nat) (List (Nat × Nat))
  | 0, ix, pos, _, acc =>
    if (s.rdBytes c (base + pos) (roundBlock pos - pos)).all (· == 0) then .ok acc.reverse else .error (3, ix - 1)
  | left + 1, ix, pos, last, acc =>
    let size := 8 + 4 * d.dim
    let at_ := if 4096 < size ∨ 4096 < pos % 4096 + size then roundBlock pos else pos
    let gap := (s.rdBytes c (base + pos) (at_ - pos)).all (· == 0)
    let row := s.rdNat c (base + at_) 4
    if bytes < at_ + size ∨ !gap ∨ s.rdNat c (base + at_ + 4) 4 ≠ 0 then .error (3, ix)
    else if d.rows ≤ row then .error (2, ix)
    else if (match last with | some l => decide (row ≤ l) | none => false) then .error (1, ix)
    else
      let next := if 4096 < size then roundBlock (at_ + size) else at_ + size
      State.rowList s c d base bytes left (ix + 1) next (some row) ((row, base + at_ + 8) :: acc)

/-- The row list of a gradient tensor instance. -/
def State.gradRows (s : State) (c : Nat) (j : Job) (d : SetD) (t m : Nat) : Except (Nat × Nat) (List (Nat × Nat)) :=
  match j.tensor? t with
  | none => .error (3, 0)
  | some x =>
    let base := x.at_ m
    let count := s.rdNat c base 8
    if d.rows < count then .error (1, d.rows) else s.rowList c d base x.bytes count 0 8 none []

/-! ### Pushes -/

/-- Stage an event of the mill for the sources that see a claim (R270). -/
def State.stageMil (s : State) (c evBit : Nat) : State :=
  s.wrB (claimBank c) (Page.MIL 0) Reg.HDR.EVT_FLAG (s.rdB (claimBank c) (Page.MIL 0) Reg.HDR.EVT_FLAG ||| 2 ^ evBit)

/-- Latch an event of the mill for the sources that see a claim. -/
def State.raiseMil (s : State) (c evBit : Nat) : State :=
  s.each [Source.portA, Source.portB, Source.monitor] (fun u src =>
    u.each (List.range 4) (fun w i =>
      let r := w.roleOf src
      let shown := if r = 1 then w.sessClaim src == c
        else (r == 2 || r == 3) && w.fld (Page.MIL 0) Reg.MIL.CLAIM_SELECT 5 0 == c
      w.on shown (fun x => (x.raiseFor src (Page.MIL i) evBit).noteLive (Page.MIL i) (2 ^ evBit))))

/-- Set index of a record of the mill that concerns no one set (R268 states none, log 78). -/
abbrev noSet : Nat := 0xFFF

/-- A record of the mill with its claim and set index (R268). -/
def State.millRec (s : State) (code c ix : Nat) (l : List Nat) : State :=
  s.record code (Src.mill 0) (some c) (items l ++ [it 0xF4 ix])

/-- A push or a row withheld for its step number (R245, R246). -/
def State.mismatch (s : State) (c ix n next row entry : Nat) : State :=
  (((s.countB c (Page.MIL 0) Reg.MIL.MISMATCHES 8 1).millRec 0x4001 c ix [n, next, row]).stageMil c 2).unsound c 7 entry

/-- Has another entry pushed the set already in the step slot, be it accepted, refused or withheld (R248)? -/
def Job.pushedBy (j : Job) (e t : Nat) : Bool :=
  ((List.range j.entries.length).zip j.entries).any (fun x => x.1 != e && x.2.action == 8 && x.2.result == t && (j.run x.1).started)

/-- MILL_PUSH (R244): the push goes to the mill and waits for its blocks; a second push of a set in a slot is refused
(R248, reason 4). -/
def State.millPush (s : State) (c e : Nat) : State :=
  match s.hoistFor c e 8 with
  | none => s
  | some (j, h) =>
    match j.setIx h.result with
    | none => s
    | some ix =>
      let s0 := (s.readsTensor c e h.a h.mb h.serve).startRun c e h 1
      if j.pushedBy e h.result then s0.millRec 0x4002 c ix [4, e, 0xFFFFFFFF]
      else { s0 with mill := { s0.mill with waiting := s0.mill.waiting ++ [(c, e, ix)] } }

/-- MILL_PUSH (R244). -/
def execMillPush (c e : Nat) (s : State) : Out := perform (.millPush c e) s (s.millPush c e)

/-- Does the first accepted push wait for a freeze (R261)? -/
def State.frozenOut (s : State) : Bool :=
  match s.mill.queue with
  | [] => true
  | (c, _, _, n) :: _ => s.mill.freezing.any (fun f => f.1 == c && decide (f.2 + 2 ≤ n))

/-- Show the update under way, which SET_UPDATE ends, and the pushes accepted and not yet taken (MIL.MILL_STATE, log 78). -/
def State.showQueued (s : State) : State :=
  let busy := if s.frozenOut then 0 else 1
  (s.setFld (Page.MIL 0) Reg.MIL.MILL_STATE 0 0 busy).setFld (Page.MIL 0) Reg.MIL.MILL_STATE 15 8 (min 255 (s.mill.queue.length - busy))

/-- Does a dense push name the layer's contributions, one instance to a micro-batch? The member then gathers them as it takes
the push (R149, R244; log 46); a gathering across replicas is REDUCE's, whose result is a tensor of its own. -/
def Job.gathers (j : Job) (l : LayerD) (t : Nat) : Bool :=
  t == l.dwT && decide (1 < j.desc.micro) && (match j.tensor? t with | some x => decide (x.stride ≠ 0) | none => false)

/-- Words converted to a format of Dw and read back, block by block from a column that is a multiple of 32, with their
statistics and overflow. -/
def throughForm (f : Fmt) (ys : List Nat) : List Nat × Put :=
  match f.fmt with
  | 1 => let gs := ys.map (fun y => (y, toG16 5 10 f.beta y))
    (gs.map (fun g => encSigned (ofG16 5 10 f.beta g.2.code))
    , gs.foldl (fun a g => a.add { stat := statOf f.beta g.2.under g.1, ovf := g.2.ovf, clamps := 0 }) Put.none)
  | 2 => let gs := ys.map (fun y => (y, toG16 8 7 f.beta y))
    (gs.map (fun g => encSigned (ofG16 8 7 f.beta g.2.code))
    , gs.foldl (fun a g => a.add { stat := statOf f.beta g.2.under g.1, ovf := g.2.ovf, clamps := 0 }) Put.none)
  | 3 =>
    (List.range (ceilDiv ys.length 32)).foldl (fun (a : List Nat × Put) k =>
      let zs := (ys.drop (32 * k)).take 32
      let b := toB16 f.beta (zs ++ List.replicate (32 - zs.length) 0)
      (a.1 ++ (List.range zs.length).map (fun i => encSigned (ofB16 b.e f.beta (nth 0 b.ms i)))
      , a.2.add { stat := (zs.zip b.under).foldl (fun z x => z.add (statOf f.beta x.2 x.1)) KindStat.none, ovf := b.ovf, clamps := 0 })) ([], Put.none)
  | _ => (ys, ys.foldl (fun a y => a.add { stat := statOf 0 false y, ovf := false, clamps := 0 }) Put.none)

/-- Gathered gradient of a layer in columns col to col + n − 1 of a row, as the Dw format keeps it (R149). -/
def State.gatheredRow (s : State) (c : Nat) (j : Job) (l : LayerD) (row col n : Nat) : List Nat × Put :=
  let x := s.treeCtx c j l.dwT 1
  let level := log2Up (s.replicas j * j.desc.micro)
  throughForm (j.dwForm l.layer) ((List.range n).map (fun i => rootWord (s.localNode c j l x level 0 (row * l.outputs + col + i))))

/-- Gradient that a dense push holds, in columns of a row. -/
def State.gradRow (s : State) (c : Nat) (j : Job) (l : LayerD) (h : HoistE) (row col n : Nat) : List Nat :=
  if j.gathers l h.a then (s.gatheredRow c j l row col n).1
  else (List.range n).map (fun i => encSigned (s.elem (j.view c h.a h.mb) row (col + i)))

/-- Does the gathered gradient of a dense layer hold a nonzero value (R156)? -/
def State.gradNonzero (s : State) (c : Nat) (j : Job) (l : LayerD) (h : HoistE) : Bool :=
  (List.range (l.inputs + (if l.bias then 1 else 0))).any (fun r => (s.gradRow c j l h r 0 l.outputs).any (fun y => !isZero32 y))

/-- What the gathering of a push converts: statistics and overflow over all of the layer's rows, the bias row included. -/
def State.gatheredPut (s : State) (c : Nat) (j : Job) (l : LayerD) : Put :=
  (List.range (l.inputs + (if l.bias then 1 else 0))).foldl (fun a r => a.add (s.gatheredRow c j l r 0 l.outputs).2) Put.none

/-- A push is accepted: its hoist completes (R244). -/
def State.acceptPush (s : State) (c e ix n : Nat) (j : Job) (h : HoistE) : State :=
  let s1 := { s with mill := { s.mill with queue := s.mill.queue ++ [(c, e, ix, n)] } }
  let s2 := ((s1.count (Page.MIL 0) Reg.MIL.PUSHES 5 1).showQueued).modSet c ix (fun x => { x with pushed := true })
  let s3 := match (j.sets[ix]?).bind j.setLayer with
    | some d =>
      let nz := s.gradNonzero c j d h
      s2.modJob c (fun k => k.modStat d.layer (fun y => { y with trained := true, gathered := true, nonzero := y.nonzero || nz }))
    | none => s2
  s3.unitDone c e

/-- Rows of an accepted embedding push whose STAMP exceeds n are withheld (R246). -/
def State.withheldRows (s : State) (c ix e n : Nat) (d : SetD) (x : SetS) (rows : List (Nat × Nat)) : State :=
  s.each (rows.filter (fun r => decide (n < s.rdNat c (d.slotAt r.1 (s.rowSlot c d x.next r.1)) 8)))
    (fun u r => u.mismatch c ix n x.next r.1 e)

/-- PUSH_ACCEPT (R244 to R248). -/
def State.pushAccept (s : State) (c ix : Nat) : State :=
  match s.mill.waiting.find? (fun w => w.1 == c && w.2.2 == ix), s.job? c with
  | some (_, e, _), some j =>
    match j.entries[e]?, j.sets[ix]?, j.sstate[ix]? with
    | some h, some d, some x =>
      let l := j.setLayer d
      let gathers := match l with | some l => d.kind == 0 && j.gathers l h.a | none => false
      let all := !gathers || (List.range j.desc.micro).all (fun m => s.tensorReady c j h.a m)
      if !s.operandReady c j e h h.a h.mb ∨ !all ∨ s.sealing.phase ≠ 0 then s
      else
        let s0 := { s with mill := { s.mill with waiting := s.mill.waiting.filter (fun w => !(w.1 == c && w.2.2 == ix)) } }
        let n := s.jobStep c
        if n ≠ x.next ∨ x.resync then s0.mismatch c ix n x.next 0xFFFFFFFF e
        else if d.kind = 0 then
          match l with
          | some l =>
            if gathers then
              let put := s0.gatheredPut c j l
              let s1 := s0.modJob c (fun k => k.modStat l.layer (fun y => { y with dw := y.dw.add put.stat }))
              if put.ovf then s1.overflows c e l.layer kindDw (j.dwForm l.layer).fmt else s1.acceptPush c e ix n j h
            else s0.acceptPush c e ix n j h
          | none => s0.acceptPush c e ix n j h
        else
          match s.gradRows c j d h.a h.mb with
          | .error (why, k) => s0.millRec 0x4002 c ix [why, e, k]
          | .ok rows => (s0.withheldRows c ix e n d x rows).acceptPush c e ix n j h
    | _, _, _ => s
  | _, _ => s

/-- PUSH_ACCEPT (R244). -/
def execPushAccept (c set : Nat) (s : State) : Out := perform (.pushAccept c set) s (s.pushAccept c set)

/-! ### Update arithmetic -/

/-- Learning rate of step n (R251). -/
def learnRate (knots : List (Nat × Nat)) (n : Nat) : Nat :=
  match knots with
  | [] => 0
  | (s0, e0) :: rest =>
    if n ≤ s0 then e0
    else
      let rec go (s e : Nat) : List (Nat × Nat) → Nat
        | [] => e
        | (s1, e1) :: t =>
          if n < s1 then
            let f := div32 (int32 ((n - s : Nat) : Int)) (int32 ((s1 - s : Nat) : Int))
            add32 e (mul32 f (sub32 e1 e))
          else go s1 e1 t
      go s0 e0 rest

/-- Is a master finite? -/
def isFin40 (w : Nat) : Bool := bits w 38 31 != 255

/-- A stored moment, widened: of a first-moment block, and of a second-moment block (R253). -/
def firstOf (e m : Nat) : Nat := encSigned (ofB16 e 0 m)
def secondOf (e m : Nat) : Nat := dy32 ⟨(m : Int), (e : Int) - 142⟩

/-- What an update of one mill block gives: masters, blocks of moments, and the first element whose sequence left the
finite values (R254). -/
structure MillBlock where
  th    : List Nat
  mom   : Block
  sec   : Block
  bad   : Option Nat
deriving DecidableEq, Repr

def Block.none : Block := { e := 0, ms := [], ovf := false, under := [] }

/-- Values of the per-set sequence of AdamW: P1′, P2′, c1, c2. -/
structure Adam where
  p1 : Nat
  p2 : Nat
  c1 : Nat
  c2 : Nat
deriving DecidableEq, Repr

def adamOf (d : SetD) (x : SetS) : Adam :=
  let p1 := mul32 x.p1 d.beta1
  let p2 := mul32 x.p2 d.beta2
  { p1 := p1, p2 := p2, c1 := sub32 0x3F800000 p1, c2 := sub32 0x3F800000 p2 }

/-- SGD with momentum on the real elements of a mill block (Table 7.5). -/
def sgdBlock (d : SetD) (eta : Nat) (gs ths bs : List Nat) : MillBlock :=
  let pre := (gs.zip (ths.zip bs)).map (fun x =>
    let w := mul32 d.lambda (narrow40 x.2.1)
    let g2 := add32 x.1 w
    (w, g2, fma32 d.beta1 x.2.2 g2))
  let blk := toB16 0 (pre.map (fun x => x.2.2) ++ List.replicate (64 - pre.length) 0)
  let post := ((List.range ths.length).zip ths).map (fun x =>
    let delta := mul32 eta (firstOf blk.e (nth 0 blk.ms x.1))
    (delta, sub40 x.2 delta))
  let ok := (pre.zip post).map (fun x => isFin32 x.1.1 && isFin32 x.1.2.1 && isFin32 x.1.2.2 && isFin32 x.2.1 && isFin40 x.2.2)
  { th := post.map (·.2), mom := blk, sec := Block.none
    bad := ((gs.zip ok).findIdx? (fun x => !(isFin32 x.1 && x.2))) }

/-- AdamW on the real elements of a mill block (Table 7.5). -/
def adamBlock (d : SetD) (a : Adam) (eta : Nat) (gs ths ms vs : List Nat) : MillBlock :=
  let b1c := sub32 0x3F800000 d.beta1
  let b2c := sub32 0x3F800000 d.beta2
  let pre := (gs.zip (ms.zip vs)).map (fun x =>
    let a1 := mul32 b1c x.1
    let a2 := mul32 x.1 x.1
    let a3 := mul32 b2c a2
    [a1, fma32 d.beta1 x.2.1 a1, a2, a3, fma32 d.beta2 x.2.2 a3])
  let pad := List.replicate (64 - pre.length) 0
  let mb := toB16 0 (pre.map (fun x => nth 0 x 1) ++ pad)
  let vb := toU16 (pre.map (fun x => nth 0 x 4) ++ pad)
  let post := ((List.range ths.length).zip ths).map (fun x =>
    let mh := div32 (firstOf mb.e (nth 0 mb.ms x.1)) a.c1
    let vh := div32 (secondOf vb.e (nth 0 vb.ms x.1)) a.c2
    let r := sqrt32 vh
    let dn := add32 r d.eps
    let u := div32 mh dn
    let w := mul32 d.lambda (narrow40 x.2)
    let sm := add32 u w
    let delta := mul32 eta sm
    ([mh, vh, r, dn, u, w, sm, delta], sub40 x.2 delta))
  let ok := (pre.zip post).map (fun x => x.1.all isFin32 && x.2.1.all isFin32 && isFin40 x.2.2)
  { th := post.map (·.2), mom := mb, sec := vb, bad := ((gs.zip ok).findIdx? (fun x => !(isFin32 x.1 && x.2))) }

/-- Update mill block k of a dense set from bank b into the other (R249, R252, R253). -/
def State.updateBlock (s : State) (c : Nat) (grad : Nat → Nat → Nat → List Nat) (d : SetD) (l : LayerD) (x : SetS) (eta k : Nat) : State × Option Nat :=
  let n := l.elements
  let row := 64 * k / l.padded
  let col := 64 * k % l.padded
  let live := min 64 (l.outputs - col)
  let st := 1 - x.cur
  let gs := (grad row col live).map (fun y => mul32 y d.gradScale)
  let ths := (List.range live).map (fun i => s.master c d n x.cur (64 * k + i))
  let mom (m : Nat) (f : Nat → Nat → Nat) : List Nat :=
    let p := d.momentAt n x.cur m
    let e := s.rdNat c (p.2 + k) 1
    (List.range live).map (fun i => f e (s.rdNat c (p.1 + 2 * (64 * k + i)) 2))
  let r := if d.opt = 0 then sgdBlock d eta gs ths (mom 0 firstOf) else adamBlock d (adamOf d x) eta gs ths (mom 0 firstOf) (mom 1 secondOf)
  let s1 := s.each ((List.range live).zip r.th) (fun u y => u.wrNat c (d.bankAt n st + 5 * (64 * k + y.1)) 5 y.2)
  let putMom (u : State) (m : Nat) (b : Block) : State :=
    let p := d.momentAt n st m
    (u.each ((List.range 64).zip b.ms) (fun w y => w.wrNat c (p.1 + 2 * (64 * k + y.1)) 2 y.2)).wrNat c (p.2 + k) 1 b.e
  let s2 := putMom s1 0 r.mom
  (s2.on (d.opt == 1) (fun u => putMom u 1 r.sec), r.bad.map (fun i => 64 * k + i))

/-! ### Projection (R255 to R259) -/

/-- Level range of a column block (R141, R256): 11 where a seam of its chain uses the 12-level plan or has it announced. -/
def State.levels (s : State) (j : Job) (d : LayerD) (cb : Nat) : Nat :=
  if (List.range d.rowBlocks).any (fun rb =>
      match j.seamAt d.layer cb rb with
      | none => false
      | some q => let a := s.arr (s.serving q.1) q.2; decide (s.serving q.1 < 1056) && (a.plan12 || a.announced))
  then 11 else 15

/-- Column gain: the largest |master| of the column over the input rows, divided by L (R141). -/
def State.projGain (s : State) (c : Nat) (d : SetD) (l : LayerD) (bank lv col : Nat) : Nat :=
  let m := (List.range l.inputs).foldl (fun (a : Dy) i =>
    match dec40 (s.master c d l.elements bank (i * l.padded + col)) with
    | .fin y => if a.lt y.abs then y.abs else a
    | _ => a) Dy.zero
  if m.m = 0 then 0 else encSigned ((Val.fin m).div (Val.fin (Dy.ofInt (lv : Int))))

/-- New level of a weight and whether hysteresis held it (R255). -/
def project (theta gain : Nat) (w : Int) (lv : Nat) (full : Bool) : Int × Bool :=
  match dec32 gain with
  | .fin g =>
    let th := match dec40 theta with | .fin y => y | _ => Dy.zero
    let e := min th.e g.e
    let num := th.m * pow2 (th.e - e)
    let den := (g.m * pow2 (g.e - e)).toNat
    let t := max (-(lv : Int)) (min (lv : Int) (rneDiv num den))
    let far := decide (3 * (den : Int) ≤ 4 * ((num - w * den).natAbs : Int))
    if full then (t, false) else if t ≠ w ∧ far then (t, false) else (w, decide (t ≠ w))
  | _ => (0, false)

/-- What a projection leaves: entries of write lists, weights held, L of each column block. -/
structure Projected where
  state  : State
  writes : Nat
  held   : Nat
  ls     : List Nat
deriving DecidableEq, Repr

/-- Blocks of a write list (Table 7.6): an empty list is one block. -/
def WriteList.blocks (w : WriteList) : Nat := max 1 (ceilDiv w.entries.length 1020)

/-- Block k of the write list of a logical stope, byte by byte (Table 7.6). -/
def WriteList.block (w : WriteList) (lp k : Nat) : List Byte :=
  let es := (w.entries.drop (1020 * k)).take 1020
  let flags := (if k + 1 = w.blocks then 1 else 0) + (if w.full then 2 else 0)
  leBytes 8 w.step ++ leBytes 2 lp ++ leBytes 2 es.length ++ leBytes 1 flags ++ leBytes 3 0 ++
    es.flatMap (fun e => leBytes 4 (e.1 + e.2.1 * 2 ^ 9 + e.2.2 * 2 ^ 18 + w.seam * 2 ^ 23)) ++ leBytes (4 * (1020 - es.length)) 0

/-- The blocks of a write list leave the mill bridge for a stope on plane 1, at the router of row 0 in the stope's own column
(R22, R258, Table 1.4; which column of row 0 the bridge takes is log 73). -/
def State.sendList (s : State) (p : Nat) (w : WriteList) : State :=
  s.each (List.range w.blocks) (fun u k => u.meshSend
    { plane := 1, src := p % 33, dst := p, claim := w.claim, entry := 0, kind := 2, tag := [w.seam, k], blocks := 1, phase := 0 })

/-- Give a stope a write list (R258); one of the same seam and step that it replaces is no longer delivered. -/
def State.giveList (s : State) (lp : Nat) (w : WriteList) : State :=
  let p := s.serving lp
  if 1056 ≤ p then s
  else
    let old (y : WriteList) : Bool := y.claim == w.claim && y.seam == w.seam && y.step == w.step
    let s1 := s.on ((s.stope p).lists.any old) (fun u =>
      u.meshDrop (fun q => q.kind == 2 && q.dst == p && q.claim == w.claim && q.tag.headD 31 == w.seam))
    (s1.modStope p (fun x => { x with lists := x.lists.filter (fun y => !old y) ++ [w] })).sendList p w

/-- Project one column block from a bank into an instance; `old` is the committed instance. The complete images are written: cells
beyond the layer's weights hold 0 (R257). -/
def State.projectBlock (s : State) (c : Nat) (j : Job) (ix : Nat) (d : SetD) (l : LayerD) (bank inst old : Nat) (all : Bool)
    (n cb : Nat) (lists : Bool) (a : Projected) : Projected :=
  let lv := s.levels j l cb
  let last := match j.sstate[ix]? with | some x => nth 0 x.lastL cb | none => 0
  let full := all || lv != last
  let cols := (List.range (min 512 (l.outputs - cb * 512))).map (fun q => cb * 512 + q)
  let news := cols.map (fun col =>
    let g := s.projGain c d l bank lv col
    (col, g, (List.range l.inputs).map (fun i =>
      let w := levelOf (s.codeAt c j l old i col)
      (w, project (s.master c d l.elements bank (i * l.padded + col)) g w lv full))))
  let s0 := a.state.each (List.range l.rowBlocks) (fun u rb =>
    let b := j.codesBase l inst (cb * l.rowBlocks + rb)
    u.zeroMem c b (b + 163840))
  let s1 := s0.each news (fun u x =>
    let u1 := match j.tensor? l.gainT with | some t => u.wrNat c (t.at_ inst + 4 * x.1) 4 x.2.1 | none => u
    u1.each ((List.range l.inputs).zip x.2.2) (fun w y =>
      w.wrCode c (j.codesBase l inst (cb * l.rowBlocks + y.1 / 512)) (y.1 % 512) (x.1 % 512) (codeOf y.2.2.1)))
  let entries (rb : Nat) : List (Nat × Nat × Nat) :=
    (List.range (min 512 (l.inputs - rb * 512))).flatMap (fun r =>
      news.filterMap (fun x =>
        match x.2.2[rb * 512 + r]? with
        | some y => if (if full then y.2.1 ≠ 0 else y.2.1 ≠ y.1) then some (r, x.1 % 512, codeOf y.2.1) else none
        | none => none))
  let send := (List.range l.rowBlocks).filterMap (fun rb =>
    match j.seamAt l.layer cb rb with
    | none => none
    | some q =>
      let es := entries rb
      if lists && (full || es != []) then
        some (q.1, ({ claim := c, step := n, seam := q.2, full := full, arrived := 0, applied := false, entries := es } : WriteList))
      else none)
  let s2 := s1.each send (fun u x => u.giveList x.1 x.2)
  let s3 := s2.on (full && !all) (fun u => u.millRec 0x4004 c ix [n, 2, cols.length])
  { state := s3, writes := a.writes + (send.map (fun x => x.2.entries.length)).foldl (· + ·) 0
    held := a.held + (news.map (fun x => (x.2.2.filter (fun y => y.2.2)).length)).foldl (· + ·) 0, ls := a.ls ++ [lv] }

/-- Project a dense set from a bank into an instance, with the biases narrowed (R255 to R259). -/
def State.projectSet (s : State) (c : Nat) (j : Job) (ix : Nat) (d : SetD) (l : LayerD) (bank inst old : Nat) (all : Bool) (n : Nat) : Projected :=
  let lists := !j.hewerOnly l.layer
  let p := (List.range l.colBlocks).foldl (fun a cb => s.projectBlock c j ix d l bank inst old all n cb lists a)
    { state := s, writes := 0, held := 0, ls := [] }
  let s1 := match (if l.bias then j.tensor? l.biasT else none) with
    | some t => p.state.each (List.range l.outputs) (fun u col =>
        u.wrNat c (t.at_ inst + 4 * col) 4 (narrow40 (s.master c d l.elements bank (l.inputs * l.padded + col))))
    | none => p.state
  { p with state := s1 }

/-- Copy bytes within a claim. -/
def State.copyMem (s : State) (c src dst n : Nat) : State := s.wrBytes c dst (s.rdBytes c src n)

/-- The committed masters, moments, codes, gains and biases go unchanged into the staged bank and instances (R254). -/
def State.copyCommitted (s : State) (c : Nat) (j : Job) (d : SetD) (l : LayerD) (cur : Nat) : State :=
  let n := l.elements
  let s1 := s.copyMem c (d.bankAt n cur) (d.bankAt n (1 - cur)) (d.bankBytes n)
  let s2 := match j.tensor? l.codesT with
    | some t => s1.copyMem c (t.at_ cur) (t.at_ (1 - cur)) (163840 * l.rowBlocks * l.colBlocks)
    | none => s1
  let s3 := match j.tensor? l.gainT with | some t => s2.copyMem c (t.at_ cur) (t.at_ (1 - cur)) (4 * l.outputs) | none => s2
  match (if l.bias then j.tensor? l.biasT else none) with
  | some t => s3.copyMem c (t.at_ cur) (t.at_ (1 - cur)) (4 * l.outputs)
  | none => s3

/-- A skip of R254: counted for the claim, recorded, and latched at the commit. -/
def State.noteSkip (s : State) (c ix n row elem : Nat) : State :=
  ((s.countB c (Page.MIL 0) Reg.MIL.SKIPS 9 1).millRec 0x4003 c ix [n, row, elem]).stageMil c 3

/-- Update of a dense set (R249 to R257). -/
def State.updateDense (s : State) (c ix n : Nat) (j : Job) (h : HoistE) (d : SetD) (l : LayerD) (x : SetS) : State :=
  let eta := learnRate d.knots n
  let a := adamOf d x
  let sets := d.opt = 0 ∨ [a.p1, a.p2, a.c1, a.c2].all isFin32
  let w := (List.range (l.elements / 64)).foldl (fun (acc : State × Option Nat) k =>
    let r := acc.1.updateBlock c (s.gradRow c j l h) d l x eta k
    (r.1, acc.2.orElse (fun _ => r.2))) (s, if sets then none else some 0)
  let p1 := if d.opt = 1 then a.p1 else x.p1
  let p2 := if d.opt = 1 then a.p2 else x.p2
  match w.2 with
  | some k =>
    let s1 := ((w.1.copyCommitted c j d l x.cur).tierTraffic true).noteSkip c ix n 0xFFFFFFFF k
    s1.modSet c ix (fun y => { y with staged := true, sSkip := true, sP1 := p1, sP2 := p2, sWrites := 0, sHeld := 0, sL := x.lastL })
  | none =>
    let p := w.1.projectSet c j ix d l (1 - x.cur) (1 - x.cur) x.cur false n
    (p.state.tierTraffic true).modSet c ix (fun y =>
      { y with staged := true, sSkip := false, sP1 := p1, sP2 := p2, sWrites := p.writes, sHeld := p.held, sL := p.ls })

/-- New slot of an embedding row (R243, R252, R254): accumulator and masters, or none where the row is skipped, with its
first element at fault. -/
def State.rowUpdate (s : State) (c : Nat) (d : SetD) (eta acc src slot : Nat) : Except Nat (Nat × List Nat) :=
  let gs := (List.range d.dim).map (fun i => mul32 (s.rdNat c (src + 4 * i) 4) d.gradScale)
  let ths := (List.range d.dim).map (fun i => s.rdNat c (slot + 16 + 5 * i) 5)
  let q := div32 (treeSum add32 (gs.map (fun g => mul32 g g))) (int32 (d.dim : Int))
  let acc1 := add32 acc q
  let r := sqrt32 acc1
  let dn := add32 r d.eps
  let out := (gs.zip ths).map (fun x =>
    let u := div32 x.1 dn
    let delta := mul32 eta u
    (u, delta, sub40 x.2 delta))
  match (gs.zip out).findIdx? (fun x => !(isFin32 x.1 && isFin32 x.2.1 && isFin32 x.2.2.1 && isFin40 x.2.2.2)) with
  | some k => .error k
  | none => if [q, acc1, r, dn].all isFin32 then .ok (acc1, out.map (fun x => x.2.2)) else .error 0

/-- Update one row of an embedding set. -/
def State.updateRow (s : State) (c ix n : Nat) (d : SetD) (x : SetS) (row src : Nat) : State :=
  let k := s.rowSlot c d x.next row
  let from_ := d.slotAt row k
  let dst := d.slotAt row (1 - k)
  let count := min 0xFFFFFFFF (s.rdNat c (from_ + 8) 4 + 1)
  let s1 := (s.wrNat c dst 8 (n + 1)).wrNat c (dst + 8) 4 count
  match s.rowUpdate c d (learnRate d.knots n) (s.rdNat c (from_ + 12) 4) src from_ with
  | .ok (acc, ths) => (s1.wrNat c (dst + 12) 4 acc).each ((List.range d.dim).zip ths) (fun u y => u.wrNat c (dst + 16 + 5 * y.1) 5 y.2)
  | .error e => (s1.copyMem c (from_ + 12) (dst + 12) (4 + 5 * d.dim)).noteSkip c ix n row e

/-- Is the update of a row skipped (R254)? -/
def State.rowSkipped (s : State) (c : Nat) (d : SetD) (next n : Nat) (r : Nat × Nat) : Bool :=
  let at_ := d.slotAt r.1 (s.rowSlot c d next r.1)
  match s.rowUpdate c d (learnRate d.knots n) (s.rdNat c (at_ + 12) 4) r.2 at_ with
  | .ok _ => false
  | .error _ => true

/-- Serving rows in an instance, narrowed from a row's slot (R257). -/
def State.serveRow (s : State) (c : Nat) (j : Job) (d : SetD) (inst row slot : Nat) : State :=
  match j.tensor? d.serveT with
  | some t => s.each (List.range d.dim) (fun u i =>
      u.wrNat c (t.at_ inst + 4 * (row * d.dim + i)) 4 (narrow40 (s.rdNat c (d.slotAt row slot + 16 + 5 * i) 5)))
  | none => s

/-- Update of an embedding set (R243, R249, R257): the staged serving instance takes the rows of this update and those
in which it differs from the instance in force. SKIPPED is set where a row is skipped (R254). -/
def State.updateEmbedding (s : State) (c ix n : Nat) (j : Job) (h : HoistE) (d : SetD) (x : SetS) : State :=
  match s.gradRows c j d h.a h.mb with
  | .error _ => s
  | .ok all =>
    let rows := all.filter (fun r => decide (s.rdNat c (d.slotAt r.1 (s.rowSlot c d x.next r.1)) 8 ≤ n))
    let s1 := s.each rows (fun u r => u.updateRow c ix n d x r.1 r.2)
    let now := rows.map (·.1)
    let stale := ((x.rowsLast ++ x.rowsStaged).filter (fun r => !now.contains r)).eraseDups
    let st := 1 - x.cur
    let s2 := s1.each now (fun u r => u.serveRow c j d st r (1 - s.rowSlot c d x.next r))
    let s3 := s2.each stale (fun u r => u.serveRow c j d st r (s.rowSlot c d x.next r))
    let skip := rows.any (fun r => s.rowSkipped c d x.next n r)
    (s3.tierTraffic true).modSet c ix (fun y => { y with staged := true, sSkip := skip, sWrites := 0, sHeld := 0, rowsStaged := now })

/-- SET_UPDATE (R235, R249): the first accepted push. A disagreement of the duplicated engines withholds the update and
makes the step unsound (Table 10.3); an update of step n + 2 waits while the freeze of n lasts (R261). -/
def State.setUpdate (s : State) (agree : Bool) : State :=
  match s.mill.queue with
  | [] => s
  | (c, e, ix, n) :: rest =>
    if s.sealing.phase ≠ 0 ∨ s.frozenOut then s
    else
      let s0 := ({ s with mill := { s.mill with queue := rest } }).showQueued
      match s.job? c with
      | none => s0
      | some j =>
        match j.entries[e]?, j.sets[ix]?, j.sstate[ix]? with
        | some h, some d, some x =>
          if !agree then s0.unsound c 2 e
          else
            match j.setLayer d with
            | some l => s0.updateDense c ix n j h d l x
            | none => s0.updateEmbedding c ix n j h d x
        | _, _, _ => s0

/-- SET_UPDATE (R249). -/
def execSetUpdate (agree : Bool) (s : State) : Out := perform (.setUpdate agree) s (s.setUpdate agree)

/-! ### First start (R265) -/

/-- Initialise a dense set from INIT_T in bank 0 and project it in full into instance 0. The padding elements of both banks are zero
and stay so (R241). -/
def State.initDense (s : State) (c ix n : Nat) (j : Job) (d : SetD) (l : LayerD) : State :=
  let e := l.elements
  let src := match j.tensor? d.initT with | some t => t.at_ 0 | none => 0
  let s0 := s.zeroMem c (d.bankAt e 0) (d.bankAt e 0 + 2 * d.bankBytes e)
  let rows := l.inputs + (if l.bias then 1 else 0)
  let s1 := s0.each (List.range (rows * l.outputs)) (fun u k =>
    u.wrNat c (d.bankAt e 0 + 5 * (k / l.outputs * l.padded + k % l.outputs)) 5 (widen40 (s.rdNat c (src + 4 * k) 4)))
  let p := s1.projectSet c j ix d l 0 0 0 true n
  (p.state.millRec 0x4004 c ix [n, 1, l.outputs]).modSet c ix (fun _ =>
    { SetS.fresh n with writes := p.writes, held := p.held, lastL := p.ls })

/-- Initialise an embedding set: slot 0 holds the row, slot 1 has never been written. -/
def State.initEmbedding (s : State) (c ix n : Nat) (j : Job) (d : SetD) : State :=
  let src := match j.tensor? d.initT with | some t => t.at_ 0 | none => 0
  let s1 := s.each (List.range d.rows) (fun u r =>
    let a := d.slotAt r 0
    let u1 := (((u.wrNat c a 8 0).wrNat c (a + 8) 4 0).wrNat c (a + 12) 4 d.a0).wrNat c (d.slotAt r 1) 8 0
    (u1.each (List.range d.dim) (fun w i => w.wrNat c (a + 16 + 5 * i) 5 (widen40 (s.rdNat c (src + 4 * (r * d.dim + i)) 4)))).serveRow c j d 0 r 0)
  s1.modSet c ix (fun _ => SetS.fresh n)

/-- A first START without a checkpoint initialises every set. -/
def State.initSets (s : State) (c n : Nat) (j : Job) : State :=
  s.each ((List.range j.sets.length).zip j.sets) (fun u x =>
    match j.setLayer x.2 with
    | some l => u.initDense c x.1 n j x.2 l
    | none => u.initEmbedding c x.1 n j x.2)

/-! ### Checkpoint images (R260 to R263) -/

/-- Numerics state entry (Table 4.5) of a layer. -/
def NumS.entry (x : NumS) (layer policy : Nat) : List Byte :=
  let words (l : List Nat) (k : Nat) : List Byte := (List.range k).flatMap (fun i => leBytes 4 (nth 0 l i))
  let flags := x.gzFmt + x.dwFmt * 4 + policy * 16 + (if x.cold then 64 else 0) + (if x.dead then 128 else 0) + (if x.widened then 256 else 0)
  leBytes 4 layer ++ leBytes 4 flags ++ leBytes 2 (unsigned 16 x.gzBias) ++ leBytes 2 (unsigned 16 x.dwBias)
    ++ leBytes 2 (unsigned 16 x.outBias) ++ leBytes 1 (unsigned 8 x.outE) ++ leBytes 1 0 ++ leBytes 2 x.gzRun ++ leBytes 2 x.dwRun
    ++ leBytes 4 x.zeroRun ++ leBytes 8 x.step ++ words x.gzMax 8 ++ words x.dwMax 8 ++ words x.outMax 16 ++ words x.gzUnder 8
    ++ words x.gzNon 8 ++ words x.dwUnder 8 ++ words x.dwNon 8 ++ List.replicate 32 0

/-- The entry of a layer read back from 320 bytes. -/
def NumS.ofEntry (l : List Byte) : NumS :=
  let f (off n : Nat) : Nat := slice l off n
  let words (off k : Nat) : List Nat := (List.range k).map (fun i => f (off + 4 * i) 4)
  let st := f 4 4
  { gzFmt := bits st 1 0, dwFmt := bits st 3 2, cold := bit st 6, dead := bit st 7, widened := bit st 8
    gzBias := signed 16 (f 8 2), dwBias := signed 16 (f 10 2), outBias := signed 16 (f 12 2), outE := signed 8 (f 14 1)
    gzRun := f 16 2, dwRun := f 18 2, zeroRun := f 20 4, step := f 24 8, gzMax := words 0x20 8, dwMax := words 0x40 8
    outMax := words 0x60 16, gzUnder := words 0xA0 8, gzNon := words 0xC0 8, dwUnder := words 0xE0 8, dwNon := words 0x100 8 }

/-- Base of copy k of the numerics state table (R143). -/
def Job.numCopy (j : Job) (k : Nat) : Nat := j.desc.tableBase + k * roundBlock (320 * j.desc.tableLayers)

/-- Set state record (Table 7.2), with the first block and the blocks of its section. -/
def setRecord (j : Job) (d : SetD) (x : SetS) (first blocks : Nat) : List Byte :=
  let elems := match j.setLayer d with | some l => l.elements | none => d.rows
  leBytes 4 d.id ++ leBytes 1 d.kind ++ leBytes 1 d.opt ++ leBytes 1 x.cur
    ++ leBytes 1 ((if x.skipped then 1 else 0) + (if x.resync then 2 else 0)) ++ leBytes 8 x.next ++ leBytes 8 x.steps ++ leBytes 4 x.p1
    ++ leBytes 4 x.p2 ++ leBytes 8 first ++ leBytes 8 blocks ++ leBytes 8 elems ++ leBytes 4 d.layer ++ leBytes 4 0

/-- First blocks of the sections, in set order, from the block after the numerics part. -/
def Job.sectionFirst (j : Job) (ix : Nat) : Nat :=
  1 + j.dirBlocks + j.numBlocks + ((j.sets.take ix).map j.sectionBlocks).foldl (· + ·) 0

/-- Header of the image (Table 7.8). -/
def Job.imageHeader (j : Job) (next epoch member : Nat) : List Byte :=
  let body := leBytes 4 1 ++ leBytes 4 j.sets.length ++ leBytes 8 next ++ leBytes 8 epoch ++ leBytes 2 member ++ leBytes 2 0
    ++ leBytes 4 j.role ++ leBytes 16 j.desc.seed ++ leBytes 2 j.desc.tableLayers ++ leBytes 2 0 ++ leBytes 4 j.desc.micro
    ++ leBytes 4 j.desc.ckptK ++ leBytes 4 0 ++ leBytes 8 (1 + j.dirBlocks) ++ leBytes 8 j.imageBlocks ++ List.replicate (0xFC - 0x50) 0
  body ++ leBytes 4 (crc32c body)

/-- Write a set's section at an address. -/
def State.putSection (s : State) (c : Nat) (j : Job) (d : SetD) (x : SetS) (dst : Nat) : State :=
  match j.setLayer d with
  | some l =>
    let n := l.elements
    let bank := d.bankBytes n
    let img := 163840 * l.rowBlocks * l.colBlocks
    let tens (t m : Nat) : Nat := match j.tensor? t with | some y => y.at_ m | none => 0
    let s1 := (s.copyMem c (d.bankAt n x.cur) dst bank).copyMem c (tens l.codesT x.cur) (dst + bank) img
    let s2 := s1.copyMem c (tens l.gainT x.cur) (dst + bank + img) (4 * l.outputs)
    s2.on l.bias (fun u => u.copyMem c (tens l.biasT x.cur) (dst + bank + img + roundBlock (4 * l.outputs)) (4 * l.outputs))
  | none =>
    s.each (List.range d.rows) (fun u r =>
      u.copyMem c (d.slotAt r (s.rowSlot c d x.next r)) (dst + r * d.slotBytes) d.slotBytes)

/-- Write the image of the state in force into the freeze area (R260, R261). The bytes are written at the capture. -/
def State.freezeImage (s : State) (c : Nat) : State :=
  match s.job? c with
  | none => s
  | some j =>
    let base := j.freezeBase
    let next := match j.sstate.head? with | some x => x.next | none => s.jobStep c
    let s1 := (s.wrBytes c base (List.replicate (4096 * j.imageBlocks) 0)).wrBytes c base (j.imageHeader next s.epoch s.memberNo)
    let s2 := s1.each ((List.range j.sets.length).zip (j.sets.zip j.sstate)) (fun u x =>
      (u.wrBytes c (base + 4096 + 64 * x.1) (setRecord j x.2.1 x.2.2 (j.sectionFirst x.1) (j.sectionBlocks x.2.1))).putSection c j x.2.1 x.2.2
        (base + 4096 * j.sectionFirst x.1))
    s2.copyMem c (j.numCopy (s.epoch % 2)) (base + 4096 * (1 + j.dirBlocks)) (320 * j.desc.tableLayers)

/-- A member's buddy (R332): the holder of its KIND 4 role, 0xFFF for none. -/
def State.buddy (s : State) : Nat :=
  match s.casc.roles.find? (fun (x : RoleEntry) => x.role == s.memberNo * 16 + 4) with
  | some b => b.member
  | none => 0xFFF

/-- Fields of a claim's CKPT_STATE. -/
def State.setCkpt (s : State) (c hi lo v : Nat) : State := s.setFldB (claimBank c) (Page.MIL 0) Reg.MIL.CKPT_STATE hi lo v

/-- FREEZING and SENDING of MIL.MILL_STATE. -/
def State.showCkpt (s : State) : State :=
  (s.setFld (Page.MIL 0) Reg.MIL.MILL_STATE 1 1 (if s.mill.freezing = [] then 0 else 1)).setFld (Page.MIL 0) Reg.MIL.MILL_STATE 2 2
    (if s.mill.sending = [] then 0 else 1)

/-- Blocks of a claim's image that wait in the queues of the ports. -/
def State.ckptLeft (s : State) (c : Nat) : Nat :=
  s.ports.foldl (fun a p => p.2.outq.foldl (fun b m => if m.cls = 8 ∧ m.key = c then b + m.blocks.length else b) a) 0

/-- A checkpoint falls due at the commit of step n (R260, R262): skipped while the last one is still being sent. -/
def State.startCkpt (s : State) (c n : Nat) : State :=
  if s.mill.sending.any (fun e => e.1 == c) ∨ s.mill.freezing.any (fun e => e.1 == c) then
    ((s.setCkpt c 2 2 1).millRec 0x4006 c noSet [n, s.ckptLeft c]).raiseMil c 5
  else
    let s1 := (((s.setCkpt c 2 0 0).setCkpt c 27 16 s.buddy).freezeImage c).modJob c (fun j => { j with forceCkpt := false })
    (({ s1 with mill := { s1.mill with freezing := s1.mill.freezing ++ [(c, n)] } }).tierTraffic true).showCkpt.showQueued

/-- FREEZE_DONE (R261, R262): the image goes to the buddy, where there is one, block by block under its role's checkpoint key (R391). -/
def State.freezeDone (s : State) (c : Nat) : State :=
  match s.mill.freezing.find? (fun e => e.1 == c), s.job? c with
  | some (_, n), some j =>
    let s1 := { s with mill := { s.mill with freezing := s.mill.freezing.filter (fun e => e.1 != c) } }
    let b := s1.buddy
    let s2 := if b = 0xFFF ∨ b = s.memberNo then s1
      else
        let blocks := (List.range j.imageBlocks).map (fun k => Config.xts (s1.ckptKey j.role) k (s1.rdBytes c (j.freezeBase + 4096 * k) 4096))
        let s3 := { s1 with mill := { s1.mill with sending := s1.mill.sending ++ [(c, n)] } }
        s3.sendBlocks 8 c { role := b * 16 + 1, member := b, epoch := 0 } j.role n 0 blocks none
    (s2.setCkpt c 0 0 1).showCkpt.showQueued
  | _, _ => s

/-- FREEZE_DONE (R261). -/
def execFreezeDone (c : Nat) (s : State) : Out := perform (.freezeDone c) s (s.freezeDone c)

/-- CKPT_SEND_DONE (R262). -/
def State.ckptSent (s : State) (c : Nat) : State :=
  match s.mill.sending.find? (fun e => e.1 == c), s.job? c with
  | some (_, n), some j =>
    let s1 := { s with mill := { s.mill with sending := s.mill.sending.filter (fun e => e.1 != c) } }
    let s2 := (s1.setCkpt c 1 1 1).wr64B (claimBank c) (Page.MIL 0) Reg.MIL.CKPT_STEP_LO n
    let s3 := s2.modPeer s.memberNo (fun p => { p with ckpt := Sparse.place j.number n (Sparse.drop j.number p.ckpt) })
    ((s3.millRec 0x4005 c noSet [n, s.buddy, j.imageBlocks]).raiseMil c 4).showCkpt
  | _, _ => s

/-- CKPT_SEND_DONE (R262). -/
def execCkptSendDone (c : Nat) (s : State) : Out := perform (.ckptSendDone c) s (s.ckptSent c)

/-- The buddy has gone or changed during a send (Table 7.10): the send stops, and the new buddy receives a checkpoint taken at the next
commit. -/
def State.stopSends (s : State) : State :=
  let cs := s.mill.sending.map (·.1)
  let s1 := { s with
    mill := { s.mill with sending := [] }
    ports := s.ports.map (fun (p : Nat × Port) => (p.1, { p.2 with outq := p.2.outq.filter (fun m => m.cls != 8) })) }
  (s1.each cs (fun u c => u.modJob c (fun j => { j with forceCkpt := true }))).showCkpt

/-- A change from `s` that names a member's buddies anew: a send to a former buddy stops. -/
def State.rebuddied (t s : State) : State := t.on (s.buddy != t.buddy && s.buddy != 0xFFF && s.mill.sending != []) (fun u => u.stopSends)

/-! ### Restore (R263) -/

/-- Address of a set's section in an image: the first block that its directory record names (Table 7.2). -/
def State.sectionAt (s : State) (c base ix : Nat) : Nat := base + 4096 * s.rdNat c (base + 4096 + 64 * ix + 0x20) 8

/-- Do all blocks of a range pass their checks? -/
def State.blocksOk (s : State) (c addr n : Nat) : Bool := s.released c addr n && !s.anyLost c addr n

/-- Why an image cannot be restored: the failing part (0 header, 1 directory, 2 a block check) and the set index. The numerics part is
apart: what fails there leads to a cold start (R145, R263). -/
def State.imageFault (s : State) (c : Nat) (j : Job) (base : Nat) : Option (Nat × Nat) :=
  let head := s.rdBytes c base 256
  let dir (ix off n : Nat) : Nat := s.rdNat c (base + 4096 + 64 * ix + off) n
  if slice head 0 4 ≠ 1 ∨ slice head 0xFC 4 ≠ crc32c (head.take 0xFC) ∨ slice head 4 4 ≠ j.sets.length then some (0, 0xFFFFFFFF)
  else
    match ((List.range j.sets.length).zip j.sets).find? (fun x =>
        let elems := match j.setLayer x.2 with | some l => l.elements | none => x.2.rows
        dir x.1 0 4 != x.2.id || dir x.1 4 1 != x.2.kind || dir x.1 5 1 != x.2.opt || dir x.1 0x30 8 != elems || dir x.1 0x38 4 != x.2.layer) with
    | some x => some (1, x.1)
    | none =>
      if !s.blocksOk c base (4096 * (1 + j.dirBlocks)) then some (2, 0xFFFFFFFF)
      else (((List.range j.sets.length).zip j.sets).find? (fun x =>
        !s.blocksOk c (s.sectionAt c base x.1) (4096 * j.sectionBlocks x.2))).map (fun x => (2, x.1))

/-- Write an image's codes to the stopes as FULL lists, without projecting. -/
def State.listImage (s : State) (c n : Nat) (j : Job) (l : LayerD) : State :=
  s.each (List.range (l.rowBlocks * l.colBlocks)) (fun u k =>
    let cb := k / l.rowBlocks
    let rb := k % l.rowBlocks
    match j.seamAt l.layer cb rb with
    | none => u
    | some q =>
      let cells := (List.range (min 512 (l.inputs - rb * 512))).flatMap (fun r =>
        (List.range (min 512 (l.outputs - cb * 512))).filterMap (fun col =>
          let code := s.codeAt c j l 0 (rb * 512 + r) (cb * 512 + col)
          if code = 0 then none else some (r, col, code)))
      u.giveList q.1 { claim := c, step := n, seam := q.2, full := true, arrived := 0, applied := false, entries := cells })

/-- Restore one set from its section; its state comes from its directory record, with CUR = 0. -/
def State.restoreSet (s : State) (c ix : Nat) (j : Job) (d : SetD) (base next : Nat) : State :=
  let src := s.sectionAt c base ix
  let dir (off n : Nat) : Nat := s.rdNat c (base + 4096 + 64 * ix + off) n
  let st : SetS := { SetS.fresh next with
    next := dir 8 8, steps := dir 0x10 8, p1 := dir 0x18 4, p2 := dir 0x1C 4, skipped := bit (dir 7 1) 0 }
  match j.setLayer d with
  | some l =>
    let n := l.elements
    let bank := d.bankBytes n
    let img := 163840 * l.rowBlocks * l.colBlocks
    let tens (t : Nat) : Nat := match j.tensor? t with | some y => y.at_ 0 | none => 0
    let s0 := s.zeroMem c (d.bankAt n 1) (d.bankAt n 1 + bank)
    let s1 := (s0.copyMem c src (d.bankAt n 0) bank).copyMem c (src + bank) (tens l.codesT) img
    let s2 := s1.copyMem c (src + bank + img) (tens l.gainT) (4 * l.outputs)
    let s3 := s2.on l.bias (fun u => u.copyMem c (src + bank + img + roundBlock (4 * l.outputs)) (tens l.biasT) (4 * l.outputs))
    let ls := (List.range l.colBlocks).map (fun cb => s.levels j l cb)
    (s3.listImage c next j l).modSet c ix (fun _ => { st with lastL := ls })
  | none =>
    let s1 := s.each (List.range d.rows) (fun u r =>
      ((u.copyMem c (src + r * d.slotBytes) (d.slotAt r 0) d.slotBytes).wrNat c (d.slotAt r 1) 8 0).serveRow c j d 0 r 0)
    s1.modSet c ix (fun _ => st)

/-- Is the numerics part of an image usable: not missing, and no block of it lost (R145)? -/
def State.imageNumerics (s : State) (c : Nat) (j : Job) (base : Nat) : Option Nat :=
  let first := s.rdNat c (base + 0x40) 8
  if first = 0 ∨ s.rdNat c (base + 0x30) 2 ≠ j.desc.tableLayers then none else some (base + 4096 * first)

/-- Restore every set of an image and record it. -/
def State.restoreImage (s : State) (c : Nat) (j : Job) (base : Nat) : State :=
  let next := s.rdNat c (base + 8) 8
  let s1 := s.each ((List.range j.sets.length).zip j.sets) (fun u x => u.restoreSet c x.1 j x.2 base next)
  (s1.modJob c (fun k => { k with envelope := [], restoring := true })).tierTraffic true |>.millRec 0x4007 c noSet [next, base]

/-! ### Resynchronisation (R247) -/

/-- A job restarts from its last checkpoint (Table 9.10, steps 3 and 4): the member stops, reads READY and asks its buddy
for the image. -/
def State.jobRestart (s : State) (c : Nat) : State :=
  match s.job? c with
  | none => s
  | some j =>
    let n := Sparse.get 0 (s.peer s.memberNo).ckpt j.number
    let s1 := ((s.dropWork c 3 (fun _ => false)).setJobState c jsReady 0).record 0x600A (Src.cascade 0) (some c) (items [j.number, n])
    let s2 := { s1 with casc := { s1.casc with restarts := s1.casc.restarts.filter (fun (e : Nat × Nat) => e.1 != j.number) ++ [(j.number, n)] } }
    let s3 := (s2.count Page.CAS Reg.CAS.RESTARTS 2 1).stageEvent Page.CAS 5
    if s.buddy = 0xFFF then s3 else s3.sendMsg { OutMsg.plain 8 s.buddy [j.number, n, j.role] with key := c }

/-- RESYNC (R247): the headframe's committed step number against NEXT of every set. -/
def execResync (c step : Nat) (s : State) : Out :=
  perform (.resync c step) s
    (match s.job? c with
    | none => s
    | some j =>
      let bad := (j.sstate.filter (fun x => x.next != step)).length
      let s1 := s.setJob c { j with sstate := j.sstate.map (fun x => { x with resync := false }) }
      let s2 := s1.millRec 0x4009 c noSet [step, if bad = 0 then 0 else 1, bad]
      if bad = 0 then s2 else s2.jobRestart c)

/-! ### Jobs that become READY to run (R175, R265) -/

/-- Have the stopes applied the write lists of a claim (R265)? -/
def State.listsApplied (s : State) (c : Nat) : Bool :=
  s.stopes.all (fun e => e.2.lists.all (fun w => w.claim != c || w.applied))

/-- RESTORING of MIL.MILL_STATE: a START restores an image whose write lists the stopes have not all applied (log 78). -/
def State.showRestoring (s : State) : State :=
  s.setFld (Page.MIL 0) Reg.MIL.MILL_STATE 3 3 (if s.jobs.any (fun e => e.2.restoring && s.jobState e.1 == jsStarting) then 1 else 0)

/-- Started jobs whose write lists are applied report READY to the headframe (R175). -/
def State.reportStarting (s : State) : State :=
  let due := (s.jobs.filter (fun e => s.jobState e.1 == jsStarting && s.listsApplied e.1 && !s.reported e.2.number s.memberNo s.tally)).map (·.1)
  (s.each due (fun u c => (u.modJob c (fun j => { j with restoring := false })).report c true)).showRestoring

end Sys2Proof.Machine
end

