-- ==== Sys2Proof/Machine/Memory.lean ====
section
/-!
DEFINITION. The memory tiers: channels and stripes (R208, R209), imbalance, migrations and retired channels (R211 to
R214), block checks in transit and in store, damaged and LOST blocks, and scrubbing (R340 to R344).
-/

namespace Sys2Proof.Machine

/-! ### Tiers and channels -/

def State.tier (s : State) (slow : Bool) : Tier := if slow then s.slow else s.fast

def State.modTier (s : State) (slow : Bool) (f : Tier → Tier) : State :=
  if slow then { s with slow := f s.slow } else { s with fast := f s.fast }

/-- Channels of a tier (R208), and rows of one channel (R210). -/
def tierChannels (slow : Bool) : Nat := if slow then 24 else 256
def tierRows (slow : Bool) : Nat := if slow then 2 ^ 24 else 2 ^ 19

/-- Channel numbers of a tier's live channels in ascending stack and channel order (R209). -/
def State.channels (s : State) (slow : Bool) : List Nat :=
  (List.range (tierChannels slow)).filter (fun k => !(s.tier slow).retired.contains k)

/-- Pages of a tier, the page of a channel, and the channel's number there. -/
def tierPages (slow : Bool) : List Nat := if slow then (List.range 4).map Page.MIL else (List.range 8).map Page.FTC
def chanPage (slow : Bool) (k : Nat) : Nat := if slow then Page.MIL (k / 6) else Page.FTC (k / 32)
def chanNo (slow : Bool) (k : Nat) : Nat := if slow then k % 6 else k % 32

/-- Unit code of a channel's controller. -/
def chanUnit (slow : Bool) (k : Nat) : Nat := if slow then Src.mill (k / 6) else Src.fast (k / 32)

/-- Channels in use under a mapping, in ascending stack and channel order. -/
def StripeMap.channels (m : StripeMap) (slow : Bool) : List Nat :=
  (List.range (tierChannels slow)).filter (fun k => !m.retired.contains k)

/-- Live channels under a mapping: C of R209. -/
def StripeMap.width (m : StripeMap) (slow : Bool) : Nat := max 1 (tierChannels slow - m.retired.length)

/-- Channel that holds block b of a claim's region under a mapping (R209). -/
def StripeMap.channel (m : StripeMap) (c : Nat) (slow : Bool) (b : Nat) : Nat :=
  let n := m.width slow
  let h := sipHash m.key [c + (if slow then 2 ^ 32 else 0), b / n]
  nth 0 (m.channels slow) ((b % n + h % n) % n)

/-- The physical row of stripe g under a mapping (R208). -/
def StripeMap.row (m : StripeMap) (c : Nat) (slow : Bool) (g : Nat) : Nat :=
  match m.rows.find? (fun e => e.1 == g) with
  | some e => e.2
  | none => Config.stripeRow c slow g

/-- A claim's layout in a tier. -/
def Claim.layout (x : Claim) (slow : Bool) : Layout := if slow then x.slow else x.fast

/-- Change a claim's layout in a tier. -/
def State.modLayout (s : State) (c : Nat) (slow : Bool) (f : Layout → Layout) : State :=
  s.modClaim c (fun x => if slow then { x with slow := f x.slow } else { x with fast := f x.fast })

/-- A region that nothing has laid out yet. -/
def StripeMap.none : StripeMap := { key := 0, retired := [], moved := 0, rows := [] }

/-- The mapping under which block b is found: the newest that has taken its stripe, the oldest holding what none has (R213). -/
def mapOf (slow : Bool) : List StripeMap → Nat → StripeMap
  | [], _ => StripeMap.none
  | [m], _ => m
  | m :: rest, b => if b / m.width slow < m.moved then m else mapOf slow rest b

/-- Channel that holds block b of a claim's region in a tier (R209, R213). -/
def State.channelOf (s : State) (c : Nat) (slow : Bool) (b : Nat) : Nat :=
  (mapOf slow ((s.claim c).layout slow).maps b).channel c slow b

/-- Physical row that holds block b of a claim's region in a tier: the claim's stripe table (R208). -/
def State.rowOf (s : State) (c : Nat) (slow : Bool) (b : Nat) : Nat :=
  let m := mapOf slow ((s.claim c).layout slow).maps b
  m.row c slow (b / m.width slow)

/-- Write a word that every page of a tier shows. -/
def State.wrTier (s : State) (slow : Bool) (fastOff slowOff v : Nat) : State :=
  s.each (tierPages slow) (fun u pg => u.wr pg (if slow then slowOff else fastOff) v)

/-- Latch an event on every page of a tier. -/
def State.raiseTier (s : State) (slow : Bool) (fastBit : Nat) : State := s.each (tierPages slow) (fun u pg => u.raise pg fastBit)

/-! ### Migrations (R211 to R214) -/

/-- Blocks that a claim holds in a tier: its grant, and for claim 0 what the prospector holds (R527). -/
def State.heldBlocks (s : State) (c : Nat) (slow : Bool) : Nat :=
  if c = 0 then (if s.prospectorHeld then (if slow then proSlow else proFast) else 0) else s.grant c slow

/-- Stripes of a claim in a tier. -/
def State.stripes (s : State) (c : Nat) (slow : Bool) : Nat := ceilDiv (s.heldBlocks c slow) (max 1 (s.channels slow).length)

/-- Stripes of the migration under way that have moved. -/
def State.movedStripes (s : State) (slow : Bool) (c : Nat) : Nat :=
  match ((s.claim c).layout slow).maps with
  | m :: _ :: _ => m.moved
  | _ => 0

/-- Show a tier's migration in MIGRATE and MIGRATE_LEFT. -/
def State.showMigration (s : State) (slow : Bool) : State :=
  let t := s.tier slow
  let w := match t.active with | some (c, cause) => 1 + 2 * cause + 256 * c | none => 0
  let left := match t.active with | some (c, _) => s.stripes c slow - s.movedStripes slow c | none => 0
  (s.wrTier slow Reg.FTC.MIGRATE Reg.MIL.MIGRATE w).wrTier slow Reg.FTC.MIGRATE_LEFT Reg.MIL.MIGRATE_LEFT left

/-- A new mapping of a layout: under the key that waits, or the present one, and the channels that live now. One that no stripe
has moved to yet is replaced. -/
def Layout.remap (y : Layout) (retired : List Nat) : Layout :=
  let key := y.next.getD ((y.maps.headD StripeMap.none).key)
  let rest := match y.maps with
    | m :: n :: l => if m.moved = 0 then n :: l else y.maps
    | l => if l = [] then [StripeMap.none] else l
  { maps := { key := key, retired := retired, moved := 0, rows := [] } :: rest, next := none }

/-- A migration begins now: event 0x3003 with the channel over, 0xFFFF for none. -/
def State.openMigration (s : State) (slow : Bool) (c cause chan : Nat) : State :=
  let s0 := s.modLayout c slow (fun y => y.remap (s.tier slow).retired)
  let s1 := s0.modTier slow (fun t => { t with active := some (c, cause), began := s.osc })
  let s2 := s1.record 0x3003 (if slow then Src.mill 0 else Src.fast 0) (some c) (items [c, if slow then 1 else 0, cause, chan])
  (s2.on (!slow) (fun u => u.each (tierPages false) (fun w pg => w.count pg Reg.FTC.REKEYS 4 1))).showMigration slow

/-- A claim has to migrate in a tier: at once, or after the migration under way (R212). A claim without stripes there has
nothing to move. -/
def State.migrate (s : State) (slow : Bool) (c cause chan : Nat) : State :=
  if s.stripes c slow = 0 then
    s.on (((s.claim c).layout slow).maps != []) (fun u =>
      u.modLayout c slow (fun y => { maps := (y.remap (s.tier slow).retired).maps.take 1, next := none }))
  else if (s.tier slow).active.isNone then s.openMigration slow c cause chan
  else s.modTier slow (fun t => { t with waiting := t.waiting.filter (fun e => e.1 != c) ++ [(c, cause, chan)] })

/-- A migration is over: the new mapping alone stands; event 0x3004, MIGRATE_DONE, a new count of windows, and the next migration
(R212, R213). -/
def State.endMigration (s : State) (slow : Bool) (c : Nat) : State :=
  let t := s.tier slow
  let s0 := s.modLayout c slow (fun y => { y with maps := y.maps.take 1 })
  let s1 := s0.record 0x3004 (if slow then Src.mill 0 else Src.fast 0) (some c)
    (items [c, if slow then 1 else 0, s.stripes c slow, s.osc - t.began])
  let s2 := ((s1.raiseTier slow 1).wrTier slow Reg.FTC.IMBAL_RUN Reg.MIL.IMBAL_RUN 0).modTier slow (fun x => { x with
    active := none, runs := [] })
  match t.waiting with
  | [] => s2.showMigration slow
  | (n, cause, chan) :: rest => (s2.modTier slow (fun x => { x with waiting := rest })).openMigration slow n cause chan

/-- Stripe g of a claim moves to its new mapping: its row there is the spare row, and the row that its blocks leave becomes the
spare (R213). Where the two mappings have stripes of different width, the row that is spare next is open (a free value, log 74). -/
def State.moveStripe (s : State) (slow : Bool) (c : Nat) : State :=
  match ((s.claim c).layout slow).maps with
  | m :: old :: rest =>
    let g := m.moved
    let from_ := mapOf slow (old :: rest) (g * m.width slow)
    let same : Bool := from_.width slow == m.width slow
    let spare := (s.tier slow).spare
    let next := if same then from_.row c slow g else (s.draw 24).toNat % tierRows slow
    let m1 := { m with moved := g + 1, rows := m.rows.filter (fun e => e.1 != g) ++ [(g, spare)] }
    ((if same then s else s.drawn).modLayout c slow (fun y => { y with maps := m1 :: old :: rest })).modTier slow (fun t => { t with spare := next })
  | _ => s

/-- MIGRATE_STRIPE (R213). -/
def execMigrateStripe (slow : Bool) (s : State) : Out :=
  perform (.migrateStripe slow) s
    (match (s.tier slow).active with
    | none => s
    | some (c, _) =>
      let s1 := s.moveStripe slow c
      if s.stripes c slow ≤ s1.movedStripes slow c then s1.endMigration slow c else s1.showMigration slow)

/-- A window's depths, in 1/16 request, by stack: the deepest channel of each page (Tables 6.9 and 7.12). -/
def State.showWorst (s : State) (slow : Bool) (depths : List (Nat × Nat)) : State :=
  s.each (tierPages slow) (fun u pg =>
    let mine := depths.filter (fun d => chanPage slow d.1 == pg)
    let worst := mine.foldl (fun (a : Nat × Nat) d => if a.2 < d.2 then d else a) (mine.headD (0, 0))
    u.wr pg (if slow then Reg.MIL.QUEUE_WORST else Reg.FTC.QUEUE_WORST) (min 65535 worst.2 + 65536 * chanNo slow worst.1))

/-- QUEUE_WINDOW (R212): depths of the live channels in 1/16 request, and the claim with the most requests to the channel
that is over. IMBAL_RUN shows the longest run of a channel, and a run of 10,000 asks once for a re-keying. -/
def execQueueWindow (slow : Bool) (depths : List Nat) (busiest : Nat) (s : State) : Out :=
  perform (.queueWindow slow depths busiest) s
    (let l := s.channels slow
    let d := l.zip (depths ++ List.replicate (l.length - depths.length) 0)
    let sum := d.foldl (fun a x => a + x.2) 0
    let n := max 1 l.length
    let isOver (x : Nat × Nat) : Bool := decide (2 * sum < x.2 * n) && decide (16 * n ≤ sum)
    let runs := (d.filter isOver).map (fun x => (x.1, min 10000 (Sparse.get 0 (s.tier slow).runs x.1 + 1)))
    let full := runs.filter (fun x => x.2 == 10000 && Sparse.get 0 (s.tier slow).runs x.1 != 10000)
    let run := runs.foldl (fun a x => max a x.2) 0
    let s1 := ((s.showWorst slow d).wrTier slow Reg.FTC.QUEUE_MEAN Reg.MIL.QUEUE_MEAN (min 65535 (sum / n))).modTier slow
      (fun t => { t with runs := runs })
    let s2 := s1.wrTier slow Reg.FTC.IMBAL_RUN Reg.MIL.IMBAL_RUN run
    match full with
    | x :: _ => (s2.on (!slow) (fun u => u.raiseTier false 2)).modTier slow (fun t => { t with rekey := some (busiest, x.1) })
    | [] => s2)

/-- At a claim's seal, the re-keying that waits for it: a new key for the tier, and its migration (R212). -/
def State.rekeyAtSeal (s : State) (c : Nat) (slow : Bool) : State :=
  match (s.tier slow).rekey with
  | some (n, chan) =>
    if n ≠ c then s
    else
      let k := (s.draw 128).toNat
      let s1 := (s.drawn.modLayout c slow (fun y => { y with next := some k })).modTier slow (fun t => { t with rekey := none })
      s1.migrate slow c 1 chan
  | none => s

/-! ### Block checks (R205, R206) -/

/-- The check of a block's 4,096 bytes (R205). -/
def State.blockCheck (s : State) (c addr : Nat) : Nat := crc64 (s.rdBytes c (addr / 4096 * 4096) 4096)

/-- The check held beside a block: that of its bytes, since every write computes it anew (R206); a damaged block holds another one,
which is open. -/
def State.heldCheck (s : State) (c addr : Nat) : Nat :=
  if (s.mark c addr).damaged then s.blockCheck c addr ^^^ (1 + (s.draw 64).toNat % (2 ^ 64 - 1)) else s.blockCheck c addr

/-- Does a block's held check hold, as a read or a partial write verifies it? -/
def State.checkHolds (s : State) (c addr : Nat) : Bool := !(s.mark c addr).damaged

/-- A partial write waits for the handling of a damaged block (R206). -/
def State.writeWaits (s : State) (c addr : Nat) (b : List Byte) : State :=
  let m := s.mark c addr
  s.setMark c addr { m with waits := m.waits ++ [(addr % 4096, b)] }

/-! ### Content of blocks (Table 10.2) -/

/-- Content class of a block, a row of Table 10.2. -/
def State.contentClass (s : State) (c addr : Nat) : Nat :=
  let b := addr / 4096 * 4096
  match s.job? c with
  | none => 9
  | some j =>
    let within (lo n : Nat) : Bool := decide (lo < b + 4096) && decide (b < lo + n)
    let tens (t m : Nat) : Bool := match j.tensor? t with | some x => within (x.at_ m) x.bytes | none => false
    let setOf (l : Nat) : Bool := j.sets.any (fun d => d.kind == 0 && d.layer == l)
    let live (t l : Nat) : Bool := tens t (j.cur l)
    let images := j.layers.filter (fun d => live d.codesT d.layer)
    let serving := (j.sets.zip j.sstate).any (fun e => e.1.kind == 1 && tens e.1.serveT e.2.cur)
    let stagedServe := (j.sets.zip j.sstate).any (fun e => e.1.kind == 1 && tens e.1.serveT (1 - e.2.cur))
    let copies := 2 * roundBlock (320 * j.desc.tableLayers)
    let banks := j.sets.any (fun d => within d.bank (4096 * j.setBlocks d))
    let written := (List.range j.entries.length).any (fun e =>
      match j.entries[e]? with
      | some h => (j.run e).started && tens h.result h.mb
      | none => false)
    if images.any (fun d => !j.hewerOnly d.layer) then 1
    else if images != [] then 4
    else if j.layers.any (fun d => tens d.coefT 0) then 2
    else if j.layers.any (fun d => live d.gainT d.layer || (d.bias && live d.biasT d.layer)) || serving then 3
    else if j.layers.any (fun d => setOf d.layer && (tens d.codesT (1 - j.cur d.layer) || tens d.gainT (1 - j.cur d.layer) ||
        (d.bias && tens d.biasT (1 - j.cur d.layer)))) || stagedServe then 5
    else if within j.head.stockBase (4096 * j.head.stockFast) || within j.head.spillBase (4096 * j.head.stockSpill) || written then 5
    else if within j.desc.tableBase copies then 6
    else if banks || within j.freezeBase (4096 * j.imageBlocks) then 7
    else if within (j.freezeBase + 4096 * j.imageBlocks) (8192 * j.imageBlocks) then 8
    else 9

/-- A running job's step meets a damaged block that is not rebuilt. -/
def State.unsoundIf (s : State) (c : Nat) : State := s.on (s.jobActive c) (fun u => u.unsound c 2 0xFFFFFFFF)

/-- The handling of a damaged block is done: partial writes that waited for it take effect now (R206). -/
def State.settleBlock (s : State) (c addr : Nat) : State :=
  let m := s.mark c addr
  (s.setMark c addr { m with damaged := false, rebuild := false, waits := [] }).each m.waits (fun u w =>
    u.wrBytes c (addr / 4096 * 4096 + w.1) w.2)

/-- A stored block is damaged: what becomes of it (R342, Table 10.2). -/
def State.blockDamaged (s : State) (c addr : Nat) : State :=
  let k := s.contentClass c addr
  let slow := addr / 2 ^ 46 == 1
  let s1 := s.damageBlock c addr (if slow then 1 else 0) k
  match k with
  | 4 => (((s1.settleBlock c addr).unsoundIf c).modJob c (fun j => { j with
      sstate := (j.sets.zip j.sstate).map (fun e => if e.1.kind = 0 ∧ j.hewerOnly e.1.layer then { e.2 with lastL := [] } else e.2) }))
  | 5 => (s1.settleBlock c addr).unsoundIf c
  | 6 => s1.setMark c addr { s1.mark c addr with rebuild := false }
  | 7 => (s1.settleBlock c addr).on (s1.jobActive c) (fun u => u.jobRestart c)
  | 8 => s1.setMark c addr { s1.mark c addr with rebuild := false }
  | 9 => s1.loseBlock c addr
  | _ => s1

/-! ### Retired channels (R214) -/

/-- Addresses of the blocks of a claim in a tier. -/
def tierBase (slow : Bool) : Nat := if slow then 2 ^ 46 else 0

/-- Do the rows of a tier hold every allocation over its live channels (R210, R214)? -/
def State.absorbs (s : State) (slow : Bool) : Bool :=
  decide (((List.range 64).map (fun c => s.stripes c slow)).foldl (· + ·) 0 ≤ tierRows slow)

/-- Retire a channel: cause 0 by register, 1 by damaged blocks. The blocks that it held are damaged; every claim migrates to
the new channel count, claim 0 among them, and a migration under way resumes under it. -/
def State.retireChannel (s : State) (slow : Bool) (k cause : Nat) : State :=
  if (s.tier slow).retired.contains k then s
  else
    let lost := (0 :: claimNos).flatMap (fun c => ((List.range (s.heldBlocks c slow)).filter (fun b => s.channelOf c slow b == k)).map (fun b => (c, b)))
    let s1 := s.modTier slow (fun t => { t with retired := t.retired ++ [k], runs := t.runs.filter (fun e => e.1 != k) })
    let pg := chanPage slow k
    let off := if slow then Reg.MIL.CHAN_RETIRED else Reg.FTC.CHAN_RETIRED
    let s2 := ((s1.setFld pg off (chanNo slow k) (chanNo slow k) 1).raise pg 0).record 0x3005 (chanUnit slow k) none
      (items [if slow then 1 else 0, if slow then k else k / 32, if slow then 0 else k % 32, cause])
    let s3 := s2.each (lost.filter (fun x => !(s.mark x.1 (tierBase slow + 4096 * x.2)).lost)) (fun u x => u.blockDamaged x.1 (tierBase slow + 4096 * x.2))
    let s4 := s3.each (0 :: claimNos) (fun u c => u.on (!slow && decide (lost.any (fun x => x.1 == c))) (fun w => w.unsoundIf c))
    let s5 := s4.each (0 :: claimNos) (fun u c =>
      if (match (u.tier slow).active with | some (n, _) => n == c | none => false)
      then u.modLayout c slow (fun y => y.remap (u.tier slow).retired)
      else u.migrate slow c 2 k)
    let s6 := s5.showMigration slow
    s6.on (!s6.absorbs slow) (fun u => (u.setFn pg 4).selfLost)

/-- A completed pair on FTC.CHAN_RETIRE or MIL.CHAN_RETIRE with GO; a number that names no stack is ignored. -/
def State.chanRetireAct (s : State) (slow : Bool) (page v : Nat) : State × Bool :=
  let k := if slow then bits v 2 0 else bits v 4 0
  let chan := if slow then 6 * page + k else 32 * page + k
  if !bit v 8 || (slow && decide (6 ≤ k)) then
    refusedWrite s
  else done (s.retireChannel slow chan 0)

/-- CHAN_RETIRE (R214). -/
def execChanRetire (src : Source) (stack : Nat) (v : Word) (s : State) : Out :=
  perform (.chanRetire src stack v) s
    (s.guarded src (Page.FTC stack) Reg.FTC.CHAN_RETIRE v.toNat (fun u => u.chanRetireAct false stack v.toNat))

/-- SLOW_STACK_RETIRE (R214). -/
def execSlowStackRetire (src : Source) (page : Nat) (v : Word) (s : State) : Out :=
  perform (.slowStackRetire src page v) s
    (s.guarded src (Page.MIL page) Reg.MIL.CHAN_RETIRE v.toNat (fun u => u.chanRetireAct true page v.toNat))

/-! ### Reading and checking -/

/-- Blocks read and written count on the page of their channel. -/
def State.countRead (s : State) (slow : Bool) (k n : Nat) : State :=
  s.count64 (chanPage slow k) (if slow then Reg.MIL.READ_BLOCKS_LO else Reg.FTC.READ_BLOCKS_LO) 0 n
def State.countWrite (s : State) (slow : Bool) (k n : Nat) : State :=
  s.count64 (chanPage slow k) (if slow then Reg.MIL.WRITE_BLOCKS_LO else Reg.FTC.WRITE_BLOCKS_LO) 1 n

/-- The corrections that a stack reports for a read: how many there are is a free value (R232, R269, log 27). -/
def State.eccReport (s : State) (slow : Bool) (k : Nat) : State :=
  (s.count (chanPage slow k) (if slow then Reg.MIL.ECC_CORRECTED else Reg.FTC.ECC_CORRECTED) 2 (s.draw 8).toNat).drawn

/-- A read of a stored block whose check failed `fails` times: the second failure makes it damaged (R342), and the fourth
damaged block of a channel within one hour retires the channel. -/
def State.readBlock (s : State) (c addr fails : Nat) : State :=
  let slow := addr / 2 ^ 46 == 1
  let b := addr % 2 ^ 46 / 4096
  let k := s.channelOf c slow b
  let s1 := s.countRead slow k (1 + min 1 fails)
  let s2 := s1.on (decide (0 < fails)) (fun u =>
    u.count (chanPage slow k) (if slow then Reg.MIL.CHECK_FAILS else Reg.FTC.CHECK_FAILS) 3 (min 2 fails)) |>.eccReport slow k
  if fails < 2 ∨ (s.mark c addr).damaged ∨ (s.mark c addr).lost then s2
  else
    let s3 := s2.blockDamaged c (addr / 4096 * 4096)
    let recent := (s3.tier slow).damage.filter (fun e => decide (s.osc < e.2 + 3600000000000)) ++ [(k, s.osc)]
    let s4 := s3.modTier slow (fun t => { t with damage := recent })
    s4.on (decide (4 ≤ (recent.filter (fun e => e.1 == k)).length)) (fun u => u.retireChannel slow k 1)

/-- Blocks that a scrub pass of a tier reads. -/
def State.scrubTotal (s : State) (slow : Bool) : Nat := ((0 :: claimNos).map (fun c => s.heldBlocks c slow)).foldl (· + ·) 0

/-- Show the passes of both tiers in SCRUB_DONE, in %. -/
def State.showScrub (s : State) : State :=
  let part (slow : Bool) : Nat := min 100 (100 * (s.tier slow).scrub / max 1 (s.scrubTotal slow))
  s.wr Page.INT Reg.INT.SCRUB_DONE (part false + 256 * part true)

/-- SCRUB_READ (R344): the check of an allocated block failed `fails` times. -/
def execScrubRead (c addr fails : Nat) (s : State) : Out :=
  perform (.scrubRead c addr fails) s
    (if !s.addrOk c (addr / 4096 * 4096) 4096 then s
    else
      let slow := addr / 2 ^ 46 == 1
      ((s.modTier slow (fun t => { t with scrub := t.scrub + 1 })).readBlock c addr fails).showScrub)

/-- SCRUB_PASS_END (R343): free entries of the lost lists take the unlisted LOST blocks of the tier. -/
def execScrubPassEnd (slow : Bool) (s : State) : Out :=
  perform (.scrubPassEnd slow) s
    (let s1 := (s.modTier slow (fun t => { t with scrub := 0 })).showScrub
    s1.each ((List.range 64).filter (fun c => (s.claim c).lostMore)) (fun u c =>
      let keys := (u.marks.filter (fun e => e.1 / 2 ^ 36 == c && e.2.lost && !e.2.listed &&
        (e.1 % 2 ^ 36 / 2 ^ 34 == (if slow then 1 else 0)))).map (·.1)
      let take := keys.take (256 - (u.claim c).lostList.length)
      let u1 := u.each take (fun w k => w.setMark c (k % 2 ^ 36 * 4096) { w.mark c (k % 2 ^ 36 * 4096) with listed := true })
      let more := u1.marks.any (fun e => e.1 / 2 ^ 36 == c && e.2.lost && !e.2.listed)
      (u1.modClaim c (fun x => { x with lostList := x.lostList ++ take.map (fun k => k % 2 ^ 36 * 4096), lostMore := more })).showLost c))

/-- Where a packet from one stope leaves the mesh: at its destination, or, for relay traffic, at the rail stop of the row that
bits [16:12] of the block's address give, in the column of its destination (R25). -/
def landingStop (dst addr : Nat) (relay : Bool) : Nat := if relay then relayStop addr dst else dst

/-- BLOCK_ARRIVAL (R340, R341): a block reached a unit on the mesh, way.hop routers after its source, after `fails` failed checks;
the fourth is charged to the stope of the sending router, which the route gives (R23). -/
def execBlockArrival (way : MeshHop) (c addr fails : Nat) (s : State) : Out :=
  perform (.blockArrival way c addr fails) s
    (let n := min 4 fails
    let p := sendingRouter way.src (landingStop way.dst addr way.relay) way.hop
    let s1 := s.on (decide (0 < n)) (fun u => u.count Page.INT Reg.INT.HOP_FAILS 3 n)
    if n < 4 then s1
    else
      let s2 := (s1.stopeFailure p 7).record 0x7003 (Src.stope p) (some c) (items [2, addr / 4096 * 4096, c, s.contentClass c addr])
      s2.unsoundIf c)

end Sys2Proof.Machine
end

