-- ==== Sys2Proof/Machine/Loading.lean ====
section
/-!
DEFINITION. What LOAD checks (R176): the job descriptor and hoist table (Tables 5.2, 5.4 to 5.6), the placement
(R215 to R222, R328), the numerics settings (R142) and the master-set descriptors (R237, R238); and the headroom rule
(R52).
-/

namespace Sys2Proof.Machine

/-! ### The job descriptor (Table 5.2) -/

def descOf (b : List Byte) : JobDesc :=
  { train := bit (slice b 4 4) 0, placement := slice b 8 8, hoist := slice b 0x10 8, fixed := slice b 0x18 4, free := slice b 0x1C 4
    seed := slice b 0x20 16, zgLimit := slice b 0x30 2, offsetUnit := slice b 0x32 1, tableLayers := slice b 0x34 2
    tableBase := slice b 0x38 8, ckptK := slice b 0x40 4, micro := slice b 0x44 4, startStep := slice b 0x48 8, ckptBase := slice b 0x50 8 }

/-- Reason 1: CHECK, reserved fields and ranges of the descriptor. -/
def descOk (b : List Byte) : Bool :=
  b.length == 256 && slice b 0xFC 4 == crc32c (b.take 0xFC) && slice b 0 4 == 1 && decide (slice b 4 4 < 2) && slice b 0x33 1 == 0 &&
    slice b 0x36 2 == 0 && slice b 0x58 164 == 0 && decide (slice b 0x32 1 ≤ 4) && slice b 0x10 8 % 4096 == 0 && slice b 0x44 4 != 0

/-- Bytes of the claim's memory as the device itself reads them: zeros for an access that R204 refuses. -/
def State.fetchBytes (s : State) (c addr n : Nat) : List Byte := if s.addrOk c addr n then s.rdBytes c addr n else List.replicate n 0

/-- A refused read of the device (R204): event 0x3008, source 4 for the device itself. -/
def State.noteRange (s : State) (c addr n : Nat) : State :=
  if n = 0 ∨ s.addrOk c addr n then s else s.record 0x3008 Src.deputy (some c) (items [c, addr, 4, 0])

/-! ### The hoist table (Tables 5.4 to 5.6) -/

/-- An entry and its words 1 to 3 as they stand. -/
def entryOf (b : List Byte) : HoistE × Nat :=
  let w := slice b 4 4
  ({ launch := slice b 0 4, action := bits w 7 0, tkind := bits w 11 8, ref := bit w 16, ideal := bit w 17, serve := bit w 18
     recompute := bit w 19, notify := bit w 20, target := slice b 8 8, a := slice b 16 4, b := slice b 20 4, result := slice b 24 4
     layer := slice b 28 2, mb := slice b 30 2 }, w)

/-- The entries of a job's table with their words 1. -/
def State.tableOf (s : State) (c : Nat) (d : JobDesc) : List (HoistE × Nat) :=
  (List.range (d.fixed + d.free)).map (fun i => entryOf (s.fetchBytes c (d.hoist + 32 * i) 32))

/-- Actions that a free entry may not have, and the target kinds of an action (Table 5.5). -/
def fixedOnly (a : Nat) : Bool := [0, 5, 6, 7, 9, 10, 11].contains a
def kindsOf (a : Nat) : List Nat :=
  match a with
  | 0 => [1, 4] | 1 => [0, 1] | 2 => [0] | 3 => [0] | 4 => [0, 1] | 5 => [2] | 6 => [2] | 7 => [2] | 8 => [3] | 9 => [4]
  | 10 => [1] | 11 => [1] | _ => []

/-- Words 2 and 3 by target kind (Table 5.6). -/
def targetOk (h : HoistE) : Bool :=
  let lo := h.target % 2 ^ 32
  let hi := h.target / 2 ^ 32
  match h.tkind with
  | 1 => bits lo 15 10 == 0 && bits lo 31 26 == 0 && decide (bits lo 9 0 ≤ bits lo 25 16) && decide (hi < 65536) && (h.action == 1 || hi == 0)
  | 2 => decide (lo < 4096) && hi == 0
  | _ => lo == 0 && hi == 0

/-- Flags of word 1 (Table 5.4, R176). -/
def flagsOk (h : HoistE) (train : Bool) : Bool :=
  (h.action == 1 || !(h.ref || h.ideal || h.recompute)) && (!h.ideal || h.ref) && (!h.serve || h.action == 1 || h.action == 4) &&
    (train || !([2, 3, 7, 8].contains h.action || ((h.action == 1 || h.action == 4) && !h.serve)))

/-- Durations (Table 5.5, R176) and operands that are zero. -/
def durationOk (h : HoistE) (unit limit : Nat) : Bool :=
  let rest := h.b == 0 && h.result == 0
  match h.action with
  | 0 => rest && decide (1 ≤ h.a) && decide (h.a ≤ 1000000)
  | 9 => rest && h.a == 0
  | 10 => rest && decide (1 ≤ h.a) && decide (h.launch * 2 ^ unit + h.a ≤ limit)
  | 11 => rest && decide (1 ≤ h.a) && decide (h.launch * 2 ^ unit + h.a ≤ limit)
  | _ => true

/-- Reason 3, the target of SEAM_PASS apart: an entry of Tables 5.4 and 5.5, marked free exactly where it stands among the
free entries. -/
def entryOk (d : JobDesc) (limit i : Nat) (x : HoistE × Nat) : Bool :=
  let h := x.1
  decide (h.action ≤ 11) && (kindsOf h.action).contains h.tkind && bits x.2 15 12 == 0 && bits x.2 31 21 == 0 &&
    (h.launch == 0xFFFFFFFF) == decide (d.fixed ≤ i) && (decide (i < d.fixed) || !fixedOnly h.action) && targetOk h && flagsOk h d.train &&
    durationOk h d.offsetUnit limit

/-- A refusal of LOAD: its reason and the first offending entry. -/
abbrev Why := Nat × Nat

/-- Reason 2: the first fixed entry out of order or at or beyond P. -/
def orderFault (d : JobDesc) (period : Nat) (l : List (HoistE × Nat)) : Option Why :=
  let f := (l.take d.fixed).map (fun x => x.1.launch)
  ((List.range f.length).find? (fun i =>
    decide (period ≤ nth 0 f i * 2 ^ d.offsetUnit) || (decide (0 < i) && decide (nth 0 f i < nth 0 f (i - 1))))).map (fun i => (2, i))

/-- Reason 5: exactly one SEAL, at offset P − W. -/
def sealFault (d : JobDesc) (limit : Nat) (l : List (HoistE × Nat)) : Option Why :=
  let at9 := (List.range l.length).filter (fun i => match l[i]? with | some x => x.1.action == 9 | none => false)
  match at9 with
  | [] => some (5, 0xFFFFFFFF)
  | [i] => match l[i]? with
    | some x => if x.1.launch * 2 ^ d.offsetUnit = limit then none else some (5, i)
    | none => none
  | _ :: i :: _ => some (5, i)

/-! ### The placement (R215 to R219) -/

def headOf (b : List Byte) : PlaceH :=
  { layers := slice b 4 4, tensors := slice b 8 4, vectors := slice b 0x0C 4, layerBase := slice b 0x10 8, tensorBase := slice b 0x18 8
    stockBase := slice b 0x20 8, stockFast := slice b 0x28 4, stockSpill := slice b 0x2C 4, spillBase := slice b 0x30 8
    stockHigh := slice b 0x38 1, bufResident := slice b 0x3C 4 }

/-- CHECK, reserved fields and ranges of the header (Table 6.2). -/
def headOk (b : List Byte) : Bool :=
  let h := headOf b
  slice b 0x7C 4 == crc32c (b.take 0x7C) && slice b 0 4 == 1 && decide (1 ≤ h.layers) && decide (h.layers ≤ 65535) &&
    decide (1 ≤ h.vectors) && decide (h.vectors ≤ 65536) && slice b 0x39 3 == 0 && slice b 0x40 60 == 0 && decide (h.stockHigh ≤ 63) &&
    h.stockBase % 4096 == 0 && h.bufResident % 4096 == 0 && decide (h.bufResident ≤ 2 ^ 21)

def layerOf (b : List Byte) : LayerD :=
  let f := slice b 3 1
  { layer := slice b 0 2, act := slice b 2 1, bias := bit f 0, stashIn := bit f 1, maxPool := bit f 2, inputs := slice b 4 4
    outputs := slice b 8 4, pool := slice b 0x0C 1, outFmt := slice b 0x0D 1, dwPolicy := slice b 0x0E 1, p0 := slice b 0x10 4
    p1 := slice b 0x14 4, inT := slice b 0x18 4, outT := slice b 0x1C 4, codesT := slice b 0x20 4, coefT := slice b 0x24 4
    gainT := slice b 0x28 4, biasT := slice b 0x2C 4, gzT := slice b 0x30 4, dwT := slice b 0x34 4, reuse := slice b 0x38 4
    seamMapT := slice b 0x3C 4 }

/-- Reserved fields and encodings of a layer descriptor (Table 6.3). -/
def layerOk (b : List Byte) : Bool :=
  decide (slice b 2 1 ≤ 8) && decide (slice b 3 1 < 8) && [1, 2, 4, 8].contains (slice b 0x0C 1) && decide (slice b 0x0D 1 ≤ 4) &&
    slice b 0x0F 1 == 0

def tensorOf (b : List Byte) : TensorD :=
  { addr := slice b 0 8, bytes := slice b 8 8, dim0 := slice b 0x10 4, dim1 := slice b 0x14 4, fmt := slice b 0x18 1
    orient := bit (slice b 0x19 1) 0, e := signed 8 (slice b 0x1A 1), stride := slice b 0x1C 4 }

/-- Reserved fields and encodings of a tensor entry (Table 6.4). -/
def tensorOk (b : List Byte) : Bool :=
  decide (slice b 0x18 1 ≤ 7) && decide (slice b 0x19 1 < 2) && slice b 0x1B 1 == 0 && slice b 0 8 % 4096 == 0

/-- Activation parameters that R104 refuses. -/
def actRefused (d : LayerD) : Bool :=
  match d.act with
  | 2 => !isFin32 d.p0 || (!d.stashIn && (neg32 d.p0 || isZero32 d.p0))
  | 5 => !isFin32 d.p0 || (!d.stashIn && (neg32 d.p0 || isZero32 d.p0))
  | 7 => !isFin32 d.p0 || !isFin32 d.p1 || lt32 d.p1 d.p0
  | _ => false

/-- Forward vectors through a layer per step (Table 6.3). -/
def Job.reuseOf (j : Job) (d : LayerD) : Nat := if d.reuse = 0 then j.head.vectors * j.desc.micro else d.reuse

def LayerD.seams (d : LayerD) : Nat := d.rowBlocks * d.colBlocks

abbrev mapAssign : Nat := 0xFFFFFFFF
abbrev mapHewer : Nat := 0xFFFFFFFE

/-- The seam map of a layer as the placement gives it (R219). -/
def State.givenMap (s : State) (c : Nat) (j : Job) (d : LayerD) : List Nat :=
  match (if d.seamMapT = 0xFFFFFFFF then none else j.tensor? d.seamMapT) with
  | some t => (List.range d.seams).map (fun k => leNat (s.fetchBytes c (t.at_ 0 + 4 * k) 4))
  | none => List.replicate d.seams mapAssign

/-- Is a map free of mixtures with 0xFFFF_FFFE (R219)? -/
def mapOk (m : List Nat) : Bool := m.all (· == mapHewer) || !m.contains mapHewer

/-- Entries of a map that name a seam. -/
def named (m : List Nat) : List Nat := m.filter (fun w => w != mapAssign && w != mapHewer)

/-- What the assignment works with: the layers with their maps, in placement order. -/
abbrev Maps := List (LayerD × List Nat)

/-- Layers made hewer-only, one at a time, until the rest fit in the free seams (R221): ascending REUSE, then descending
seam count, then descending layer number. -/
def hewerChoice (j : Job) (space : Nat) (l : Maps) : List Nat :=
  let open_ := l.filter (fun x => x.2.contains mapAssign)
  let sorted := open_.mergeSort (fun a b =>
    let ra := j.reuseOf a.1
    let rb := j.reuseOf b.1
    decide (ra < rb) || (ra == rb && (decide (b.1.seams < a.1.seams) || (a.1.seams == b.1.seams && decide (b.1.layer ≤ a.1.layer)))))
  (sorted.foldl (fun (a : Nat × List Nat) x => if a.1 ≤ space then a else (a.1 - x.1.seams, a.2 ++ [x.1.layer]))
    ((open_.map (fun x => x.1.seams)).foldl (· + ·) 0, [])).2

/-- Fill the entries of a map that ask for a seam from a list of free seams. -/
def fillMap : List Nat → List Nat → List Nat × List Nat
  | [], free => ([], free)
  | w :: t, free =>
    if w = mapAssign then
      match free with
      | q :: rest => let r := fillMap t rest; (q :: r.1, r.2)
      | [] => let r := fillMap t []; (w :: r.1, r.2)
    else let r := fillMap t free; (w :: r.1, r.2)

/-- Seam maps as the device assigns them (R220, R221), and the layers that it made hewer-only. `space` lists the claim's
seams as map entries in ascending ordinal and seam order. -/
def assignMaps (j : Job) (space : List Nat) (l : Maps) : Maps × List Nat :=
  let pinned := (l.filter (fun x => !x.2.contains mapAssign)).flatMap (fun x => named x.2)
  let chosen := hewerChoice j (space.length - pinned.length) l
  let l1 := l.map (fun x => if chosen.contains x.1.layer then (x.1, x.2.map (fun _ => mapHewer)) else x)
  let used := l1.flatMap (fun x => named x.2)
  let order := (l1.filter (fun x => x.2.contains mapAssign)).mergeSort (fun a b =>
    decide (j.reuseOf b.1 < j.reuseOf a.1) || (j.reuseOf a.1 == j.reuseOf b.1 && decide (a.1.layer ≤ b.1.layer)))
  let filled := (order.foldl (fun (a : Maps × List Nat) x => let r := fillMap x.2 a.2; (a.1 ++ [(x.1, r.1)], r.2))
    (([] : Maps), space.filter (fun q => !used.contains q))).1
  (l1.map (fun x => match filled.find? (fun y => y.1.layer == x.1.layer) with | some y => y | none => x), chosen)

/-! ### Extents (R218, R222) -/

/-- Does a span lie within the claim's regions (Table 6.1, R222)? How far it reaches into a tier is for the shortfalls. -/
def Job.inRegions (j : Job) (stopes : Nat) (x : Nat × Nat) : Bool :=
  let last := max x.1 (x.2 - 1)
  x.1 / 2 ^ 46 == last / 2 ^ 46 && (match x.1 / 2 ^ 46 with
    | 0 => true
    | 1 => true
    | 2 => x.1 / 2 ^ 32 % 2 ^ 14 == 0 && decide (x.1 / 2 ^ 22 % 2 ^ 10 < stopes) && decide (x.1 % 2 ^ 22 + (x.2 - x.1) ≤ j.head.bufResident)
    | _ => false)

/-- Do two spans share a byte? -/
def overlap (a b : Nat × Nat) : Bool := decide (a.1 < b.2) && decide (b.1 < a.2) && decide (a.1 < a.2) && decide (b.1 < b.2)

/-- Does a span lie wholly within another? -/
def inside (a b : Nat × Nat) : Bool := decide (b.1 ≤ a.1) && decide (a.2 ≤ b.2)

/-- Bytes of the instances of tensor t. -/
def Job.instanceSpans (j : Job) (t : Nat) (x : TensorD) : List (Nat × Nat) :=
  (List.range (j.instances t x)).map (fun m => (x.at_ m, x.at_ m + x.bytes))

/-- Is tensor a a slice of tensor b: each instance wholly within the bytes of an instance (R329)? -/
def Job.sliceOf (j : Job) (a b : Nat × TensorD) : Bool :=
  (j.instanceSpans a.1 a.2).all (fun x => (j.instanceSpans b.1 b.2).any (inside x))

/-- Is a test true of some pair of different elements? -/
def anyPair {α : Type} (f : α → α → Bool) : List α → Bool
  | [] => false
  | x :: t => t.any (f x) || anyPair f t

/-- Spans of the tensors, and of the stockpile and the spill area. -/
def Job.tensorSpans (j : Job) : List (Nat × Nat) := ((List.range j.tensors.length).zip j.tensors).map (fun x => j.extent x.1 x.2)
def Job.areas (j : Job) : List (Nat × Nat) :=
  [(j.head.stockBase, j.head.stockBase + 4096 * j.head.stockFast), (j.head.spillBase, j.head.spillBase + 4096 * j.head.stockSpill)]

/-- Regions and overlaps of R222: a slice of a tensor is no overlap (R329). -/
def Job.spansOk (j : Job) (stopes : Nat) : Bool :=
  let ts := j.tensorSpans
  let as_ := j.areas
  ts.all (j.inRegions stopes) && as_.all (fun a => a.1 == a.2 || j.inRegions stopes a) &&
    (j.head.stockFast == 0 || j.head.stockBase / 2 ^ 46 == 0) && (j.head.stockSpill == 0 || j.head.spillBase / 2 ^ 46 == 1) &&
    !anyPair (fun a b => overlap (j.extent a.1 a.2) (j.extent b.1 b.2) && !j.sliceOf a b && !j.sliceOf b a)
      ((List.range j.tensors.length).zip j.tensors) && !(ts.any (fun a => as_.any (overlap a))) && !anyPair overlap as_

/-- Blocks that the placement needs of the fast tier, and of the slow tier (R222, R266). -/
def Job.fastNeed (j : Job) : Nat :=
  let ends := (j.tensorSpans ++ j.areas).filter (fun x => x.1 / 2 ^ 46 == 0 && decide (x.1 < x.2))
  ceilDiv (ends.foldl (fun a x => max a x.2) 0) 4096
def Job.slowReq (j : Job) : Nat :=
  j.slowEnd + 3 * j.imageBlocks

/-! ### Master-set descriptors (Table 7.1) -/

def setOf (b : List Byte) (t : Nat) : SetD :=
  { id := t, kind := slice b 4 1, opt := slice b 5 1, layer := slice b 8 4, rows := slice b 0x0C 4, dim := slice b 0x10 4, bank := slice b 0x18 8
    serveT := slice b 0x20 4, initT := slice b 0x24 4, gradScale := slice b 0x28 4, beta1 := slice b 0x30 4, beta2 := slice b 0x34 4
    eps := slice b 0x38 4, lambda := slice b 0x3C 4, a0 := slice b 0x40 4
    knots := (List.range (min 8 (slice b 0x2C 4))).map (fun k => (slice b (0x50 + 16 * k) 8, slice b (0x58 + 16 * k) 4)) }

/-- A binary32 word of at least 0, and one below 1. -/
def atLeast0 (w : Nat) : Bool := !isNan32 w && (!neg32 w || isZero32 w)
def below1 (w : Nat) : Bool := atLeast0 w && lt32 w 0x3F800000

/-- The first nonzero byte of a reserved field of n bytes, with the field's value. -/
def zeroField (b : List Byte) (off n : Nat) : Option (Nat × Nat) :=
  ((List.range n).find? (fun i => slice b (off + i) 1 != 0)).map (fun i => (off + i, slice b off n))

/-- A field that fails a test: its offset and value. -/
def badField (b : List Byte) (off n : Nat) (ok : Bool) : Option (Nat × Nat) := if ok then none else some (off, slice b off n)

/-- First offending byte of a master-set descriptor, and the value of its field (R238). -/
def setFault (j : Job) (b : List Byte) : Option (Nat × Nat) :=
  let d := setOf b 0
  let emb := d.kind == 1
  let n := slice b 0x2C 4
  let fmtOf (t f : Nat) : Bool := match j.tensor? t with | some x => x.fmt == f | none => false
  let serveOk := match j.tensor? d.serveT with | some x => x.fmt == fmtF32 && x.dim0 == d.rows && x.dim1 == d.dim | none => false
  let knot (k : Nat) : List (Option (Nat × Nat)) :=
    let o := 0x50 + 16 * k
    if k < n then
      [badField b o 8 (k == 0 || decide (slice b (o - 16) 8 < slice b o 8)), badField b (o + 8) 4 (isFin32 (slice b (o + 8) 4) && atLeast0 (slice b (o + 8) 4)),
       zeroField b (o + 12) 4]
    else [zeroField b o 16]
  let tests : List (Option (Nat × Nat)) :=
    [badField b 0 4 (slice b 0 4 == 1), badField b 4 1 (decide (d.kind < 2)), badField b 5 1 (if emb then d.opt == 2 else decide (d.opt < 2)),
     zeroField b 6 2, badField b 8 4 (if emb then d.layer == 0xFFFFFFFF else (j.layer? d.layer).isSome),
     badField b 0x0C 4 (if emb then decide (1 ≤ d.rows) && decide (d.rows ≤ 2 ^ 26) else d.rows == 0),
     badField b 0x10 4 (if emb then decide (64 ≤ d.dim) && decide (d.dim ≤ 1024) && d.dim % 64 == 0 else d.dim == 0), zeroField b 0x14 4,
     badField b 0x18 8 (d.bank % 4096 == 0 && d.bank / 2 ^ 46 == 1), badField b 0x20 4 (if emb then serveOk else d.serveT == 0xFFFFFFFF),
     badField b 0x24 4 (d.initT == 0xFFFFFFFF || fmtOf d.initT fmtF32), badField b 0x2C 4 (decide (1 ≤ n) && decide (n ≤ 8)),
     badField b 0x30 4 (below1 d.beta1), badField b 0x34 4 (if d.opt = 1 then below1 d.beta2 else d.beta2 == 0),
     badField b 0x38 4 (atLeast0 d.eps), badField b 0x3C 4 (if emb then d.lambda == 0 else atLeast0 d.lambda),
     badField b 0x40 4 (if emb then atLeast0 d.a0 else d.a0 == 0), zeroField b 0x44 12]
    ++ (List.range 8).flatMap knot ++ [zeroField b 0xD0 44, badField b 0xFC 4 (slice b 0xFC 4 == crc32c (b.take 0xFC))]
  tests.findSome? (fun x => x)

/-- The master sets that a table names: RESULT of its MILL_PUSH entries in order of their first (R237). -/
def setIds (l : List HoistE) : List Nat := ((l.filter (fun h => h.action == 8)).map (fun h => h.result)).eraseDups

/-- Bytes of a set descriptor: a tensor of FORMAT 7 of 256 bytes. -/
def State.setBytes (s : State) (c : Nat) (j : Job) (t : Nat) : List Byte :=
  match j.tensor? t with
  | some x => if x.fmt = 7 ∧ x.bytes = 256 then s.fetchBytes c (x.at_ 0) 256 else List.replicate 256 0
  | none => List.replicate 256 0

/-- Why the sets refuse the placement: the index of the set, the offset and the value (R238). `j` holds the sets. -/
def State.setsFault (s : State) (c : Nat) (j : Job) : Option (Nat × Nat × Nat) :=
  let l := (List.range j.sets.length).zip j.sets
  let span (d : SetD) : Nat × Nat := (d.bank, d.bank + 4096 * j.setBlocks d)
  let others := j.tensorSpans ++ j.areas
  l.findSome? (fun x =>
    let d := x.2
    match setFault j (s.setBytes c j d.id) with
    | some f => some (x.1, f.1, f.2)
    | none =>
      let before := (l.take x.1).map (·.2)
      let two := match j.setLayer d with
        | some y => [y.codesT, y.gainT] ++ (if y.bias then [y.biasT] else [])
        | none => [d.serveT]
      if d.kind = 0 ∧ before.any (fun y => y.kind == 0 && y.layer == d.layer) then some (x.1, 8, d.layer)
      else if others.any (overlap (span d)) ∨ before.any (fun y => overlap (span y) (span d)) ∨ 2 ^ 47 < (span d).2 then some (x.1, 0x18, d.bank)
      else if two.any (fun t => match j.tensor? t with | some y => y.stride == 0 | none => true) then
        (if d.kind = 0 then some (x.1, 8, d.layer) else some (x.1, 0x20, d.serveT))
      else none)

/-! ### Numerics settings (R142) -/

/-- The first setting at fault as (field, value, layer): 2 ZG_LIMIT, 3 TABLE_BASE, 4 a layer number at or above TABLE_LAYERS,
5 DW_POLICY, in the order of Table 4.4. The layer is given where the refused value is a layer's (R161). -/
def State.numericsFault (s : State) (c : Nat) (j : Job) : Option (Nat × Nat × Option Nat) :=
  let d := j.desc
  if d.zgLimit ≠ 0 ∧ d.zgLimit < 8 then some (2, d.zgLimit, none)
  else if d.tableBase % 4096 ≠ 0 ∨ 2 ^ 48 ≤ d.tableBase ∨ !s.addrOk c d.tableBase (2 * roundBlock (320 * d.tableLayers)) then some (3, d.tableBase, none)
  else if d.tableLayers = 0 then some (4, 0, none)
  else match j.layers.find? (fun l => decide (d.tableLayers ≤ l.layer)) with
    | some l => some (4, l.layer, some l.layer)
    | none =>
      match j.layers.find? (fun l => decide (2 < l.dwPolicy)) with
      | some l => some (5, l.dwPolicy, some l.layer)
      | none => none

/-! ### Headroom (R52) -/

/-- H of column group g of an image of codes: the largest of the sums of positive levels and of magnitudes of negative
levels over its eight columns. -/
def State.headroom (s : State) (c base g : Nat) : Nat :=
  ((List.range 8).map (fun k =>
    let ls := (List.range 512).map (fun i => levelOf (s.rdCode c base i (8 * g + k)))
    let up : Int := ls.foldl (fun a w => if 0 < w then a + w else a) 0
    let dn : Int := ls.foldl (fun a w => if w < 0 then a - w else a) 0
    (max up dn).toNat)).foldl max 0

/-- Full scale of a range code, and the smallest range whose full scale is at least H (Table 2.3). -/
def fullScale (r : Nat) : Nat := 480 * 2 ^ r
def rangeFor (h : Nat) : Nat := if h ≤ 480 then 0 else if h ≤ 960 then 1 else if h ≤ 1920 then 2 else 3

/-- Range code of group g of seam k as the next seal shows it. -/
def State.nextRange (s : State) (lp k g : Nat) : Nat :=
  bits (s.nextWord (Page.STP lp) (Reg.STP.RANGE + 16 * k + 4 * (g / 16))) (2 * (g % 16) + 1) (2 * (g % 16))

def State.stageRange (s : State) (lp k g r : Nat) : State :=
  let off := Reg.STP.RANGE + 16 * k + 4 * (g / 16)
  s.stageWord (Page.STP lp) off (putBits (s.nextWord (Page.STP lp) off) (2 * (g % 16) + 1) (2 * (g % 16)) r)

/-- Record items of a seam of a logical stope. -/
def State.seamItems (s : State) (lp k : Nat) : List Item := [it 0xF0 lp, it 0xF1 (s.serving lp), it 0xF2 k]

/-- A range changes (Tables 2.10 and 2.12). -/
def State.changeRange (s : State) (c lp k g old new h : Nat) : State :=
  if old = new then s
  else ((s.stageRange lp k g new).stageEvent (Page.STP lp) 2).record 0x1002 (Src.stope (s.serving lp)) (some c)
    (items [g, old, new, h] ++ s.seamItems lp k)

/-- The bit of HEADROOM_LIMIT of a seam follows its groups (R52, Table 2.11). -/
def State.limitSeam (s : State) (c lp k : Nat) (hs : List (Nat × Nat)) : State :=
  let hi := hs.filter (fun x => decide (3840 < x.2))
  let w := s.nextWord (Page.STP lp) Reg.STP.HEADROOM_LIMIT
  let s1 := s.stageWord (Page.STP lp) Reg.STP.HEADROOM_LIMIT (putBits w k k (if hi = [] then 0 else 1))
  let s2 := s1.on (hi != [] && !bit w k) (fun u => u.stageEvent (Page.STP lp) 3)
  s2.each hi (fun u x => u.record 0x1003 (Src.stope (s.serving lp)) (some c) (items [x.1, x.2] ++ s.seamItems lp k))

/-- The headroom rule for one seam: with `seal`, a range falls by one code once H has been no more than three quarters of
the lower range's full scale at 8 consecutive seals. The seals are counted for the seam of the logical stope. Range 0 is left
where the stope that serves has it withdrawn (R298, R570). -/
def State.applyHeadroom (s : State) (c lp k base : Nat) (atSeal : Bool) : State :=
  let p := s.serving lp
  if 1056 ≤ p then s
  else
    let hs := (List.range 64).map (fun g => (g, s.headroom c base g))
    let least := if (s.stope p).range0Off then 1 else 0
    let s1 := s.each hs (fun u x =>
      let old := u.nextRange lp k x.1
      let n := Sparse.get 0 (u.arr p k).low x.1
      let setLow (w : State) (v : Nat) : State := w.modArr p k (fun y => { y with low := Sparse.set 0 y.low x.1 v })
      if fullScale old < x.2 ∨ old < least then (setLow u 0).changeRange c lp k x.1 old (max least (rangeFor x.2)) x.2
      else if atSeal ∧ least < old ∧ 4 * x.2 ≤ 3 * fullScale (old - 1) then
        if 7 ≤ n then (setLow u 0).changeRange c lp k x.1 old (old - 1) x.2 else setLow u (n + 1)
      else setLow u 0)
    s1.limitSeam c lp k hs

/-- The headroom rule over every placed seam of a job, with instance `inst` of each layer's codes. -/
def State.jobHeadroom (s : State) (c : Nat) (j : Job) (atSeal : Bool) (inst : LayerD → Nat) : State :=
  s.each j.layers (fun u d =>
    u.each (List.range d.seams) (fun w n =>
      match j.seamAt d.layer (n / d.rowBlocks) (n % d.rowBlocks) with
      | some q => w.applyHeadroom c q.1 q.2 (j.codesBase d (inst d) n) atSeal
      | none => w))

end Sys2Proof.Machine
end

