-- ==== Sys2Proof/Machine/Seam.lean ====
section
/-!
DEFINITION. Seams: starting a pass (R59, R68, R69), reading vectors plane by plane (R44 to R48), saturation and split
re-reads (R53, R54), column values (R55), chains (R56), the head collar (R57 to R61), witness checks (R64, R65), range
rechecks (R347), zero vectors (R63) and hewer relief tiles (R283).
-/

namespace Sys2Proof.Machine

/-! ### Starting a pass -/

/-- Does a STOPES target name seam k of logical stope lp (Table 5.6)? -/
def HoistE.covers (h : HoistE) (lp k : Nat) : Bool :=
  decide (bits h.target 9 0 ≤ lp) && decide (lp ≤ bits h.target 25 16) && bit h.target (32 + k)

/-- The column and row blocks of a layer that a target covers. -/
def Job.covered (j : Job) (h : HoistE) (d : LayerD) : List (Nat × Nat) :=
  (List.range (d.colBlocks * d.rowBlocks)).map (fun n => (n / d.rowBlocks, n % d.rowBlocks)) |>.filter (fun x =>
    match j.seamAt d.layer x.1 x.2 with
    | some q => h.covers q.1 q.2
    | none => false)

/-- Column blocks whose head seam the target covers: what the pass outputs. -/
def Job.heads (j : Job) (h : HoistE) (d : LayerD) : List Nat :=
  ((j.covered h d).filter (fun x => x.2 == 0)).map (·.1)

/-- State of a seam in STP.SEAM_STATE (Table 2.11). -/
def State.seamState (s : State) (lp k : Nat) : Nat := s.fld (Page.STP lp) Reg.STP.SEAM_STATE (2 * k + 1) (2 * k)

/-- Is the seam LOCKED, or of a stope that another claim owns (R69)? -/
def State.seamRefused (s : State) (c lp k : Nat) : Bool := s.seamState lp k == 3 || s.ownerOf lp != c

/-- A pass is refused on a locked or foreign seam (R69). -/
def State.refuseSeam (s : State) (c e lp k launch : Nat) : State :=
  let p := s.serving lp
  let s1 := s.record 0x1005 (Src.stope p) (some c) (items [launch, c] ++ s.stopeItems p ++ [it 0xF2 k])
  (s1.on (s.ownerOf lp != c) (fun u => u.record 0x8004 (Src.stope p) (some c) (items [3, Page.STP lp, 0, 0]))).unsound c 8 e

/-- Queue a pass on the seams that it covers, whichever array serves them (R69). Seams that are CLOSED take none: hewer relief
serves them (R283). -/
def State.queuePass (s : State) (c e : Nat) (d : LayerD) (blocks : List (Nat × Nat)) (first upto : Nat) (again : Bool) : State :=
  s.each blocks (fun u x =>
    match (u.job? c).bind (fun j => j.seamAt d.layer x.1 x.2) with
    | none => u
    | some q =>
      match u.actor q.1 with
      | none => u
      | some p =>
        if u.seamClosed q.1 q.2 then u
        else u.modArr p q.2 (fun a =>
          let w : SeamJob := { claim := c, entry := e, layer := d.layer, cb := x.1, rb := x.2, next := first, upto := upto, again }
          { a with job := a.job ++ [w] }))

/-- The stash of a training pass is being formed (R223). -/
def State.beginStashOf (s : State) (c : Nat) (h : HoistE) (d : LayerD) : State :=
  match s.job? c with
  | none => s
  | some j =>
    if h.serve || !j.desc.train then s
    else
      let kept := j.stashes.filter (fun x => !(x.layer == d.layer && x.mb == h.mb))
      s.setJob c { j with stashes := kept ++ [j.formStash d h.mb (s.appliedBytes c j h.a h.mb (j.dim0 h.a) d.inputs)] }

/-- A pass whose vector count is not a multiple of P is refused (R59): the stope of its first head seam records it, where it
runs on seams (R70). -/
def State.refusePool (s : State) (c e launch vecs pool : Nat) (seam : Option (Nat × Nat)) : State :=
  (match seam with
  | some q => s.record 0x1006 (Src.stope (s.serving q.1)) (some c) (items [launch, vecs, pool] ++ s.stopeItems (s.serving q.1) ++ [it 0xF2 q.2])
  | none => s.record 0x1006 Src.deputy (some c) (items [launch, vecs, pool])).unsound c 8 e

/-- SEAM_PASS on the seams or, for a hewer-only layer or a reference pass, on the hewers (R68, R117, R118). Its outputs
are one for each column block and vector, or one for each tile; a training pass also has its stash to write. -/
def State.seamPass (s : State) (c e : Nat) : State :=
  match s.hoistFor c e 1 with
  | none => s
  | some (j, h) =>
    match j.layer? h.layer with
    | none => s
    | some d =>
      let vecs := j.dim0 h.a
      let stash := if h.serve || !j.desc.train then 0 else 1
      if h.recompute then
        if j.marked h.layer h.mb && (j.stash? h.layer h.mb).isNone then
          (s.startRun c e h 1).on (j.recomp.isNone && j.runsFreed h.mb) (fun u => u.startRecompute c h.mb [h.layer])
        else (s.startRun c e h 0).hoistDone c e
      else if !s.operandReady c j e h h.a h.mb then s.waitRun c e h
      else if d.pool ≠ 0 ∧ vecs % d.pool ≠ 0 then (s.startRun c e h 1).refusePool c e h.launch vecs d.pool
        ((j.heads h d).head?.bind (fun cb => j.seamAt d.layer cb 0))
      else
        let s0 := s.readsTensor c e h.a h.mb h.serve
        if h.ref || j.hewerOnly h.layer then
          match j.geo h with
          | some g => ((s0.startRun c e h (g.tiles + stash)).beginStashOf c h d).queueUnits c e g
          | none => s
        else
          let blocks := j.covered h d
          match blocks.filterMap (fun x => (j.seamAt d.layer x.1 x.2).bind (fun q =>
              if s.seamRefused c q.1 q.2 then some q else none)) with
          | q :: _ => (s0.startRun c e h 1).refuseSeam c e q.1 q.2 h.launch
          | [] =>
            ((s0.startRun c e h ((j.heads h d).length * vecs + stash)).beginStashOf c h d).queuePass c e d blocks 0 vecs false

/-- SEAM_PASS (R68). -/
def execSeamPass (c e : Nat) (s : State) : Out := perform (.seamPass c e) s (s.seamPass c e)

/-! ### Reading a vector -/

/-- Range code in force of column group g of seam k of a logical stope (R50). -/
def State.rangeOf (s : State) (lp k g : Nat) : Nat :=
  s.fld (Page.STP lp) (Reg.STP.RANGE + 16 * k + 4 * (g / 16)) (2 * (g % 16) + 1) (2 * (g % 16))

/-- Converter gain and offset (plus 512) in force for a column and range (R51). -/
def Arr.convAt (a : Arr) (col range : Nat) : Nat × Nat := Sparse.get (0x8000, 512) a.conv (col * 4 + range)

/-- Planes of a vector with a bit set within some rows, from 6 down (R46). -/
def planesOf (bytes : List Nat) (first n : Nat) : List Nat :=
  [6, 5, 4, 3, 2, 1, 0].filter (fun p => ((bytes.drop first).take n).any (fun b => bit b p))

/-- Signed magnitude of an A8 byte. -/
def sm (b : Nat) : Int := if 128 ≤ b then -((b % 128 : Nat) : Int) else ((b % 128 : Nat) : Int)

/-- The 512 bytes that vector vec drives into row block rb (R44). -/
def State.inputBytes (s : State) (c : Nat) (j : Job) (h : HoistE) (d : LayerD) (rb vec : Nat) : List Nat :=
  let v := j.viewIn c h.a h.mb { fmt := fmtA8, beta := 0 }
  (List.range 512).map (fun i =>
    let col := rb * 512 + i
    if d.inputs ≤ col ∨ v.rows ≤ vec then 0 else (s.rdByte c (v.base + v.index vec col)).toNat)

/-- Exact value of column col of a row block from codes and coefficient image in force, 2^9 × Σ sm × s, in units of
2^−19 (R283, R294). -/
def State.exactColumn (s : State) (c : Nat) (j : Job) (d : LayerD) (rb col : Nat) (bytes : List Nat) : Int :=
  let inst := j.cur d.layer
  512 * (((List.range 512).zip bytes).foldl (fun a x =>
    if x.2 % 128 = 0 then a else a + sm x.2 * s.shadowAt c j d false inst (rb * 512 + x.1) col) 0)

/-- Is the work of a pass fixed (R182)? -/
def State.fixedPass (s : State) (w : SeamJob) : Bool :=
  match (s.job? w.claim).bind (fun j => j.work w.entry) with
  | some h => !h.free
  | none => false

/-- The pass that a seam reads next (R68, R115, R182): launched fixed work before free work at every vector boundary; among
those of one kind the pass that has begun goes on to its last vector, its own vectors to be read again first; otherwise a vector
to be read again, and then the first in the order of ready work. A fixed pass so parts a free one; no other two interleave
(log 69). -/
def State.nextPass (s : State) (a : Arr) : Option SeamJob :=
  let fixed := a.job.filter s.fixedPass
  let pool := if fixed = [] then a.job else fixed
  match pool.find? (fun w => !w.again && decide (0 < w.next)) with
  | some b => (pool.find? (fun w => w.again && w.claim == b.claim && w.entry == b.entry)).orElse (fun _ => some b)
  | none =>
    (pool.find? (·.again)).orElse (fun _ =>
      match pool with
      | [] => none
      | w :: l => some (l.foldl (fun (b : SeamJob) x => if s.orderKey x.claim x.entry < s.orderKey b.claim b.entry then x else b) w))

/-- Is a vector of a seam of a logical stope being read, in whichever array (R48)? -/
def State.seamBusy (s : State) (lp k : Nat) : Bool :=
  s.stopes.any (fun e => e.2.arrs.any (fun a => match a.2.vec with | some v => v.lp == lp && v.seam == k | none => false))

/-- May the array begin a vector: none under way in it, not CLOSED or out of service, no ASSAY_SLOT, test or clamp on its
stope? -/
def State.arrayFree (s : State) (p k : Nat) : Bool :=
  let a := s.arr p k
  let x := s.stope p
  a.vec.isNone && !a.closed && !a.assaying && !x.inSlot && !x.slotted && (s.seamOf p k).isSome && s.computeFree p

/-- A pass moves to its next vector and leaves the seam after its last one. -/
def Arr.advance (a : Arr) (w : SeamJob) : Arr :=
  let rest := a.job.erase w
  { a with job := if w.next + 1 < w.upto then { w with next := w.next + 1 } :: rest else rest }

/-- A vector of a pass leaves the queue of its seam, which counts it where it serves (R280). -/
def State.takeVector (s : State) (p seam : Nat) (w : SeamJob) (serve : Bool) : State :=
  s.modArr p seam (fun b => { (b.advance w) with served := b.served + (if serve then 1 else 0) })

/-- The governor withholds a free start of a seam (R194). -/
def Arr.withheld (a : Arr) (free : Bool) : Bool := free && govHolds a.allow

/-- The pass, entry and layer of the vector that an array may begin now, with its bytes. -/
def State.vectorAt (s : State) (p k : Nat) : Option (SeamJob × HoistE × LayerD × Job × List Nat) :=
  if !s.arrayFree p k then none
  else
    match s.nextPass (s.arr p ((s.seamOf p k).getD k)) with
    | none => none
    | some w =>
      match s.job? w.claim with
      | none => none
      | some j =>
        match j.work w.entry, j.layer? w.layer with
        | some h, some d =>
          if (s.sealing.phase = 0 ∨ h.serve) ∧ s.operandReady w.claim j w.entry h h.a h.mb then
            some (w, h, d, j, s.inputBytes w.claim j h d w.rb w.next)
          else none
        | _, _ => none

/-- Record the reserved code once for a hoist (R83). -/
def State.noteReserved (s : State) (c e p ix row col : Nat) : State :=
  match s.job? c with
  | none => s
  | some j =>
    if (j.run e).reserved then s
    else (s.modRun c e (fun r => { r with reserved := true })).record 0x2009 (Src.stope p) (some c)
      (items [j.launchOf e, ix, row, col] ++ s.stopeItems p)

/-- Record the reserved code where some columns of a row block's image hold it (R83): digital columns expand whole columns. -/
def State.noteColumns (s : State) (c e p : Nat) (j : Job) (d : LayerD) (cb rb : Nat) (cols : List Nat) : State :=
  let base := j.codesBase d (j.cur d.layer) (cb * d.rowBlocks + rb)
  let rows := List.range (min 512 (d.inputs - rb * 512))
  match (rows.flatMap (fun r => cols.map (fun q => (r, q)))).find? (fun x => s.rdCode c base x.1 x.2 == 16) with
  | some x => s.noteReserved c e p (cb * d.rowBlocks + rb) x.1 x.2
  | none => s

/-- VECTOR_READ (R66): the array begins the vector, with the coefficients in force now (R67), once the last vector of its seam
has been read (R48). -/
def State.vectorRead (s : State) (p k : Nat) : State :=
  match s.vectorAt p k with
  | none => s
  | some (w, h, d, j, bytes) =>
    let planes := planesOf bytes 0 512
    let lp := (s.worksFor p).getD 0
    let seam := (s.seamOf p k).getD 0
    let a := s.arr p k
    if planes = [] ∨ s.seamBusy lp seam then s
    else if a.withheld h.free then s.count Page.HOI Reg.HOI.GOV_WITHHELD_SEAM 3 1
    else
      let coefs := (List.range 516).map (fun col =>
        let r := if col < 512 then s.rangeOf lp seam (col / 8) else 0
        ((a.convAt col r).1, (a.convAt col r).2, r))
      let digital := (a.unfit.take 4).filter (fun col => decide (w.cb * 512 + col < d.outputs))
      let vec : VecRead :=
        { job := w, vec := w.next, bytes := bytes, parts := [(0, 512)], split := false, deepest := 512, acc := [], band := []
          coefs := coefs, digital := digital.map (fun col => (col, s.exactColumn w.claim j d w.rb (w.cb * 512 + col) bytes))
          inst := j.cur w.layer, lp := lp, seam := seam }
      ((s.takeVector p seam w h.serve).modArr p k (fun b =>
        { b with vec := some vec, allow := b.allow - (planes.length * 40 * 256 : Nat) })).noteColumns w.claim w.entry p j d w.cb w.rb digital

/-- VECTOR_READ (R66). -/
def execVectorRead (p k : Nat) (s : State) : Out := perform (.vectorRead p k) s (s.vectorRead p k)

/-! ### The collar -/

/-- A failed witness check: witness column, plane, predicted level-units and the measured value in units of 2^−19. -/
structure WitFail where
  wit  : Nat
  plane : Nat
  pred : Int
  meas : Int
deriving DecidableEq, Repr

/-- Predicted witness sum of a plane (R64). -/
def witPredict (bytes : List Nat) (first n k plane : Nat) : Int :=
  ((List.range n).map (fun i => first + i)).foldl (fun a i =>
    let b := nth 0 bytes i
    if bit b plane then a + (if 128 ≤ b then -1 else 1) * witLevel k i else a) 0

/-- Corrected code in 1/16 LSB (R55). -/
def corrected (code : Int) (coef : Nat × Nat × Nat) : Int := 16 * code - ((coef.2.1 : Int) - 512)

/-- First failing witness check of a plane read (R64). -/
def witCheck (v : VecRead) (first n tol plane : Nat) (codes : List Int) : Option WitFail :=
  (List.range 4).findSome? (fun k =>
    let cf := nth (0x8000, 512, 0) v.coefs (512 + k)
    let m := corrected (nth 0 codes (512 + k)) cf * (cf.1 : Int)
    let pr := witPredict v.bytes first n k plane
    if (tol : Int) * 2 ^ 19 < ((m - pr * 2 ^ 19).natAbs : Int) then some { wit := k, plane := plane, pred := pr, meas := m } else none)

/-- The converter clips at ±511 and never produces −512 (R49). -/
def clipCode (code : Int) : Int := max (-511) (min 511 code)

/-- Is a conversion saturated (R53)? -/
def saturated (code : Int) (coef : Nat × Nat × Nat) : Bool :=
  code == 511 || code == -511 || decide (7680 < (corrected code coef).natAbs)

/-- Does any conversion of a plane read saturate? Digital columns never do (R294). -/
def planeSaturated (v : VecRead) (codes : List Int) : Bool :=
  (List.range 516).any (fun c => !(v.digital.any (fun x => x.1 == c)) && saturated (nth 0 codes c) (nth (0x8000, 512, 0) v.coefs c))

/-- √n in units of 2^−64 (R157). -/
def sqrtUnits (n : Nat) : Nat := isqrt (n * 2 ^ 128)

/-- Rows that a plane of a part drives. -/
def drivenRows (bytes : List Nat) (first n plane : Nat) : Nat := (((bytes.drop first).take n).filter (fun b => bit b plane)).length

/-- Add the planes of a part to the accumulations and to the terms of R157. -/
def addPlanes (v : VecRead) (first n : Nat) (reads : List (Nat × List Int)) : VecRead :=
  let acc0 := if v.acc = [] then List.replicate 512 0 else v.acc
  let band0 := if v.band = [] then List.replicate 512 0 else v.band
  let root := reads.map (fun r => (r.1, r.2, sqrtUnits (drivenRows v.bytes first n r.1)))
  { v with
    acc := ((List.range 512).zip acc0).map (fun x => root.foldl (fun a r =>
      a + corrected (nth 0 r.2.1 x.1) (nth (0x8000, 512, 0) v.coefs x.1) * 2 ^ r.1) x.2)
    band := ((List.range 512).zip band0).map (fun x => root.foldl (fun a r =>
      a + 2 ^ r.1 * (2 ^ (nth (0x8000, 512, 0) v.coefs x.1).2.2 * 2 ^ 64 + r.2.2)) x.2) }

/-- Column values v of R55 in units of 2^−19; digital columns take theirs (R294). -/
def columnValues (v : VecRead) : List Int :=
  (List.range 512).map (fun c =>
    match v.digital.find? (fun x => x.1 == c) with
    | some x => x.2
    | none =>
      let cf := nth (0x8000, 512, 0) v.coefs c
      nth 0 v.acc c * (cf.1 : Int) * 2 ^ cf.2.2)

/-- Forget the partial sums of a vector's row blocks and read them again (R350). -/
def State.rereads (s : State) (c e : Nat) (d : LayerD) (cb vec : Nat) (rbs : List Nat) : State :=
  let s1 := (s.modJob c (fun j => { j with
    partials := j.partials.filter (fun x => !(x.entry == e && x.cb == cb && x.vec == vec && rbs.contains x.rb))
    acts := j.acts.filter (fun x => !(x.entry == e && x.cb == 8 * cb && x.vec == vec && x.wait != [])) })).meshDrop (fun q =>
      q.kind == 0 && q.claim == c && q.entry == e && q.tag.take 2 == [cb, vec] && rbs.contains (q.tag.getD 2 0))
  s1.queuePass c e d (rbs.map (fun r => (cb, r))) vec (vec + 1) true

/-- A check failure of a vector of a pass (R65, R350): UNSOUND notice, the stope is charged, and the row blocks concerned
are read again once. -/
def State.vectorFailed (s : State) (c e p cause : Nat) (h : HoistE) (d : LayerD) (cb vec : Nat) (rbs : List Nat)
    (again : Bool) : State :=
  let s1 := (s.unsoundNotice c h.result 1 cause).workFailed c e p cause again h.serve
  if again then
    s1.modJob c (fun j => { j with partials := j.partials.map (fun x =>
      if x.entry == e && x.cb == cb && x.vec == vec then { x with failed := true } else x) })
  else s1.rereads c e d cb vec rbs

/-- Count in a 32-bit sealed counter, or stage an event, of the logical stope that a vector is read for (R71, R73). -/
def VecRead.count (v : VecRead) (s : State) (off ovfBit n : Nat) : State := s.countSealed (Page.STP v.lp) off ovfBit n
def VecRead.count64 (v : VecRead) (s : State) (off ovfBit n : Nat) : State := s.countSealed64 (Page.STP v.lp) off ovfBit n

/-- The stope and seam items of a vector's records (R70). -/
def VecRead.items (v : VecRead) (p : Nat) : List Item := [it 0xF0 v.lp, it 0xF1 p, it 0xF2 v.seam]

/-- A failed witness check (R65). SEAM in WIT_LAST and in event 0x1004 is the seam that the vector is read for, also where the
relief seam stands in for it (DESIGN CHOICE, log 70); DIFF is rounded down to 1/16 level-unit (DESIGN CHOICE, log 71). -/
def State.witnessFailed (s : State) (p : Nat) (v : VecRead) (h : HoistE) (d : LayerD) (f : WitFail) : State :=
  let w := v.job
  let diff : Int := max (-32767) (min 32767 ((f.meas - f.pred * 2 ^ 19) / 2 ^ 15))
  let s1 := (v.count s Reg.STP.WIT_FAILS 5 1).stageEvent (Page.STP v.lp) 1
  let s2 := (s1.wr (Page.STX p) Reg.STX.WIT_LAST (v.seam + f.wit * 32 + f.plane * 128 + unsigned 16 diff * 65536)).raise (Page.STX p) 0
  let s3 := s2.recordSealed 0x1004 (Src.stope p) w.claim
    ([it 1 f.wit, it 2 f.plane, itS 3 f.pred, itS 4 f.meas, it 5 w.claim] ++ v.items p)
    [itB 6 (v.bytes.map (BitVec.ofNat 8))]
  s3.vectorFailed w.claim w.entry p 5 h d w.cb v.vec [w.rb] w.again

/-- A part of one row that is still saturated fails the vector like a witness check (R54): WIT_FAILS, WIT_LAST and event 0x1004
with the plane. The witness column and DIFF, which such a failure does not have, are free values (log 71). -/
def State.rowSaturated (s : State) (p : Nat) (v : VecRead) (h : HoistE) (d : LayerD) (plane : Nat) : State :=
  let w := v.job
  let s1 := (v.count s.drawn Reg.STP.WIT_FAILS 5 1).stageEvent (Page.STP v.lp) 1
  let other := (s.draw 18).toNat
  let s2 := (s1.wr (Page.STX p) Reg.STX.WIT_LAST (v.seam + other % 4 * 32 + plane * 128 + other / 4 * 65536)).raise (Page.STX p) 0
  let s3 := s2.recordSealed 0x1004 (Src.stope p) w.claim ([it 2 plane, it 5 w.claim] ++ v.items p)
    [itB 6 (v.bytes.map (BitVec.ofNat 8))]
  s3.vectorFailed w.claim w.entry p 5 h d w.cb v.vec [w.rb] w.again

/-- Tensor blocks of a partial block (R56): one. -/
abbrev partialBlocks : Nat := 1

/-- A partial block leaves a collar for the head collar of its chain: within the stope on a collar link, otherwise on mesh plane
0 (R56). -/
def State.sendPartial (s : State) (p : Nat) (x : Partial) (claim : Nat) : State :=
  match ((s.job? claim).bind (fun j => j.seamAt x.layer x.cb 0)).bind (fun q => s.actor q.1) with
  | none => s
  | some head =>
    if head = p then s
    else s.meshSend { plane := 0, src := p, dst := head, claim := claim, entry := x.entry, kind := 0, tag := [x.cb, x.vec, x.rb]
                      blocks := partialBlocks, phase := 0 }

/-- A vector of a seam is complete: its column values go to the head collar (R55, R56), and its logical stope counts it. -/
def State.vectorDone (s : State) (p : Nat) (v : VecRead) (vals : List Int) (zero : Bool) : State :=
  let w := v.job
  let x : Partial := { entry := w.entry, layer := w.layer, cb := w.cb, rb := w.rb, vec := v.vec, here := w.rb == 0
                       failed := false, vals := vals, band := v.band, again := w.again, inst := v.inst }
  let s1 := (s.modJob w.claim (fun j => { j with partials := j.partials ++ [x] })).on (w.rb != 0) (fun u => u.sendPartial p x w.claim)
  let s2 := v.count64 s1 Reg.STP.PASS_COUNT_LO 0 1
  s2.on zero (fun u => (v.count64 u Reg.STP.PLANES_SKIPPED_LO 2 7).on true (fun y => v.count y Reg.STP.ZERO_VECTORS 3 1))

/-- The halves of a part that drive any row: each part skips its all-zero planes, and one that drives none takes no read (R46,
R54). -/
def halves (bytes : List Nat) (q : Nat × Nat) : List (Nat × Nat) :=
  [(q.1, q.2 / 2), (q.1 + q.2 / 2, q.2 / 2)].filter (fun x => planesOf bytes x.1 x.2 != [])

/-- The deepest split and the vectors re-read of a seam in a pass (R54). -/
def HoistRun.noteSplit (r : HoistRun) (key new deep : Nat) : HoistRun :=
  let old := Sparse.get (0, 512) r.splits key
  { r with splits := Sparse.set (0, 512) r.splits key (old.1 + new, min old.2 deep) }

/-- What a read adds to the counters: planes read, the planes that the whole vector skips, and the part of a split (R46, R54). -/
def State.countPlanes (s : State) (p : Nat) (v : VecRead) (planes : Nat) : State :=
  let s1 := v.count64 s Reg.STP.PLANE_READS_LO 1 planes
  if v.split then s1.count (Page.STX p) Reg.STX.SPLIT_PARTS 1 1 else v.count64 s1 Reg.STP.PLANES_SKIPPED_LO 2 (7 - min 7 planes)

/-- The last read of the part under way ends (R54, R55, R64). Codes are given plane by plane, 516 to each. -/
def State.partDone (s : State) (p k : Nat) (codes : List (List Int)) (split : Bool) : State :=
  match (s.arr p k).vec with
  | none => s
  | some v =>
    let w := v.job
    match v.parts, (s.job? w.claim).bind (fun j => j.work w.entry), (s.job? w.claim).bind (fun j => j.layer? w.layer) with
    | q :: rest, some h, some d =>
      if v.split ≠ split then s
      else
        let planes := planesOf v.bytes q.1 q.2
        let reads := planes.zip (codes.map (fun l => l.map clipCode))
        let tol := s.fld (Page.STX p) Reg.STX.WIT_TOL 5 0
        let s0 := s.countPlanes p v planes.length
        let freed := s0.modArr p k (fun a => { a with vec := none })
        match reads.findSome? (fun r => witCheck v q.1 q.2 tol r.1 r.2) with
        | some f => freed.witnessFailed p v h d f
        | none =>
          match reads.find? (fun r => planeSaturated v r.2) with
          | some r =>
            if q.2 ≤ 1 then freed.rowSaturated p v h d r.1
            else
              let deep := min v.deepest (q.2 / 2)
              let s1 := s0.modArr p k (fun a =>
                { a with vec := some { v with parts := halves v.bytes q ++ rest, split := true, deepest := deep } })
              let s2 := s1.on (!v.split) (fun u => (v.count u Reg.STP.SPLIT_VECTORS 4 1).stageEvent (Page.STP v.lp) 0)
              s2.modRun w.claim w.entry (fun r => r.noteSplit (p * 32 + v.seam) (if v.split then 0 else 1) deep)
          | none =>
            let v1 := addPlanes v q.1 q.2 reads
            if rest ≠ [] then s0.modArr p k (fun a => { a with vec := some { v1 with parts := rest } })
            else freed.vectorDone p v1 (columnValues v1) false
    | _, _, _ => s

/-- VECTOR_READ_DONE (R55): the last read of a whole vector. -/
def execVectorReadDone (p k : Nat) (codes : List (List Int)) (s : State) : Out :=
  perform (.vectorReadDone p k codes) s (s.partDone p k codes false)

/-- SPLIT_PART_READ (R54): the last read of a part of a saturated vector. -/
def execSplitPartRead (p k : Nat) (codes : List (List Int)) (s : State) : Out :=
  perform (.splitPartRead p k codes) s (s.partDone p k codes true)

/-- The next vector of an array drives no row, and its column values are zero (R63). A relief rotation does not delay it
(R69). -/
def State.zeroVec (s : State) (p k : Nat) : State :=
  match s.vectorAt p k with
  | none => s
  | some (w, h, _, j, bytes) =>
    if planesOf bytes 0 512 ≠ [] then s
    else
      let seam := (s.seamOf p k).getD 0
      let v : VecRead :=
        { job := w, vec := w.next, bytes := bytes, parts := [], split := false, deepest := 512, acc := [], band := List.replicate 512 0
          coefs := [], digital := [], inst := j.cur w.layer, lp := (s.worksFor p).getD 0, seam := seam }
      (s.takeVector p seam w h.serve).vectorDone p v (List.replicate 512 0) true

/-- ZERO_VECTOR (R63). -/
def execZeroVector (p k : Nat) (s : State) : Out := perform (.zeroVector p k) s (s.zeroVec p k)

/-! ### Chains -/

/-- A partial block reaches the head collar (R56): one that travels on the mesh lands in the order of R23; one of the head's own
stope comes on a collar link. -/
def State.partialArrives (s : State) (c layer cb rb vec : Nat) : State :=
  match (s.job? c).bind (fun j => j.partials.find? (fun x => x.layer == layer && x.cb == cb && x.rb == rb && x.vec == vec && !x.here)) with
  | none => s
  | some x =>
    let took (u : State) : State := u.modJob c (fun j => { j with partials := j.partials.map (fun y => if y == x then { y with here := true } else y) })
    let tag := [cb, vec, rb]
    if s.mesh.any (fun q => q.claim == c && q.entry == x.entry && q.kind == 0 && q.tag == tag) then
      (match s.meshFind c x.entry 0 tag with
      | some q => if s.mayArrive q then took (s.meshLand q) else s
      | none => s)
    else took s

/-- CHAIN_PARTIAL (R56). -/
def execChainPartial (c layer cb rb vec : Nat) (s : State) : Out :=
  perform (.chainPartial c layer cb rb vec) s (s.partialArrives c layer cb rb vec)

/-- The pass that covers a seam of a layer and still wants a vector of it. -/
def Job.wants (j : Job) (layer cb rb vec : Nat) : Option Nat :=
  (List.range j.entries.length).find? (fun e =>
    match j.entries[e]?, j.layer? layer with
    | some h, some d =>
      h.action == 1 && h.layer == layer && !h.ref && !h.recompute && (j.run e).started && !(j.run e).complete &&
        decide (vec < j.dim0 h.a) && (j.covered h d).contains (cb, rb) &&
        !(j.partials.any (fun x => x.entry == e && x.cb == cb && x.rb == rb && x.vec == vec))
    | _, _ => false)

/-- Does the code image of a seam-map entry hold the reserved code: its first row and column (R83)? -/
def State.reservedIn (s : State) (c base rows cols : Nat) : Option (Nat × Nat) :=
  (List.range (rows * cols)).findSome? (fun n =>
    if s.rdCode c base (n / cols) (n % cols) = 16 then some (n / cols, n % cols) else none)

/-- HEWER_RELIEF_TILE (R283): the exact partial block of a CLOSED seam, sent to the head collar. -/
def execHewerReliefTile (c layer cb rb vec : Nat) (s : State) : Out :=
  perform (.hewerReliefTile c layer cb rb vec) s
    (match s.job? c with
    | none => s
    | some j =>
      match j.wants layer cb rb vec, j.layer? layer, j.seamAt layer cb rb with
      | some e, some d, some q =>
        match j.entries[e]? with
        | none => s
        | some h =>
          let hs := s.hewers c
          let from_ := hs.headD 0
          if s.seamClosed q.1 q.2 = false ∨ hs = [] ∨ (s.sealing.phase ≠ 0 ∧ h.serve = false) ∨ s.holdAll ∨ s.clampActs then s
          else
            let bytes := s.inputBytes c j h d rb vec
            let ix := cb * d.rowBlocks + rb
            let base := j.codesBase d (j.cur layer) ix
            let rows := min 512 (d.inputs - rb * 512)
            let cols := min 512 (d.outputs - cb * 512)
            let s1 := match s.reservedIn c base rows cols with
              | some rc => s.noteReserved c e (hs.headD 0) ix rc.1 rc.2
              | none => s
            let x : Partial := { entry := e, layer := layer, cb := cb, rb := rb, vec := vec, here := false, failed := false
                                 vals := (List.range 512).map (fun k => if k < cols then s.exactColumn c j d rb (cb * 512 + k) bytes else 0)
                                 band := List.replicate 512 0, again := false, inst := j.cur layer }
            (s1.modJob c (fun y => { y with partials := y.partials ++ [x] })).sendPartial from_ x c
      | _, _, _ => s)

/-! ### The head collar -/

/-- The pass and partial blocks of a vector that is complete at the head collar: every row block arrived, none failed,
and its columns not already waiting for a recheck. -/
def Job.complete (j : Job) (d : LayerD) (cb vec : Nat) : Option (Nat × List Partial) :=
  match j.partials.find? (fun x => x.layer == d.layer && x.cb == cb && x.vec == vec && x.rb == 0) with
  | none => none
  | some x0 =>
    let l := j.partials.filter (fun x => x.entry == x0.entry && x.cb == cb && x.vec == vec)
    if l.length = d.rowBlocks ∧ l.all (fun x => x.here && !x.failed) ∧
        !(j.acts.any (fun a => a.entry == x0.entry && a.cb == 8 * cb && a.vec == vec && a.wait != []))
    then some (x0.entry, l) else none

/-- Chain sum of a column in units of 2^−19 (R56). -/
def chainSum (l : List Partial) (k : Nat) : Int := l.foldl (fun a x => a + nth 0 x.vals k) 0

/-- Release a vector's activated outputs (R59 to R61): a recomputation that passed counts (R350), and the pass has one
output less to make. A serving pass that overflowed starts again in the wider format (R155). -/
def State.releaseVector (s : State) (c e p : Nat) (h : HoistE) (d : LayerD) (cb vec : Nat) (again : Bool) (acts : List Nat) : State :=
  let s1 := (s.modJob c (fun j => { j with
    partials := j.partials.filter (fun x => !(x.entry == e && x.cb == cb && x.vec == vec))
    acts := j.acts.filter (fun x => !(x.entry == e && x.cb == 8 * cb && x.vec == vec && x.wait != [])) })).meshDrop (fun q =>
      q.kind == 0 && q.claim == c && q.entry == e && q.tag.take 2 == [cb, vec])
  let s2 := s1.on again (fun u => u.count Page.INT Reg.INT.RECOMPUTES 1 1)
  let w := s2.takeOutputs c e p h d vec (cb * 512) acts (if again then 1 else 0)
  if w.2 then
    match w.1.job? c with
    | none => w.1
    | some j =>
      let s3 := w.1.dropWork c 3 (fun k => k != e)
      let s4 := s3.modJob c (fun y => { y with partials := y.partials.filter (fun x => x.entry != e), acts := y.acts.filter (fun x => x.entry != e) })
      let vecs := j.dim0 h.a
      (s4.modRun c e (fun r => { r with left := (j.heads h d).length * vecs })).queuePass c e d (j.covered h d) 0 vecs false
  else w.1.unitDone c e

/-- HEAD_COLLAR_OUTPUT (R57 to R62, R346). -/
def State.headOutput (s : State) (c layer cb vec : Nat) (dupOk : Bool) : State :=
  match s.job? c with
  | none => s
  | some j =>
    match j.layer? layer with
    | none => s
    | some d =>
      match j.complete d cb vec with
      | none => s
      | some (e, l) =>
        match j.entries[e]? with
        | none => s
        | some h =>
          let p := ((j.seamAt layer cb 0).bind (fun q => s.actor q.1)).getD 0x7FF
          let again := l.any (·.again)
          if !dupOk then s.vectorFailed c e p 10 h d cb vec (List.range d.rowBlocks) again
          else
            let inst := match l.find? (fun x => x.rb == 0) with | some x => x.inst | none => 0
            let ex := (j.form h.a h.mb).beta
            let cols := min 512 (d.outputs - cb * 512)
            let ys := (List.range cols).map (fun k =>
              collarValue ⟨chainSum l k, -19⟩ ex (s.gainAt c j d inst (cb * 512 + k)) (s.biasAt c j d inst (cb * 512 + k)))
            let acts := ys.map (activate d.act d.p0 d.p1)
            let m := s.monitor c layer (cb * 512) ys
            if m.2 = [] then m.1.releaseVector c e p h d cb vec again acts
            else m.1.modJob c (fun y => { y with acts :=
              { entry := e, layer := layer, cb := 8 * cb, vec := vec, vals := acts, wait := m.2 } :: y.acts })

/-- HEAD_COLLAR_OUTPUT (R57). -/
def execHeadCollarOutput (c layer cb vec : Nat) (dupOk : Bool) (s : State) : Out :=
  perform (.headCollarOutput c layer cb vec dupOk) s (s.headOutput c layer cb vec dupOk)

/-- The exact counterpart D_r of a column's chain sum, in units of 2^−19 (R157, R347). -/
def State.exactChain (s : State) (c : Nat) (j : Job) (h : HoistE) (d : LayerD) (vec col : Nat) : Int :=
  (List.range d.rowBlocks).foldl (fun a rb => a + s.exactColumn c j d rb col (s.inputBytes c j h d rb vec)) 0

/-- RANGE_RECHECK (R347). -/
def State.rangeRecheck (s : State) (c layer cb vec : Nat) : State :=
  match s.job? c with
  | none => s
  | some j =>
    match j.layer? layer, j.acts.find? (fun a => a.layer == layer && a.cb == 8 * cb && a.vec == vec && a.wait != []) with
    | some d, some row =>
      match j.entries[row.entry]? with
      | none => s
      | some h =>
        let e := row.entry
        let l := j.partials.filter (fun x => x.entry == e && x.cb == cb && x.vec == vec)
        let again := l.any (·.again)
        let p := ((j.seamAt layer cb 0).bind (fun q => s.actor q.1)).getD 0x7FF
        let inst := match l.find? (fun x => x.rb == 0) with | some x => x.inst | none => 0
        let noted := s.each (List.range d.rowBlocks) (fun u rb => u.noteColumns c e p j d cb rb (row.wait.map (fun col => col % 512)))
        let seen := row.wait.map (fun col =>
          let k := col % 512
          (col, chainSum l k, s.exactChain c j h d vec col, l.foldl (fun a x => a + nth 0 x.band k) 0))
        let outside := seen.filter (fun x => decide (x.2.2.2 < (x.2.1 - x.2.2.1).natAbs * 2 ^ 45))
        match outside with
        | [] =>
          let s1 := noted.each seen (fun u x =>
            let env := j.env layer x.1
            let y := collarValue ⟨x.2.1, -19⟩ (j.form h.a h.mb).beta (u.gainAt c j d inst x.1) (u.biasAt c j d inst x.1)
            (u.count Page.INT Reg.INT.EXCURSIONS 7 1).record 0x7006 (Src.stope p) (some c)
              (items [layer, x.1, y, nth 0 env 2, nth 0 env 3]))
          s1.releaseVector c e p h d cb vec again row.vals
        | x :: _ =>
          let bytes := (List.range d.rowBlocks).flatMap (fun rb => s.inputBytes c j h d rb vec)
          let s1 := (noted.raise Page.INT 3).recordSealed 0x7007 (Src.stope p) c
            ([it 1 layer, it 2 x.1, itS 3 x.2.1, itS 4 x.2.2.1, it 5 (x.2.2.2 / 2 ^ 45)] ++ s.stopeItems p)
            [itB 6 (bytes.map (BitVec.ofNat 8))]
          s1.vectorFailed c e p 6 h d cb vec (List.range d.rowBlocks) again
    | _, _ => s

/-- RANGE_RECHECK (R347). -/
def execRangeRecheck (c layer cb vec : Nat) (s : State) : Out :=
  perform (.rangeRecheck c layer cb vec) s (s.rangeRecheck c layer cb vec)

end Sys2Proof.Machine
end

