-- ==== Sys2Proof/Machine/Jobs.lean ====
section
/-!
DEFINITION. Job commands (R175 to R179): LOAD with its checks, START with restore or initialisation, the first slot, the
probe step (R145), STOP, SWAP, UNLOAD and ABORT.
-/

namespace Sys2Proof.Machine

/-! ### Registers -/

/-- Claim on whose job a command of a source acts (R200). -/
def State.jobClaim (s : State) (src : Source) : Nat :=
  if s.roleOf src = 1 then s.sessClaim src else s.fld Page.HOI Reg.HOI.JOB_SELECT 5 0

/-- A command of Table 5.3 on HOI.JOB_CMD. -/
def State.jobCmd (s : State) (src : Source) (cmd : Nat) (f : State → State) : State :=
  s.written src Page.HOI Reg.HOI.JOB_CMD cmd false (fun u => done (f u))

/-- Does page HOI take work: neither DRAINING nor OFF (Table 12.7)? -/
def State.hoiOpen (s : State) : Bool := let f := s.fn Page.HOI; f != 0 && f != 3

/-! ### The checks of LOAD -/

/-- Fixed and free entries loaded by other claims. -/
def State.loadedElsewhere (s : State) (c : Nat) : Nat × Nat :=
  (s.jobs.filter (fun e => e.1 != c)).foldl (fun a e => (a.1 + e.2.desc.fixed, a.2 + e.2.desc.free)) (0, 0)

/-- The checks of descriptor and table (R176, reasons 2 to 7). -/
def State.tableFaults (s : State) (c : Nat) (d : JobDesc) (l : List (HoistE × Nat)) : List Why :=
  let limit := s.period - s.sealW
  let other := s.loadedElsewhere c
  let unit := 2 ^ d.offsetUnit
  let bad := (List.range l.length).find? (fun i => match l[i]? with | some x => !entryOk d limit i x | none => false)
  (orderFault d s.period l).toList ++ (bad.map (fun i => ((3, i) : Why))).toList ++
    (if 65536 < other.1 + d.fixed ∨ 262144 < other.2 + d.free ∨ s.rd (Page.CLM c) Reg.CLM.HOIST_SHARE < d.fixed + d.free then [(4, 0xFFFFFFFF)] else []) ++
    (sealFault d limit l).toList ++
    (if s.period % unit ≠ 0 ∨ 0xFFFFFFFE < s.period / unit then [(6, 0xFFFFFFFF)] else []) ++
    (if s.sealW < 4000 + 500 * s.rd Page.CAS Reg.CAS.DIAMETER + 2 * d.tableLayers then [(7, 0xFFFFFFFF)] else [])

/-- A job as LOAD first reads it: descriptor, table, placement and set descriptors. -/
def State.readJob (s : State) (c : Nat) (d : JobDesc) (es : List HoistE) (role : Nat) : Job :=
  let h := headOf (s.fetchBytes c d.placement 128)
  let layers := (List.range h.layers).map (fun i => layerOf (s.fetchBytes c (h.layerBase + 64 * i) 64))
  let tensors := (List.range h.tensors).map (fun i => tensorOf (s.fetchBytes c (h.tensorBase + 32 * i) 32))
  let j : Job :=
    { desc := d, entries := es, head := h, layers := layers, tensors := tensors, maps := [], sets := [], sstate := [], num := [], numNext := [], stat := []
      runs := [], swap := none, role := role, number := 0, first := true, stopDue := false, abortDue := false, probe := false
      probeDone := false, cause := 0, reporter := 0, streak := 0, trainSteps := 0, stashes := [], marks := [], spillOcc := 0, partials := []
      acts := [], roots := [], landed := [], envelope := [], serveFmt := []
      ords := (s.claimStopes c).filter (fun l => decide (s.serving l < 1056)), lostHit := false, lostRun := 0, regen := [], forms := []
      recomp := none, lastWork := 0, forceCkpt := false, restoring := false, swapped := [] }
  let sets := (setIds es).map (fun t => setOf (s.setBytes c j t) t)
  { j with
    sets := sets, sstate := sets.map (fun _ => SetS.fresh d.startStep), num := layers.map (fun l => NumS.cold0 l.dwPolicy)
    stat := layers.map (fun _ => LayerStat.none) }

/-- The claim's seams as seam-map entries in ascending ordinal and seam order; LOCKED seams are not free. -/
def State.claimSeams (s : State) (j : Job) : List Nat :=
  ((List.range j.ords.length).zip j.ords).flatMap (fun x =>
    ((List.range 16).filter (fun k => s.seamState x.2 k != 3)).map (fun k => x.1 + 1024 * k))

/-- Are all entries of the maps seams of the claim, each named once (R219, R222)? -/
def mapsOk (j : Job) (l : Maps) : Bool :=
  let names := l.flatMap (fun x => named x.2)
  l.all (fun x => mapOk x.2) && names.all (fun w => decide (w < 2 ^ 14) && decide (w % 1024 < j.ords.length)) && distinct names

/-- A column slice of a widened layer is 64 × L′ ÷ W columns, a power of two (R328). -/
def sliceOk (w outputs : Nat) : Bool := w ≤ 1 || (outputs == 2 ^ Nat.log2 outputs && decide (64 ≤ outputs * w))

/-- What the placement's checks find before the seams are assigned (R216 to R222, R328), the sets and shortfalls apart. -/
def State.placementOk (s : State) (c : Nat) (j : Job) (l : Maps) : Bool :=
  let h := j.head
  (List.range h.layers).all (fun i => layerOk (s.fetchBytes c (h.layerBase + 64 * i) 64)) &&
    (List.range h.tensors).all (fun i => tensorOk (s.fetchBytes c (h.tensorBase + 32 * i) 32)) &&
    distinct (j.layers.map (·.layer)) && j.spansOk j.ords.length && mapsOk j l && !j.layers.any actRefused &&
    decide (4 * j.largestStash ≤ h.stockFast) && j.layers.all (fun d => sliceOk (s.widening j) d.outputs)

/-- Is another member of the job holding the role already (R327)? -/
def State.roleTaken (s : State) (role : Nat) : Bool :=
  s.casc.roles.any (fun (r : RoleEntry) => r.role == role && r.member != s.memberNo && bits role 3 0 == 0)

/-- Byte ranges of the structures that LOAD checks (R176). -/
def Job.checked (j : Job) : List (Nat × Nat) :=
  [(j.desc.hoist, 32 * (j.desc.fixed + j.desc.free)), (j.desc.placement, 128), (j.head.layerBase, 64 * j.head.layers),
   (j.head.tensorBase, 32 * j.head.tensors), (j.desc.tableBase, 2 * roundBlock (320 * j.desc.tableLayers))] ++
    j.sets.map (fun d => match j.tensor? d.id with | some x => (x.at_ 0, 256) | none => (0, 0))

/-- Byte ranges of the structures that the placement header and its tensors name: descriptors, tensor entries, seam maps and
set descriptors. -/
def Job.structures (j : Job) : List (Nat × Nat) :=
  [(j.head.layerBase, 64 * j.head.layers), (j.head.tensorBase, 32 * j.head.tensors)] ++
    j.layers.filterMap (fun l => (if l.seamMapT = 0xFFFFFFFF then none else j.tensor? l.seamMapT).map (fun t => (t.at_ 0, 4 * l.seams))) ++
    j.sets.filterMap (fun d => (j.tensor? d.id).map (fun x => (x.at_ 0, 256)))

/-- An entry of SEAM_PASS on target kind 0 without REF is permitted on hewer-only layers alone (R176). -/
def Job.kind0Fault (j : Job) : Option Why :=
  ((List.range j.entries.length).find? (fun i => match j.entries[i]? with
    | some h => h.action == 1 && h.tkind == 0 && !h.ref && !((j.layer? h.layer).isSome && j.hewerOnly h.layer)
    | none => false)).map (fun i => (3, i))

/-- What LOAD finds: the job as assigned, its layers made hewer-only, shortfalls, and the reasons that hold. -/
structure Found where
  job    : Job
  made   : List Nat
  shortF : Nat
  shortS : Nat
  why    : List Why
  state  : State
deriving DecidableEq, Repr

/-- The cascade job of an operator key and SEED: its number, and whether it is new (R327). -/
def State.jobNumber (s : State) (c seed : Nat) : Nat × Bool :=
  let key := (Config.sha384 (s.claim c).opKey).toNat
  match s.casc.jobs.find? (fun (e : Nat × Nat × Nat) => e.1 == key && e.2.1 == seed) with
  | some e => (e.2.2, false)
  | none => ((((List.range 63).map (· + 1)).find? (fun n => !(s.casc.jobs.any (fun (e : Nat × Nat × Nat) => e.2.2 == n)))).getD 63, true)

/-- The stope numbers of a record of the hewer that concerns no stope yet (R120): 0x7FF for both (log 30). -/
def noStope : List Item := [it 0xF0 0x7FF, it 0xF1 0x7FF]

/-- All checks of LOAD on a descriptor that is itself in order (R176). Each finding records the event of its own rule. -/
def State.findFaults (s : State) (c : Nat) (d : JobDesc) : Found :=
  let t := s.tableOf c d
  let role := (s.jobNumber c d.seed).1 * 2 ^ 26 + s.rdB (claimBank c) Page.CAS Reg.CAS.JOB_ROLE % 2 ^ 26
  let j := s.readJob c d (t.map (·.1)) role
  let faults := s.tableFaults c d t
  let s00 := (s.noteRange c d.hoist (32 * (d.fixed + d.free))).noteRange c d.placement 128
  let s0 := s00.each j.structures (fun u x => u.noteRange c x.1 x.2)
  if !headOk (s.fetchBytes c d.placement 128) then { job := j, made := [], shortF := 0, shortS := 0, why := faults ++ [(8, 0xFFFFFFFF)], state := s0 }
  else
    let given := j.layers.map (fun l => (l, s.givenMap c j l))
    let asg := assignMaps j (s.claimSeams j) given
    let j1 := { j with maps := asg.1.map (·.2), number := (s.jobNumber c d.seed).1 }
    let s1 := s0.each (j.layers.filter actRefused) (fun u l => u.record 0x2006 Src.deputy (some c) (items [l.layer, l.act, l.p0, l.p1] ++ noStope))
    let setBad := s.setsFault c j
    let s2 := match setBad with | some f => s1.millRec 0x400B c f.1 [f.2.1, f.2.2 % 2 ^ 64] | none => s1
    let taken := s.roleTaken role
    let s3 := s2.on taken (fun u => u.record 0x6006 (Src.cascade 0) (some c) [it 1 6, itH 2 identityHash])
    let fast := j1.fastNeed - s.grant c false
    let slow := j1.slowReq - s.grant c true
    let s4 := s3.on (decide (0 < fast + slow)) (fun u => u.record 0x3007 (Src.fast 0) (some c) (items [fast, slow]))
    let s5 := s4.on (asg.2 != []) (fun u => u.record 0x3006 (Src.fast 0) (some c)
      [itB 1 (asg.2.flatMap (leBytes 2)), it 2 (Config.estStep (j1.layers.filter (fun l => j1.hewerOnly l.layer)).length j.layers.length j.head.vectors % 2 ^ 32)])
    let long := j1.layers.any (fun l => !j1.hewerOnly l.layer && decide (256 < l.rowBlocks))
    let full := (j1.maps.any (fun m => m.contains mapAssign))
    let sets := (s.jobs.filter (fun e => e.1 != c)).foldl (fun a e => a + e.2.sets.length) j.sets.length
    let tooLong := t.any (fun x => match j1.geo x.1 with | some g => g.tooLong (s.hewers c).length | none => false)
    let refused := !s.placementOk c j given || tooLong || setBad.isSome || taken || decide (0 < fast + slow) || long || full || decide (4096 < sets)
    let num := s.numericsFault c j1
    let s6 := match num with | some f => s5.record 0x2016 Src.deputy (some c) (items [f.1, f.2.1] ++ (f.2.2.map (it 0xF3)).toList) | none => s5
    let lost := j1.checked.any (fun x => x.2 != 0 && s.anyLost c x.1 x.2)
    { job := j1, made := asg.2, shortF := fast, shortS := slow, state := s6
      why := faults ++ (if refused then [(8, 0xFFFFFFFF)] else j1.kind0Fault.toList) ++ (if num.isSome then [(9, 0xFFFFFFFF)] else []) ++
        (if lost then [(11, 0xFFFFFFFF)] else []) }

/-- The lowest reason among those that hold, with the lowest entry that offends against it. -/
def lowestWhy (l : List Why) : Option Why :=
  l.foldl (fun a x => match a with
    | none => some x
    | some y => if x.1 < y.1 ∨ (x.1 = y.1 ∧ x.2 < y.2) then some x else some y) none

/-- Event 0x5007. -/
def State.refuseJob (s : State) (c : Nat) (w : Why) : State := s.record 0x5007 Src.deputy (some c) (items [w.1, w.2])

/-! ### LOAD -/

/-- The registers that LOAD sets (R221, R222, R226, R232, R266). -/
def State.showPlacement (s : State) (c : Nat) (f : Found) : State :=
  let j := f.job
  let hewers := (j.layers.filter (fun l => j.hewerOnly l.layer)).length
  let w := min 65535 hewers + (if f.made = [] then 0 else 2 ^ 16) + (if f.shortF = 0 then 0 else 2 ^ 17) + (if f.shortS = 0 then 0 else 2 ^ 18)
  let s1 := ((s.wrStock c Reg.FTC.PLACE_STATE w).wrStock c Reg.FTC.FAST_SHORT f.shortF).wrStock c Reg.FTC.SLOW_SHORT f.shortS
  (s1.wrB (claimBank c) Page.HOI Reg.HOI.EST_STEP (Config.estStep hewers j.layers.length j.head.vectors)).wrB (claimBank c) (Page.MIL 0)
    Reg.MIL.SLOW_REQ j.slowReq

/-- The device writes its assignment back into the seam maps (R220, R221). -/
def State.writeMaps (s : State) (c : Nat) (j : Job) : State :=
  s.each (j.layers.zip j.maps) (fun u x =>
    match (if x.1.seamMapT = 0xFFFFFFFF then none else j.tensor? x.1.seamMapT) with
    | some t => u.each ((List.range x.2.length).zip x.2) (fun w y => w.wrNat c (t.at_ 0 + 4 * y.1) 4 y.2)
    | none => u)

/-- Seams that hold the job's weights read PLACED from the next seal on (Table 2.11, R71). -/
def State.placeSeams (s : State) (j : Job) : State :=
  s.each (j.maps.flatMap named) (fun u w =>
    match j.ords[w % 1024]? with
    | some lp =>
      let k := w / 1024
      let x := u.nextWord (Page.STP lp) Reg.STP.SEAM_STATE
      if bits x (2 * k + 1) (2 * k) = 0 then u.stageWord (Page.STP lp) Reg.STP.SEAM_STATE (putBits x (2 * k + 1) (2 * k) 1) else u
    | none => u)

/-- The job takes its number, its role and, where it is new, its key (R327, R391), and the cascade learns of it: a member asks the
headframe, whose answer is the lowest number that no cascade job has (log 89). -/
def State.joinJob (s : State) (c : Nat) (j : Job) : State :=
  let n := s.jobNumber c j.desc.seed
  let key := (Config.sha384 (s.claim c).opKey).toNat
  let s1 := if n.2 then { s.drawn with casc := { s.casc with jobs := s.casc.jobs ++ [(key, j.desc.seed, n.1)] } } else s
  let s2 := { s1 with casc := { s1.casc with
    roles := s1.casc.roles.filter (fun (r : RoleEntry) => r.role != j.role) ++ [({ role := j.role, member := s.memberNo, epoch := 0 } : RoleEntry)] } }
  let content := [16, key, j.desc.seed, n.1, j.role, s.memberNo]
  let head := s.fld Page.CAS Reg.CAS.HEADFRAME 11 0
  let draws := s.isHead && (s.jobKey n.1 == [])
  let k := if draws then (s2.draw 256).toNat else leNat (s.jobKey n.1)
  let s2k := if s.isHead then (if draws then s2.drawn else s2).takeJobKey n.1 k else s2
  let s3 := if s.fld Page.CAS Reg.CAS.STATE 2 0 = 0 ∨ (head = 0xFFF ∧ s.isHead = false) then s2k
    else if s.isHead then s2k.toMembers 5 (content ++ [k])
    else s2k.sendMsg (OutMsg.plain 5 head (content ++ [0]))
  (s3.modClaim c (fun x => { x with jobKey := true })).setFldB (claimBank c) Page.HOI Reg.HOI.JOB_STATE 13 8 n.1

/-- A job that passed: loaded, its seams placed and its ranges set. -/
def State.acceptJob (s : State) (c : Nat) (j : Job) : State :=
  let fixed := s.fld Page.HOI Reg.HOI.FIXED_LOADED 16 0
  let s1 := (((s.setJob c j).joinJob c j).writeMaps c j).placeSeams j
  let s2 := (s1.setFld Page.HOI Reg.HOI.FIXED_LOADED 16 0 (fixed + j.desc.fixed)).jobHeadroom c j false (fun _ => 0)
  let s3 := ((s2.wrStock c Reg.FTC.STOCK_USABLE j.usable).wrStock c Reg.FTC.STOCK_HIGH j.highMark).wrStock c Reg.FTC.SPILL_QUOTA j.head.stockSpill
  ((s3.wrStock c Reg.FTC.STOCK_OCC 0).wrStock c Reg.FTC.SPILL_OCC 0).setReason c 0

/-- LOAD of claim c with the descriptor that the source has staged. The stockpile counts start anew at every LOAD (R232). -/
def State.load (s : State) (src : Source) (c : Nat) : State :=
  let st := s.jobState c
  if (st ≠ jsNone ∧ st ≠ jsRefused) ∨ !s.hoiOpen ∨ s.claimState c ≠ 2 then s.ignoreCmd src c 1
  else
    let s0 := ((s.wrStock c Reg.FTC.SPILLS 0).wrStock c Reg.FTC.RECOMPUTES 0).wrStock c Reg.FTC.STOCK_PEAK 0
    let s1 := s0.setJobState c jsLoading 1
    let b := s.staged src Page.HOI
    if !descOk b then ((s1.refuseJob c (1, 0xFFFFFFFF)).setReason c 1).setJobState c jsRefused 1
    else
      let f := s1.findFaults c (descOf b)
      let s2 := f.state.showPlacement c f
      match lowestWhy f.why with
      | some w => ((s2.refuseJob c w).setReason c w.1).setJobState c jsRefused 1
      | none => (s2.acceptJob c f.job).setJobState c jsReady 1

/-- LOAD (R176). -/
def execLoad (src : Source) (s : State) : Out :=
  perform (.load src) s (s.jobCmd src 1 (fun u => u.load src (u.jobClaim src)))

/-! ### START -/

/-- New interleave keys for both tiers, and the migrations that follow (R211). -/
def State.rekeyAtStart (s : State) (c : Nat) : State :=
  ((s.drawInterleave c).migrate false c 0 0xFFFF).migrate true c 0 0xFFFF

/-- A cold start begins (R145): causes 1 no checkpoint, 2 table missing, 3 table check failed. -/
def State.coldStart (s : State) (c cause : Nat) : State :=
  (s.modJob c (fun j => { j with num := j.layers.map (fun l => NumS.cold0 l.dwPolicy), probe := true, probeDone := false, trainSteps := 0 })).record 0x2014
    Src.deputy (some c) (items [cause])

/-- The numerics state of a checkpoint image (R145), or a cold start. -/
def State.restoreNumerics (s : State) (c : Nat) (j : Job) (base : Nat) : State :=
  match s.imageNumerics c j base with
  | none => s.coldStart c 2
  | some a =>
    if s.anyLost c a (320 * j.desc.tableLayers) || !s.released c a (320 * j.desc.tableLayers) then s.coldStart c 3
    else s.modJob c (fun k => { k with num := k.layers.map (fun l => NumS.ofEntry (s.rdBytes c (a + 320 * l.layer) 320)) })

/-- Layers without a master set give their stopes the codes of their images (log 24). -/
def State.listServed (s : State) (c n : Nat) (j : Job) : State :=
  s.each (j.layers.filter (fun l => !j.hewerOnly l.layer && !(j.sets.any (fun d => d.kind == 0 && d.layer == l.layer))))
    (fun u l => u.listImage c n j l)

/-- The work of a first START after a LOAD (R263 to R265). -/
def State.firstStart (s : State) (c : Nat) (j : Job) : State :=
  let d := j.desc
  if d.ckptBase = 0 then
    let s1 := (s.initSets c d.startStep j).listServed c d.startStep j
    ((s1.wr64B (claimBank c) Page.HOI Reg.HOI.JOB_STEP_LO d.startStep).coldStart c 1)
  else
    match s.imageFault c j d.ckptBase with
    | some f => ((s.millRec 0x4008 c f.2 [f.1, f.2]).setReason c 8).setJobState c jsRefused 2
    | none =>
      let next := s.rdNat c (d.ckptBase + 8) 8
      let s1 := ((s.restoreImage c j d.ckptBase).restoreNumerics c j d.ckptBase).listServed c next j
      s1.wr64B (claimBank c) Page.HOI Reg.HOI.JOB_STEP_LO next

/-- START (R175, R211, R264): a claim 0 of a source that names no job has nothing to start. -/
def State.startJob (s : State) (src : Source) (c : Nat) : State :=
  match s.job? c with
  | none => s.ignoreCmd src c 2
  | some j =>
    if s.jobState c ≠ jsReady ∨ !s.hoiOpen ∨ s.claimState c ≠ 2 then s.ignoreCmd src c 2
    else
      let s1 := ((s.setJobState c jsStarting 2).rekeyAtStart c).modJob c (fun k => { k with first := false, stopDue := false, abortDue := false, lostRun := 0, streak := 0 })
      (if j.first then s1.firstStart c j else s1).reportStarting

/-- START (R175). -/
def execStart (src : Source) (s : State) : Out :=
  perform (.start src) s (s.jobCmd src 2 (fun u => u.startJob src (u.jobClaim src)))

/-- Does a starting job begin with the step slot under way: before its origin this member, and on the headframe every member that
holds part of the job, had reported READY (R175)? -/
def State.beginsNow (s : State) (c : Nat) : Bool :=
  match s.job? c with
  | none => false
  | some j => s.jobState c == jsStarting && s.listsApplied c && s.allReady j.number s.slotOrigin

/-- JOB_RUN_BEGIN (R175): the first slot for which every member holding part of the job reports READY. -/
def execJobRunBegin (c : Nat) (s : State) : Out :=
  perform (.jobRunBegin c) s (if s.beginsNow c then s.setJobState c jsRunning 0 else s)

/-- IMAGE_FETCH_DONE (R331, Table 9.10): the image of a restart is in claim memory; the member STARTs from it. -/
def execImageFetchDone (c base : Nat) (s : State) : Out :=
  perform (.imageFetchDone c base) s
    (match s.job? c with
    | none => s
    | some j =>
      if s.jobState c ≠ jsReady ∨ !s.hoiOpen then s
      else
        let s0 := { s with casc := { s.casc with restarts := s.casc.restarts.filter (fun (e : Nat × Nat) => e.1 != j.number) } }
        let j1 := { j with desc := { j.desc with ckptBase := base }, first := false, stopDue := false, abortDue := false, lostRun := 0, streak := 0 }
        ((((s0.setJob c { j1 with desc := j.desc }).setJobState c jsStarting 2).rekeyAtStart c).firstStart c j1).reportStarting)

/-! ### The probe step (R145) -/

/-- The layers in layer order. -/
def Job.probeOrder (j : Job) : List LayerD := j.layers.mergeSort (fun a b => decide (a.layer ≤ b.layer))

/-- Outputs after activation of a layer for a vector of applied bytes (R55 to R58). What the converters of its seams read is
no operand of the command: the column sums of a layer on seams are free values, numbered from `draw` (log 25); a zero vector gives
zeros without a read (R63). -/
def State.probeOutputs (s : State) (c : Nat) (j : Job) (d : LayerD) (e : Int) (bytes : List Nat) (draw : Nat) : List Nat :=
  let inst := j.cur d.layer
  (List.range d.outputs).map (fun col =>
    let v : Int :=
      if bytes.all (fun b => b % 128 == 0) then 0
      else if j.hewerOnly d.layer then
        512 * (((List.range d.inputs).zip bytes).foldl (fun a x =>
          if x.2 % 128 = 0 then a else a + sm x.2 * s.shadowAt c j d true inst x.1 col) 0)
      else signed 48 (Config.freeBits 48 (draw + col)).toNat
    activate d.act d.p0 d.p1 (collarValue ⟨v, -19⟩ e (s.gainAt c j d inst col) (s.biasAt c j d inst col)))

/-- Pool the vectors of a layer's outputs (R59). -/
def poolRows (d : LayerD) (rows : List (List Nat)) : List (List Nat) :=
  let p := max 1 d.pool
  (List.range (rows.length / p)).map (fun w =>
    (List.range d.outputs).map (fun k => (poolColumn d ((List.range p).map (fun i => nth 0 (nth [] rows (w * p + i)) k))).1))

/-- ⌈log₂(M × 1.25 ÷ 127)⌉ of a maximum that is not zero (Table 4.3): the least e with M × 1.25 ≤ 127 × 2^e. -/
def a8Raw (m : Nat) : Int :=
  let x := (val32 m).mul ⟨5, -2⟩
  let e := x.log2 - 6
  if x.le ⟨127, e⟩ then e else e + 1

def clampA8 (e : Int) : Int := max (-128) (min 127 e)

/-- Bias of a 16-bit format for a maximum that is not zero (R135). -/
def biasOf (m : Nat) : Int := (val32 m).log2 - 14

/-- What a probe carries from layer to layer: the state, and the A8 outputs of each layer with their exponent. -/
structure Probe where
  state : State
  outs  : List (Nat × (Int × List (List Nat)))
deriving DecidableEq, Repr

/-- Vectors that the probe reads on the seams of a layer, as the stopes that hold them count them (R63, R72). -/
def State.countProbe (s : State) (j : Job) (d : LayerD) (rows : List (List Nat)) : State :=
  if j.hewerOnly d.layer then s
  else
    s.each rows (fun u bytes => u.each (List.range d.colBlocks) (fun w cb => w.each (List.range d.rowBlocks) (fun x rb =>
      match (j.seamAt d.layer cb rb).bind (fun q => x.actor q.1) with
      | none => x
      | some p =>
        let n := (planesOf ((bytes.drop (512 * rb)).take 512) 0 512).length
        let x1 := ((x.countStp64 p Reg.STP.PASS_COUNT_LO 0 1).countStp64 p Reg.STP.PLANE_READS_LO 1 n).countStp64 p
          Reg.STP.PLANES_SKIPPED_LO 2 (7 - n)
        x1.on (n == 0) (fun y => y.countStp p Reg.STP.ZERO_VECTORS 3 1))))

/-- One layer of the probe: its maximum becomes OUT_MAX[0] and sets e_o and OUT_BIAS. -/
def Probe.layer (p : Probe) (c : Nat) (d : LayerD) : Probe :=
  match p.state.job? c with
  | none => p
  | some j =>
    let s := p.state
    let input := match (j.below d).bind (fun b => (p.outs.find? (fun e => e.1 == b.layer)).map (·.2)) with
      | some x => x
      | none =>
        let v := j.viewIn c d.inT 0 { fmt := fmtA8, beta := 0 }
        ((j.form d.inT 0).beta, (List.range (j.vectors d)).map (fun r => (List.range d.inputs).map (fun k =>
          (s.rdByte c (v.base + v.index r k)).toNat)))
    let rows := ((List.range input.2.length).zip input.2).map (fun x => s.probeOutputs c j d input.1 x.2 (s.fresh + x.1 * d.outputs))
    let top := rows.foldl (fun a r => r.foldl (fun b y => if isFin32 y then max32 b (abs32 y) else b) a) 0
    let old := j.numOf d.layer
    let e := if isZero32 top then old.outE else clampA8 (a8Raw top)
    let b := if isZero32 top ∨ d.outFmt = fmtA8 ∨ d.outFmt = fmtF32 then old.outBias else biasOf top
    let s1 := s.on (!isZero32 top && e != a8Raw top) (fun u => u.record 0x2015 Src.deputy (some c) (items [unsigned 16 (a8Raw top)] ++ [it 0xF3 d.layer]))
    let s2 := { s1 with fresh := s1.fresh + rows.length * d.outputs }.countProbe j d input.2
    let n := { old with outMax := [top], outE := e, outBias := b }
    { state := s2.modJob c (fun k => { k with num := setNth k.num (k.layerIx d.layer) n })
      outs := p.outs ++ [(d.layer, (e, (poolRows d rows).map (fun r => r.map (fun y => (toA8 e y).1))))] }

/-- PROBE_STEP (R145): the first micro-batch runs forward through every layer and sets the scales. -/
def execProbeStep (c : Nat) (s : State) : Out :=
  perform (.probeStep c) s
    (match s.job? c with
    | none => s
    | some j =>
      if j.probe ∧ !j.probeDone ∧ s.jobState c = jsRunning ∧ s.sealing.phase = 0 then
        (j.probeOrder.foldl (fun (p : Probe) d => p.layer c d) ({ state := s, outs := [] } : Probe)).state.modJob c (fun k => { k with probeDone := true, lastWork := s.tally })
      else s)

/-! ### STOP, SWAP, UNLOAD, ABORT -/

/-- Time left to the next SEAL launch, at T+0 (R172, R176). -/
def State.toSeal (s : State) : Int := ((s.slotOrigin + s.period - s.sealW : Nat) : Int) - (s.tally : Int)

/-- STOP (Table 5.3): the job runs to the next seal whose window the command precedes (Table 5.10). -/
def State.stopJob (s : State) (src : Source) (c : Nat) : State :=
  if s.jobState c ≠ jsRunning then s.ignoreCmd src c 3
  else (s.modJob c (fun j => { j with stopDue := decide ((s.sealW : Int) ≤ s.toSeal) && s.sealing.phase == 0 })).setJobState c jsStopping 3

/-- STOP (R177). -/
def execStop (src : Source) (s : State) : Out :=
  perform (.stop src) s (s.jobCmd src 3 (fun u => u.stopJob src (u.jobClaim src)))

/-- May a running job swap to a descriptor: only HOIST_BASE, FIXED_COUNT, FREE_COUNT and FLAGS may differ? -/
def swapFields (old new : JobDesc) : Bool :=
  { new with hoist := old.hoist, fixed := old.fixed, free := old.free, train := old.train } == old

/-- SWAP (Table 5.3, R238): all checks of LOAD on the new descriptor now, its sets compared as a collection; in force from the first seal whose T+0 comes at least W after the command; a seal
whose window the command falls into is too close (reason 10). -/
def State.swapJob (s : State) (src : Source) (c : Nat) : State :=
  match s.job? c with
  | none => s.ignoreCmd src c 4
  | some j =>
    if s.jobState c ≠ jsRunning ∨ !s.hoiOpen ∨ s.claimState c ≠ 2 then s.ignoreCmd src c 4
    else
      let b := s.staged src Page.HOI
      if !descOk b then s.refuseJob c (1, 0xFFFFFFFF)
      else
        let d := descOf b
        let f := s.findFaults c d
        let old := j.sets.map (·.id)
        let new := f.job.sets.map (·.id)
        let same := old.length == new.length && old.all (fun t => new.contains t)
        let ten := !swapFields j.desc d || !same || decide (s.toSeal < (s.sealW : Int))
        match lowestWhy (f.why ++ (if ten then [((10, 0xFFFFFFFF) : Why)] else [])) with
        | some w => f.state.refuseJob c w
        | none => f.state.setJob c { j with swap := some (d, f.job.entries) }

/-- SWAP (R177). -/
def execSwap (src : Source) (s : State) : Out :=
  perform (.swap src) s (s.jobCmd src 4 (fun u => u.swapJob src (u.jobClaim src)))

/-- UNLOAD (Table 5.3). -/
def State.unloadJob (s : State) (src : Source) (c : Nat) : State :=
  if s.jobState c ≠ jsReady ∧ s.jobState c ≠ jsRefused then s.ignoreCmd src c 5 else s.unload c 5

/-- UNLOAD (R177). -/
def execUnload (src : Source) (s : State) : Out :=
  perform (.unload src) s (s.jobCmd src 5 (fun u => u.unloadJob src (u.jobClaim src)))

/-- A completed pair on HOI.ABORT. -/
def State.abortAct (s : State) (src : Source) (v : Nat) : State × Bool :=
  let c := s.jobClaim src
  if !bit v 0 || !s.jobActive c then refusedWrite s else done (s.abortJob c)

/-- ABORT (R178). -/
def execAbort (src : Source) (v : Word) (s : State) : Out :=
  perform (.abort src v) s
    (s.guarded src Page.HOI Reg.HOI.ABORT v.toNat (fun u => u.abortAct src v.toNat))

/-- REGISTER_WRITE of HOI.JOB_CMD. -/
def State.jobCmdAct (s : State) (src : Source) (v : Nat) : State × Bool :=
  let c := s.jobClaim src
  match bits v 3 0 with
  | 1 => done (s.load src c)
  | 2 => done (s.startJob src c)
  | 3 => done (s.stopJob src c)
  | 4 => done (s.swapJob src c)
  | 5 => done (s.unloadJob src c)
  | _ => refusedWrite s

end Sys2Proof.Machine
end

