-- ==== Sys2Proof/Machine/Upkeep.lean ====
section
/-!
DEFINITION. Upkeep of the seams (chapter 8): coarse writes and write lists, the relief seam's cycle, drift probes and
refresh, assay and its fits, ageing re-plans, and what a commit tally brings into force.
-/

namespace Sys2Proof.Machine

/-! ### What an array should hold (R275) -/

/-- The layer block placed at seam k of a logical stope: claim, job, layer and index in its seam map. -/
def State.placedAt (s : State) (lp k : Nat) : Option (Nat × Job × LayerD × Nat) :=
  let c := s.ownerOf lp
  match s.job? c with
  | none => none
  | some j =>
    match j.layers.findSome? (fun d => ((List.range (d.rowBlocks * d.colBlocks)).find? (fun n =>
        j.seamAt d.layer (n / d.rowBlocks) (n % d.rowBlocks) == some (lp, k))).map (fun n => (d, n))) with
    | some (d, n) => some (c, j, d, n)
    | none => none

/-- State of a stope's relief cycle: 0 FREE, 1 COPYING, 2 STANDING, 3 STAGED (Table 2.13), and the seam it serves. -/
abbrev rsFree : Nat := 0
abbrev rsCopying : Nat := 1
abbrev rsStanding : Nat := 2
abbrev rsStaged : Nat := 3
def State.cycle (s : State) (p : Nat) : Nat := s.fld (Page.STX p) Reg.STX.RELIEF_SEAM 9 8
def State.standsFor (s : State) (p : Nat) : Nat := s.fld (Page.STX p) Reg.STX.RELIEF_SEAM 4 0

/-- The seam whose codes an array should hold: its own, or the one the relief seam's cycle serves. -/
def State.seamFor (s : State) (p a : Nat) : Option Nat :=
  if a < 16 then some a else if s.cycle p = rsFree then none else some (s.standsFor p)

/-- The array that takes the write lists of seam k (R282). -/
def State.receiver (s : State) (p k : Nat) : Nat :=
  if s.standsFor p = k ∧ (s.cycle p = rsCopying ∨ s.cycle p = rsStaged) then 16 else k

/-- Has the block with LAST set arrived? -/
def WriteList.whole (w : WriteList) : Bool := decide (w.blocks ≤ w.arrived)

/-- Entries that have arrived. -/
def WriteList.now (w : WriteList) : List (Nat × Nat × Nat) := w.entries.take (1020 * w.arrived)

/-- The code that a list gives a cell, as far as it has arrived: a FULL list gives 0 to the cells that it passes over. -/
def WriteList.code (w : WriteList) (row col : Nat) : Option Nat :=
  match w.now.find? (fun e => e.1 == row && e.2.1 == col) with
  | some e => some e.2.2
  | none =>
    let reached := w.whole || (match w.now.getLast? with | some e => decide (row * 512 + col < e.1 * 512 + e.2.1) | none => false)
    if w.full && reached then some 0 else none

/-- The write list of seam k of which a block has arrived and which is not yet applied. -/
def State.listFor (s : State) (p k : Nat) : Option WriteList :=
  (s.stope p).lists.find? (fun w => w.seam == k && decide (0 < w.arrived) && !w.applied)

/-- The last list of seam k of which a block has arrived in the step slot: its codes are the target until the seal. -/
def State.listNow (s : State) (p k : Nat) : Option WriteList :=
  ((s.stope p).lists.filter (fun w => w.seam == k && decide (0 < w.arrived))).getLast?

/-- Is a list's application under way on array a: on a relief seam or a seam out of service at once, otherwise once the
seam is quiet (R282)? -/
def State.taking (s : State) (p a k : Nat) : Bool :=
  s.receiver p k == a && (a == 16 || (s.cycle p == rsStanding && s.standsFor p == k) || (s.stope p).outOf == k || (s.arr p a).quiet)

/-- The list that the target of array a holds, if any. -/
def State.targetList (s : State) (p a k : Nat) : Option WriteList := if s.taking p a k then s.listNow p k else none

/-- Canonical pair of a level code (R38), as g⁺ + 16 × g⁻, held to the range of a level plan: the device writes no level outside
it, and none for the reserved code (R40). -/
def pairOf (plan12 : Bool) (code : Nat) : Nat :=
  let top : Int := if plan12 then 11 else 15
  let w := max (-top) (min top (levelOf code))
  if 0 ≤ w then w.toNat else 16 * (-w).toNat

/-- The level plan of an array's target: 12 levels where the seam has it, or takes it with the FULL list that it was
announced for (R277, R297). -/
def State.targetPlan (s : State) (p a : Nat) : Bool :=
  match s.seamFor p a with
  | none => (s.arr p a).plan12
  | some k =>
    let x := s.arr p k
    x.plan12 || (x.announced && (match s.targetList p a k with | some w => w.full | none => false))

/-- The target pairs of an array: codes in force with the list applied; none where no weights are placed. -/
def State.targetOf (s : State) (p a : Nat) : Option (Nat → Nat → Nat) :=
  match s.logicalOf p, s.seamFor p a with
  | some lp, some k =>
    match s.placedAt lp k with
    | none => none
    | some (c, j, d, n) =>
      let base := j.codesBase d (j.cur d.layer) n
      let plan := s.targetPlan p a
      let list := s.targetList p a k
      some (fun row col => pairOf plan (match list.bind (fun w => w.code row col) with
        | some code => code
        | none => s.rdCode c base row col))
  | _, _ => none

/-- Does a row side hold other codes than its target (R275), in its weight cells or in its witness cells (R43)? -/
def State.sideDue (s : State) (p a row : Nat) (neg : Bool) : Bool :=
  let x := s.arr p a
  (List.range 4).any (fun k => x.witLine k row neg != lineOf (witPair (s.targetPlan p a) (witLevel k row)) neg) ||
    (match s.targetOf p a with
    | none => false
    | some t => (List.range 512).any (fun col =>
        lineOf (Sparse.get 0 x.codes (row * 512 + col)) neg != lineOf (t row col) neg))

/-- Does an array hold its target, in every row side? -/
def State.holdsTarget (s : State) (p a : Nat) : Bool :=
  (List.range 512).all (fun row => !(s.sideDue p a row false || s.sideDue p a row true))

/-- Has the job whose weights a seam of a stope holds stopped, so that its cells go back to the codes in force (R279)? -/
def State.rolledBack (s : State) (p k : Nat) : Bool :=
  match (s.logicalOf p).bind (fun lp => s.placedAt lp k) with
  | some (c, _, _, _) => s.jobState c != jsRunning && s.jobState c != jsStopping && s.jobState c != jsStarting
  | none => true

/-- May the cells of an array be written now: the copy of a cycle, a seam that its cycle or R281 has taken out of service, a list
of the step, on a STAGED relief seam or in place, or cells written for a step of a job that has stopped? Cells written for a
discarded step stay as they are for its replay (R279). -/
def State.writable (s : State) (p a : Nat) : Bool :=
  if a = 16 then
    s.cycle p == rsCopying || (s.cycle p == rsStaged && ((s.listFor p (s.standsFor p)).isSome || s.rolledBack p (s.standsFor p)))
  else (s.cycle p == rsStanding && s.standsFor p == a) || (s.stope p).outOf == a ||
    (s.taking p a a && (s.listFor p a).isSome) || ((s.arr p a).closed && s.rolledBack p a)

/-- Rank of the writes of an array's target among the pending writes (R274); a list that arrives while the relief seam is COPYING
is part of the copy. -/
def State.writeRank (s : State) (p a : Nat) : Nat :=
  let k := (s.seamFor p a).getD 31
  let copying := decide (a = 16) && s.cycle p == rsCopying
  if (s.listFor p k).isSome ∧ s.taking p a k ∧ !copying then 1 else if a = 16 then 2 else 3

/-- Step 6 of bring-up runs, in which the stopes probe, refresh and assay their open arrays in place (R521). -/
def State.bootSlot (s : State) : Bool :=
  s.fld Page.DEV Reg.DEV.BRINGUP 3 0 == 5 && !bit (s.rd Page.DEV Reg.DEV.BRINGUP) 6 && !s.boot.recovery

/-- Is an array out of service for a refresh: in an ASSAY_SLOT or step 6, relieved, or taken out under R281 (R286, R521)? -/
def State.outOfService (s : State) (p a : Nat) : Bool :=
  (s.stope p).inSlot || s.bootSlot || (s.cycle p == rsStanding && s.standsFor p == a) || (s.stope p).outOf == a

/-- The lesser of two ranks, where there are any. -/
def minRank : Option Nat → Option Nat → Option Nat
  | some x, some y => some (min x y)
  | none, y => y
  | x, none => x

/-- Does a clearing still have to write a row side: its stope is being cleared, and a weight cell of it holds a level other than 0
(R275, R396)? -/
def State.clearSide (s : State) (p a row : Nat) (neg : Bool) : Bool :=
  (s.stope p).clearing.isSome && (List.range 512).any (fun col => lineOf (Sparse.get 0 (s.arr p a).codes (row * 512 + col)) neg != 0)

/-- The rank at which a row side waits, none where it does not: a clearing before all, else the first of what its target asks for
and what waits beside it, a repeat or a refresh of an array out of service (R274, Table 8.5). -/
def State.sideRank (s : State) (p a row : Nat) (neg : Bool) : Option Nat :=
  if s.clearSide p a row neg then some 0 else
  let asked := if s.writable p a && s.sideDue p a row neg then some (s.writeRank p a) else none
  match (s.stope p).sides.find? (fun q => q.arr == a && q.row == row && q.neg == neg) with
  | some q => if q.purpose ≠ 4 ∨ s.outOfService p a then minRank (some q.purpose) asked else asked
  | none => asked

/-- Least rank at which any row side of an array waits. -/
def State.arrayRank (s : State) (p a : Nat) : Option Nat :=
  ((List.range 512).flatMap (fun r => [s.sideRank p a r false, s.sideRank p a r true])).foldl minRank none

/-- Does one of the two channels take the writes of array a at this rank (R274): no more than one other array waits at a
rank before it, and none of its own writes does? -/
def State.channelTakes (s : State) (p a rank : Nat) : Bool :=
  let before (b : Nat) : Bool := match s.arrayRank p b with | some r => decide (r < rank) | none => false
  !before a && decide (((List.range 17).filter (fun b => b != a && before b)).length ≤ 1)

/-- The seams of a LOCKED claim, or of one being cleared, are left alone (R401). -/
def State.seamsLocked (s : State) (p : Nat) : Bool :=
  let st := s.claimState (s.claimServed p)
  st == 3 || st == 4

/-- An array that is left alone: every one of a claim being cleared, the seams of a LOCKED claim, and its relief seam where the
cycle that it served when the input was lost holds a seam's codes (R401, R521). -/
def State.arrLocked (s : State) (p a : Nat) : Bool :=
  s.seamsLocked p && (decide (a < 16) || (s.stope p).reliefHeld || s.cycle p != rsFree || s.claimState (s.claimServed p) == 4)

/-- Record of a stope's array (R300). -/
def State.upkeepRec (s : State) (p a code : Nat) (l : List Item) : State :=
  s.record code (Src.stope p) (some (s.claimServed p)) (l ++ s.stopeItems p ++ [it 0xF2 a])

/-! ### UNFIT and DEGRADED (R293, R294) -/

/-- UNFIT_SEAMS and UNFIT_NOW follow the marks of an array. -/
def State.setUnfit (s : State) (p a : Nat) (cols : List Nat) (wit : Nat) : State :=
  let old := (s.arr p a).unfit.length
  let s1 := s.modArr p a (fun x => { x with unfit := cols, unfitWit := wit })
  let s2 := s1.setFld (Page.STX p) Reg.STX.UNFIT_SEAMS a a (if cols = [] ∧ wit = 0 then 0 else 1)
  s2.setFld Page.ASY Reg.ASY.UNFIT_NOW 19 0 (s2.fld Page.ASY Reg.ASY.UNFIT_NOW 19 0 + cols.length - old)

/-- Estimated window ratio in % of a stope's seam (below, R297). The logarithm is taken to 16 fraction bits (log 39). -/
def logFrac : Nat → Nat → Nat → Nat
  | 0, _, acc => acc
  | f + 1, m, acc =>
    let q := m * m / 2 ^ 30
    if 2 ^ 31 ≤ q then logFrac f (q / 2) (2 * acc + 1) else logFrac f q (2 * acc)

/-- log2 of a count in units of 2^−16. -/
def logFix (n : Nat) : Nat :=
  let m := max 1 n
  Nat.log2 m * 65536 + logFrac 16 (m * 2 ^ 30 / 2 ^ Nat.log2 m) 0

/-- Interpolation between two measurements (count, ratio), rounded to nearest. -/
def between (a b : Nat × Nat) (n : Nat) : Int :=
  let span : Int := (logFix b.1 : Int) - logFix a.1
  if span ≤ 0 then b.2
  else a.2 + rneDiv (((b.2 : Int) - a.2) * ((logFix n : Int) - logFix a.1)) span.toNat

/-- The estimate from measurements in rising order of count: before the first the first, beyond the last an extrapolation
of the last two. -/
def windowOf : List (Nat × Nat) → Nat → Int
  | [], _ => 100
  | [a], _ => a.2
  | a :: b :: t, n => if n ≤ a.1 then a.2 else if n ≤ b.1 ∨ t = [] then between a b n else windowOf (b :: t) n

/-- Largest row-group write count of an array. -/
def Arr.mostWrites (a : Arr) : Nat := a.writes.foldl (fun m e => max m e.2) 0

/-- Estimated window of seam k. -/
def State.windowEst (s : State) (p k : Nat) : Nat := (windowOf (s.stope p).windows (s.arr p k).mostWrites).toNat

/-- An array becomes DEGRADED: event 1 and 0x1013 with its cause (1 columns, 2 witness, 3 window). -/
def State.degrade (s : State) (p a cause : Nat) : State :=
  if (s.arr p a).degraded then s
  else
    ((s.modArr p a (fun x => { x with degraded := true })).raise Page.ASY 1).upkeepRec p a 0x1013
      (items [cause, (s.arr p a).unfit.length, s.windowEst p a])

/-- A check of the upkeep's own work has failed: a relief seam that is COPYING or STAGED fails a fit or a verify, so what the next
seal would put in its owner's place is not as upkeep means it to be, and job 0 of this step is unsound (R187; the spec does not
list upkeep's checks, log 81). -/
def State.upkeepUnsound (s : State) (p a : Nat) : State :=
  if a = 16 ∧ (s.cycle p = rsCopying ∨ s.cycle p = rsStaged) then { s with sealing := { s.sealing with upkeep := true } } else s

/-- Columns become UNFIT: event 0, 0x1011 with the cause (1 converter fit, 2 cell fit, 3 stubborn cell) and the
determinant; more than four make the array DEGRADED. -/
def State.addUnfit (s : State) (p a : Nat) (l : List (Nat × Nat × Nat)) : State :=
  let old := (s.arr p a).unfit
  let new := l.filter (fun x => !old.contains x.1)
  if new = [] then s
  else
    let cols := (List.range 512).filter (fun col => old.contains col || new.any (fun x => x.1 == col))
    let s1 := ((s.setUnfit p a cols (s.arr p a).unfitWit).raise Page.ASY 0).upkeepUnsound p a
    let s2 := s1.each new (fun u x => u.upkeepRec p a 0x1011 (items [x.1, x.2.1, x.2.2]))
    s2.on (decide (4 < cols.length)) (fun u => u.degrade p a 1)

/-! ### Ageing state (R276, R298) -/

/-- The deputy copies a stope's ageing state. -/
def State.copyAgeing (s : State) (p : Nat) : State :=
  let x := s.stope p
  let arrs := (x.arrs.map (fun e => (e.1, { Arr.idle with writes := e.2.writes, base := e.2.base, amp := e.2.amp }))).filter
    (fun e => decide (e.2 ≠ Arr.idle))
  { s with aged := Sparse.set Stope.idle s.aged p { Stope.idle with
      arrs := arrs, windows := x.windows, sigma := x.sigma, rho := x.rho, guard := x.guard, range0Off := x.range0Off } }

/-- Kinds of re-plan in event 0x1017 (Table 8.4). -/
abbrev rpGuard : Nat := 0
abbrev rpTrim : Nat := 1
abbrev rpPlan : Nat := 2
abbrev rpAmp : Nat := 3
abbrev rpInterval : Nat := 4

/-- A stope makes a re-plan for the next seal, at most one of each kind (R298). -/
def State.makeReplan (s : State) (p kind a meas old new : Nat) : State :=
  if old = new ∨ (s.stope p).replans.any (fun r => r.headD 9 == kind) then s
  else s.modStope p (fun x => { x with replans := x.replans ++ [[kind, a, meas, old, new]] })

/-- A re-plan takes effect at a commit tally: REPLANS, event 3, 0x1017, and the ageing state is copied. -/
def State.takeReplan (s : State) (p : Nat) (r : List Nat) : State :=
  match r with
  | [kind, a, meas, old, new] =>
    let s1 := match kind with
      | 0 => (s.modStope p (fun x => { x with guard := new })).on (new == 48) (fun u => u.propose p 12)
      | 1 => s.modStope p (fun x => { x with rho := signed 32 new, range0Off := decide (60 < (signed 32 new).natAbs) })
      | 3 => s.modArr p a (fun x => { x with amp := new })
      | 4 => s.modArr p a (fun x => { x with interval := new })
      | _ => s
    (((s1.count Page.ASY Reg.ASY.REPLANS 5 1).raise Page.ASY 3).upkeepRec p a 0x1017 (items [kind, a, meas, old, new])).copyAgeing p
  | _ => s

/-- AGEING_COPY (R276). -/
def execAgeingCopy (s : State) : Out := perform .ageingCopy s (s.each s.stopeNos (fun u p => u.copyAgeing p))

/-! ### Writes (R271 to R276) -/

/-- A row group's write count, which sticks with event 0x101A. -/
def State.countWrites (s : State) (p a g : Nat) : State :=
  let n := Sparse.get 0 (s.arr p a).writes g
  if n = 0xFFFFFFFF then s
  else
    let s1 := s.modArr p a (fun x => { x with writes := Sparse.set 0 x.writes g (n + 1) })
    s1.on (decide (n + 1 = 0xFFFFFFFF)) (fun u => u.upkeepRec p a 0x101A (items [0, g]))

/-- A list is complete once its block has been applied and verified; the cells of its array are fitted next (R282, R284).
After a FULL list the first fit is taken at once (R296). -/
def State.settleList (s : State) (p a : Nat) : State :=
  match s.seamFor p a with
  | none => s
  | some k =>
    match s.listFor p k with
    | none => s
    | some w =>
      if w.whole && s.taking p a k && s.holdsTarget p a then
        (s.modStope p (fun x =>
          let y := { x with lists := x.lists.map (fun v => if v == w then { v with applied := true } else v) }
          y.setArr a { y.arr a with fitDue := !(a == 16 && s.cycle p == rsCopying), jump := (y.arr a).jump || w.full })).reportStarting
      else s

/-- Cells of a row side that stay stubborn after the repeat: STUBBORN, event 5 and 0x1015 for each; the same cell in two
successive writes makes its column UNFIT (R273). -/
def State.stubbornCells (s : State) (p a row : Nat) (neg : Bool) (off : List (Nat × Int)) : State :=
  let side := 2 * row + (if neg then 1 else 0)
  let old := (s.arr p a).stubborn
  let kept := old.filter (fun e => decide (e.1 / 516 ≠ side))
  let now := off.foldl (fun m x => Sparse.set 0 m (side * 516 + x.1) (Sparse.get 0 old (side * 516 + x.1) + 1)) kept
  let s1 := s.modArr p a (fun x => { x with stubborn := now })
  let s2 := s1.each off (fun u x =>
    ((u.count Page.ASY Reg.ASY.STUBBORN 4 1).raise Page.ASY 5).upkeepRec p a 0x1015
      [it 1 row, it 2 x.1, it 3 (if neg then 1 else 0), itS 4 x.2])
  s2.addUnfit p a ((off.filter (fun x => decide (x.1 < 512) && decide (2 ≤ Sparse.get 0 now (side * 516 + x.1)))).map (fun x => (x.1, 3, 0)))

/-- The cells of a row side take their target levels. -/
def State.setSide (s : State) (p a row : Nat) (neg : Bool) : State :=
  let side := 2 * row + (if neg then 1 else 0)
  let wit := s.targetPlan p a
  let cells (x : Arr) : List (Nat × Nat) := match s.targetOf p a with
    | none => x.codes
    | some t => (List.range 512).foldl (fun m col =>
        let key := row * 512 + col
        let old := Sparse.get 0 x.codes key
        Sparse.set 0 m key (if neg then old % 16 + 16 * lineOf (t row col) true else old / 16 * 16 + lineOf (t row col) false)) x.codes
  s.modArr p a (fun x => { x with
    codes := cells x
    wit12 := if wit then (if x.wit12.contains side then x.wit12 else x.wit12 ++ [side]) else x.wit12.filter (· != side) })

/-- Effort of an array's row-side writes: row sides, pulses, pulsed cells. -/
def addEffort (e : Nat × Nat × Nat) (pulses cells : Nat) : Nat × Nat × Nat := (e.1 + 1, e.2.1 + pulses, e.2.2 + cells)

/-- A cell's distance from its target, in 1/1,024 level, is beyond ±0.25 level: it takes the next pulse (R271). -/
def offTarget (x : Nat × Int) : Bool := decide (256 < x.2.natAbs) && decide (x.1 < 516)

/-- The pulses of a row side (Table 8.1): `left` pulses remain, `off` holds the cells off target at the last verify read, and
`reads` the verify reads that follow. A cell within ±0.25 level is inhibited for the rest of the write. The result is the
pulses that cells took in all and the cells off target at the last verify read. -/
def pulseLoop : (left : Nat) → (off : List (Nat × Int)) → (reads : List (List (Nat × Int))) → Nat × List (Nat × Int)
  | 0, off, _ => (0, off)
  | left + 1, off, reads =>
    if off = [] then (0, [])
    else
      let next := ((reads.headD []).filter offTarget).filter (fun x => off.any (fun y => y.1 == x.1))
      let rest := pulseLoop left next reads.tail
      (off.length + rest.1, rest.2)

/-- The cells of a row side at level 0, as clearing writes them (R275): its witness cells stay. -/
def State.zeroSide (s : State) (p a row : Nat) (neg : Bool) : State :=
  s.modArr p a (fun x => { x with codes := (List.range 512).foldl (fun m col =>
    let old := Sparse.get 0 x.codes (row * 512 + col)
    Sparse.set 0 m (row * 512 + col) (if neg then old % 16 else old / 16 * 16)) x.codes })

/-- Weight cells of a clearing that stay more than 0.5 level from level 0 after the repeat fail it (R399): event 0x8007, and the
stope is handled under R356 once its claim's clearing completes. -/
def State.clearFails (s : State) (p a rank row : Nat) (bad : List (Nat × Int)) : State :=
  if rank ≠ 0 ∨ (bad.filter (fun x => decide (x.1 < 512))) = [] ∨ (s.stope p).clearFail then s
  else (s.modStope p (fun x => { x with clearFail := true })).record 0x8007 (Src.stope p) (some ((s.stope p).clearing.getD 0))
    (items [p, a, row, ((bad.filter (fun x => decide (x.1 < 512))).headD (0, 0)).1])

/-- WRITE_ROW_SIDE (R271 to R276): `reads` are the verify reads, each the distances from target of the row side's cells in
1/1,024 level; cells that it does not list are on target. The first write with stubborn cells is repeated once at a higher step.
A seam in place is CLOSED from its first write (R283). -/
def State.rowSide (s : State) (p a row : Nat) (neg : Bool) (reads : List (List (Nat × Int))) : State :=
  match s.sideRank p a row neg with
  | none => s
  | some rank =>
    if s.holdAll || (rank != 0 && s.arrLocked p a) || (s.arr p a).vec.isSome || !s.channelTakes p a rank then s
    else
      let again := (s.stope p).sides.any (fun q => q.arr == a && q.row == row && q.neg == neg && q.again)
      let off := (reads.headD []).filter offTarget
      let done := pulseLoop 4 off reads.tail
      let bad := done.2.filter (fun x => decide (512 < x.2.natAbs))
      let s1 := s.modStope p (fun x => { x with sides := x.sides.filter (fun q => !(q.arr == a && q.row == row && q.neg == neg)) })
      let s2 := (if rank = 0 then s1.zeroSide p a row neg else s1.setSide p a row neg).modArr p a (fun x =>
        { x with effort := addEffort x.effort done.1 off.length })
      let s3 := s2.on (off != []) (fun u => (u.countWrites p a (row / 32)).modArr p a (fun x => { x with
        pulsed := if x.pulsed.contains (row / 32) then x.pulsed else x.pulsed ++ [row / 32] }))
      let s4 := s3.on (a == 16 && off != []) (fun u => u.modStope p (fun x => { x with copyFit := false }))
      let s5 := s4.on (decide (a < 16) && rank == 1 && s.seamOf p a == some a && (s.stope p).outOf != a) (fun u =>
        u.modArr p a (fun x => { x with closed := true }))
      let s6 := if bad ≠ [] ∧ !again then
          s5.modStope p (fun x => { x with sides := x.sides ++ [{ arr := a, row := row, neg := neg, purpose := rank, again := true }] })
        else (s5.stubbornCells p a row neg bad).clearFails p a rank row bad
      s6.settleList p a

/-- WRITE_ROW_SIDE (R271): the verify reads before the first pulse, after it, and after each further one. -/
def execWriteRowSide (p k row : Nat) (neg : Bool) (before after : List (Nat × Int)) (more : List (List (Nat × Int))) (s : State) : Out :=
  perform (.writeRowSide p k row neg before after more) s (s.rowSide p k row neg (before :: after :: more))

/-! ### Write lists (R282, R284) -/

/-- The next block of the write list of seam k reaches the stope over the bridge and mesh plane 1, in the order in which the mill
sent them (R23, R282). -/
def State.listBlock (s : State) (lp k : Nat) : State :=
  let p := s.serving lp
  if 1056 ≤ p ∨ s.holdAll ∨ s.seamsLocked p then s
  else
    match s.mesh.find? (fun q => q.kind == 2 && q.dst == p && q.tag.headD 31 == k) with
    | none => s
    | some q =>
      if !s.mayArrive q then s
      else
        let s1 := (s.meshLand q).modStope p (fun x => { x with lists := x.lists.map (fun w =>
          if w.seam == k && w.claim == q.claim && !w.whole then { w with arrived := w.arrived + 1 } else w) })
        s1.settleList p (s1.receiver p k)

/-- WRITE_LIST_BLOCK (R282). -/
def execWriteListBlock (lp k : Nat) (s : State) : Out := perform (.writeListBlock lp k) s (s.listBlock lp k)

/-- Has every SEAM_PASS of the step slot that reads seam k completed, SERVE passes excepted? A job that does not run in the
slot has none, and the slot of a probe step has the probe's own (R145). -/
def State.passesDone (s : State) (lp k : Nat) : Bool :=
  match s.placedAt lp k with
  | none => true
  | some (c, j, d, _) =>
    if s.jobState c ≠ jsRunning ∧ s.jobState c ≠ jsStopping then true
    else if j.probe then j.probeDone
    else
    ((List.range j.entries.length).zip j.entries).all (fun x =>
      !(x.2.action == 1 && !x.2.serve && !x.2.ref && x.2.layer == d.layer) || (j.run x.1).complete)

/-- SEAM_QUIET (R282): the in-place write of a list may begin. -/
def execSeamQuiet (lp k : Nat) (s : State) : Out :=
  perform (.seamQuiet lp k) s
    (let p := s.serving lp
    if 1056 ≤ p ∨ !s.passesDone lp k ∨ s.receiver p k ≠ k then s
    else (s.modArr p k (fun x => { x with quiet := true })).settleList p k)

/-! ### Drift (R285 to R287) -/

/-- Largest |w| among the codes in force of a row group (R286). -/
def State.groupLevel (s : State) (p a g : Nat) : Nat :=
  match s.logicalOf p, s.seamFor p a with
  | some lp, some k =>
    match s.placedAt lp k with
    | none => 0
    | some (c, j, d, n) =>
      (List.range 32).foldl (fun m r => (List.range 512).foldl (fun b col =>
        max b (levelOf (s.rdCode c (j.codesBase d (j.cur d.layer) n) (32 * g + r) col)).natAbs) m) 0
  | _, _ => 0

/-- Is a refresh estimate in 1/1,024 level above the tolerance in 1/100 level? -/
def State.aboveTol (s : State) (e : Nat) : Bool := decide (s.fld Page.ASY Reg.ASY.REFRESH_TOL 5 0 * 1024 < e * 100)

/-- The probe interval after a whole probe (R287): from the fourth on a fit whose law the spec does not give, a free value within
10 s to 3,600 s (log 2); a change by a factor of two or more is a re-plan. -/
def State.planInterval (s : State) (p a : Nat) : State :=
  let s1 := s.modArr p a (fun x => { x with probed := min 4 (x.probed + 1) })
  if (s1.arr p a).probed < 4 then s1
  else
    let new := 10 + (s1.draw 32).toNat % 3591
    let old := (s1.arr p a).interval
    if 2 * old ≤ new ∨ 2 * new ≤ old then s1.drawn.makeReplan p rpInterval a 0 old new
    else s1.drawn.modArr p a (fun x => { x with interval := new })

/-- One probe of a row group: `sum` is the sum of its 16 reads in level-units, nominally 1,536. After a write that pulsed
the group it is the baseline, and completes a refresh: REFRESHES, and 0x1014 when the last group is done. -/
def State.probeGroup (s : State) (p a g : Nat) (sum : Int) : State :=
  let x := s.arr p a
  let ends := x.refresh.contains g && !(s.stope p).sides.any (fun q => q.arr == a && q.row / 32 == g)
  if x.pulsed.contains g || ends then
    let rest := if ends then x.refresh.filter (· != g) else x.refresh
    let e := x.refreshE
    let s1 := s.modArr p a (fun y => { y with
      base := Sparse.set 1536 y.base g sum, pulsed := y.pulsed.filter (· != g), probes := Sparse.set 0 y.probes g 0
      refresh := rest, refreshE := if ends then (if rest = [] then 0 else e ||| 2 ^ g) else e })
    (s1.on ends (fun u => u.count Page.ASY Reg.ASY.REFRESHES 1 1)).on (ends && rest == []) (fun u =>
      u.upkeepRec p a 0x1014 (items [(e ||| 2 ^ g) % 65536, e / 65536]))
  else
    let d := (sum - Sparse.get 1536 x.base g).natAbs
    let e := d * s.groupLevel p a g * 1024 / 1536
    let s1 := s.modArr p a (fun y => { y with probes := Sparse.set 0 y.probes g e })
    s1.on (g == 15) (fun u => u.planInterval p a)

/-- Groups of an array that are due for refresh, and its largest estimate (R286). -/
def State.dueGroups (s : State) (p a : Nat) : List Nat := ((s.arr p a).probes.filter (fun e => s.aboveTol e.2)).map (·.1)
def Arr.worst (a : Arr) : Nat := a.probes.foldl (fun m e => max m e.2) 0

/-- A refresh of an array's due groups begins: every row side of them is to be written (R286). -/
def State.startRefresh (s : State) (p a : Nat) : State :=
  let gs := (s.dueGroups p a).filter (fun g => !(s.arr p a).refresh.contains g)
  if gs = [] then s
  else
    let sides := gs.flatMap (fun g => (List.range 32).flatMap (fun r =>
      [({ arr := a, row := 32 * g + r, neg := false, purpose := 4, again := false } : RowSide)
      , ({ arr := a, row := 32 * g + r, neg := true, purpose := 4, again := false } : RowSide)]))
    s.modStope p (fun x =>
      let y := x.arr a
      ({ x with sides := x.sides ++ sides.filter (fun (q : RowSide) => !(x.sides.any (fun z => z.arr == q.arr && z.row == q.row && z.neg == q.neg))) }).setArr
        a { y with refresh := y.refresh ++ gs, refreshE := max (y.refreshE / 65536) y.worst * 65536 + y.refreshE % 65536
                   pulsed := y.pulsed ++ gs.filter (fun g => !y.pulsed.contains g) })

/-- DRIFT_PROBE (R285); in step 6 of bring-up a group that is due is refreshed at once (R521). -/
def execDriftProbe (p k group : Nat) (sum : Int) (s : State) : Out :=
  perform (.driftProbe p k group sum) s
    (if s.arrLocked p k then s else (s.probeGroup p k group sum).on s.bootSlot (fun u => u.startRefresh p k))

/-! ### Assay (R288 to R293) -/

/-- ASSAY_DUE (R288): T has moved beyond DTEMP and MIN_INTERVAL has passed, or MAX_INTERVAL has. -/
def execAssayDue (p : Nat) (temp : Int) (s : State) : Out :=
  perform (.assayDue p temp) s
    (let x := s.stope p
    let since := (s.osc - x.lastAt) / 1000000000
    let far := decide (s.fld Page.ASY Reg.ASY.DTEMP 9 0 < (temp - x.tA).natAbs) && decide (s.fld Page.ASY Reg.ASY.MIN_INTERVAL 5 0 ≤ since)
    s.modStope p (fun y => { y with tNow := temp, due := y.due || far || decide (s.fld Page.ASY Reg.ASY.MAX_INTERVAL 9 0 ≤ since) }))

/-- ASSAY_OVERDUE (R288): event 2 and 0x1019 once. -/
def execAssayOverdue (p : Nat) (s : State) : Out :=
  perform (.assayOverdue p) s
    (let x := s.stope p
    let since := (s.osc - x.lastAt) / 1000000000
    if x.overdue ∨ since < s.fld Page.ASY Reg.ASY.MAX_INTERVAL 9 0 + 60 then s
    else ((s.modStope p (fun y => { y with due := true, overdue := true })).raise Page.ASY 2).upkeepRec p 31 0x1019 (items [since]))

/-- A completed pair on ASSAY_FORCE (R288). -/
def State.assayForceAct (s : State) (src : Source) (v : Nat) : State × Bool :=
  let p := bits v 10 0
  if !bit v 16 ∨ 1056 ≤ p then refusedWrite (s.ignoreWrite src Page.ASY Reg.ASY.ASSAY_FORCE v)
  else done (s.modStope p (fun x => { x with due := true }))

/-- ASSAY_FORCE (R288). -/
def execAssayForce (src : Source) (v : Word) (s : State) : Out :=
  perform (.assayForce src v) s
    (s.guarded src Page.ASY Reg.ASY.ASSAY_FORCE v.toNat (fun u => u.assayForceAct src v.toNat))

/-- The lowest array not yet assayed in the stope's round. -/
def State.nextArray (s : State) (p : Nat) : Nat :=
  ((List.range 17).find? (fun a => !((s.stope p).arr a).assayed && !(s.bootSlot && s.arrLocked p a))).getD 17

/-- A round of the stope is wanted: its assay is due, or step 6 of this bring-up has not yet run its round (R288, R521). -/
def State.roundDue (s : State) (p : Nat) : Bool :=
  (s.stope p).due || (s.bootSlot && decide ((s.stope p).lastAt ≤ s.boot.began))

/-- May the assay of an array start (R289, R277, R284, R360): the next one in an ASSAY_SLOT or step 6 of bring-up or on an idle relief stope, the relief seam while FREE in a
round or once its copy is written, a seam that its cycle or R281 keeps out of service, or one with changed cells? -/
def State.assayOpen (s : State) (p a : Nat) : Bool :=
  let x := s.stope p
  let y := x.arr a
  !s.arrLocked p a && y.vec.isNone && !y.assaying &&
    (((x.inSlot || s.bootSlot || s.idleRelief p) && s.roundDue p && s.nextArray p == a) || y.fitDue ||
      (a == 16 && ((s.cycle p == rsFree && s.roundDue p && !y.assayed) || (s.cycle p == rsCopying && s.holdsTarget p 16))) ||
      (decide (a < 16) && ((s.cycle p == rsStanding && s.standsFor p == a) || x.outOf == a)))

/-- ARRAY_ASSAY (R290): the first assay of a round begins it, at the temperature T. -/
def execArrayAssay (p k : Nat) (s : State) : Out :=
  perform (.arrayAssay p k) s
    (if !s.assayOpen p k then s
    else
      let fresh := s.roundDue p && (List.range 17).all (fun a => !((s.stope p).arr a).assayed)
      (s.modArr p k (fun y => { y with assaying := true })).on fresh (fun u =>
        u.modStope p (fun x => { x with roundAt := u.osc, tStart := x.tNow, changed := 0 })))

/-- The converter fit of R291 from sums of 16 codes: gain and offset + 512, none where it is singular. -/
def convFit (s1 s2 : Int) : Option (Nat × Nat) :=
  if s2 ≤ s1 then none
  else
    let gain := rneDiv (32768 * 3840) (s2 - s1).toNat
    let off := rneDiv (2 * s1 - (s2 - s1)) 2
    if gain < 0x6000 ∨ 0xA000 < gain ∨ off < -512 ∨ 511 < off then none else some (gain.toNat, (off + 512).toNat)

/-- Equivalent coefficients of R296: the fit that maps the codes at the new trims onto the values that the old trims and
coefficients gave. -/
def equivalent (old : Nat × Nat) (m : ConvMeas) : Nat × Nat :=
  if m.new2 ≤ m.new1 ∨ m.old2 ≤ m.old1 then old
  else
    let gain := rneDiv ((old.1 : Int) * (m.old2 - m.old1)) (m.new2 - m.new1).toNat
    let off := m.new1 - rneDiv ((m.old1 - ((old.2 : Int) - 512)) * (m.new2 - m.new1)) (m.old2 - m.old1).toNat
    ((max 0 (min 65535 gain)).toNat, (max (-512) (min 511 off) + 512).toNat)

/-- What a cell fit says of a column: not fitted, fitted (κ, ω + 512), or singular with its determinant. -/
inductive CellFit
  | kept
  | fit (kappa omega : Nat)
  | singular (det : Nat)
deriving DecidableEq, Repr

/-- The cell fit of R292 from sums of 8 codes of each row at range 0, with the converter's gain and offset. -/
def cellFit (level : Nat → Int) (plan12 : Bool) (gain : Nat) (off : Int) (detMin : Nat) (sums : List (Nat × Int)) : CellFit :=
  let high : Nat := if plan12 then 6 else 8
  let pick (f : Nat → Bool) : Int × Int × Int := sums.foldl (fun (a : Int × Int × Int) r =>
    let w := level r.1
    if w ≠ 0 ∧ f w.natAbs then (a.1 + 1, a.2.1 + w.natAbs, a.2.2 + w.sign * (2 * r.2 - off)) else a) (0, 0, 0)
  let a := pick (fun n => decide (high ≤ n))
  let b := pick (fun n => decide (n < high))
  let det := a.2.1 * b.1 - b.2.1 * a.1
  if a.1 + b.1 < 8 then .kept
  else if det.natAbs < detMin ∨ det = 0 then .singular det.natAbs
  else
    let kn := gain * (a.2.2 * b.1 - b.2.2 * a.1) * det.sign
    let on := gain * (a.2.1 * b.2.2 - b.2.1 * a.2.2) * det.sign
    let kappa := rneDiv kn (16 * det.natAbs)
    let omega := rneDiv on (512 * det.natAbs)
    if kappa < 0x6000 ∨ 0xA000 < kappa ∨ omega < -511 ∨ 511 < omega then .singular det.natAbs
    else .fit kappa.toNat (omega + 512).toNat

/-- Level that a cell pair of an array holds. -/
def Arr.levelAt (a : Arr) (row col : Nat) : Int :=
  let q := Sparse.get 0 a.codes (row * 512 + col)
  ((q % 16 : Nat) : Int) - (q / 16 : Nat)

/-- Coefficients at nominal, as sparse values. -/
abbrev convNominal : Nat × Nat := (0x8000, 512)
abbrev cellNominal : Nat × Nat := (0x8000, 512)

/-- The converter fits of an assay: targets, values in force after new trims, and the columns whose fit is singular. -/
def Arr.fitConv (a : Arr) (l : List ConvMeas) : Arr × List Nat :=
  l.foldl (fun (b : Arr × List Nat) m =>
    let key := m.col * 4 + m.range
    let x := if m.trimmed then { b.1 with conv := Sparse.set convNominal b.1.conv key (equivalent (Sparse.get convNominal b.1.conv key) m) } else b.1
    match convFit m.new1 m.new2 with
    | some f => ({ x with convT := Sparse.set convNominal x.convT key f }, b.2)
    | none => (x, if b.2.contains m.col then b.2 else b.2 ++ [m.col])) (a, [])

/-- The cell fits of an assay: targets, and the columns whose fit is singular with the determinant. -/
def Arr.fitCells (a : Arr) (plan12 : Bool) (detMin : Nat) (l : List CellMeas) : Arr × List (Nat × Nat) :=
  l.foldl (fun (b : Arr × List (Nat × Nat)) m =>
    let g := Sparse.get convNominal b.1.convT (m.col * 4)
    match cellFit (fun row => a.levelAt row m.col) plan12 g.1 ((g.2 : Int) - 512) detMin m.sums with
    | .kept => b
    | .fit k w => ({ b.1 with cellT := Sparse.set cellNominal b.1.cellT m.col (k, w) }, b.2)
    | .singular det => (b.1, b.2 ++ [(m.col, det)])) (a, [])

/-- The marks that an assay's fits leave (R293, R294): columns that become UNFIT, columns that stop being so, and witness
columns, which make the array DEGRADED at the second assay in succession. -/
def State.markFits (s : State) (p a : Nat) (badConv : List Nat) (badCell : List (Nat × Nat)) : State :=
  let x := s.arr p a
  let wit := (List.range 4).foldl (fun m k => if badConv.contains (512 + k) then m + 2 ^ k else m) 0
  let fails (col : Nat) : Bool := badConv.contains col || badCell.any (fun e => e.1 == col) ||
    x.stubborn.any (fun e => e.1 % 516 == col)
  let back := x.unfit.filter (fun col => !fails col)
  let s1 := s.setUnfit p a (x.unfit.filter fails) wit
  let s2 := s1.each back (fun u col => u.upkeepRec p a 0x1012 (items [col]))
  let new := (badConv.filter (fun col => decide (col < 512))).map (fun col => (col, 1, 0)) ++
    (badCell.filter (fun e => !badConv.contains e.1)).map (fun e => (e.1, 2, e.2))
  (s2.addUnfit p a new).on (decide ((wit &&& x.unfitWit) ≠ 0)) (fun u => u.degrade p a 2)

/-- The ageing readings of an assay round (Table 8.4): guard band from σ, ramp trim from ρ. -/
def State.ageReadings (s : State) (p sigma : Nat) (rho : Int) : State :=
  let x := s.stope p
  let guard := if sigma < 5 then 0 else min 48 (6 * ((sigma - 5) / 10))
  ((s.modStope p (fun y => { y with sigma := min 255 sigma })).makeReplan p rpGuard 31 sigma x.guard guard).makeReplan p rpTrim 31
    (unsigned 32 rho) (unsigned 32 x.rho) (unsigned 32 rho)

/-- The last array of a round completes it (R289): ASSAY_ROUNDS, 0x1010, and T_a is the temperature at its start. -/
def State.endRound (s : State) (p : Nat) : State :=
  let x := s.stope p
  if !(List.range 17).all (fun a => (x.arr a).assayed || (s.bootSlot && s.arrLocked p a)) then s
  else
    let arrs := (x.arrs.map (fun e => (e.1, { e.2 with assayed := false }))).filter (fun e => decide (e.2 ≠ Arr.idle))
    let s1 := s.modStope p (fun y => { y with
      arrs := arrs, due := false, overdue := false, lastAt := y.roundAt, tA := y.tStart })
    (s1.count Page.ASY Reg.ASY.ASSAY_ROUNDS 0 1).upkeepRec p 31 0x1010 [it 1 (s.osc - x.roundAt), itS 2 x.tStart, it 3 x.changed]

/-- ARRAY_ASSAY_DONE (R289 to R293): fits become targets, marks follow, probes and ageing readings are taken. -/
def State.assayDone (s : State) (p a : Nat) (m : AssayMeas) : State :=
  if !(s.arr p a).assaying then s
  else
    let x := s.arr p a
    let f := x.fitConv m.conv
    let g := f.1.fitCells (s.targetPlan p a) (s.fld Page.ASY Reg.ASY.FIT_DET_MIN 16 0) m.cells
    let changed := decide (g.1.convT ≠ x.convT) || decide (g.1.cellT ≠ x.cellT)
    let counts := s.roundDue p && (decide (a < 16) || s.cycle p == rsFree || (s.stope p).inSlot)
    let s1 := s.modStope p (fun y =>
      { (y.setArr a { g.1 with assaying := false, fitted := true, fitDue := false, assayed := x.assayed || counts }) with
        changed := if changed then y.changed + 1 else y.changed, copyFit := y.copyFit || (a == 16 && s.cycle p == rsCopying) })
    let s2 := s1.markFits p a f.2 g.2
    let s3 := s2.each ((List.range 16).zip m.probes) (fun u q => u.probeGroup p a q.1 q.2)
    (s3.ageReadings p m.sigma m.rho).endRound p

/-- ARRAY_ASSAY_DONE (R289). -/
def execArrayAssayDone (p k : Nat) (meas : AssayMeas) (s : State) : Out :=
  perform (.arrayAssayDone p k meas) s (s.assayDone p k meas)

/-- WRITE_EFFORT_REPLAN (R298): at the 65,536th row-side write the mean pulses per pulsed cell move the amplitude step. -/
def execWriteEffortReplan (p k : Nat) (s : State) : Out :=
  perform (.writeEffortReplan p k) s
    (let x := s.arr p k
    if x.effort.1 < 65536 then s
    else
      let hi := decide (5 * x.effort.2.2 < 2 * x.effort.2.1)
      let lo := decide (2 * x.effort.2.1 < 3 * x.effort.2.2)
      let mean := if x.effort.2.2 = 0 then 0 else x.effort.2.1 * 1000 / x.effort.2.2
      let s1 := s.modArr p k (fun y => { y with effort := (0, 0, 0) })
      if hi then
        (if x.amp = 15 then s1.upkeepRec p k 0x1017 (items [rpAmp, k, mean, 15, 15]) else s1.makeReplan p rpAmp k mean x.amp (x.amp + 1))
      else if lo ∧ 0 < x.amp then s1.makeReplan p rpAmp k mean x.amp (x.amp - 1)
      else s1)

/-! ### ASSAY_SLOT (R289) -/

/-- Physical stopes that serve the logical stopes a hoist targets. -/
def State.targetStopes (s : State) (c : Nat) (h : HoistE) : List Nat :=
  let ls := if h.tkind = 1 then (s.claimStopes c).filter (fun l => decide (bits h.target 9 0 ≤ l) && decide (l ≤ bits h.target 25 16))
    else s.claimStopes c
  (ls.map s.serving).filter (fun p => decide (p < 1056))

/-- ASSAY_SLOT (R289): the seams of its stopes read nothing until it ends; groups due for refresh are refreshed (R286). -/
def execAssaySlot (c e : Nat) (s : State) : Out :=
  perform (.assaySlot c e) s
    (match s.hoistFor c e 10 with
    | none => s
    | some (_, h) =>
      let s1 := s.startRun c e h 1
      s1.each (s1.targetStopes c h) (fun u p =>
        (List.range 17).foldl (fun w a => w.startRefresh p a) (u.modStope p (fun x => { x with inSlot := true }))))

/-- ASSAY_SLOT_END (R289): the duration has elapsed. -/
def execAssaySlotEnd (c e : Nat) (s : State) : Out :=
  perform (.assaySlotEnd c e) s
    (match s.job? c with
    | none => s
    | some j =>
      match j.entries[e]? with
      | none => s
      | some h =>
        if h.action = 10 ∧ (j.run e).started ∧ !(j.run e).complete then
          (s.each (s.targetStopes c h) (fun u p => u.modStope p (fun x => { x with inSlot := false }))).hoistDone c e
        else s)

/-! ### The relief seam (R277 to R281) -/

/-- SEAM_STATE of a seam of the logical stope (Table 2.10). -/
def State.setSeamState (s : State) (lp k v : Nat) : State :=
  let off := Reg.STP.SEAM_STATE
  s.stageWord (Page.STP lp) off (putBits (s.nextWord (Page.STP lp) off) (2 * k + 1) (2 * k) v)

/-- RELIEF_COPY_DONE (R277): every row side written and the relief seam's fits complete; the window measured before the
copy is kept (R297). -/
def execReliefCopyDone (p : Nat) (window : Nat) (s : State) : Out :=
  perform (.reliefCopyDone p window) s
    (let x := s.stope p
    if s.cycle p ≠ rsCopying ∨ !x.copyFit ∨ !s.holdsTarget p 16 ∨ x.sides.any (fun q => q.arr == 16) then s
    else
      let kept := x.windows.filter (fun e => decide (e.1 < x.winAt)) ++ [(x.winAt, window)]
      (s.modStope p (fun y => { y with windows := kept })).setCycle p rsStaged (s.standsFor p))

/-- A cycle begins (R280): row 511 of the relief seam is written alternately to 15 and 0 for the window measurement (R297),
and the copy of seam k follows. -/
def State.startCycle (s : State) (p purpose k : Nat) : State :=
  let a := s.arr p 16
  let cells := (List.range 512).foldl (fun m col =>
    Sparse.set 0 m (511 * 512 + col) (Sparse.get 0 a.codes (511 * 512 + col) / 16 * 16 + (if col % 2 = 0 then 15 else 0))) a.codes
  let s1 := (s.countWrites p 16 15).modStope p (fun x =>
    { x.setArr 16 { x.arr 16 with codes := cells, pulsed := if (x.arr 16).pulsed.contains 15 then (x.arr 16).pulsed else (x.arr 16).pulsed ++ [15] } with
      purpose := purpose, copyFit := false, winAt := (x.arr 16).mostWrites, reliefHeld := false })
  s1.setCycle p rsCopying k

/-- The seam of the largest value above `least`, the lower number on a tie. -/
def largestSeam (f : Nat → Nat) (least : Nat) : Option Nat :=
  ((List.range 16).foldl (fun (b : Option Nat × Nat) k => if b.2 < f k then (some k, f k) else b) (none, least)).1

/-- Is an ASSAY_SLOT of the step slot aimed at the stope (R280)? -/
def State.slotAims (s : State) (p : Nat) : Bool :=
  match s.logicalOf p with
  | none => false
  | some lp =>
    let c := s.ownerOf lp
    match s.job? c with
    | none => false
    | some j => (s.jobState c == jsRunning || s.jobState c == jsStopping) && j.entries.any (fun h => h.action == 10 && (h.tkind != 1 || (decide (bits h.target 9 0 ≤ lp) && decide (lp ≤ bits h.target 25 16))))

/-- The first purpose of R280 that applies, with its seam. -/
def State.nextPurpose (s : State) (p : Nat) : Option (Nat × Nat) :=
  let x := s.stope p
  match (List.range 16).find? (fun k => (x.arr k).degraded) with
  | some k => some (1, k)
  | none =>
    match largestSeam (fun k => if s.dueGroups p k = [] then 0 else (x.arr k).worst) 0 with
    | some k => some (2, k)
    | none =>
      match (if x.due && !s.slotAims p then (List.range 16).find? (fun k => !(x.arr k).assayed) else none) with
      | some k => some (3, k)
      | none => (largestSeam (fun k => (x.arr k).served) 0).map (fun k => (4, k))

/-- Does an array hold the codes now in force (R278)? Lists of the step just sealed are in force or gone by now. -/
def State.inForce (s : State) (p a : Nat) : Bool := s.holdsTarget p a

/-- A served array's coefficients are taken in full at once (R278, R296). -/
def Arr.takeAll (a : Arr) : Arr := { a with conv := a.convT, cell := a.cellT }

/-- Is the upkeep of an array complete: no row side waits, its groups are probed, its cells fitted, and in an assay cycle it
is assayed? -/
def State.upkept (s : State) (p a purpose : Nat) : Bool :=
  let x := s.stope p
  let y := x.arr a
  !x.sides.any (fun q => q.arr == a) && y.refresh == [] && !y.fitDue && !y.assaying && (purpose != 3 || y.assayed || !x.due)

/-- A vector of the seam that is being read waits out a rotation: the next one reads from the new array (Table 2.7). -/
def State.rotWait (s : State) (p k : Nat) : State :=
  s.on ((s.stope p).arrs.any (fun e => match e.2.vec with | some v => v.seam == k | none => false)) (fun u =>
    u.count (Page.STX p) Reg.STX.ROT_WAITS 0 1)

/-- May a relief cycle begin: the relief seam is not DEGRADED, the claim's seams are not locked, the stope not retired? -/
def State.mayCycle (s : State) (p : Nat) : Bool :=
  !((s.arr p 16).degraded || s.seamsLocked p || s.fld (Page.STX p) Reg.STX.STOPE_ROLE 1 0 == 3)

/-- The relief seam of a stope at a commit tally (R278, R280): a standing one returns its seam, a staged one stands in or ends
its cycle, a FREE one begins the next, and one that has become DEGRADED before it stood in serves no cycle any more (R281).
`wrote` tells whether the step committed a list for a seam. -/
def State.reliefStep (s : State) (p : Nat) (wrote : Nat → Bool) : State :=
  let x := s.stope p
  let k := s.standsFor p
  let lp := (s.logicalOf p).getD 1024
  let free (u : State) : State := (u.setCycle p rsFree 31).modStope p (fun y => { y with purpose := 0 })
  let begin (u : State) : State :=
    if u.mayCycle p then (match u.nextPurpose p with | some (pu, q) => u.startCycle p pu q | none => u) else u
  match s.cycle p with
  | 2 =>
    if x.purpose = 1 ∨ !s.inForce p k ∨ !s.upkept p k x.purpose then s
    else
      let placed := decide (lp < 1024) && (s.placedAt lp k).isSome
      begin (free (((s.rotWait p k).modArr p k Arr.takeAll).on (decide (lp < 1024)) (fun u => u.setSeamState lp k (if placed then 1 else 0))))
  | 3 =>
    if (x.arr 16).degraded then free s
    else if x.purpose = 4 ∧ !wrote k then
      (match s.nextPurpose p with
      | some (pu, q) => if pu ≠ 4 ∨ q ≠ k then begin (free s) else s
      | none => s)
    else if s.inForce p 16 then
      let s1 := (((s.rotWait p k).modArr p 16 Arr.takeAll).setCycle p rsStanding k).count Page.ASY Reg.ASY.ROTATIONS 2 1
      let s2 := s1.on (decide (lp < 1024)) (fun u => u.setSeamState lp k 2)
      let s3 := s2.on (x.purpose == 2) (fun u => u.startRefresh p k)
      s3.on (x.purpose == 1) (fun u => u.propose p 11)
    else s
  | 1 => if (x.arr 16).degraded then free s else s
  | _ => begin s

/-- A stope without a relief seam for upkeep takes its seams out of service one at a time (R281). -/
def State.outStep (s : State) (p : Nat) : State :=
  let x := s.stope p
  let alone := (x.arr 16).degraded || (s.cycle p == rsStanding && x.purpose == 1)
  if x.outOf < 16 then
    (if s.inForce p x.outOf && s.upkept p x.outOf (if x.due then 3 else 2) then
      (s.modArr p x.outOf (fun y => { y.takeAll with closed := false })).modStope p (fun y => { y with outOf := 31 })
    else s)
  else if !alone ∨ s.seamsLocked p then s
  else
    let worn := largestSeam (fun k => if s.dueGroups p k = [] ∨ (x.arr k).degraded then 0 else (x.arr k).worst) 0
    let pick := worn.orElse (fun _ =>
      if x.due && !s.slotAims p then (List.range 16).find? (fun k => !(x.arr k).assayed && !(x.arr k).degraded) else none)
    match pick with
    | some k => ((s.modStope p (fun y => { y with outOf := k })).modArr p k (fun y => { y with closed := true })).startRefresh p k
    | none => s

/-! ### Coefficients (R295, R296) -/

/-- A value moves toward its target by at most a step. -/
def ease (v target step : Nat) : Nat := if v < target then min target (v + step) else max target (v - step)

/-- The coefficients of an array move toward their targets; `q` gives the LSB size of a column's range in force. -/
def Arr.easeStep (a : Arr) (q : Nat → Nat) : Arr :=
  let taken := a.jump && a.fitted
  let conv := (a.conv.map (·.1) ++ a.convT.map (·.1)).foldl (fun m key =>
    let v := Sparse.get convNominal a.conv key
    let t := Sparse.get convNominal a.convT key
    Sparse.set convNominal m key (if taken then t else (ease v.1 t.1 4, ease v.2 t.2 1))) a.conv
  let cell := (a.cell.map (·.1) ++ a.cellT.map (·.1)).foldl (fun m col =>
    let v := Sparse.get cellNominal a.cell col
    let t := Sparse.get cellNominal a.cellT col
    Sparse.set cellNominal m col (if taken then t else (ease v.1 t.1 (136 * q col), ease v.2 t.2 (64 * q col)))) a.cell
  { a with conv := conv, cell := cell, jump := a.jump && !taken, fitted := false }

/-- Easing of every array of a stope that has coefficients. -/
def State.easeStope (s : State) (p : Nat) : State :=
  let lp := s.logicalOf p
  s.each ((s.stope p).arrs.map (·.1)) (fun u a =>
    let q (col : Nat) : Nat := match lp with
      | none => 1
      | some l => match u.seamFor p a with
        | none => 1
        | some k => 2 ^ u.rangeOf l k (col / 8)
    u.modArr p a (fun y => y.easeStep q))

/-- SERVE passes in flight keep the coefficient words with which they started (R186). -/
def State.keepCoefs (s : State) (c : Nat) : State :=
  match s.job? c with
  | none => s
  | some j =>
    s.setJob c { j with runs := j.runs.map (fun r =>
      match j.work r.1 with
      | some h =>
        if h.serve && h.action == 1 && r.2.started && !r.2.complete && r.2.coefs == [] then
          (r.1, { r.2 with coefs := match j.layer? h.layer with | some d => s.coefWords c j d | none => [] })
        else r
      | none => r) }

/-- The coefficient images of a job's seams carry κ and ω of the arrays that serve them (R85). -/
def State.writeImages (s0 : State) (c : Nat) : State :=
  let s := s0.keepCoefs c
  match s.job? c with
  | none => s
  | some j =>
    s.each j.layers (fun u d =>
      if j.hewerOnly d.layer then u
      else
        match j.tensor? d.coefT with
        | none => u
        | some t =>
          u.each (List.range (d.rowBlocks * d.colBlocks)) (fun w n =>
            match j.seamAt d.layer (n / d.rowBlocks) (n % d.rowBlocks) with
            | none => w
            | some q =>
              let p := w.serving q.1
              let a := if p < 1056 then w.arr p (w.arrayFor p q.2) else Arr.idle
              w.each (List.range 512) (fun v col =>
                let g := Sparse.get cellNominal a.cell col
                v.wrNat c (t.addr + n * 2048 + 4 * col) 4 (g.1 + 65536 * unsigned 16 ((g.2 : Int) - 512)))))

/-! ### Level plans (R297) -/

/-- Announcements and DEGRADED marks from the estimated windows of a stope's seams. -/
def State.planStep (s : State) (p : Nat) : State :=
  s.each (List.range 16) (fun u k =>
    let a := u.arr p k
    let least := u.fld Page.ASY Reg.ASY.WINDOW_MIN 6 0
    let est := u.windowEst p k
    if a.plan12 then u.on (decide (est + 20 < least)) (fun w => w.degrade p k 3)
    else if est < least ∧ !a.announced then
      let u1 := (u.raise Page.ASY 4).upkeepRec p k 0x1018 (items [est, a.mostWrites])
      match (u.logicalOf p).bind (fun lp => u.placedAt lp k) with
      | some _ => u1.modArr p k (fun y => { y with announced := true })
      | none => (u1.modArr p k (fun y => { y with plan12 := true })).takeReplan p [rpPlan, k, est, 16, 12]
    else u)

/-- Does the committed step project the seam's layer in full: `lists` are the lists that it committed for the stope? A layer
without a dense set is never projected, and its codes are held to the plan as they are written (R40). -/
def State.projected (s : State) (p k : Nat) (lists : List WriteList) : Bool :=
  lists.any (fun w => w.seam == k && w.full) ||
    (match (s.logicalOf p).bind (fun lp => s.placedAt lp k) with
    | some (_, j, d, _) => !j.sets.any (fun x => x.kind == 0 && x.layer == d.layer)
    | none => true)

/-- An announced plan takes effect with the committed step of the owning job that projects the seam in full: a step whose update
was skipped leaves the seam at 16 levels, whose codes a 12-level seam could not hold (R39, R40, R297, log 72). -/
def State.planInForce (s : State) (p : Nat) (lists : List WriteList) : State :=
  s.each (List.range 16) (fun u k =>
    if (u.arr p k).announced && u.projected p k lists then
      (u.modArr p k (fun y => { y with plan12 := true, announced := false })).takeReplan p [rpPlan, k, u.windowEst p k, 16, 12]
    else u)

/-! ### A commit tally (R278 to R281, R295, R298) -/

/-- Lists late at their SEAL: WRITE_LATE, event 6 and 0x1016 with the row sides left (R284). -/
def State.lateLists (s : State) (p : Nat) : State :=
  s.each ((s.stope p).lists.filter (fun w => !w.applied)) (fun u w =>
    let a := u.receiver p w.seam
    let left := ((List.range 512).map (fun r => (if u.sideDue p a r false then 1 else 0) + (if u.sideDue p a r true then 1 else 0))).foldl (· + ·) 0
    ((u.count Page.ASY Reg.ASY.WRITE_LATE 6 1).raise Page.ASY 6).upkeepRec p a 0x1016 (items [w.claim, w.step, left]))

/-- Are the write lists of a claim complete, with the cell fits of their arrays (R284)? -/
def State.listsDone (s : State) (c : Nat) : Bool :=
  s.stopes.all (fun e => e.2.lists.all (fun w => w.claim != c || (w.applied && !(e.2.arr (s.receiver e.1 w.seam)).fitDue)))

/-- SEAM_PLAN of the logical stope that a stope serves shows its level plans from the seal on (R39, Table 2.11). -/
def State.showPlans (s : State) (p : Nat) : State :=
  match s.logicalOf p with
  | none => s
  | some lp =>
    let w := bitWord 16 (fun k => (s.arr p k).plan12)
    if w = s.nextWord (Page.STP lp) Reg.STP.SEAM_PLAN then s else s.stageWord (Page.STP lp) Reg.STP.SEAM_PLAN w

/-- The upkeep of one stope at a commit tally. `committed` and `discarded` tell what the decision says of a claim's job, after
the committed state has come into force; `upkeep` whether job 0 is committed (R187, R190). -/
def State.commitStope (s : State) (p : Nat) (committed discarded : Nat → Bool) (upkeep : Bool) : State :=
  let c := s.claimServed p
  let x := s.stope p
  let closedNow := (x.arrs.filter (fun e => e.2.closed)).length
  let wrote (k : Nat) : Bool := committed c && x.lists.any (fun w => w.seam == k && w.claim == c)
  let s1 := s.count Page.ASY Reg.ASY.HEWER_RELIEFS 3 closedNow
  let s2 := s1.on (committed c) (fun u => u.planInForce p (x.lists.filter (fun w => w.claim == c)))
  let rest := x.lists.filter (fun w => !(committed w.claim || discarded w.claim))
  let s2a := s2.meshDrop (fun q => q.kind == 2 && q.dst == p && (committed q.claim || discarded q.claim))
  let s3 := s2a.modStope p (fun y => { y with
    lists := rest
    arrs := (y.arrs.map (fun e => (e.1, { e.2 with quiet := e.2.quiet && rest.any (fun w => w.seam == e.1) }))).filter
      (fun e => decide (e.2 ≠ Arr.idle)) })
  let s4 := s3.each (x.arrs.map (·.1)) (fun u a =>
    if (u.arr p a).closed ∧ x.outOf ≠ a ∧ u.inForce p a ∧ !((u.stope p).sides.any (fun q => q.arr == a && q.purpose != 4))
    then u.modArr p a (fun y => { y with closed := false }) else u)
  let s5 := s4.on upkeep (fun u => (u.reliefStep p wrote).outStep p)
  let s6 := s5.on upkeep (fun u => (u.each (u.stope p).replans (fun v r => v.takeReplan p r)).modStope p (fun y => { y with replans := [] }))
  let s7 := s6.on upkeep (fun u => (u.planStep p).easeStope p)
  s7.modStope p (fun y => { y with
    arrs := (y.arrs.map (fun e => (e.1, { e.2 with served := 0 }))).filter (fun e => decide (e.2 ≠ Arr.idle)) })

end Sys2Proof.Machine
end

