-- ==== Sys2Proof/Machine/Seal.lean ====
section
/-!
DEFINITION. The seal (R174, R187 to R191): launch, verdicts and decision, and what the commit tally brings into force: sets,
numerics state (R133 to R143, R154, R156), job steps, envelopes (R346), upkeep, stand-ins (R355 to R357, R570), claims (R377),
roles and losses (R325, R330, R331), sealed page words (R71, R443) and checkpoints (R260).
-/

namespace Sys2Proof.Machine

/-! ### Launch and verdict -/

/-- Is a job running in the step slot? -/
def State.inStep (s : State) (c : Nat) : Bool := s.jobState c == jsRunning || s.jobState c == jsStopping

/-- Claims whose jobs run in the step slot. -/
def State.stepClaims (s : State) : List Nat := (s.jobs.map (·.1)).filter s.inStep

/-- The first entry of the table that has not completed, SERVE entries and the SEAL apart (R185). -/
def Job.unfinished (j : Job) : Option Nat :=
  if j.probe then (if j.probeDone then none else some 0xFFFFFFFF)
  else (List.range j.entries.length).find? (fun e => match j.entries[e]? with
    | some h => h.action != 9 && !h.serve && !(j.run e).complete
    | none => false)

/-- Does a block belong to the output of a SERVE entry? -/
def Job.servedBlock (j : Job) (b : Nat) : Bool :=
  j.entries.any (fun h => h.serve && (match j.tensor? h.result with
    | some x => decide (x.at_ h.mb ≤ b) && decide (b < x.at_ h.mb + x.bytes)
    | none => false))

/-- Do blocks of a claim's step wait for a notice of a generation that `f` takes (R348)? -/
def State.awaits (s : State) (c : Nat) (j : Job) (f : Nat → Bool) : Bool :=
  s.marks.any (fun e => e.1 / 2 ^ 36 == c && (match e.2.pending with
    | some g => f g && !j.servedBlock (e.1 % 2 ^ 36 * 4096)
    | none => false))

/-- Time from the slot's last work to its SEAL, 0 where work was unfinished (Table 5.13). -/
def State.sealMargin (s : State) (c : Nat) (j : Job) (unfinished : Bool) : State :=
  s.wrB (claimBank c) Page.HOI Reg.HOI.SEAL_MARGIN (if unfinished then 0 else min (2 ^ 32 - 1) (s.tally - j.lastWork))

/-- Does work of an entry go on past the end of its slot: SERVE work does (R186), but for a pass whose checks have failed for
good, which is never released and starts again in the next slot? -/
def Job.carries (j : Job) (e : Nat) : Bool :=
  match j.entries[e]? with
  | some h => h.serve && !(j.run e).withheld
  | none => false

/-- Does work that has no entry of its own go on for a claim's step: an accepted push whose update is not complete (R249, R261), or a
recomputation, or a layer marked for one whose outputs are still read (R228)? -/
def State.workLeft (s : State) (c : Nat) (j : Job) : Bool :=
  s.mill.queue.any (fun q => q.1 == c) || j.recomp.isSome || j.marks.any (fun m => (j.stash? m.2 m.1).isNone)

/-- T+0 for one job: unfinished work and late write lists, recomputations not yet SOUND, and its work in flight. -/
def State.launchJob (s : State) (c : Nat) : State :=
  match s.job? c with
  | none => s
  | some j =>
    let late := !s.listsDone c || s.workLeft c j
    let s1 := match j.unfinished with
      | some e => s.unsound c 1 e
      | none => if late then s.unsound c 1 0xFFFFFFFF else s
    let s2 := s1.on (s1.awaits c j (fun g => decide (1 ≤ g))) (fun u => u.unsound c 9 0xFFFFFFFF)
    (s2.sealMargin c j j.unfinished.isSome).dropWork c 0 j.carries

/-- SEAL (R188, T+0). -/
def execSealLaunch (s : State) : Out :=
  perform .sealLaunch s
    (if s.sealing.phase ≠ 0 ∨ s.holdAll then s
    else
      let s1 := { s with sealing := { State.reset.sealing with phase := 1, slot := s.slotNo, upkeep := s.sealing.upkeep } }
      let s2 := s1.each s1.stepClaims (fun u c => u.launchJob c)
      s2.each s2.stopeNos (fun u p => u.lateLists p))

/-- Verdict mask of this member: a bit for each unsound job, bit 0 for the upkeep (R187, R188). -/
def State.verdictMask (s : State) : Nat :=
  s.stepClaims.foldl (fun m c => match s.job? c with
    | some j => if j.cause ≠ 0 then m ||| 2 ^ (j.number % 64) else m
    | none => m) (if s.sealing.upkeep then 1 else 0)

/-- A job whose checks have not all passed by T+1,500 is unsound (R187). -/
def State.lateChecks (s : State) (c : Nat) : State :=
  match s.job? c with
  | none => s
  | some j => s.on (s.awaits c j (fun _ => true)) (fun u => u.unsound c 2 0xFFFFFFFF)

/-- A verdict or a decision travels as a NOTICE (Table 9.3): 3 verdict with its member, 4 decision, 5 decision to hold. -/
def State.sendVerdict (s : State) (member mask : Nat) : State :=
  if s.isHead then s else s.sendMsg (OutMsg.plain 4 (s.fld Page.TAL Reg.TAL.UPSTREAM 11 0) [3, member, mask])

/-- VERDICT (R188). -/
def execVerdict (s : State) : Out :=
  perform .verdict s
    (if s.sealing.phase ≠ 1 then s
    else
      let s1 := s.each s.stepClaims (fun u c => u.lateChecks c)
      let m := s1.verdictMask
      ({ s1 with sealing := { s1.sealing with phase := 2, verdict := BitVec.ofNat 64 m } }).sendVerdict s1.memberNo m)

/-- VERDICT_ARRIVAL (R188): kept for the decision, or passed on upstream. -/
def execVerdictArrival (member : Nat) (mask : BitVec 64) (s : State) : Out :=
  perform (.verdictArrival member mask) s
    (if s.sealing.phase = 0 ∨ 3 ≤ s.sealing.phase then s
    else
      let s1 := { s with sealing := { s.sealing with got := Sparse.place member mask (Sparse.drop member s.sealing.got) } }
      (s1.modPeer member (fun p => { p with missed := 0 })).sendVerdict member mask.toNat)

/-! ### Numerics state (R133 to R143, R154, R156) -/

/-- Put a step's value in front of a history. -/
def pushHist (n v : Nat) (l : List Nat) : List Nat := (v :: l).take n

/-- A count as Table 4.5 holds it (R144). -/
def stuckCount (v : Nat) : Nat := min 0xFFFFFFFF v

/-- ⌊log₂ M8⌋ − 14 of a history, or the bias as it was (R135). -/
def biasFrom (l : List Nat) (old : Int) : Int :=
  let m := (l.take 8).foldl max32 0
  if isZero32 m then old else biasOf m

/-- What the seal makes of a kind: its format, its run, and the event 0x2010 as (old, new, U, Z). -/
structure KindNext where
  fmt  : Nat
  run  : Nat
  move : Option (Nat × Nat × Nat × Nat)
deriving DecidableEq, Repr

/-- R137 and R138 for a kind in G16E5 or G16E8 that switches, and R154 for a widened one. `wide` is the widening in force. A kind that
stays in G16E8 after a widening records 0x2010 whether or not R137 is due: DESIGN CHOICE (log 79). -/
def kindNext (fmt run : Nat) (switches : Bool) (wide : Option Nat) (st : KindStat) (under non : List Nat) : KindNext :=
  let u := under.foldl (· + ·) 0
  let z := non.foldl (· + ·) 0
  let stay : KindNext := { fmt := fmt, run := run, move := none }
  match wide with
  | some _ => if fmt = 0 then { fmt := 1, run := 0, move := some (0, 1, u, z) } else { stay with run := 0 }
  | none =>
    if !switches then stay
    else if fmt = 0 then (if z < 100 * u then { fmt := 1, run := 0, move := some (0, 1, u, z) } else stay)
    else if fmt = 1 then
      (let fits := decide (1 ≤ st.non) && st.o5 == 0 && decide (1000 * st.u5 ≤ st.non)
      let n := if fits then min 65535 (run + 1) else 0
      if 32 ≤ n then { fmt := 0, run := 0, move := some (1, 0, u, z) } else { stay with run := n })
    else stay

/-- Is n a threshold ZG_LIMIT × 2^j of the dead-gradient rule (R156)? -/
def zeroThreshold (limit n : Nat) : Bool :=
  let q := n / limit
  n % limit == 0 && decide (0 < q) && q == 2 ^ Nat.log2 q

/-- Numerics state that the seal of a committed training step gives a layer, with the moves of Gz and Dw and whether the
dead-gradient threshold was reached. `sealed` counts sealed training steps, this one included. -/
def numSealed (x : NumS) (d : LayerD) (t : LayerStat) (limit step sealed : Nat) : NumS × List (Nat × Nat × Nat × Nat × Nat × Int) × Bool :=
  let nz := if t.gathered then t.nonzero else t.dw.non != 0
  let zr := if !t.trained then x.zeroRun else if nz then 0 else min 0xFFFFFFFF (x.zeroRun + 1)
  let dead := t.trained && !nz && decide (x.zeroRun < 0xFFFFFFFF) && zeroThreshold limit zr
  let gzMax := pushHist 8 t.gz.max x.gzMax
  let dwMax := pushHist 8 t.dw.max x.dwMax
  let outMax := pushHist 16 t.outMax x.outMax
  let gzU := pushHist 8 (stuckCount t.gz.under) x.gzUnder
  let gzN := pushHist 8 (stuckCount t.gz.non) x.gzNon
  let dwU := pushHist 8 (stuckCount t.dw.under) x.dwUnder
  let dwN := pushHist 8 (stuckCount t.dw.non) x.dwNon
  let g := kindNext x.gzFmt x.gzRun true t.wGz t.gz gzU gzN
  let w := kindNext x.dwFmt x.dwRun (d.dwPolicy == 1) t.wDw t.dw dwU dwN
  let hold (k : KindNext) (on : Bool) : KindNext :=
    if on then { fmt := 1, run := 0, move := if k.fmt = 1 then k.move else none } else k
  let g1 := hold g dead
  let w1 := hold w (dead && d.dwPolicy == 1)
  let gb := biasFrom gzMax x.gzBias
  let wb := biasFrom dwMax x.dwBias
  let m16 := outMax.foldl max32 0
  let moves := (g1.move.toList.map (fun m => (0, m.1, m.2.1, m.2.2.1, m.2.2.2, gb))) ++
    (w1.move.toList.map (fun m => (1, m.1, m.2.1, m.2.2.1, m.2.2.2, wb)))
  ({ x with
      gzFmt := g1.fmt, gzRun := g1.run, dwFmt := w1.fmt, dwRun := w1.run, gzBias := gb, dwBias := wb
      outBias := if d.outFmt = fmtA8 ∨ d.outFmt = fmtF32 then 0 else biasFrom outMax x.outBias
      outE := if d.outFmt = fmtA8 ∧ !isZero32 m16 then clampA8 (a8Raw m16) else x.outE
      zeroRun := zr, dead := dead || (x.dead && !(t.trained && nz)), cold := x.cold && decide (sealed < 8), widened := false
      step := step, gzMax := gzMax, dwMax := dwMax, outMax := outMax, gzUnder := gzU, gzNon := gzN, dwUnder := dwU, dwNon := dwN },
    moves, dead)

/-- Records of a layer's numerics at a seal: 0x2010, 0x2012, 0x2015, and 0x2017 once for the layer when a count sticks. "Once for the
layer" is taken as once while its histories hold a stuck count: DESIGN CHOICE (log 80). -/
def State.numRecords (s : State) (c : Nat) (d : LayerD) (limit : Nat) (old new : NumS) (moves : List (Nat × Nat × Nat × Nat × Nat × Int)) (dead : Bool) : State :=
  let rec_ (u : State) (code : Nat) (l : List Item) : State := u.record code Src.deputy (some c) (l ++ [it 0xF3 d.layer])
  let s1 := s.each moves (fun u m =>
    rec_ u 0x2010 [it 1 m.1, it 2 m.2.1, it 3 m.2.2.1, it 4 m.2.2.2.1, it 5 m.2.2.2.2.1, itS 6 m.2.2.2.2.2])
  let s2 := s1.on dead (fun u => rec_ u 0x2012 (items [new.zeroRun, limit]))
  let m16 := new.outMax.foldl max32 0
  let s3 := s2.on (d.outFmt == fmtA8 && !isZero32 m16 && clampA8 (a8Raw m16) != a8Raw m16) (fun u => rec_ u 0x2015 [itS 1 (a8Raw m16)])
  let rows (x : NumS) : List (Nat × List Nat) := [(0xA0, x.gzUnder), (0xC0, x.gzNon), (0xE0, x.dwUnder), (0x100, x.dwNon)]
  let was := (rows old).any (fun r => r.2.contains 0xFFFFFFFF)
  match (rows new).find? (fun r => r.2.contains 0xFFFFFFFF) with
  | some r => if was then s3 else rec_ s3 0x2017 (items [r.1])
  | none => s3

/-- The widening of a layer that overflowed, for the replay (R154). -/
def LayerStat.widen (t : LayerStat) (j : Job) (l : Nat) (d : LayerD) : LayerStat :=
  { LayerStat.none with
    wGz := if t.ovGz then some (widerFmt (j.gzForm l).fmt) else t.wGz
    wDw := if t.ovDw then some (widerFmt (j.dwForm l).fmt) else t.wDw
    wOut := if t.ovOut then some (widerFmt (j.outForm d).fmt) else t.wOut }

/-- The entry of a layer as the numerics copy shows it: formats as widened for the step that the seal opens. -/
def NumS.shown (x : NumS) (t : LayerStat) (step : Nat) : NumS :=
  { x with
    gzFmt := match t.wGz with | some f => f - 1 | none => x.gzFmt
    dwFmt := match t.wDw with | some f => f - 1 | none => x.dwFmt
    widened := t.wGz.isSome || t.wDw.isSome || t.wOut.isSome, step := step }

/-- The numerics state that a seal gives a job, and its copy `epoch` mod 2 (R143): a committed training step takes its
statistics; a probe step has set its scales; a discarded one leaves the state and widens what overflowed. -/
def State.stageJob (s : State) (c mask epoch : Nat) : State :=
  match s.job? c with
  | none => s
  | some j =>
    if j.first then s
    else
      let step := s.jobStep c
      let stepped := s.inStep c
      let ok := stepped && !bit mask (j.number % 64)
      let limit := if j.desc.zgLimit = 0 then 64 else j.desc.zgLimit
      let take := ok && j.desc.train && !j.probe
      let r := j.layers.foldl (fun (a : State × List NumS) d =>
        let old := if stepped && !ok && j.probe then NumS.cold0 d.dwPolicy else j.numOf d.layer
        let t := j.statOf d.layer
        let q := if take then numSealed old d t limit step (j.trainSteps + 1) else ({ old with widened := old.widened && !ok }, [], false)
        let after := if ok then LayerStat.none else if stepped then t.widen j d.layer d else t
        let u1 := a.1.on take (fun u => u.numRecords c d limit old q.1 q.2.1 q.2.2)
        let shown := q.1.shown after step
        (u1.wrBytes c (j.numCopy (epoch % 2) + 320 * d.layer) (shown.entry d.layer d.dwPolicy), a.2 ++ [{ q.1 with widened := shown.widened, step := step }])) (s, [])
      r.1.modJob c (fun k => { k with numNext := r.2 })

/-- The member stages what the decision says (Table 5.7). -/
def State.stageSeal (s : State) : State :=
  match s.sealing.decision with
  | none => s
  | some (mask, epoch) =>
    if s.sealing.staged then s
    else
      let s1 := s.each (s.jobs.map (·.1)) (fun u c => u.stageJob c mask.toNat epoch)
      { s1 with sealing := { s1.sealing with staged := true } }

/-! ### Decision -/

/-- Job numbers of the roles that a member holds. -/
def State.jobsOf (s : State) (m : Nat) : List Nat :=
  (s.casc.roles.filter (fun (r : RoleEntry) => r.member == m && bits r.role 3 0 == 0)).map (fun (r : RoleEntry) => bits r.role 31 26)

/-- A mask with the bits of a list of job numbers. -/
def maskOf (l : List Nat) : Nat := l.foldl (fun a n => a ||| 2 ^ (n % 64)) 0

/-- Live members whose verdict is missing. -/
def State.silent (s : State) : List Nat :=
  ((s.casc.peers.map (·.1)).filter (fun m => m != s.memberNo && s.live m)).filter (fun m => !(s.sealing.got.any (fun e => e.1 == m)))

/-- A silent member: the jobs that it holds are unsound with VERDICT_MISSING; the second time in succession it is lost. -/
def State.missVerdict (s : State) (m : Nat) : State :=
  let s1 := (s.jobsOf m).foldl (fun u n => match u.claimOfJob n with | some c => u.on (u.inStep c) (fun w => w.unsound c 5 0xFFFFFFFF) | none => u) s
  let n := (s1.peer m).missed + 1
  (s1.modPeer m (fun p => { p with missed := n })).on (decide (2 ≤ n)) (fun u => u.declareMemberLost m 2)

/-- The decision goes out with the step numbers: every member receives it, and this one stages it. -/
def State.broadcast (s : State) : State :=
  match s.sealing.decision with
  | none => s
  | some (mask, epoch) =>
    (({ s with sealing := { s.sealing with phase := 4 } }).toMembers 4
      ([4, mask.toNat, epoch] ++ flatPairs s.sealing.steps)).stageSeal

/-- VERDICT_DEADLINE (R188): the headframe forms the decision, with the new epoch and the step numbers that it holds (R174), and sends
it to the standby, where it has one. -/
def execVerdictDeadline (s : State) : Out :=
  perform .verdictDeadline s
    (if s.sealing.phase ≠ 2 ∨ !s.isHead then s
    else
      let quiet := s.silent
      let s1 := s.each quiet (fun u m => u.missVerdict m)
      let lost := s1.casc.losses.flatMap (fun (e : Nat × Nat) => s1.jobsOf e.1)
      let got : Nat := s1.sealing.got.foldl (fun (a : Nat) e => a ||| e.2.toNat) s1.sealing.verdict.toNat
      let mask : Nat := got ||| maskOf (quiet.flatMap s1.jobsOf) ||| maskOf lost
      let e := s1.epoch + 1
      let after := s1.stepsAfter mask
      let s2 := { s1 with
        casc := { s1.casc with steps := after }
        sealing := { s1.sealing with phase := 3, decision := some (BitVec.ofNat 64 mask, e), steps := after.map (fun (x : Nat × Nat × Nat) => (x.1, x.2.1)) } }
      let st : Nat := s2.fld Page.CAS Reg.CAS.HEADFRAME 27 16
      if st == 0xFFF || st == s2.memberNo || !s2.live st then s2.broadcast else s2.sendMsg
        (OutMsg.plain 4 st ([5, mask, e] ++ flatPairs s2.sealing.steps)))

/-- DECISION_HOLD (R188): the standby holds the decision and acknowledges. -/
def execDecisionHold (mask : BitVec 64) (after : SealNumbers) (s : State) : Out :=
  perform (.decisionHold mask after) s
    (if s.fld Page.CAS Reg.CAS.STATE 2 0 ≠ 5 ∨ s.sealing.phase = 0 then s
    else
      ({ s with sealing := { s.sealing with standby := some (mask, after.epoch), heldSteps := after.steps } }).sendMsg
        (OutMsg.plain 4 (s.fld Page.CAS Reg.CAS.HEADFRAME 11 0) [6, after.epoch]))

/-- DECISION_ACK (R188): the headframe broadcasts. -/
def execDecisionAck (s : State) : Out :=
  perform .decisionAck s (if s.sealing.phase = 3 ∧ s.isHead then s.broadcast else s)

/-- DECISION_RECEIVE (R188). -/
def execDecisionReceive (mask : BitVec 64) (after : SealNumbers) (s : State) : Out :=
  perform (.decisionReceive mask after) s
    (if s.sealing.phase = 0 ∨ s.sealing.phase = 4 then s
    else ({ s with sealing := { s.sealing with phase := 4, decision := some (mask, after.epoch), steps := after.steps } }).stageSeal)

/-- What a job keeps of its slot: the SERVE work in flight (R186). Places of a swapped table whose passes go on no more take their
entries. -/
def Job.endSlot (j : Job) : Job :=
  let keep (e : Nat) : Bool := j.carries e && (j.run e).started && !(j.run e).complete
  let gone := j.swapped.filter (fun x => !keep x.1)
  { j with
    entries := ((List.range j.entries.length).zip j.entries).map (fun y => match gone.find? (fun x => x.1 == y.1) with | some x => x.2 | none => y.2)
    swapped := j.swapped.filter (fun x => keep x.1)
    runs := j.runs.filter (fun r => keep r.1)
    partials := j.partials.filter (fun x => j.carries x.entry), acts := j.acts.filter (fun x => j.carries x.entry)
    roots := j.roots.filter (fun x => j.carries x.entry)
    stashes := [], marks := [], spillOcc := 0, regen := [], recomp := none, landed := []
    cause := 0, reporter := 0, lostHit := false, probeDone := false }

/-- A member that has missed the decision is lost to the cascade (R189, Table 9.10): its upkeep of the seal is dropped with its write
lists, and it joins anew. -/
def State.leaveCascade (s : State) : State :=
  let s1 := (s.each s.stopeNos (fun u p => u.modStope p (fun x => { x with
    lists := [], replans := [], arrs := (x.arrs.map (fun e => (e.1, { e.2 with quiet := false }))).filter (fun e => decide (e.2 ≠ Arr.idle)) }))).meshDrop
    (fun q => q.kind == 2)
  let st := s1.fld Page.CAS Reg.CAS.STATE 2 0
  s1.on (decide (st ≠ 0)) (fun u => u.startJoin)

/-- DECISION_DEADLINE (R189): a member without a decision stops all work and is then handled as a lost member. -/
def execDecisionDeadline (s : State) : Out :=
  perform .decisionDeadline s
    (if s.sealing.phase = 0 ∨ s.sealing.decision.isSome then s
    else
      let s1 := s.each (s.jobs.map (·.1)) (fun u c =>
        let step := u.jobStep c
        let u1 := u.on (u.jobActive c) (fun w => (w.dropWork c 3 (fun _ => false)).setJobState c jsReady 0)
        (u1.modJob c (fun j => { j.endSlot with runs := [], stat := j.stat.map (fun _ => LayerStat.none) })).record 0x500B Src.deputy (some c)
          (items [u1.epoch, step]))
      let s2 := s1.on (s.jobs == []) (fun u => u.record 0x500B Src.deputy none (items [u.epoch, 0]))
      ({ s2 with sealing := State.reset.sealing }).dropReports.leaveCascade)

/-! ### Envelopes (R346) -/

/-- An envelope of a column at a committed seal: learning takes the step's values, otherwise the envelope shrinks by a 64th
and takes in what lies beyond. -/
def envSeal (learning : Bool) (l : List Nat) : List Nat :=
  match l with
  | [a, b, lo, hi] =>
    let span := (val32 hi).add (val32 lo).neg
    let hi1 := if learning then hi else dy32 ((val32 hi).add (span.shift (-6)).neg)
    let lo1 := if learning then lo else dy32 ((val32 lo).add (span.shift (-6)))
    if isNan32 a then [nan32, nan32, lo1, hi1] else [nan32, nan32, min32 a lo1, max32 b hi1]
  | [a, b] => if isNan32 a then [] else [nan32, nan32, a, b]
  | _ => []

/-- Envelopes and learning counts of a job at a committed seal; those of layers projected in full learn anew. -/
def Job.sealEnvelopes (j : Job) (learn : Nat) (full : List Nat) : Job :=
  let cols := j.envelope.filter (fun e => decide (e.1 < 2 ^ 48) && !full.contains (e.1 / 2 ^ 24))
  let kept := (cols.map (fun e => (e.1, envSeal (decide (j.learned (e.1 / 2 ^ 24) < learn)) e.2))).filter (fun e => e.2 != [])
  { j with envelope := j.layers.foldl (fun m d =>
      Sparse.set [] m (learnKey d.layer) (if full.contains d.layer then [] else [j.learned d.layer + 1])) kept }

/-! ### Jobs at the commit tally -/

/-- A set at a committed training step n: the staged update comes into force (R240, R249). -/
def SetS.commit (x : SetS) (n : Nat) : SetS :=
  let y := { x with next := n + 1, pushed := false, staged := false }
  if !x.staged then y
  else
    { y with
      cur := 1 - x.cur, steps := x.steps + 1, skipped := x.sSkip, p1 := x.sP1, p2 := x.sP2, writes := x.sWrites, held := x.sHeld
      lastL := if x.sL = [] then x.lastL else x.sL, rowsLast := x.rowsStaged, rowsStaged := [] }

/-- Layers whose committed projection was full: their L differs from the last one (R256). -/
def Job.fullLayers (j : Job) : List Nat :=
  ((j.sets.zip j.sstate).filter (fun e => e.1.kind == 0 && e.2.staged && !e.2.sSkip && e.2.sL != e.2.lastL)).map (fun e => e.1.layer)

/-- A SWAP that has waited for its seal comes into force (Table 5.3). Serving passes in flight complete on the state that they started
with (R186): their entries keep their places until then (log 50). -/
def State.swapEffect (s : State) (c : Nat) : State :=
  match s.job? c with
  | none => s
  | some j =>
    match j.swap with
    | none => s
    | some (d, es) =>
      let fixed := s.fld Page.HOI Reg.HOI.FIXED_LOADED 16 0
      let kept := j.runs.map (·.1)
      ((s.setJob c { j with
        desc := d, swap := none, entries := swapTable j.entries es kept
        swapped := kept.map (fun k => (k, es.getD k HoistE.filler)) }).setFld Page.HOI Reg.HOI.FIXED_LOADED 16 0
          (fixed + d.fixed - j.desc.fixed)).report c true

/-- A page's sealed count advances (R443). -/
def State.bumpSeq (s : State) (page : Nat) : State := s.wr page Reg.HDR.SEQ (s.rd page Reg.HDR.SEQ + 1)

/-- A committed step of a job: its step number is the one that came with the decision (R174). -/
def State.commitJob (s : State) (c : Nat) : State :=
  match s.job? c with
  | none => s
  | some j =>
    let n := s.jobStep c
    let train := j.desc.train && !j.probe
    let learn := s.fld Page.INT Reg.INT.RANGE_CTL 12 8
    let j1 := if train then
        { j.sealEnvelopes learn j.fullLayers with sstate := j.sstate.map (fun x => x.commit n), trainSteps := j.trainSteps + 1 }
      else j.sealEnvelopes learn []
    let j2 := { j1.endSlot with
      num := if j.numNext = [] then j.num else j.numNext, numNext := [], stat := j.stat.map (fun _ => LayerStat.none)
      streak := 0, lostRun := 0, probe := false
      serveFmt := j.serveFmt.filter (fun e => match j.entries[e.1]? with | some h => h.serve | none => false) }
    let next := match s.sealing.steps.find? (fun e => e.1 == j.number) with | some e => e.2 | none => n + 1
    let s1 := (s.setJob c j2).on train (fun u => u.wr64B (claimBank c) Page.HOI Reg.HOI.JOB_STEP_LO next)
    let s2 := s1.swapEffect c
    s2.on train (fun u => u.on (n % (if j.desc.ckptK = 0 then 64 else j.desc.ckptK) == 0 || j.forceCkpt) (fun w => w.startCkpt c n))

/-- First member that reported a job unsound: this one, or the lowest of those heard; 0xFFF where none is known. -/
def State.reporterOf (s : State) (j : Job) : Nat :=
  if j.cause ≠ 0 then j.reporter
  else match s.sealing.got.find? (fun e => e.2.getLsbD (j.number % 64)) with
    | some e => e.1
    | none => 0xFFF

/-- The stopes of a claim charged with a failure in the discarded step are fenced for the replayed slot (R352). -/
def State.fence (s : State) (c : Nat) : State :=
  s.each s.stopeNos (fun u p =>
    u.on ((u.stope p).failAt == some u.epoch && u.claimServed p == c && (u.logicalOf p).isSome) (fun w =>
      w.modStope p (fun x => { x with fenced := true })))

/-- Words of the staged bank. -/
def State.stagedWords (s : State) : List (Nat × Word) := s.regs.filter (fun e => e.1 / 2 ^ 22 == stagedBank)

/-- The sealed page counters that a discarded job's step has counted are dropped with its shadow state (R190): its stopes' pages count
on from what they show. Events that the step raised still latch. -/
def State.dropCounts (s : State) (c : Nat) : State :=
  let mine (k : Nat) : Bool :=
    let page := k / 1024 % 4096
    decide (Page.STP 0 ≤ page) && decide (page < Page.STP 0 + 1024) && s.ownerOf (page - Page.STP 0) == c && k % 1024 != Reg.HDR.EVT_FLAG
  s.each (s.stagedWords.filter (fun e => mine e.1)) (fun u e =>
    let page := e.1 / 1024 % 4096
    let off := e.1 % 1024
    u.wrB stagedBank page off (if off = Reg.STP.CTR_OVF then 0 else s.rd page off))

/-- A discarded step of a job (R190, R191, R343, R353). -/
def State.discardJob (s : State) (c : Nat) : State :=
  match s.job? c with
  | none => s
  | some j =>
    let n := s.jobStep c
    let streak := j.streak + 1
    let lost := if j.lostHit then j.lostRun + 1 else 0
    let j1 := { j.endSlot with
      num := if j.numNext = [] then j.num else j.numNext, numNext := []
      stat := j.layers.map (fun d => (j.statOf d.layer).widen j d.layer d), streak := streak, lostRun := lost
      sstate := j.sstate.map (fun x => { x with pushed := false, staged := false, resync := x.resync || j.cause == 7 })
      envelope := (j.envelope.map (fun (e : Nat × List Nat) => (e.1, if e.1 < 2 ^ 48 then (match e.2 with
        | [_, _, lo, hi] => [nan32, nan32, lo, hi]
        | _ => []) else e.2))).filter (fun (e : Nat × List Nat) => e.2 != []) }
    let s1 := (s.on (j.cause == 2) (fun u => u.fence c)).dropCounts c
    let s2 := ((s1.setJob c j1).countB c Page.HOI Reg.HOI.JOB_DISCARDED 0 1).raise Page.HOI 1
    let s3 := s2.record 0x5006 Src.deputy (some c) (items [j.number, n, s.epoch, s.reporterOf j])
    let s4 := s3.on (streak % 16 == 0) (fun u => u.record 0x7012 Src.deputy (some c) (items [c, n, streak]))
    s4.on (decide (16 ≤ lost)) (fun u => ((u.setJobState c jsStopping 0).setJobState c jsReady 0).modJob c (fun k => { k with lostRun := 0 }))

/-- What both outcomes leave: mill work and pending marks of the step go, the stockpile is empty, staged mill events latch, and
a STOP or an ABORT takes effect (Table 5.3, R178). -/
def State.settleJob (s : State) (c : Nat) : State :=
  match s.job? c with
  | none => s
  | some j =>
    let s1 := { s with
      mill := { s.mill with queue := s.mill.queue.filter (fun e => e.1 != c), waiting := s.mill.waiting.filter (fun e => e.1 != c) }
      marks := (s.marks.map (fun (e : Nat × Mark) =>
        (e.1, if e.1 / 2 ^ 36 = c ∧ !j.servedBlock (e.1 % 2 ^ 36 * 4096) then { e.2 with pending := none } else e.2))).filter (fun e => decide (e.2 ≠ Mark.none)) }
    let ev := s1.rdB (claimBank c) (Page.MIL 0) Reg.HDR.EVT_FLAG
    let s2 := ((s1.showQueued).showStock c).wrB (claimBank c) (Page.MIL 0) Reg.HDR.EVT_FLAG 0
    let s3 := s2.each ((List.range 8).filter (fun b => bit ev b)) (fun u b => u.raiseMil c b)
    if j.abortDue then (s3.setJobState c jsReady 0).modJob c (fun k => { k with abortDue := false, stopDue := false })
    else if s3.jobState c = jsStopping then
      (if j.stopDue then (s3.setJobState c jsReady 0).modJob c (fun k => { k with stopDue := false })
      else s3.modJob c (fun k => { k with stopDue := true }))
    else s3

/-- The outcome of a claim's slot: an ABORT discards it whatever the decision says (Table 5.10). -/
def State.sealJob (s : State) (mask c : Nat) : State :=
  match s.job? c with
  | none => s
  | some j =>
    let probe := j.probe
    let s1 := if bit mask (j.number % 64) || j.abortDue then
        (s.discardJob c).modJob c (fun k => { k with probe := probe })
      else s.commitJob c
    s1.settleJob c

/-! ### Stand-ins (R355 to R357, R570) -/

/-- Codes in force of seam k of a logical stope as cell pairs of a level plan, keyed by row × 512 + column. -/
def State.pairsInForce (s : State) (lp k : Nat) (plan12 : Bool) : List (Nat × Nat) :=
  match s.placedAt lp k with
  | none => []
  | some (c, j, d, n) =>
    let base := j.codesBase d (j.cur d.layer) n
    (List.range 262144).filterMap (fun i =>
      let q := pairOf plan12 (s.rdCode c base (i / 512) (i % 512))
      if q = 0 then none else some (i, q))

/-- Row sides of a row group in which two sets of cells differ. -/
def sidesChanged (old new : List (Nat × Nat)) (g : Nat) : Nat :=
  ((List.range 32).map (fun r =>
    let differ (neg : Bool) : Bool := (List.range 512).any (fun col =>
      lineOf (Sparse.get 0 old ((32 * g + r) * 512 + col)) neg != lineOf (Sparse.get 0 new ((32 * g + r) * 512 + col)) neg)
    (if differ false then 1 else 0) + (if differ true then 1 else 0))).foldl (· + ·) 0

/-- An idle relief stope writes seam k to the codes in force of the stope it prepares for, with its own witness pattern
(R360). A seam whose relief seam is on the 12-level plan while the seam it would serve is not is left unwritten (R570). -/
def State.copySeam (s : State) (q p lp k : Nat) : State :=
  if (s.arr q k).plan12 && !(s.arr p k).plan12 then s
  else
    let new := s.pairsInForce lp k (s.arr q k).plan12
    let old := (s.arr q k).codes
    s.modArr q k (fun a => { a with
      codes := new, wit12 := if a.plan12 then List.range 1024 else []
      writes := (List.range 16).foldl (fun m g => Sparse.set 0 m g (min 0xFFFFFFFF (Sparse.get 0 m g + sidesChanged old new g))) a.writes
      pulsed := a.pulsed ++ (List.range 16).filter (fun g => decide (0 < sidesChanged old new g) && !a.pulsed.contains g) })

/-- The prepared relief stope of a stope, if any. -/
def State.preparedFor (s : State) (p : Nat) : Option Nat :=
  (s.stopes.find? (fun e => e.2.prep == some p && e.2.prepared)).map (·.1)

/-- May a prepared relief stope stand in: every seam on the 12-level plan serves a seam on it (R570)? -/
def State.plansAgree (s : State) (q p lp : Nat) : Bool :=
  (List.range 16).all (fun k => !(s.arr q k).plan12 || (s.arr p k).plan12 || (s.placedAt lp k).isNone)

/-- A stope reads RETIRED: events 0x7009 and INT 5, its counts, its STX page; its cells are cleared (R355, R356). -/
def State.retire (s : State) (p relief : Nat) : State :=
  let x := s.stope p
  let s1 := s.wr (Page.STX p) Reg.STX.STOPE_ROLE (3 + 0x7FF * 65536)
  let s2 := ((s1.on (x.integ == 1) (fun u => u.bumpStates 10 0 false)).bumpStates 21 11 true).on (s.idleRelief p) (fun u => u.bumpStates 27 22 false)
  let s3 := (s2.modStope p (fun y => { y with integ := 2, proposed := false, fenced := false, testDue := false, testing := false, prep := none, prepared := false, selfTest := false })).setFn
    (Page.STX p) 6
  let s4 := ((s3.stageEvent Page.INT 5).bumpSeq Page.INT).record 0x7009 (Src.stope p) none (items [p, x.why, relief] ++ [it 0xF1 p])
  let reading := x.arrs.filterMap (fun e => e.2.vec.map (fun v => (e.1, v)))
  ((s4.clearStope p).each reading (fun u e => u.modArr p e.1 (fun a => { a with vec := some e.2 }))).on (x.railsOff || x.clearFail) (fun u => u.removeRails p)

/-- A relief stope stands in permanently: it takes the logical stope, the work that waits, the write lists of a job that starts, and its own coefficients in full; a
round of assay is due for it. Tiles in the hewer of the stope that leaves are discarded and start again from leaf 0 (Table 3.7);
a vector being read there completes on the seam that it began on (R48, R67). -/
def State.standIn (s : State) (q p lp : Nat) : State :=
  let s0 := s.fenceTiles p tcRelief
  let x := s0.stope p
  let s1 := (s0.wr (Page.STP lp) Reg.STP.STOPE_MAP (q + 2 ^ 31)).wr (Page.STX q) Reg.STX.STOPE_ROLE (2 + lp * 65536)
  let s2 := ((s1.bumpStates 27 22 false).raise (Page.STP lp) 4).bumpSeq (Page.STP lp)
  let s3 := s2.modStope q (fun y =>
    let z := (List.range 16).foldl (fun w k => w.setArr k { (w.arr k).takeAll with job := (x.arr k).job, low := (x.arr k).low, served := (x.arr k).served }) y
    { z with prep := none, prepared := false, queue := x.queue, wide := x.wide, due := true })
  let s4 := (s3.modStope p (fun y => { y with queue := [], wide := none, lists := [] })).meshDrop (fun m => m.kind == 2 && m.dst == p)
  (s4.each x.lists (fun u w => u.giveList lp { w with arrived := 0, applied := false })).retire p q

/-- The logical stope of a proposed stope is vacated (R357). -/
def State.vacate (s : State) (p lp : Nat) : State :=
  let s1 := ((s.wr (Page.STP lp) Reg.STP.STOPE_MAP 0x7FF).raise (Page.STP lp) 4).bumpSeq (Page.STP lp)
  let s2 := (s1.raise Page.INT 9).record 0x7010 (Src.stope p) none (items [lp] ++ [it 0xF0 lp, it 0xF1 p])
  s2.retire p 0x7FF

/-- A proposed stope at a commit tally. -/
def State.proposalStep (s : State) (p : Nat) : State :=
  let x := s.stope p
  if !x.proposed ∨ x.integ = 2 then s
  else
    match s.logicalOf p with
    | none => s.retire p 0x7FF
    | some lp =>
      match s.preparedFor p with
      | some q => if s.plansAgree q p lp then s.standIn q p lp else s
      | none =>
        if s.stopes.any (fun e => e.2.prep == some p) then s
        else match s.reliefFor p with
          | some q => s.modStope q (fun y => { y with prep := some p, prepared := false, selfTest := false })
          | none => s.vacate p lp

/-! ### The cascade at the commit tally (R320, R325, R330, R331) -/

/-- Every module of a job moved to another member stops: the job reads READY until it is restarted (Table 9.10). -/
def State.stopMoved (s : State) (number : Nat) : State :=
  match s.claimOfJob number with
  | none => s
  | some c => s.on (s.jobActive c) (fun u => (u.dropWork c 3 (fun _ => false)).setJobState c jsReady 0)

/-- Role entries take effect (R325): a role of KIND 2 or 3 moves the headframe or the standby, a job role stops its job. -/
def State.takeRole (s : State) (r : RoleEntry) : State :=
  let moved := s.casc.roles.any (fun (e : RoleEntry) => e.role == r.role && e.member != r.member)
  let s1 := { s with casc := { s.casc with roles := mergeRoles s.casc.roles [r] } }
  let kind := bits r.role 3 0
  if kind = 0 then s1.on moved (fun u => u.stopMoved (bits r.role 31 26))
  else if kind = 2 ∧ r.member = s.memberNo ∧ s.fld Page.CAS Reg.CAS.STATE 2 0 ≠ 4 then s1.becomeHead r.epoch 3
  else if kind = 2 ∨ kind = 3 then s1.showRoles
  else s1.rebuddied s

/-- Role moves whose tally has come. -/
def State.dueMoves (s : State) : State :=
  let due := s.casc.moves.filter (fun e => decide (e.1 ≤ s.tally))
  ({ s with casc := { s.casc with moves := s.casc.moves.filter (fun e => decide (s.tally < e.1)) } }).each due (fun u e => u.takeRole e.2)

/-- May a member take a role of a job: it holds none of the job and carries its claim with no job loaded (R331)? What another
member carries is not known here: a free bit of the draw says it (log 40). -/
def State.eligible (s : State) (number m : Nat) : Bool :=
  !((s.jobsOf m).contains number) &&
    (if m = s.memberNo then false else s.live m && (s.draw 4096).getLsbD (m % 4096))

/-- The member that takes the roles of job `number`: spares first, in ascending order. -/
def State.taker (s : State) (number : Nat) : Option Nat :=
  let ms := s.casc.peers.map (·.1)
  ((ms.filter (fun m => (s.peer m).info == 3)) ++ (ms.filter (fun m => (s.peer m).info != 3))).find? (fun m => s.eligible number m)

/-- The buddy of a job role's holder (R332), where the job has two replicas or more; otherwise the next member of the job. -/
def State.buddyOf (s : State) (r : RoleEntry) : Nat :=
  let js := s.casc.roles.filter (fun (e : RoleEntry) => bits e.role 3 0 == 0 && bits e.role 31 26 == bits r.role 31 26)
  let rn := js.foldl (fun a (e : RoleEntry) => max a (bits e.role 15 4 + 1)) 0
  if 2 ≤ rn then
    (match js.find? (fun (e : RoleEntry) => bits e.role 31 16 == bits r.role 31 16 && bits e.role 15 4 == (bits r.role 15 4 + 1) % rn) with
    | some e => e.member
    | none => 0xFFF)
  else
    let ms := (js.map (fun (e : RoleEntry) => e.member)).filter (· != r.member)
    let above := ms.filter (fun m => decide (r.member < m))
    match (if above = [] then ms else above) with
    | [] => 0xFFF
    | m :: t => t.foldl min m

/-- The headframe records buddies as KIND 4 roles of a job's members (R332). -/
def State.nameBuddies (s : State) (number : Nat) : State :=
  let js := s.casc.roles.filter (fun (e : RoleEntry) => bits e.role 3 0 == 0 && bits e.role 31 26 == number)
  let new := js.map (fun (e : RoleEntry) => ({ role := e.member * 16 + 4, member := s.buddyOf e, epoch := e.epoch } : RoleEntry))
  ({ s with casc := { s.casc with roles := mergeRoles s.casc.roles new } } : State).rebuddied s

/-- RESTART(j, n) goes to every member of a job (Table 9.10): n is the largest step that all have reported complete. -/
def State.sendRestart (s : State) (number : Nat) : State :=
  let ms := ((s.casc.roles.filter (fun (e : RoleEntry) => bits e.role 3 0 == 0 && bits e.role 31 26 == number)).map (fun (e : RoleEntry) => e.member)).eraseDups
  let steps := ms.map (fun m => Sparse.get 0 (s.peer m).ckpt number)
  let n := match steps with | [] => 0 | a :: t => t.foldl min a
  let s1 := (s.record 0x600A (Src.cascade 0) none (items [number, n])).stageEvent Page.CAS 5
  let s2 := s1.each (ms.filter (· != s.memberNo)) (fun u m => u.sendMsg (OutMsg.plain 5 m [8, number, n]))
  s2.on (ms.contains s.memberNo) (fun u => match u.claimOfJob number with | some c => u.jobRestart c | none => u)

/-- The roles of a job that a member held move to an eligible member, with new buddies and a restart; where none is eligible
the job stays READY (R331). -/
def State.moveJob (s : State) (m number : Nat) : State :=
  let old := s.casc.roles.filter (fun (e : RoleEntry) => e.member == m && bits e.role 3 0 == 0 && bits e.role 31 26 == number)
  match s.taker number with
  | none => ((s.drawn.stopMoved number).record 0x600A (Src.cascade 0) none (items [number, 0])).stageEvent Page.CAS 5
  | some t =>
    let new := old.map (fun (e : RoleEntry) => ({ e with member := t, epoch := e.epoch + 1 } : RoleEntry))
    let s1 := ({ s.drawn with casc := { s.casc with roles := mergeRoles s.casc.roles new } }).stopMoved number
    let s2 := s1.nameBuddies number
    (s2.toMembers 5 [9, number, t]).sendRestart number

/-- The headframe acts on the members lost since the last seal; a member that the roster no longer lists has its ports
quarantined (Table 9.12). -/
def State.actOnLosses (s : State) : State :=
  if !s.isHead then { s with casc := { s.casc with losses := [] } }
  else
    let ls := s.casc.losses
    let s1 := { s with casc := { s.casc with losses := [] } }
    s1.each ls (fun u e =>
      let u0 := u.on (e.2 == 5) (fun w => (w.upPorts.filter (fun n => w.partner n == e.1)).foldl (fun v n => v.quarantine n (v.peer e.1).identity 3) (w.declareMemberLost e.1 5))
      let u1 := { u0 with casc := { u0.casc with losses := [] } }
      ((u1.jobsOf e.1).eraseDups).foldl (fun w n => w.moveJob e.1 n) (u1.stageEvent Page.CAS 4))

/-- Late steps of a member among the last 100 slots. -/
def State.lateSteps (s : State) (m : Nat) : List Nat :=
  ((s.peer m).late.filter (fun n => decide (s.sealing.slot < n + 100))).eraseDups

/-- A member whose MEMBER_INFO has changed is reported by the headframe to the others. -/
def State.tellMember (s old : State) (m : Nat) : State := s.on (s.isHead && decide (old.peer m ≠ s.peer m)) (fun u => u.reportMember m)

/-- Slow members (R330): DEMOTED at the third late step of the last 100, and back after a run of 100 without lateness. -/
def State.demoteStep (s : State) (m : Nat) : State :=
  let late := s.lateSteps m
  let s1 := s.modPeer m (fun p => { p with late := late })
  let info := (s.peer m).info
  if !s.isHead then s
  else if 3 ≤ late.length ∧ (info = 2 ∨ info = 3) then
    let s2 := ((s1.modPeer m (fun p => { p with info := 4 })).record 0x6008 (Src.cascade 0) none (items [m, late.length])).stageEvent Page.CAS 3
    ((s2.jobsOf m).eraseDups).foldl (fun u n => if (u.casc.peers.any (fun e => e.2.info == 3 && u.eligible n e.1)) then u.moveJob m n else u.drawn) s2
  else if info = 4 ∧ late = [] then s1.modPeer m (fun p => { p with info := 2 })
  else s1

/-- A head move asked for takes effect (R320). -/
def State.headMoveStep (s : State) : State :=
  match s.casc.headMove with
  | none => s
  | some m =>
    let e := s.rd Page.CAS Reg.CAS.HEAD_EPOCH + 1
    let s1 := ({ s with casc := { s.casc with headMove := none } }).toMembers 5 [3, m, e, s.memberNo]
    (s1.nameHead m s.memberNo e 3).setCas 5

/-! ### Pages (R71, R443) -/

/-- Pages whose sealed words take a new value. -/
def State.changedPages (s : State) : List Nat :=
  ((s.sealWords.filter (fun e => decide (s.reg e.1 ≠ e.2))).map (fun (e : Nat × Word) => e.1 / 1024 % 4096) ++
    (s.stagedWords.filter (fun e => e.1 % 1024 != Reg.HDR.EVT_FLAG && e.1 % 1024 != Reg.STP.CTR_OVF && decide (s.reg (e.1 % 2 ^ 22) ≠ e.2))).map
      (fun (e : Nat × Word) => e.1 / 1024 % 4096)).eraseDups

/-- Sealed words become visible, staged events latch, and SEQ advances on each page that changed. -/
def State.publish (s : State) : State :=
  let pages := s.changedPages
  let s1 := ({ s with sealWords := [] }).each s.sealWords (fun u e => u.setReg e.1 e.2)
  let s2 := s1.each s1.stagedWords (fun u e =>
    let page := e.1 / 1024 % 4096
    let off := e.1 % 1024
    if off = Reg.HDR.EVT_FLAG then
      (((u.latch 0 page e.2.toNat).latch 1 page e.2.toNat).latch 2 page e.2.toNat |>.noteLive page e.2.toNat).wrB stagedBank page off 0
    else if off = Reg.STP.CTR_OVF then (u.wr page off (u.rd page off ||| e.2.toNat)).wrB stagedBank page off 0
    else u.wr page off e.2.toNat)
  s2.each pages (fun u p => u.bumpSeq p)

/-! ### Training (R531) -/

/-- The series that the next step draws its windows from (R531): those with at least 768 slots of history whose newest slot has
advanced since they last trained, in ascending order, four micro-batches of 256 windows (log 20). -/
def State.trainingSeries (s : State) : List Nat :=
  let due (e : Nat × (Nat × (List (Nat × Word)))) : Bool :=
    match s.pros.spans.find? (fun x => x.1 == e.1) with
    | some (_, first, trained) => decide (first + 767 ≤ e.2.1) && decide (trained < e.2.1)
    | none => false
  ((s.pros.series.filter due).map (·.1)).take 1024

/-- A step of the prospector's training commits (R531): STEPS, LOSS, which is a free value (log 20), and the series it trained. -/
def State.trainStep (s : State) : State :=
  let l := s.trainingSeries
  if l = [] then s
  else
    let newest (k : Nat) : Nat := match s.pros.series.find? (fun e => e.1 == k) with | some e => e.2.1 | none => 0
    let s1 := s.modPros (fun x => { x with spans := x.spans.map (fun e => if l.contains e.1 then (e.1, e.2.1, newest e.1) else e) })
    ((s1.count64 Page.PRO Reg.PRO.STEPS_LO 2 1).wr Page.PRO Reg.PRO.LOSS (s1.draw 32).toNat).drawn.bumpSeq Page.PRO

/-! ### The commit tally -/

/-- The prospector at a commit tally (R527, R531, R534): a step of its training commits; a drain ends with it, once a forecast request
that was BUSY is done (Table 16.5); it starts where it has become allowed. -/
def State.prospectorStep (s : State) (emptied upkeep : Bool) : State :=
  let s1 := match s.proState with
    | 3 => (s.on upkeep State.trainStep).on s.pros.request.isNone State.stopPro
    | 1 => s.on upkeep (fun u => u.setPro 2)
    | 2 => s.on upkeep State.trainStep
    | _ => s.on (s.proAllowed && s.fld Page.DEV Reg.DEV.BRINGUP 3 0 == 9) (fun u => u.startPro)
  s1.on emptied (fun u => u.drainPro 1)

/-- Pages whose drain the seal completes: HOI once no job is active, PRO once the prospector has stopped (Table 12.7). -/
def State.drainStep (s : State) : State :=
  let s1 := s.on (s.fn Page.HOI == 3 && s.jobs.all (fun e => !s.inStep e.1)) (fun u => u.endDrain Page.HOI)
  s1.on (s1.fn Page.PRO == 3 && (s1.proState == 4 || s1.proState == 0)) (fun u => u.endDrain Page.PRO)

/-- Claims change hands (R377), channels that a claim over-used get a new key (R212). -/
def State.claimsStep (s : State) : State :=
  let due := claimNos.filter (fun n => (s.claim n).applied.isSome && !(s.claim n).filling)
  let s1 := s.each due (fun u n => ((u.applyEffect n).bumpSeq (Page.CLM n)).bumpSeq (Page.CLM 0))
  s1.each (List.range 64) (fun u c => (u.rekeyAtSeal c false).rekeyAtSeal c true)

/-- The commit of a decision. -/
def State.commitSeal (s : State) (mask epoch : Nat) : State :=
  let cs := s.stepClaims
  let done (c : Nat) : Bool := cs.contains c && (match s.job? c with | some j => !bit mask (j.number % 64) && !j.abortDue | none => false)
  let gone (c : Nat) : Bool := cs.contains c && !done c
  let upkeep := !bit mask 0
  let followed := s.stopes.filterMap (fun e => match e.2.prep with
    | some p => if e.2.selfTest then some (e.1, p, ((s.stope p).lists.filter (fun w => done w.claim)).map (fun w => w.seam)) else none
    | none => none)
  let s0 := s.each s.stopeNos (fun u p => u.modStope p (fun x => { x with fenced := x.proposed && x.why == 9 }))
  let stepEpoch := s0.epoch
  let s1 := s0.wr64 Page.DEV Reg.DEV.STATE_EPOCH_LO epoch
  let s2 := s1.each cs (fun u c => if done c then u.sealJob mask c else
    ((u.wr64 Page.DEV Reg.DEV.STATE_EPOCH_LO stepEpoch).sealJob mask c).wr64 Page.DEV Reg.DEV.STATE_EPOCH_LO epoch)
  let s3 := s2.each s2.stopeNos (fun u p => u.commitStope p done gone upkeep)
  let s4 := s3.each followed (fun u f => match u.logicalOf f.2.1 with
    | some lp => u.each f.2.2 (fun w k => w.copySeam f.1 f.2.1 lp k)
    | none => u)
  let s5 := s4.on upkeep (fun u => u.each u.stopeNos (fun w p => w.proposalStep p))
  let s5a := s5.each ((s5.jobs.filter (fun e => e.2.abortDue && !cs.contains e.1)).map (·.1)) (fun u c => u.settleJob c)
  let s5b := s5a.each s5a.stopeNos (fun u p => u.showPlans p)
  let s6 := s5b.each s5b.jobs (fun u e => (u.jobHeadroom e.1 e.2 true (fun d => e.2.cur d.layer)).writeImages e.1)
  let emptied := s6.noOperatorClaim
  let s7 := s6.clearWaiting.claimsStep
  let s8 := (s7.prospectorStep (emptied && !s7.noOperatorClaim) upkeep).drainStep
  let s9 := (s8.dueMoves.actOnLosses).each (s8.casc.peers.map (·.1)) (fun u m => (u.demoteStep m).tellMember u m)
  let s10 := s9.headMoveStep.publish
  let s11 := ((s10.bumpSeq Page.DEV).on (cs != []) (fun u => u.bumpSeq Page.HOI)).on (cs.any done) (fun u =>
    u.each (List.range 4) (fun w i => w.bumpSeq (Page.MIL i)))
  ({ s11 with sealing := State.reset.sealing, casc := { s11.casc with sent := [] } }).dropReports.reportStarting.showQueued

/-- SEAL_COMMIT (R190): at the commit tally, with the decision held. -/
def execSealCommit (s : State) : Out :=
  perform .sealCommit s
    (match s.sealing.decision with
    | none => s
    | some (mask, epoch) =>
      if s.sealing.phase ≠ 4 then s
      else
        let s1 := s.stageSeal
        s1.commitSeal mask.toNat epoch)

end Sys2Proof.Machine
end

