-- ==== Sys2Proof/Machine/Integrity.lean ====
section
/-!
DEFINITION. Integrity of the member's units (chapter 10): watch windows, tests and test slots (R354, R361 to R363), the
preparation of relief stopes (R360), retirement (R355), canary packs (R359), released captures (R358), and takeovers of
cores, routers and stopes that fall silent (R365, R366).
-/

namespace Sys2Proof.Machine

/-! ### Tests (R354, R362, R363) -/

/-- Test interval of a stope in nanoseconds (Table 10.5). -/
def State.testInterval (s : State) (p : Nat) : Nat :=
  let t := s.fld Page.INT Reg.INT.TEST_PERIOD 23 0 * 1000000000
  if (s.stope p).integ = igWatched then t / 8 else t

/-- Event 0x700B: stope, outcome (1 passed, 2 failed), pack, pattern, and whether the cell patterns were skipped because the
relief seam was not FREE (R363). -/
def State.testRecord (s : State) (p outcome pack pattern : Nat) : State :=
  s.record 0x700B (Src.stope p) none (items [p, outcome, pack, pattern, if s.cycle p = rsFree then 0 else 1] ++ [it 0xF1 p])

/-- A complete test has passed (R362): the due mark goes and the time since it starts anew. -/
def State.testPassed (s : State) (p : Nat) : State :=
  ((s.modStope p (fun x => { x with testOk := true, testAt := s.osc, testDue := false, overTest := false, testing := false })).count
    Page.INT Reg.INT.TESTS_PASSED 8 1).testRecord p 1 0 0

/-- A test has failed at its first mismatch: a failure of the stope (R354). -/
def State.testFailed (s : State) (p pack pattern : Nat) : State :=
  ((((s.modStope p (fun x => { x with testOk := false, testing := false })).count Page.INT Reg.INT.TESTS_FAILED 9 1).raise
    Page.INT 6).testRecord p 2 pack pattern).stopeFailure p 8

/-- The end of a whole test: none where every pattern passed, otherwise pack and pattern of the first mismatch. -/
def State.testEnd (s : State) (p : Nat) (failed : Option (Nat × Nat)) : State :=
  match failed with
  | none => s.testPassed p
  | some (pack, pattern) => s.testFailed p pack pattern

/-- TEST_COMPLETE (R363): a test outside a slot, on a stope that no running job works on or under FULL_TEST. -/
def execTestComplete (p : Nat) (failed : Option (Nat × Nat)) (s : State) : Out :=
  perform (.testComplete p failed) s
    (if (s.stope p).integ = igRetired ∨ (s.stope p).slotted ∨ ((s.logicalOf p).isSome ∧ s.jobActive (s.claimServed p) ∧ !(s.stope p).testing) then s
    else s.testEnd p failed)

/-- WATCH_WINDOW_END (R354). -/
def execWatchWindowEnd (p : Nat) (s : State) : Out :=
  perform (.watchWindowEnd p) s
    (let x := s.stope p
    let window := s.fld Page.INT Reg.INT.WATCH_WINDOW 23 0 * 1000000000
    if x.integ ≠ igWatched ∨ x.proposed ∨ s.osc < x.windowAt + window then s
    else if x.fails < 2 ∧ x.testOk then
      let s1 := (s.modStope p (fun y => { y with integ := igService, fails := 0 })).bumpStates 10 0 false
      (s1.on (s1.fn (Page.STX p) == 5) (fun u => u.setFn (Page.STX p) 2)).record 0x700A (Src.stope p) none (items [p, x.fails])
    else s.modStope p (fun y => { y with windowAt := s.osc, fails := 0 }))

/-- TEST_DUE (R362). -/
def execTestDue (p : Nat) (s : State) : Out :=
  perform (.testDue p) s
    (let x := s.stope p
    if x.integ = igRetired ∨ s.osc < x.testAt + s.testInterval p then s
    else s.modStope p (fun y => { y with testDue := true }))

/-- TEST_OVERDUE (R362): event 0x700C once. -/
def execTestOverdue (p : Nat) (s : State) : Out :=
  perform (.testOverdue p) s
    (let x := s.stope p
    if x.integ = igRetired ∨ x.overTest ∨ s.osc ≤ x.testAt + 2 * s.testInterval p then s
    else
      ((s.modStope p (fun y => { y with overTest := true })).raise Page.INT 7).record 0x700C (Src.stope p) none
        (items [p, (s.osc - x.testAt) / 1000000000]))

/-- A completed pair on INT.STOPE_TEST: the stope is due at once. -/
def State.stopeTestAct (s : State) (src : Source) (v : Nat) : State × Bool :=
  let p := bits v 10 0
  if !bit v 16 ∨ 1056 ≤ p ∨ (s.stope p).integ = igRetired then refusedWrite (s.ignoreWrite src Page.INT Reg.INT.STOPE_TEST v)
  else done (s.modStope p (fun x => { x with testDue := true }))

/-- STOPE_TEST (R362). -/
def execStopeTest (src : Source) (v : Word) (s : State) : Out :=
  perform (.stopeTest src v) s
    (s.guarded src Page.INT Reg.INT.STOPE_TEST v.toNat (fun u => u.stopeTestAct src v.toNat))

/-- A completed pair on INT.FULL_TEST: refused and recorded while any job is STARTING, RUNNING or STOPPING. -/
def State.fullTestAct (s : State) (src : Source) (v : Nat) : State × Bool :=
  if !bit v 0 ∨ (0 :: claimNos).any s.jobActive then refusedWrite (s.ignoreWrite src Page.INT Reg.INT.FULL_TEST v)
  else
    done (s.each (List.range 1056) (fun u p => u.on ((u.stope p).integ != igRetired) (fun w =>
      w.modStope p (fun x => { x with testDue := true, testing := true }))))

/-- FULL_TEST (R362). -/
def execFullTest (src : Source) (v : Word) (s : State) : Out :=
  perform (.fullTest src v) s
    (s.guarded src Page.INT Reg.INT.FULL_TEST v.toNat (fun u => u.fullTestAct src v.toNat))

/-! ### Test slots (R361) -/

/-- What waits on stope x goes to stope y: queued units, and the passes of its seams. Vectors under way complete. -/
def State.handOver (s : State) (x y : Nat) : State :=
  let queue := (s.stope x).queue
  let s1 := (s.modStope y (fun z => { z with queue := z.queue ++ queue })).modStope x (fun z => { z with queue := [] })
  s1.each (List.range 16) (fun u k =>
    let jobs := (u.arr x k).job
    (u.modArr y k (fun b => { b with job := b.job ++ jobs })).modArr x k (fun b => { b with job := [] }))

/-- The stope of a row that a TEST_SLOT takes: the first due one in the target range with a relief stope prepared for it; a
WATCHED one comes before any other (R354, R361). -/
def State.slotStope (s : State) (ls : List Nat) (row : Nat) : Option (Nat × Nat) :=
  let ps := (ls.map s.serving).filter (fun p => decide (p / 33 = row) && decide (p < 1056) && (s.stope p).testDue &&
    (s.stope p).integ != igRetired && !(s.stope p).slotted && (s.preparedFor p).isSome)
  match (ps.find? (fun p => (s.stope p).integ == igWatched)).orElse (fun _ => ps.head?) with
  | some p => (s.preparedFor p).map (fun y => (p, y))
  | none => none

/-- Logical stopes that a hoist targets. -/
def State.targetLogical (s : State) (c : Nat) (h : HoistE) : List Nat :=
  if h.tkind = 1 then (s.claimStopes c).filter (fun l => decide (bits h.target 9 0 ≤ l) && decide (l ≤ bits h.target 25 16))
  else s.claimStopes c

/-- TEST_SLOT (R361). -/
def execTestSlot (c e : Nat) (s : State) : Out :=
  perform (.testSlot c e) s
    (match s.hoistFor c e 11 with
    | none => s
    | some (_, h) =>
      let s1 := s.startRun c e h 1
      s1.each (List.range 32) (fun u row =>
        match u.slotStope (u.targetLogical c h) row with
        | none => u
        | some (x, y) => ((u.fenceTiles x tcTest).modStope x (fun z => { z with slotted := true, testing := true })).handOver x y))

/-- A stope serves its logical stope again after its slot. -/
def State.slotReturn (s : State) (x : Nat) : State :=
  match s.preparedFor x with
  | none => s.modStope x (fun z => { z with slotted := false, testing := false })
  | some y => ((s.fenceTiles y tcTest).handOver y x).modStope x (fun z => { z with slotted := false, testing := false })

/-- TEST_SLOT_END (R361): `ends` lists the stopes whose whole test came to its end in the slot; the tests of the others resume
in their next slot. -/
def execTestSlotEnd (c e : Nat) (ends : List (Nat × Option (Nat × Nat))) (s : State) : Out :=
  perform (.testSlotEnd c e ends) s
    (let ls := match s.job? c with
      | some j => match j.entries[e]? with
        | some h => if h.action = 11 ∧ (j.run e).started ∧ !(j.run e).complete then s.targetLogical c h else []
        | none => []
      | none => s.claimStopes c
    let xs := (ls.map s.serving).filter (fun p => decide (p < 1056) && (s.stope p).slotted)
    let s1 := s.each xs (fun u x => (u.slotReturn x).on ((ends.map (·.1)).contains x) (fun w =>
      w.testEnd x ((ends.find? (fun q => q.1 == x)).bind (·.2))))
    match s.job? c with
    | some j => s1.on ((j.run e).started && (match j.entries[e]? with | some h => h.action == 11 | none => false)) (fun u => u.hoistDone c e)
    | none => s1)

/-! ### Preparation of a relief stope (R360, R570) -/

/-- The stope that an idle relief stope prepares for: the one R355 names, otherwise the first due one of its row; a WATCHED
one comes before any other. -/
def State.prepTarget (s : State) (q : Nat) : Option Nat :=
  let x := s.stope q
  let due := ((List.range 33).map (fun i => 33 * (q / 33) + i)).filter (fun p => p != q && (s.stope p).testDue &&
    (s.stope p).integ != igRetired && (s.logicalOf p).isSome)
  let first := (due.find? (fun p => (s.stope p).integ == igWatched)).orElse (fun _ => due.head?)
  match x.prep with
  | some p => if (s.stope p).proposed then some p else first
  | none => first

/-- RELIEF_PREP (R360): the relief stope tests itself, then writes its seams to the codes in force of its target, and a round
of assay is due. -/
def execReliefPrep (p target : Nat) (testOk : Bool) (s : State) : Out :=
  perform (.reliefPrep p target testOk) s
    (let x := s.stope p
    let busy : Bool := match x.prep with | some t => (s.stope t).slotted | none => false
    if !s.idleRelief p ∨ x.integ = igRetired ∨ busy ∨ s.prepTarget p ≠ some target then s
    else if !testOk then (s.testFailed p 0 0).modStope p (fun y => { y with prepared := false, selfTest := false })
    else
      let s1 := (s.testPassed p).modStope p (fun y =>
        let z := (List.range 17).foldl (fun w a => w.setArr a { w.arr a with assayed := false }) y
        { z with prep := some target, prepared := false, selfTest := true, due := true })
      match s1.logicalOf target with
      | some lp => s1.each (List.range 16) (fun u k => u.copySeam p target lp k)
      | none => s1)

/-- The seams of a proposed stope whose relief seam is on the 12-level plan and they are not announce that plan (R570). -/
def State.announcePlans (s : State) (q p lp : Nat) : State :=
  s.each (List.range 16) (fun u k =>
    if (u.arr q k).plan12 && !(u.arr p k).plan12 && !(u.arr p k).announced && (u.placedAt lp k).isSome then
      (u.modArr p k (fun a => { a with announced := true })).upkeepRec p k 0x1018 (items [k, u.windowEst q k])
    else u)

/-- RELIEF_PREP_DONE (R360): the assay round is complete, and the relief stope reads PREPARED. -/
def execReliefPrepDone (p : Nat) (s : State) : Out :=
  perform (.reliefPrepDone p) s
    (let x := s.stope p
    match x.prep with
    | none => s
    | some t =>
      if !x.selfTest ∨ x.prepared ∨ x.due then s
      else
        let s1 := s.modStope p (fun y => { y with prepared := true })
        match s1.logicalOf t with
        | some lp => s1.on (s.stope t).proposed (fun u => u.announcePlans p t lp)
        | none => s1)

/-! ### Retirement (R355) -/

/-- A completed pair on INT.STOPE_RETIRE: the stope is proposed (cause 13: a write, log 39). -/
def State.stopeRetireAct (s : State) (src : Source) (v : Nat) : State × Bool :=
  let p := bits v 10 0
  if !bit v 16 ∨ 1056 ≤ p ∨ (s.stope p).integ = igRetired then refusedWrite (s.ignoreWrite src Page.INT Reg.INT.STOPE_RETIRE v)
  else if s.idleRelief p then done (s.modStope p (fun x => { x with proposed := true, why := 13 }))
  else done (s.propose p 13)

/-- STOPE_RETIRE (R355). -/
def execStopeRetire (src : Source) (v : Word) (s : State) : Out :=
  perform (.stopeRetire src v) s
    (s.guarded src Page.INT Reg.INT.STOPE_RETIRE v.toNat (fun u => u.stopeRetireAct src v.toNat))

/-- HEARTBEAT_LOSS (R366): FAULT, a failure, and a proposal with the stope fenced meanwhile (R355). -/
def execHeartbeatLoss (p : Nat) (s : State) : Out :=
  perform (.heartbeatLoss p) s
    (if (s.stope p).integ = igRetired then s
    else
      let s1 := ((s.setFn (Page.STX p) 4).stopeFailure p 9).propose p 9
      s1.modStope p (fun x => { x with fenced := true, why := 9 }))

/-! ### Takeovers (R365) -/

/-- TAKEOVERS, event 10 and 0x7011: unit, and cause 1 disagreement or 2 loss. -/
def State.countTakeover (s : State) (unit cause : Nat) : State :=
  ((s.count Page.INT Reg.INT.TAKEOVERS 10 1).raise Page.INT 10).record 0x7011 unit none (items [unit, cause])

/-- The member stops all work (R413): its jobs end and read READY. -/
def State.stopAllWork (s : State) : State :=
  s.each (s.jobs.map (·.1)) (fun u c => u.on (u.jobActive c) (fun w => (w.dropWork c 3 (fun _ => false)).setJobState c jsReady 0))

/-- CORE_TAKEOVER (R365, R413): the standby core takes over. A core that serves alone in a commit yields to the pair where the
pair's state is current, which is open (a free value); otherwise the member stops all work and is handled as lost. -/
def execCoreTakeover (lockstep : Bool) (s : State) : Out :=
  perform (.coreTakeover lockstep) s
    (let cause := if lockstep then 1 else 2
    if s.fwState = 4 ∧ s.fw.phase = 2 then
      let current := s.draw 1 == 1#1
      let s1 := s.drawn.countTakeover Src.deputy cause
      if current then s1.takeover2 else s1.stopAllWork.selfLost
    else if s.fw.lost ≠ 0 then s
    else
      let s1 := (s.bootTimeout.modFw (fun x => { x with lost := 1 })).setFld Page.DEP Reg.DEP.FW_STATE 6 6 0
      s1.countTakeover Src.deputy cause)

/-- ROUTER_TAKEOVER (R365): the survivor of a mesh router's twins carries on alone; it has no twin left to take over from it. -/
def execRouterTakeover (p : Nat) (s : State) : Out :=
  perform (.routerTakeover p) s
    (if (s.stope p).routerAlone then s
    else (s.modStope p (fun x => { x with routerAlone := true })).countTakeover (Src.stope p) 1)

/-! ### Canary packs (R359) -/

/-- The header of a canary pack (Table 10.6). -/
def packOf (b : List Byte) : Pack :=
  let f (off n : Nat) : Nat := leNat ((b.drop off).take n)
  { id := f 4 4, ver := f 8 8, bytes := f 16 8, minFw := f 0x20 8, time := f 0x28 8, digest := f 0x30 48 }

/-- Number of installed packs as the registers show it. -/
def State.showPacks (s : State) : State := s.wr Page.INT Reg.INT.PACKS (s.packs.length + 1)

/-- Why a pack is refused, 0 where it is accepted: 1 header, 2 signature, 3 MIN_FW, 4 VERSION, 5 limits (log 39). -/
def State.packCause (s : State) (b : List Byte) : Nat :=
  let x := packOf b
  let others := s.packs.filter (fun e => e.2.id != x.id)
  if b.length < 0x160 ∨ leNat (b.take 4) ≠ 1 ∨ x.id = 0 ∨ x.bytes ≠ b.length ∨
      (Config.sha384 ((b.drop 0x100).take (b.length - 0x160))).toNat ≠ x.digest then 1
  else if !(match Config.chainKey 2 [] with
      | some k => Config.ecdsaVerify k (b.take (b.length - 96)) (b.drop (b.length - 96))
      | none => false) then 2
  else if s.fw.running.ver < x.minFw then 3
  else if s.packs.any (fun e => e.2.id == x.id && decide (x.ver ≤ e.2.ver)) then 4
  else if 14 < others.length ∨ 2 ^ 28 < others.foldl (fun a e => a + e.2.bytes) x.bytes then 5
  else 0

/-- A completed pair on INT.CANARY_COMMIT: the pack that the source staged is installed or refused. -/
def State.canaryCommitAct (s : State) (src : Source) (v : Nat) : State × Bool :=
  if !bit v 0 then refusedWrite (s.ignoreWrite src Page.INT Reg.INT.CANARY_COMMIT v)
  else
    let b := s.staged src Page.INT
    let x := packOf b
    let cause := s.packCause b
    if cause ≠ 0 then refusedWrite ((s.raise Page.INT 8).recordBy src 0x700E Src.deputy none (items [x.id, cause]))
    else
      let old := (s.packs.find? (fun e => e.2.id == x.id)).map (·.1)
      let free := ((List.range 15).map (· + 1)).find? (fun k => !(s.packs.any (fun e => e.1 == k)))
      let slot := (old.orElse (fun _ => free)).getD 15
      let s1 := { s with packs := Sparse.place slot x (Sparse.drop slot s.packs) }
      done ((s1.showPacks.raise Page.INT 8).recordBy src 0x700D Src.deputy none
        [it 1 x.id, it 2 x.ver, itH 3 (BitVec.ofNat 384 x.digest)])

/-- CANARY_COMMIT (R359). -/
def execCanaryCommit (src : Source) (v : Word) (s : State) : Out :=
  perform (.canaryCommit src v) s
    (s.guarded src Page.INT Reg.INT.CANARY_COMMIT v.toNat (fun u => u.canaryCommitAct src v.toNat))

/-- A completed pair on INT.CANARY_REMOVE; slot 0 is pack 0 and stays. -/
def State.canaryRemoveAct (s : State) (src : Source) (v : Nat) : State × Bool :=
  let k := bits v 3 0
  if !bit v 8 ∨ k = 0 ∨ !(s.packs.any (fun e => e.1 == k)) then refusedWrite (s.ignoreWrite src Page.INT Reg.INT.CANARY_REMOVE v)
  else done ((({ s with packs := Sparse.drop k s.packs } : State).showPacks).raise Page.INT 8)

/-- CANARY_REMOVE (R359). -/
def execCanaryRemove (src : Source) (v : Word) (s : State) : Out :=
  perform (.canaryRemove src v) s
    (s.guarded src Page.INT Reg.INT.CANARY_REMOVE v.toNat (fun u => u.canaryRemoveAct src v.toNat))

/-! ### Captures (R358, R483) -/

/-- A record of a claim with a sealed part whose capture key still exists. -/
def State.capturedRec (s : State) (c seq : Nat) : Option Held :=
  (s.recorder.archive.flatten ++ s.recorder.region ++ s.recorder.ring).find? (fun h =>
    h.seq == seq && h.body.claim == some c && !h.body.hidden.isEmpty && h.bind == s.rd (Page.CLM c) Reg.CLM.BIND_COUNT)

/-- A completed pair on INT.CAPTURE_RELEASE: the record 0x700F carries the copy sealed to the maker. -/
def State.captureReleaseAct (s : State) (src : Source) (v : Nat) : State × Bool :=
  let c := s.sessClaim src
  match s.capturedRec c v with
  | none => refusedWrite (s.ignoreWrite src Page.INT Reg.INT.CAPTURE_RELEASE v)
  | some h =>
    done (s.enqueue { code := 0x700F, unit := Src.deputy, role := s.roleOf src, source := src.num, claim := some c
                      tai := if s.disciplined then s.tally else 0, items := items [v, c], hidden := [], maker := h.body.hidden })

/-- CAPTURE_RELEASE (R358). -/
def execCaptureRelease (src : Source) (v : Word) (s : State) : Out :=
  perform (.captureRelease src v) s
    (s.guarded src Page.INT Reg.INT.CAPTURE_RELEASE v.toNat (fun u => u.captureReleaseAct src v.toNat))

end Sys2Proof.Machine
end

