-- ==== Sys2Proof/Machine/Views.lean ====
section
/-!
DEFINITION. What a read of a register word returns (R9, R385, R403, R404, R428, R441, R464 and the register table of each page):
the stored word, or the state that the register shows. Readings of sensors that no command has delivered are free values
(log 2).
-/

namespace Sys2Proof.Machine

/-! ### Claim views and selections -/

/-- The claim that a page with per-claim views shows a source: the operator's own, otherwise the selected one (R200). -/
def State.claimShown (s : State) (src : Source) (page : Nat) : Nat :=
  match s.roleOf src with
  | 0 => 0
  | 1 => s.sessClaim src
  | _ =>
    match pageType page with
    | .hoi => s.fld page Reg.HOI.JOB_SELECT 5 0
    | .ftc => s.fld page Reg.FTC.CLAIM_SELECT 5 0
    | .mil => s.fld (Page.MIL 0) Reg.MIL.CLAIM_SELECT 5 0
    | .int => s.fld page Reg.INT.CLAIM_SELECT 5 0
    | _ => 0

/-- Does an operator session reach a stope of the selection registers: one that serves its claim (R386)? -/
def State.ownStope (s : State) (src : Source) (p : Nat) : Bool := s.roleOf src != 1 || s.claimServed p == s.sessClaim src

/-- Does an operator session reach a member of the selection registers: its own member, or one that holds a role of its
claim's job (R386, DEDUCED, log 42)? -/
def State.ownMember (s : State) (src : Source) (m : Nat) : Bool :=
  s.roleOf src != 1 || m == s.memberNo ||
    s.casc.roles.any (fun (e : RoleEntry) => e.member == m && bits e.role 3 0 == 0 &&
      bits e.role 31 26 == bits (s.jobReg (s.sessClaim src) Reg.HOI.JOB_STATE) 13 8)

/-- Registers of a page that show the claim's bank (R200, R232, R269, R369). -/
def claimWord (page off : Nat) : Bool :=
  let within (lo hi : Nat) : Bool := decide (lo ≤ off) && decide (off ≤ hi)
  match pageType page with
  | .hoi => within 0x044 0x064
  | .ftc => within 0x0C0 0x0E8
  | .mil => within 0x0B0 0x0C4
  | .int => within 0x09C 0x0A4
  | _ => false

/-- The page that keeps the claim banks of a page type: the first of its pages. -/
def claimPage (page : Nat) : Nat :=
  match pageType page with
  | .ftc => Page.FTC 0
  | .mil => Page.MIL 0
  | _ => page

/-! ### Free readings -/

/-- A free reading of w bits. -/
def State.free (s : State) (w : Nat) : Nat := (s.draw w).toNat

/-- The rails of the core, the memory and the drifts are up (step 3 of Table 16.1): before that no sensor of theirs has been read,
and a reading shows its reset value, 0 (R12, log 83). -/
def State.railsUp (s : State) : Bool := decide (3 ≤ s.fld Page.DEV Reg.DEV.BRINGUP 3 0)

/-- A reading of w bits that no command delivers: free once the rails are up, 0 before (log 83). -/
def State.reading (s : State) (w : Nat) : Nat := if s.railsUp then s.free w else 0

/-- The live temperature of a sensor in 1/16 °C (R506): the last one that a thermal command delivered, else a reading. -/
def State.sensorTemp (s : State) (cls inst : Nat) : Nat :=
  match s.pwr.sensors.find? (fun e => e.1 == cls * 2048 + inst) with
  | some e => unsigned 16 e.2.1
  | none => s.reading 16

/-- The largest guard band among the stopes of a row that serve a logical stope (R498). -/
def State.rowGuard (s : State) (r : Nat) : Nat :=
  (List.range 33).foldl (fun a k => if (s.logicalOf (33 * r + k)).isSome then max a (s.stope (33 * r + k)).guard else a) 0

/-- Registers whose value, or part of it, is a free reading. -/
def freeWord (page off : Nat) : Bool :=
  off == Reg.HDR.EVT_RAW || match pageType page with
  | .ftc => off == Reg.FTC.STACK_TEMP
  | .mil => off == Reg.MIL.STACK_TEMP_A || off == Reg.MIL.STACK_TEMP_B || off == Reg.MIL.STACK_TEMP_C
  | .drf => off == Reg.DRF.SYM_ERRORS
  | .pwr => off == Reg.PWR.CONV_INFO || off == Reg.PWR.PHASE_INFO
  | .sns => (decide (Reg.SNS.STOPE_TEMP ≤ off) && decide (off ≤ Reg.SNS.HOT_STOPE)) || off == Reg.SNS.SENSOR_READ || off == Reg.SNS.SENSOR_AVG
  | _ => off == Reg.HDR.STREAM_LEVEL

/-! ### Views of single pages -/

/-- STREAM_LEVEL (R446): the free space of the 64 KiB buffer, beside the words of the lap under way; in a read transfer the bytes
fetched ahead, which the spec leaves open below what remains of the transfer. -/
def State.streamLevel (s : State) (src : Source) (page : Nat) : Nat :=
  let x := s.stream src page
  match x.mode with
  | 0 => 0
  | 1 => 65536 - 4 * x.seen.length
  | _ => s.free 16 % (min 65536 (x.len - x.passed) + 1)

/-- Does a source's own event copy hold an enabled event of a page that its session may read (R464)? -/
def State.pendingAt (s : State) (src : Source) (page : Nat) : Bool :=
  s.pageReadable src page && (s.rdB src.num page Reg.HDR.EVT_FLAG &&& s.rdB src.num page Reg.HDR.EVT_ENABLE) != 0

/-- The pending registers of HPA and HPB (R464). -/
def State.hpView (s : State) (src : Source) (page off : Nat) : Nat :=
  let row := bits (s.rdB src.num page Reg.HP.ROW_SELECT) 4 0
  let stp (l : Nat) : Bool := s.pendingAt src (Page.STP l)
  let stx (p : Nat) : Bool := s.pendingAt src (Page.STX p)
  if off = Reg.HP.CLM_PEND_A then bitWord 32 (fun n => s.pendingAt src (Page.CLM n))
  else if off = Reg.HP.CLM_PEND_B then bitWord 32 (fun n => s.pendingAt src (Page.CLM (32 + n)))
  else if off = Reg.HP.STM_PEND_A then bitWord 32 (fun n => s.pendingAt src (Page.STM n))
  else if off = Reg.HP.STM_PEND_B then bitWord 32 (fun n => s.pendingAt src (Page.STM (32 + n)))
  else if off = Reg.HP.STP_ROWS then bitWord 32 (fun r => (List.range 32).any (fun k => stp (32 * r + k)))
  else if off = Reg.HP.STX_ROWS then bitWord 32 (fun r => (List.range 33).any (fun k => stx (33 * r + k)))
  else if off = Reg.HP.STX_COL32 then bitWord 32 (fun r => stx (33 * r + 32))
  else if off = Reg.HP.ROW_SELECT then s.rdB src.num page off
  else if off = Reg.HP.STP_ROW_PEND then bitWord 32 (fun k => stp (32 * row + k))
  else if off = Reg.HP.STX_ROW_PEND then bitWord 32 (fun c => stx (33 * row + c))
  else s.rd page off

/-- The selected stope, array and row group of ASY (R302). -/
def State.asyView (s : State) (src : Source) (off : Nat) : Nat :=
  let sel := s.rd Page.ASY Reg.ASY.SELECT
  let p := bits sel 10 0
  let k := bits sel 20 16
  let x := s.stope p
  let a := x.arr k
  if off < Reg.ASY.STOPE_UPKEEP ∨ Reg.ASY.ROWGROUP_WRITES < off then s.rd Page.ASY off
  else if !s.ownStope src p then 0
  else if off = Reg.ASY.STOPE_UPKEEP then
    min 0xFFFF ((s.osc - x.lastAt) / 1000000000) + (if x.due then 2 ^ 16 else 0) + (if x.overdue then 2 ^ 17 else 0) + (if x.inSlot then 2 ^ 18 else 0)
      + ((List.range 17).find? (fun i => !(x.arr i).assayed)).getD 0 * 2 ^ 19
  else if off = Reg.ASY.STOPE_TEMP then unsigned 16 x.tA + unsigned 16 x.tNow * 2 ^ 16
  else if off = Reg.ASY.STOPE_AGEING then
    min 255 x.sigma + min 255 x.guard * 2 ^ 8 + unsigned 8 x.rho * 2 ^ 16 + (if x.range0Off then 2 ^ 24 else 0)
  else if off = Reg.ASY.SEAM_UPKEEP then
    (if a.plan12 then 2 else if a.announced then 1 else 0) + (if a.degraded then 4 else 0) + (if a.closed then 8 else 0)
      + a.unfit.length % 1024 * 2 ^ 4 + min 4 a.unfit.length * 2 ^ 14
  else if off = Reg.ASY.SEAM_DRIFT then min 0xFFFF a.worst + (if s.railsUp then a.interval % 2 ^ 16 * 2 ^ 16 else 0)
  else if off = Reg.ASY.SEAM_AGEING then min 255 (s.windowEst p k) + a.amp % 16 * 2 ^ 8
  else Sparse.get 0 a.writes (bits sel 27 24)

/-- State of a stope in STOPE_INTEG: a retired stope before all others, then FAULT, then a test under way. -/
def State.integCode (s : State) (p : Nat) : Nat :=
  let x := s.stope p
  if x.integ = igRetired then 2
  else if s.fn (Page.STX p) = 4 then 5
  else if x.testing ∨ x.slotted then 3
  else if x.integ = igWatched then 1
  else if s.idleRelief p then 4
  else 0

/-- The selected stope and pack of INT (R369). Pack 0 shows PACK_ID 0 and a version that the spec does not state. -/
def State.intView (s : State) (src : Source) (off : Nat) : Nat :=
  let p := s.fld Page.INT Reg.INT.STOPE_SELECT 10 0
  let x := s.stope p
  let slot := s.fld Page.INT Reg.INT.PACK_SELECT 3 0
  let pack := (s.packs.find? (fun (e : Nat × Pack) => e.1 == slot)).map (·.2)
  if off = Reg.INT.TEST_TIME then (s.packs.foldl (fun (a : Nat) (e : Nat × Pack) => a + e.2.time) (Config.fuse 4)) / 1000
  else if off = Reg.INT.PACKS then s.packs.length + 1
  else if off = Reg.INT.PACK_ID then (match pack with | some q => q.id | none => 0)
  else if off = Reg.INT.PACK_VERSION then (if slot = 0 then Config.fuse 3 else match pack with | some q => q.ver | none => 0)
  else if off = Reg.INT.STOPE_INTEG ∨ off = Reg.INT.STOPE_LAST_FAIL ∨ off = Reg.INT.RELIEF_PREP then
    if !s.ownStope src p ∨ 1056 ≤ p then 0
    else if off = Reg.INT.STOPE_INTEG then
      s.integCode p + min 15 x.fails * 2 ^ 4 + (if x.testDue then 2 ^ 8 else 0) + (if x.proposed then 2 ^ 9 else 0)
        + (if x.fenced then 2 ^ 10 else 0) + min 0xFFFF ((s.osc - x.testAt) / 3600000000000) * 2 ^ 16
    else if off = Reg.INT.STOPE_LAST_FAIL then x.lastFail % 256
    else (match x.prep with | some t => t | none => 0x7FF) + (if x.prepared then 2 ^ 16 else 0)
      + (if x.prep.isSome && !x.prepared && !x.selfTest then 2 ^ 17 else 0)
  else s.rd Page.INT off

/-- The selected master set of MIL (Table 7.9) in the claim shown. -/
def State.milView (s : State) (src : Source) (page off : Nat) : Nat :=
  let ix := s.fld (Page.MIL 0) Reg.MIL.SET_SELECT 11 0
  let hold := match s.job? (s.claimShown src page) with
    | some j => (match j.sets[ix]?, j.sstate[ix]? with | some d, some y => some (d, y) | _, _ => none)
    | none => none
  let show_ (f : SetD → SetS → Nat) : Nat := match hold with | some (d, y) => f d y | none => 0
  if off = Reg.MIL.SET_INFO then
    show_ (fun d y => d.kind % 4 + d.opt % 4 * 4 + y.cur % 2 * 16 + (if y.skipped then 32 else 0) + (if y.resync then 64 else 0) + 128
      + d.layer % 2 ^ 16 * 2 ^ 16)
  else if off = Reg.MIL.SET_NEXT_LO then show_ (fun _ y => y.next)
  else if off = Reg.MIL.SET_NEXT_LO + 4 then show_ (fun _ y => y.next / 2 ^ 32)
  else if off = Reg.MIL.SET_STEPS_LO then show_ (fun _ y => y.steps)
  else if off = Reg.MIL.SET_STEPS_LO + 4 then show_ (fun _ y => y.steps / 2 ^ 32)
  else if off = Reg.MIL.SET_WRITES then show_ (fun _ y => y.writes)
  else if off = Reg.MIL.SET_HELD then show_ (fun _ y => y.held)
  else if freeWord page off then
    -- stacks 6i to 6i + 5, two to a word (Table 7.9)
    let n := 6 * (page - Page.MIL 0) + 2 * ((off - Reg.MIL.STACK_TEMP_A) / 4)
    s.sensorTemp 2 n + 2 ^ 16 * s.sensorTemp 2 (n + 1)
  else s.rd (keptOn page off) off

/-- The selected converter and phase of PWR (R514): what it does, and readings that are free. -/
def State.pwrView (s : State) (off : Nat) : Nat :=
  if off = Reg.PWR.CONV_INFO then
    let k := s.fld Page.PWR Reg.PWR.CONV_SELECT 3 0
    let m := s.rd Page.PWR Reg.PWR.CONV_MAP
    (if bit m k then 2 else if bit m (12 + k) then 0 else 1) + bits (s.reading 32) 15 8 * 2 ^ 8 + bits (s.reading 32) 25 16 * 2 ^ 16
  else if off = Reg.PWR.PHASE_INFO then
    let k := s.fld Page.PWR Reg.PWR.PHASE_SELECT 6 0
    let x := s.phase k
    (if x = 1000 then 2 else if k < 96 then 0 else if x = 0 then 1 else 3)
      + (match s.phaseRow k with | some r => r | none => 0x3F) * 2 ^ 2 + bits (s.reading 32) 23 8 * 2 ^ 8
  else s.rd Page.PWR off

/-- The selected stope and sensor of SNS (R516). -/
def State.snsView (s : State) (off : Nat) : Nat :=
  let x := s.stope (s.fld Page.SNS Reg.SNS.STOPE_SELECT 10 0)
  let sel := s.rd Page.SNS Reg.SNS.SENSOR_SELECT
  if off = Reg.SNS.STOPE_VOLT then
    -- the drop of the headswitch is what the row's supply has above the stope's own (R498)
    let row := s.rowGuard (s.fld Page.SNS Reg.SNS.STOPE_SELECT 10 0 / 33)
    min 255 x.guard + (if (s.logicalOf (s.fld Page.SNS Reg.SNS.STOPE_SELECT 10 0)).isSome then min 255 (row - x.guard) * 2 ^ 8 else bits (s.reading 32) 15 8 * 2 ^ 8)
      + min 255 row * 2 ^ 16 + (if x.invalid = 0 then 0 else 2 ^ 24) + (if x.clamped then 2 ^ 25 else 0)
  else if off = Reg.SNS.HOT_STOPE then bits (s.reading 32) 10 0 % 1056 + bits (s.reading 32) 31 16 * 2 ^ 16
  else if off = Reg.SNS.SENSOR_READ then
    s.sensorTemp (bits sel 2 0) (bits sel 18 8) + (s.sensor (bits sel 2 0) (bits sel 18 8)).2.1 % 4 * 2 ^ 16
  else if off = Reg.SNS.SENSOR_AVG then bits (s.reading 32) 15 0
  else if freeWord Page.SNS off then s.reading 32
  else s.rd Page.SNS off

/-- The selected role and member of CAS (R333). -/
def State.casView (s : State) (src : Source) (off : Nat) : Nat :=
  let role := s.roleEntry (s.rd Page.CAS Reg.CAS.ROLE_SELECT)
  let m := s.fld Page.CAS Reg.CAS.MEMBER_SELECT 11 0
  if off = Reg.CAS.JOB_ROLE then s.rdB (claimBank (s.sessClaim src)) Page.CAS off
  else if off = Reg.CAS.ROLE_MEMBER then
    (match role with | some e => if s.ownMember src e.member then e.member % 4096 else 0 | none => 0xFFF)
  else if off = Reg.CAS.ROLE_EPOCH then
    (match role with | some e => if s.ownMember src e.member then e.epoch else 0 | none => 0)
  else if off = Reg.CAS.MEMBER_INFO then
    if s.ownMember src m then (s.peer m).info % 8 + min 127 (s.peer m).late.length * 16 else 0
  else s.rd Page.CAS off

/-- A session page (Table 11.11): FAILS counts the failures of the last 60 s, IDLE_LEFT runs since the last access. -/
def State.rolView (s : State) (page off : Nat) : Nat :=
  let src := sources.getD (page - Page.ROL 0) .monitor
  let x := s.sessOf src
  if off = Reg.ROL.SESS_STATE then
    bits (s.rd page off) 23 0 + min 255 (x.fails.filter (fun t => decide (s.osc < t + 60000000000))).length * 2 ^ 24
  else if off = Reg.ROL.IDLE_LEFT then
    if s.roleOf src = 0 ∨ s.fld (Page.ROL 3) Reg.ROL3.SESS_IDLE 15 0 = 0 then 0xFFFFFF
    else s.idleSeconds - (s.osc - x.access) / 1000000000
  else s.rd page off

/-- Page ROL 3 (Table 11.12). -/
def State.rol3View (s : State) (src : Source) (off : Nat) : Nat :=
  if off = Reg.ROL3.STAGE_KIND ∨ off = Reg.ROL3.ATTEST_STATE then s.rdB src.num (Page.ROL 3) off
  else if off = Reg.ROL3.CERT_BYTES then Config.identityChain.length
  else s.rd (Page.ROL 3) off

/-- The claim table (Table 11.13): state and JOB_LOADED of eight claims. -/
def State.clmtView (s : State) (off : Nat) : Nat :=
  if off < Reg.CLMT.FREE_STOPES then
    (List.range 8).foldl (fun a i =>
      let c := (off - 0x40) / 4 * 8 + i
      let w := if c = 0 then s.claimState 0 else s.claimState c + (if bit (s.rd (Page.CLM c) Reg.CLM.CLAIM_STATE) 5 then 8 else 0)
      a + w * 2 ^ (4 * i)) 0
  else s.rd (Page.CLM 0) off

/-- The live words of page STX: SEAM_LIVE, HEW_STATE and HEW_UNIT (Tables 2.13 and 3.11). Where no tile is being issued but one
is at its fence or drain, KIND and the unit are that tile's (DESIGN CHOICE, log 65). -/
def State.stxView (s : State) (page off : Nat) : Nat :=
  let p := page - Page.STX 0
  let x := s.stope p
  if off = Reg.STX.SEAM_LIVE then bitWord 17 (fun k => (s.arr p k).vec.isSome)
  else if off = Reg.STX.HEW_STATE then
    let kind := match x.tiles with | t :: _ => t.kind | [] => if x.slotted || x.testing then 4 else 0
    kind + (if x.drains = [] then 0 else 8) + (if x.wide.isSome then 16 else 0) + 32 * s.fld page off 5 5
  else if off = Reg.STX.HEW_UNIT then (match x.tiles with | t :: _ => t.unit.unit | [] => 0xFFFFFFFF)
  else s.rd page off

/-- Words 0x000 to 0x03C (Table 12.4). Which of the conditions that have arisen are live is open (log 6). -/
def State.headerView (s : State) (src : Source) (page off : Nat) : Nat :=
  let t := pageType page
  if off = Reg.HDR.PAGE_CLAIM then
    (match t with | .stx => s.claimServed (page - Page.STX 0) | _ => bits (s.rd page off) 5 0)
      + (if bit t.caps 4 then s.claimShown src page * 2 ^ 8 else 0)
  else if off = Reg.HDR.EVT_FLAG ∨ off = Reg.HDR.EVT_ENABLE then s.rdB src.num page off
  else if off = Reg.HDR.EVT_RAW then s.rd page off &&& s.free 27
  else if Reg.HDR.STREAM_CTL ≤ off then
    if !bit t.caps 0 then 0 else if off = Reg.HDR.STREAM_LEVEL then s.streamLevel src page else s.rdB src.num page off
  else if off = Reg.HDR.STATUS ∧ s.boot.recovery ∧ !(t == .dev || t == .rol || t == .rol3 || t == .dep) then 0
  else s.rd page off

/-! ### The value that a read returns -/

/-- The live word, before what R403 and R404 hide. -/
def State.live32 (s : State) (src : Source) (page off : Nat) : Nat :=
  if off < 0x40 then s.headerView src page off
  else if claimWord page off then s.rdB (claimBank (s.claimShown src page)) (claimPage page) off
  else
    match pageType page with
    | .hp => s.hpView src page off
    | .asy => s.asyView src off
    | .int => s.intView src off
    | .mil => s.milView src page off
    | .pwr => s.pwrView off
    | .sns => s.snsView off
    | .cas => s.casView src off
    | .rol => s.rolView page off
    | .rol3 => s.rol3View src off
    | .clmt => s.clmtView off
    | .stx => s.stxView page off
    | .ftc => if freeWord page off then s.sensorTemp 1 (page - Page.FTC 0) else s.rd page off
    | .drf =>
      if freeWord page off then (if s.fld page Reg.DRF.PORT_STATE 3 0 = 0 then 0 else s.free 16) else s.rd page off
    | .tal => if off = Reg.TAL.TALLY_LO then s.tally else if off = Reg.TAL.TALLY_LO + 4 then s.tally / 2 ^ 32 else s.rd page off
    | .mon => if off = Reg.MON.MON_STATE then (if src == .monitor || s.mon.login.isSome then 2 ^ 16 else 0) else s.rd page off
    | _ => s.rd page off

/-- The bits of a word that are hidden from a session: readings finer than a 1 s average outside installer sessions (R403),
and in operator sessions what measures the activity of the whole device (R404). A migration of the session's own claim is
shown. -/
def State.hidden (s : State) (src : Source) (page off v : Nat) : Nat :=
  let r := s.roleOf src
  let within (lo hi : Nat) : Bool := decide (lo ≤ off) && decide (off ≤ hi)
  let all : Nat := 2 ^ 32 - 1
  match pageType page with
  | .pwr => if r ≠ 2 ∧ (within Reg.PWR.INPUT_V Reg.PWR.INPUT_P ∨ off = Reg.PWR.BUS_V) then all else 0
  | .sns =>
    if r ≠ 2 ∧ within Reg.SNS.STOPE_TEMP Reg.SNS.STOPE_ARR then all
    else if r ≠ 2 ∧ off = Reg.SNS.SENSOR_READ then 0xFFFF
    else 0
  | .ftc =>
    if r = 1 ∧ within 0x044 0x074 ∧ !(off == Reg.FTC.MIGRATE && bit v 0 && bits v 13 8 == s.sessClaim src) then all else 0
  | .mil =>
    if r = 1 ∧ (within 0x044 0x078 ∨ within 0x084 0x088) ∧ !(off == Reg.MIL.MIGRATE && bit v 0 && bits v 13 8 == s.sessClaim src) then all
    else if r = 1 ∧ off = Reg.MIL.MILL_STATE then 0xFF00
    else 0
  | .drf => if r = 1 ∧ (within 0x050 0x07C ∨ within 0x084 0x088) then all else 0
  | .hoi => if r = 1 ∧ (off = Reg.HOI.GOV_STATE ∨ within Reg.HOI.GOV_WITHHELD_HEW Reg.HOI.FIXED_LOADED) then all else 0
  | .int => if r = 1 ∧ within 0x068 0x094 then all else 0
  | _ => 0

/-- Access code of a word of a page; stream registers exist only on stream-capable pages (R428). -/
def accOf (page off : Nat) : Acc :=
  if Reg.HDR.STREAM_CTL ≤ off ∧ off < 0x40 ∧ !bit (pageType page).caps 0 then .rsv
  else match findRow (pageType page) off with | some r => r.acc | none => .rsv

/-- The live value that a permitted read at an offset returns: zero for WO and RSV words. In recovery only pages DEV, ROL and
DEP show words beyond the header (R522). -/
def State.liveWord (s : State) (src : Source) (page off : Nat) : Nat :=
  let t := pageType page
  match accOf page off with
  | .wo => 0
  | .rsv => 0
  | _ =>
    if s.boot.recovery ∧ 0x40 ≤ off ∧ !(t == .dev || t == .rol || t == .rol3 || t == .dep) then 0
    else
      let v := s.live32 src page off % 2 ^ 32
      v - (v &&& s.hidden src page off v)

end Sys2Proof.Machine
end

