-- ==== Sys2Proof/Machine/Streams.lean ====
section
/-!
DEFINITION. Stream windows (R444 to R448, R480, R529, R532, R533): the start of a transfer, laps of words written or read, the
commit of blocks to claim memory, and the objects that pages take and give. Data is fetched when its place is first read, and a
block or a record is fetched whole (log 41).
-/

namespace Sys2Proof.Machine

/-! ### Objects -/

/-- Bytes placed at an offset of an object. -/
def putObject (obj : List Byte) (off : Nat) (bytes : List Byte) : List Byte :=
  (obj ++ List.replicate (off - obj.length) 0).take off ++ bytes ++ obj.drop (off + bytes.length)

/-- The length of an object as it travels (R444). -/
def padded (n : Nat) : Nat := ceilDiv n 4 * 4

/-- The object of ROL 3 that a source reads: its report (kind 0) or the identity certificates (kind 4). -/
def State.rol3Object (s : State) (src : Source) : List Byte :=
  if s.stageKind src = 4 then Config.identityChain else Sparse.get [] s.vault.reports src.num

/-- Start address and length of a source's transfer registers. -/
def State.strmAddr (s : State) (src : Source) (page : Nat) : Nat := s.rd64B src.num page Reg.HDR.STREAM_ADDR_LO
def State.strmLen (s : State) (src : Source) (page : Nat) : Nat := s.strm src page Reg.HDR.STREAM_LEN

/-! ### Starting (Tables 12.9 and 12.10) -/

/-- ERROR with which a transfer ends at its start, 0 for none: a length of 0, an address outside the page's object, or a
direction or object that the page does not take. -/
def State.startErr (s : State) (src : Source) (page mode : Nat) : Nat :=
  let a := s.strmAddr src page
  let n := s.strmLen src page
  let sized (limit : Nat) : Nat := if limit < a + n then 1 else 0
  let takes (limit : Nat) : Nat := if mode = 2 then 8 else sized limit
  if n = 0 then 3
  else
    match pageType page with
    | .stm => if a % 4 ≠ 0 then 1 else 0
    | .recorder => if mode = 1 then 8 else if bits a 47 42 ≠ 0 ∨ bits a 63 49 ≠ 0 then 1 else 0
    | .hoi => takes 256
    | .clm => takes 100
    | .int => takes (2 ^ 28)
    | .dep => if mode = 2 ∨ !s.fw.staging then 8 else 0
    | .rol3 =>
      match s.stageKind src with
      | 0 => if mode = 1 then sized 48 else sized (padded (s.rol3Object src).length)
      | 1 => takes 100
      | 2 => takes 40
      | 4 => if mode = 1 then 8 else sized (padded (s.rol3Object src).length)
      | _ => if mode = 2 then 8 else 0
    | .pro =>
      if mode = 1 then (if a ≠ 0 then 1 else if n % 16 ≠ 0 ∨ s.proState = 0 ∨ s.proState = 4 then 8 else 0)
      else if bit a 47 then (if s.roleOf src = 2 then 0 else 1)
      else sized (512 * s.pros.results.length)
    | _ => if mode = 2 then 8 else 0

/-- A MODE write that starts no transfer (R447): ERROR takes its code, DONE and STREAM_CHECK stay. -/
def State.strmRefuse (s : State) (src : Source) (page err : Nat) : State :=
  let x := s.stream src page
  (s.strmShow src page x.mode err (bit (s.strm src page Reg.HDR.STREAM_CTL) 9)).strmError src page err x.mode x.passed

/-- MODE 1 or 2 written (R444, R447): refused during a transfer and on an STM page that takes none; otherwise ERROR, DONE and
STREAM_CHECK clear and the transfer starts. A write transfer at STREAM_ADDR 0 begins a new object (log 41). -/
def State.strmStart (s : State) (src : Source) (page mode : Nat) : State :=
  let x := s.stream src page
  if x.mode ≠ 0 then s.strmRefuse src page 5
  else if pageType page = .stm ∧ (s.fn page = 0 ∨ s.fn page = 3) then s.strmRefuse src page 10
  else
    let a := s.strmAddr src page
    let scratch : Bool := mode == 2 || a == 0 || pageType page == .stm
    let keepObj := mode == 2 && pageType page != .stm && pageType page != .recorder
    let s1 := s.setStream src page { mode := mode, addr := a, len := s.strmLen src page, passed := 0, seen := [], lap := []
                                     object := if keepObj || !scratch then x.object else [] }
    let s2 := (s1.wrB src.num page Reg.HDR.STREAM_CHECK 0).strmShow src page mode 0 false
    let err := s2.startErr src page mode
    if err = 0 then s2 else s2.strmEnd src page err

/-- MODE 0 written: a transfer under way is abandoned with ERROR 9. A transfer of series records reports its refusals. -/
def State.strmAbandon (s : State) (src : Source) (page : Nat) : State :=
  let s1 := s.strmEnd src page 9
  s1.on (page == Page.PRO && (s.stream src page).mode == 1) (fun u => u.endRecords)

/-- A write of STREAM_CTL. -/
def State.strmCtl (s : State) (src : Source) (page v : Nat) : State :=
  if bits v 1 0 = 0 then s.strmAbandon src page else s.strmStart src page (bits v 1 0)

/-! ### Laps (R445) -/

/-- Bytes of the lap under way. -/
def Stream.lapLen (x : Stream) : Nat := min 4096 (x.len - x.passed)

/-- The bytes of the lap under way, in stream order. -/
def Stream.lapBytes (x : Stream) : List Byte :=
  ((List.range (x.lapLen / 4)).map (fun i => leBytes 4 (Sparse.get (0 : Word) x.lap (4 * i)).toNat)).flatten

/-- STREAM_CHECK carried on over more bytes (Table 12.4). -/
def crcMore (c : Nat) (l : List Byte) : Nat :=
  (l.foldl (fun a b => Nat.repeat crc32cBit 8 (a ^^^ b.toNat)) (c ^^^ 0xFFFFFFFF)) ^^^ 0xFFFFFFFF

/-- A window access that finds no place (R447): the transfer under way ends, or ERROR alone is shown. -/
def State.strmFail (s : State) (src : Source) (page err : Nat) : State :=
  if (s.stream src page).mode = 0 then s.strmRefuse src page err
  else
    (s.strmEnd src page err).on (page == Page.PRO && (s.stream src page).mode == 1) (fun u => u.endRecords)

/-- The last lap is done: DONE and STREAM_DONE; ERROR keeps what a refused MODE write has shown meanwhile (R447). -/
def State.strmDone (s : State) (src : Source) (page : Nat) : State :=
  let x := s.stream src page
  let err := bits (s.strm src page Reg.HDR.STREAM_CTL) 7 4
  let s1 := (s.setStream src page { x with mode := 0, seen := [], lap := [] }).strmShow src page 0 err true
  let s2 := (s1.raiseFor src page 29).strmSettle page
  s2.on (page == Page.PRO && x.mode == 1) (fun u => u.endRecords)

/-- Event 0x3008 of a stream access that R204 refuses. -/
def State.refuseAddr (s : State) (src : Source) (c addr write : Nat) : State :=
  s.recordBy src 0x3008 Src.deputy (some c) (items [c, addr, src.num, write])

/-! ### Claim memory (R448) -/

/-- Commit bytes that lie within one block: ERROR 1 outside the allocation (R204), ERROR 6 for a partial write to a LOST block
(R343), 0 where they are committed. A partial write first verifies the block's check; where that fails it waits until the damage
has been handled (R206). -/
def State.commitBlock (s : State) (src : Source) (c addr : Nat) (b : List Byte) : State × Nat :=
  if !s.addrOk c addr b.length then (s.refuseAddr src c addr 1, 1)
  else if b.length < 4096 ∧ (s.mark c addr).lost then (s, 6)
  else
    let slow := addr / 2 ^ 46 == 1
    let s0 := if b.length < 4096 ∧ !s.checkHolds c addr then s.writeWaits c addr b else s.wrBytes c addr b
    let s1 := s0.countWrite slow (s.channelOf c slow (addr % 2 ^ 46 / 4096)) 1
    let s2 := s1.on (b.length == 4096) (fun u => u.clearLost c addr)
    (s2.count64 (Page.STM c) Reg.STM.BYTES_IN_LO 0 b.length, 0)

/-- Commit whole blocks from an address until an error. -/
def State.commitBytes (src : Source) (c : Nat) : Nat → Nat → List Byte → State → State × Nat
  | 0, _, _, s => (s, 0)
  | n + 1, addr, b, s =>
    if b = [] then (s, 0)
    else
      let k := min b.length (4096 - addr % 4096)
      let r := s.commitBlock src c addr (b.take k)
      if r.2 ≠ 0 then r else State.commitBytes src c n (addr + k) (b.drop k) r.1

/-- A lap of an STM write has arrived: the blocks whose bytes in the transfer have all arrived are committed, the rest of a
block waits in the context. -/
def State.commitStm (s : State) (src : Source) (page : Nat) (x : Stream) (b : List Byte) : State × Nat :=
  let all := x.object ++ b
  let start := x.addr + x.passed - x.object.length
  let final := decide (x.len ≤ x.passed + b.length)
  let upto := if final then all.length else (start + all.length) / 4096 * 4096 - start
  let r := State.commitBytes src (page - Page.STM 0) 3 start (all.take upto) s
  (r.1.setStream src page { x with object := all.drop upto }, r.2)

/-- A lap of series records: 16 bytes each, in stream order (R529). -/
def State.commitSeries (s : State) (b : List Byte) : State :=
  s.each (List.range (b.length / 16)) (fun u i =>
    let f (off n : Nat) : Nat := leNat ((b.drop (16 * i + off)).take n)
    u.takeRecord { tally := f 0 8, series := f 8 4, value := BitVec.ofNat 32 (f 12 4) })

/-- A whole lap of a write transfer goes to the page's object. -/
def State.commitLap (s : State) (src : Source) (page : Nat) (x : Stream) (b : List Byte) : State × Nat :=
  match pageType page with
  | .stm => s.commitStm src page x b
  | .pro => (s.commitSeries b, 0)
  | .dep =>
    if !s.fw.staging then (s, 8)
    else
      let store := putObject s.fw.store (x.addr + x.passed) b
      (({ s with fw := { s.fw with store := store } } : State).wr Page.DEP Reg.DEP.STAGE_BYTES store.length, 0)
  | .rol3 =>
    let k := src.num * 8 + s.stageKind src
    let old := if x.addr + x.passed = 0 then [] else Sparse.get [] s.vault.stagedObj k
    ({ s with vault := { s.vault with stagedObj := Sparse.set [] s.vault.stagedObj k (putObject old (x.addr + x.passed) b) } }, 0)
  | _ => (s.setStream src page { x with object := putObject x.object (x.addr + x.passed) b }, 0)

/-- The words of a lap have all arrived. -/
def State.lapWritten (s : State) (src : Source) (page : Nat) : State :=
  let x := s.stream src page
  let b := x.lapBytes
  let s1 := s.wrB src.num page Reg.HDR.STREAM_CHECK (crcMore (s.strm src page Reg.HDR.STREAM_CHECK) b)
  let r := s1.commitLap src page x b
  if r.2 ≠ 0 then r.1.strmFail src page r.2
  else
    let y := r.1.stream src page
    let s2 := r.1.setStream src page { y with passed := y.passed + b.length, seen := [], lap := [] }
    if y.len ≤ y.passed + b.length then s2.strmDone src page else s2

/-- A word written to the window (R445): ERROR 3 where it is not whole, ERROR 2 where its place is filled, beyond the lap, or no
write transfer is under way. -/
def State.winWrite (s : State) (src : Source) (page x : Nat) (v : Word) (be : Nat) : State :=
  let t := s.stream src page
  let place := x / 4 * 4
  if be ≠ 15 then s.strmFail src page 3
  else if t.mode ≠ 1 ∨ t.lapLen < place + 4 ∨ t.seen.contains place then s.strmFail src page 2
  else
    let u := { t with seen := place :: t.seen, lap := Sparse.place place v (Sparse.drop place t.lap) }
    let s1 := s.setStream src page u
    if 4 * u.seen.length = u.lapLen then s1.lapWritten src page else s1

/-! ### Reading -/

/-- The words of a list of bytes, from a place on. -/
def wordsFrom : Nat → List Byte → List (Nat × Word)
  | place, a :: b :: c :: d :: t => (place, BitVec.ofNat 32 (leNat [a, b, c, d])) :: wordsFrom (place + 4) t
  | place, [] => let _ := place; []
  | place, l => [(place, BitVec.ofNat 32 (leNat l))]

/-- What a fetch for a place of the lap gives: words for the lap; a read held on a block that waits; an error; or an abort with
ERROR 6. -/
inductive Fetch
  | words (l : List (Nat × Word))
  | held
  | error (code : Nat)
  | abort
deriving DecidableEq, Repr

/-- Fetch the block of claim memory that holds an address of the transfer (R448): from the transfer's first byte in the block to
its end. -/
def State.fetchStm (s : State) (c : Nat) (x : Stream) (place : Nat) : Fetch :=
  let a := x.addr + x.passed + place
  let lo := max (a / 4096 * 4096) (x.addr + x.passed)
  let hi := min (a / 4096 * 4096 + 4096) (x.addr + x.len)
  let m := s.mark c a
  if !s.addrOk c a 4 then .error 1
  else if m.lost then .abort
  else if m.damaged ∨ m.pending.isSome then .held
  else .words (wordsFrom (lo - (x.addr + x.passed)) (s.rdBytes c lo (hi - lo)))

/-- Fetch the slot of the recorder that holds an address of the transfer (R480, R481). -/
def State.fetchRec (s : State) (src : Source) (x : Stream) (place : Nat) : Fetch :=
  let a := (x.addr % 2 ^ 42 + x.passed + place) % 2 ^ 42
  let b := s.slotBytes src (bit x.addr 48) (a / 1024)
  let skip := if place < a % 1024 then a % 1024 - place else 0
  .words (wordsFrom (place + skip - a % 1024) (b.drop skip))

/-- Four bytes of an object, zero beyond its end. -/
def objectWord (obj : List Byte) (off : Nat) : Word := BitVec.ofNat 32 (leNat ((obj.drop off).take 4))

/-- Fetch for a place of the lap. -/
def State.fetch (s : State) (src : Source) (page : Nat) (x : Stream) (place : Nat) : Fetch :=
  let off := x.addr + x.passed + place
  match pageType page with
  | .stm => s.fetchStm (page - Page.STM 0) x place
  | .recorder => s.fetchRec src x place
  | .rol3 => .words [(place, objectWord (s.rol3Object src) off)]
  | .pro =>
    if bit x.addr 47 then .words [(place, s.draw 32)]
    else .words [(place, objectWord (match s.pros.results[off / 512]? with | some r => forecastBytes s.pros.origin r | none => []) (off % 512))]
  | _ => .error 8

/-- A word of the lap is delivered (R445): the lap ends once every word of it has been read. Words fetched beyond the lap stay
for the next one. -/
def State.giveWord (s : State) (src : Source) (page place : Nat) (v : Word) : State :=
  let x := s.stream src page
  let fresh := !x.seen.contains place
  let seen := if fresh then place :: x.seen else x.seen
  let s0 := s.on (fresh && pageType page == .stm) (fun u => u.count64 page Reg.STM.BYTES_OUT_LO 1 4)
  let s1 := (s0.setStream src page { x with seen := seen }).respond src 0 v
  if 4 * seen.length ≠ x.lapLen then s1
  else
    let s2 := s1.wrB src.num page Reg.HDR.STREAM_CHECK (crcMore (s.strm src page Reg.HDR.STREAM_CHECK) x.lapBytes)
    let rest := (x.lap.filter (fun (e : Nat × Word) => decide (4096 ≤ e.1))).map (fun (e : Nat × Word) => (e.1 - 4096, e.2))
    let s3 := s2.setStream src page { x with seen := [], lap := rest, passed := x.passed + x.lapLen }
    if x.len ≤ x.passed + x.lapLen then s3.strmDone src page else s3

/-- What the first read of a place does beside its data: the recorder meets damaged records (R479), a tier counts the block, and
an export takes a free word. -/
def State.fetchEffects (s : State) (src : Source) (page : Nat) (x : Stream) (place : Nat) : State :=
  let off := x.addr + x.passed + place
  match pageType page with
  | .stm =>
    let c := page - Page.STM 0
    let slow := off / 2 ^ 46 == 1
    (s.countRead slow (s.channelOf c slow (off % 2 ^ 46 / 4096)) 1).eccReport slow (s.channelOf c slow (off % 2 ^ 46 / 4096))
  | .recorder => s.meetDamaged (bit x.addr 48) ((x.addr % 2 ^ 42 + x.passed + place) % 2 ^ 42 / 1024)
  | .pro => s.on (bit x.addr 47) (fun u => u.drawn)
  | _ => let _ := src; s

/-- A read of the window (R445, R446): a read held for data completes later or times out. -/
def State.winRead (s : State) (src : Source) (page x : Nat) : State :=
  let t := s.stream src page
  let place := x / 4 * 4
  if t.mode ≠ 2 ∨ t.lapLen < place + 4 then (s.strmFail src page 2).respond src 0 0
  else
    match t.lap.find? (fun (e : Nat × Word) => e.1 == place) with
    | some e => s.giveWord src page place e.2
    | none =>
      match s.fetch src page t place with
      | .words l =>
        let lap := l.foldl (fun (m : List (Nat × Word)) e => Sparse.place e.1 e.2 (Sparse.drop e.1 m)) t.lap
        let s1 := (s.fetchEffects src page t place).setStream src page { t with lap := lap }
        s1.giveWord src page place (Sparse.get (0 : Word) lap place)
      | .held => { s with resp := Sparse.set Resp.none s.resp src.num { status := 4, data := 0, addr := page * 16384 + 0x1000 + place } }
      | .error code =>
        ((s.on (code == 1) (fun u => u.refuseAddr src (page - Page.STM 0) (t.addr + t.passed + place) 0)).strmFail src page code).respond src 0 0
      | .abort => (s.strmFail src page 6).completerAbort src

/-- Reads that were held on a block are tried again: the block may have become SOUND or have been rebuilt (R348). -/
def State.retryReads (s : State) : State :=
  s.each sources (fun u src =>
    let r := Sparse.get Resp.none u.resp src.num
    u.on (r.status == 4) (fun w => w.winRead src (r.addr / 16384) (r.addr % 4096)))

/-! ### The commands -/

/-- Has a page a stream window? -/
def streamPage (page : Nat) : Bool := bit (pageType page).caps 0

/-- A write of STREAM_CTL as a command of its own: on a page without a stream window the word is reserved (R428). -/
def State.modeWrite (s : State) (src : Source) (page mode : Nat) : State :=
  if streamPage page then s.written src page Reg.HDR.STREAM_CTL mode true (fun u => done (u.strmCtl src page mode)) else s

/-- STREAM_WRITE_START (R444): the write of MODE 1. -/
def execStreamWriteStart (src : Source) (page : Nat) (s : State) : Out :=
  perform (.streamWriteStart src page) s (s.modeWrite src (landPage page) 1)

/-- STREAM_READ_START (R444): the write of MODE 2. -/
def execStreamReadStart (src : Source) (page : Nat) (s : State) : Out :=
  perform (.streamReadStart src page) s (s.modeWrite src (landPage page) 2)

/-- STREAM_ABANDON (R447): the write of MODE 0. -/
def execStreamAbandon (src : Source) (page : Nat) (s : State) : Out :=
  perform (.streamAbandon src page) s (s.modeWrite src (landPage page) 0)

/-- A write to a stream window: the right S of Table 11.3, the pair that it closes, and its place. -/
def State.windowWrite (s : State) (src : Source) (page x : Nat) (v : Word) (be : Nat) : State :=
  let s := s.touch src
  if !s.answers src then s.respond src 1 0
  else if !s.mayStream src page then s.forbid src page (0x1000 + x) true
  else (s.breakPair src page).winWrite src page x v be

/-- A read of a stream window. -/
def State.windowRead (s : State) (src : Source) (page x : Nat) : State :=
  let s := s.touch src
  if !s.answers src then s.respond src 1 0
  else if !s.mayStream src page then (s.forbid src page (0x1000 + x) false).respond src 0 0
  else s.winRead src page x

/-- STREAM_READ_TIMEOUT (R446): a read transfer whose data does not come ends with ERROR 4. -/
def execStreamReadTimeout (src : Source) (page : Nat) (s : State) : Out :=
  perform (.streamReadTimeout src page) s
    (if (s.stream src (landPage page)).mode = 2 then (s.strmEnd src (landPage page) 4).completerAbort src else s)

end Sys2Proof.Machine
end

