-- ==== Sys2Proof/Machine/Bus.lean ====
section
/-!
DEFINITION. BAR0 (chapter 12): the decoding of an offset, what each register makes of a write, guarded pairs, complements, bit
aliases, captures, ENABLE and drains.
-/

namespace Sys2Proof.Machine

/-! ### Decoding (R423, R425, R427) -/

/-- What an offset of a page reaches: a word, the complement of one, a place of the stream window, or a bit of a word. -/
inductive Region
  | word (off : Nat)
  | comp (off : Nat)
  | window (x : Nat)
  | bitOf (off b : Nat)
deriving DecidableEq, Repr

/-- The register words and complements of the first 2 KiB, and their alias (Table 12.3). -/
def wordView (off : Nat) : Region :=
  let o := off % 0x800 / 4 * 4
  if o < 0x400 then .word o else .comp (o - 0x400)

/-- The region of a page that an offset reaches (Table 12.3). -/
def viewAt (page off : Nat) : Region :=
  if 0x2000 ≤ off then .bitOf ((off - 0x2000) / 128 * 4) ((off - 0x2000) % 128 / 4)
  else if 0x1000 ≤ off ∧ streamPage page then .window (off - 0x1000)
  else wordView off

/-- The landed page and the offset within it of a BAR0 offset. -/
def addrPage (addr : Nat) : Nat := landPage (addr / 16384 % 4096)
def addrOff (addr : Nat) : Nat := addr % 16384

/-! ### ENABLE (R431, R432, Table 12.7) -/

/-- Is what a draining page must complete complete? -/
def State.drained (s : State) (page : Nat) : Bool :=
  match pageType page with
  | .hoi => s.jobs.all (fun (e : Nat × Job) => !s.inStep e.1)
  | .drf => let p := s.port (page - Page.DRF 0); p.outq.isEmpty && p.unacked.isEmpty
  | .stm => s.streams.all (fun (e : Nat × Stream) => e.1 % 4096 != page || e.2.mode == 0)
  | .pro => s.proState == 0 || s.proState == 4
  | _ => true

/-- The drain of a page completes, if it can: a drift port goes DOWN, and the page reads OFF, or ON where ENABLE was set
meanwhile. -/
def State.finishDrain (s : State) (page : Nat) : State :=
  if s.fn page = 3 ∧ s.drained page then
    (s.on (pageType page == .drf) (fun u => u.dropPort (page - Page.DRF 0))).endDrain page
  else s

/-- ENABLE is cleared on a page in service: DRAINING, and what Table 12.7 says of the page. -/
def State.beginDrain (s : State) (src : Source) (page : Nat) : State :=
  let s1 := s.setFn page 3
  let s2 := match pageType page with
    | .hoi => s1.each ((s1.jobs.filter (fun (e : Nat × Job) => s1.jobState e.1 == jsRunning)).map (fun (e : Nat × Job) => e.1)) (fun u c => u.stopJob src c)
    | .pro => s1.drainPro 2
    | .drf => s1.routesChanged (page - Page.DRF 0)
    | _ => s1
  s2.finishDrain page

/-- A write of CONTROL. -/
def State.controlAct (s : State) (src : Source) (page v : Nat) : State × Bool :=
  let st := s.fn page
  if st = 4 ∨ st = 6 then refusedWrite (s.ignoreWrite src page Reg.HDR.CONTROL v)
  else if !bit (pageType page).caps 1 then
    if bit v 0 then done s else refusedWrite (s.ignoreWrite src page Reg.HDR.CONTROL v)
  else if bit v 0 then
    let s1 := s.wr page Reg.HDR.CONTROL 1
    done (if st = 0 then (s1.setFn page 1).setFn page 2 else s1)
  else
    let s1 := s.wr page Reg.HDR.CONTROL 0
    done (if st = 0 ∨ st = 3 then s1 else s1.beginDrain src page)

/-! ### Words of the header -/

/-- A write of EVT_ENABLE (R433, R458): enabling a latched event sends the port's message. -/
def State.enableAct (s : State) (src : Source) (page v : Nat) : State × Bool :=
  let f := s.rdB src.num page Reg.HDR.EVT_FLAG
  let old := f &&& s.rdB src.num page Reg.HDR.EVT_ENABLE
  let new := f &&& v
  let s1 := s.wrB src.num page Reg.HDR.EVT_ENABLE v
  done (s1.on (src != .monitor && (new &&& old) != new) (fun u => u.sendMsi src.num (vectorOf page)))

/-- A W1C write: the source's own events, or the flags of a register. -/
def State.clearAct (s : State) (src : Source) (page off v : Nat) : State × Bool :=
  let k := if off = Reg.HDR.EVT_FLAG then src.num else 0
  let w := s.rdB k page off
  done (s.wrB k page off (w - (w &&& v)))

/-! ### MON.BAUD (R541) -/

/-- A rate comes into force: event 1 and 0xB011. -/
def State.setBaud (s : State) (src : Source) (rate : Nat) : State :=
  let old := s.rd Page.MON Reg.MON.BAUD
  if old = rate then s
  else ((s.wr Page.MON Reg.MON.BAUD rate).raise Page.MON 1).record 0xB011 Src.monitor none (items [old, rate, src.num])

/-- A write of BAUD: at once where no command runs, otherwise after the response in progress. A command of the monitor runs while it
waits for a signature, and while it writes the register itself. -/
def State.baudAct (s : State) (src : Source) (v : Nat) : State × Bool :=
  if s.mon.login.isSome ∨ src = .monitor then done { s with mon := { s.mon with baudNext := some (bits v 21 0, src) } }
  else done (s.setBaud src (bits v 21 0))

/-- The response in progress has been sent: a rate that waited comes into force. -/
def State.takeBaud (s : State) : State :=
  match s.mon.baudNext with
  | some (rate, src) => ({ s with mon := { s.mon with baudNext := none } } : State).setBaud src rate
  | none => s

/-! ### What registers make of writes -/

/-- The writable bits of a word. -/
def writeMask (page off : Nat) : Nat := match findRow (pageType page) off with | some r => r.mask | none => 0

/-- A write to an RW, W1C or WO word. Words without behaviour of their own take the writable bits; the others act as their
chapter says. -/
def State.wordAct (s : State) (src : Source) (page off v : Nat) : State × Bool :=
  let plain : State × Bool :=
    let k := s.bankFor src page off
    let m := writeMask page off
    let w := s.rdB k (keptOn page off) off
    done (s.wrB k (keptOn page off) off (w - (w &&& m) + (v &&& m)))
  if accOf page off = .w1c then s.clearAct src page off v
  else if off = Reg.HDR.CONTROL then s.controlAct src page v
  else if off = Reg.HDR.EVT_ENABLE then s.enableAct src page v
  else if off = Reg.HDR.STREAM_CTL then done (s.strmCtl src page v)
  else if off < 0x40 then plain
  else
    match pageType page with
    | .hoi => if off = Reg.HOI.JOB_CMD then s.jobCmdAct src v else plain
    | .pro => if off = Reg.PRO.FC_CMD then s.fcCmdAct v else plain
    | .rol =>
      if off = Reg.ROL.SESS_REQ then s.sessReqAct src v
      else if off = Reg.ROL.SESS_PROVE then s.sessProveAct src v
      else if off = Reg.ROL.SESS_END then s.sessEndAct src v
      else plain
    | .rol3 => if off = Reg.ROL3.ATTEST_REQ then s.attestReqAct src v else plain
    | .dep => if off = Reg.DEP.STAGE_CMD then s.stageCmdAct v else plain
    | .mon => if off = Reg.MON.BAUD then s.baudAct src v else plain
    | _ => plain

/-- A completed pair on an RWG register. -/
def State.pairAct (s : State) (src : Source) (page off v : Nat) : State × Bool :=
  let n := page - (pageType page).base
  match pageType page with
  | .dev => if off = Reg.DEV.RESET then s.deviceResetAct src v else s.prospectClearAct src v
  | .tal => s.tallySetAct src v
  | .hp => s.bindSetAct n v
  | .rol3 =>
    if off = Reg.ROL3.INST_ENROL then s.instEnrolAct src v
    else if off = Reg.ROL3.MAKER_GATE then s.makerGateAct v
    else if off = Reg.ROL3.DIAG_OPEN then s.diagOpenAct src v
    else if off = Reg.ROL3.IDE_KEY_COMMIT then s.ideCommitAct src v
    else s.ideRequireAct v
  | .ftc => s.chanRetireAct false n v
  | .mil => s.chanRetireAct true n v
  | .drf => if off = Reg.DRF.PORT_DISABLE then s.portDisableAct n v else s.laneRetireAct n v
  | .cas =>
    if off = Reg.CAS.ROSTER_COMMIT then s.rosterCommitAct src v
    else if off = Reg.CAS.HEAD_MOVE then s.headMoveAct src v
    else s.memberEvictAct src v
  | .hoi => if off = Reg.HOI.ABORT then s.abortAct src v else s.gridSetAct src v
  | .int =>
    if off = Reg.INT.STOPE_RETIRE then s.stopeRetireAct src v
    else if off = Reg.INT.STOPE_TEST then s.stopeTestAct src v
    else if off = Reg.INT.FULL_TEST then s.fullTestAct src v
    else if off = Reg.INT.CANARY_COMMIT then s.canaryCommitAct src v
    else if off = Reg.INT.CANARY_REMOVE then s.canaryRemoveAct src v
    else s.captureReleaseAct src v
  | .asy => s.assayForceAct src v
  | .pwr =>
    if off = Reg.PWR.GOV_BUDGET then done (s.wr Page.PWR off (bits v 11 0)).recompute
    else if off = Reg.PWR.INPUT_LIMIT then done (s.wr Page.PWR off (bits v 11 0)).recompute
    else if off = Reg.PWR.CONV_RETIRE then s.convRetireAct v
    else if off = Reg.PWR.PHASE_RETIRE then s.phaseRetireAct v
    else s.tripClearAct v
  | .dep =>
    if off = Reg.DEP.FW_COMMIT then s.fwCommitAct v
    else if off = Reg.DEP.FW_REVERT then s.fwRevertAct v
    else s.fuseBurnAct v
  | .clm =>
    if off = Reg.CLM.APPLY then s.applyAct n v
    else if off = Reg.CLM.BIND then s.bindAct src n v
    else if off = Reg.CLM.CLAIM_CMD then s.claimCmdAct n v
    else s.volatileAct n v
  | _ => refusedWrite s

/-! ### Writes -/

/-- A write to a word by its access code (Table 0.6, Table 12.13), with no pair open; the number tells what became of it. -/
def State.writeWord (s : State) (src : Source) (page off v : Nat) : State × Nat :=
  match accOf page off with
  | .ro => (s.forbid src page off true, 2)
  | .rl => (s, 4)
  | .rsv => (s, 4)
  | .rwg =>
    if s.mayGuard src page off v then
      ({ s with pairs := Sparse.place (srcPage src page) { off := off, val := BitVec.ofNat 32 v, opened := s.osc } s.pairs }, 0)
    else (s.forbid src page off true, 2)
  | .rw => s.tryWritten src page off v true (fun u => u.wordAct src page off v)
  | _ => s.tryWritten src page off v false (fun u => u.wordAct src page off v)

/-- A write to a bit alias (R440). Of STREAM_CTL the bits [9:4] are read-only fields; other bits that no field holds are
ignored. -/
def State.writeBit (s : State) (src : Source) (page off b v : Nat) : State × Nat :=
  match accOf page off with
  | .rw =>
    if off = Reg.HDR.STREAM_CTL ∧ 4 ≤ b ∧ b ≤ 9 then (s.forbid src page off true, 2)
    else if !bit (writeMask page off) b then (s, 4)
    else
      let w := s.rdB (s.bankFor src page off) (keptOn page off) off
      s.tryWritten src page off (putBits w b b (v % 2)) true (fun u => u.wordAct src page off (putBits w b b (v % 2)))
  | .w1c => if v % 2 = 1 then s.tryWritten src page off (2 ^ b) false (fun u => u.wordAct src page off (2 ^ b)) else (s, 0)
  | .rsv => (s, 4)
  | _ => (s.forbid src page off true, 2)

/-- A write handled on its own, with no pair open (R434, R436, R437). -/
def State.writeAlone (s : State) (src : Source) (page : Nat) (w : Region) (v : Word) (be : Nat) : State × Nat :=
  match w with
  | .window x => (s.windowWrite src page x v be, 0)
  | .comp o =>
    if be ≠ 15 then (s.accessRec src 0x0104 page (0x400 + o) (items [be]), 4)
    else if accOf page o = .rwg then (s.guardFail src page o 5 v.toNat, 4)
    else (s.accessRec src 0x0102 page (0x400 + o) (items [v.toNat]), 4)
  | .word o =>
    if be ≠ 15 then (s.accessRec src 0x0104 page o (items [be]), 4) else s.writeWord src page o v.toNat
  | .bitOf o b =>
    if be ≠ 15 then (s.accessRec src 0x0104 page o (items [be]), 4) else s.writeBit src page o b v.toNat

/-- Is a half, or a write, within the session's rights (R438)? Only a write to a register that can be written at all is judged:
the others have outcomes of their own. -/
def State.halfAllowed (s : State) (src : Source) (page : Nat) (w : Region) (v : Word) : Bool :=
  match w with
  | .window _ => s.mayStream src page
  | .comp o => accOf page o != .rwg || s.mayGuard src page o (~~~v).toNat
  | .word o =>
    match accOf page o with
    | .rwg => s.mayGuard src page o v.toNat
    | .rw => s.mayWrite src page o v.toNat
    | .wo => s.mayWrite src page o v.toNat
    | .w1c => s.mayWrite src page o v.toNat
    | _ => true
  | .bitOf o _ =>
    match accOf page o with
    | .rw => s.mayWrite src page o (s.rdB (s.bankFor src page o) page o)
    | .w1c => s.mayWrite src page o 0
    | _ => true

/-- The outcome of a forbidden write: a claim view in an operator session is ignored without a record (Table 11.4). -/
def State.forbidHalf (s : State) (src : Source) (page : Nat) (w : Region) : State × Nat :=
  match w with
  | .window x => (s.forbid src page (0x1000 + x) true, 2)
  | .comp o => (s.forbid src page (0x400 + o) true, 2)
  | .word o => if claimViewReg page o && s.roleOf src == 1 then (s, 4) else (s.forbid src page o true, 2)
  | .bitOf o b => if claimViewReg page o && s.roleOf src == 1 then (s, 4) else (s.forbid src page (0x2000 + o * 32 + b * 4) true, 2)

/-- A write at a view of a page: a forbidden half touches no pair; the write that follows an open pair closes it, and completes
it where it is the complement of its value at its offset within 1 µs; otherwise the pair is discarded and the write stands
alone. -/
def State.writeAt (s : State) (src : Source) (page : Nat) (w : Region) (v : Word) (be : Nat) : State × Nat :=
  if !s.halfAllowed src page w v then s.forbidHalf src page w
  else
    match s.openPair src page with
    | none => s.writeAlone src page w v be
    | some p =>
      let s1 := s.dropPair src page
      let late := decide (p.opened + 1000 < s.osc)
      if w = .comp p.off ∧ be = 15 ∧ v = ~~~p.val ∧ !late then
        s1.tryGuarded src page p.off p.val.toNat (fun u => u.pairAct src page p.off p.val.toNat)
      else
        let cause := if late then 4 else if w = .comp p.off then 3 else 2
        (s1.guardFail src page p.off cause p.val.toNat).writeAlone src page w v be

/-- Does an address lie beyond the 64 MiB of BAR0 (R423)? A request there is one to unimplemented BAR space (R455). -/
def beyondBar0 (addr : Nat) : Bool := decide (0x4000000 ≤ addr)

/-- A write of a source to BAR0 and what became of it: beyond BAR0 Unsupported Request (R455). -/
def State.tryWrite (s : State) (src : Source) (addr : Nat) (v : Word) (be : Nat) : State × Nat :=
  let s := s.touch src
  if !s.answers src || beyondBar0 addr then (s.respond src 1 0, 4)
  else s.writeAt src (addrPage addr) (viewAt (addrPage addr) (addrOff addr)) v (be % 16)

/-- A write of a source to BAR0. -/
def State.busWrite (s : State) (src : Source) (addr : Nat) (v : Word) (be : Nat) : State := (s.tryWrite src addr v be).1

/-! ### Reads (R436, R439, R441) -/

/-- The live 64 bits of a quantity whose low word stands at an offset. -/
def State.live64 (s : State) (src : Source) (page off : Nat) : Nat :=
  s.liveWord src page off + 2 ^ 32 * s.liveWord src page (off + 4)

/-- The word that a read of an offset returns: of an RL word the captured half, where the capture names its low word. -/
def State.readValue (s : State) (src : Source) (page off : Nat) : Nat :=
  match (s.caps.find? (fun (e : Nat × Capture) => e.1 == src.num)).map (·.2) with
  | some c => if accOf page off = .rl ∧ c.page = page ∧ c.off + 4 = off then c.val / 2 ^ 32 else s.liveWord src page off
  | none => s.liveWord src page off

/-- A read of a low word captures all 64 bits. -/
def State.capture (s : State) (src : Source) (page off : Nat) : State :=
  if accOf page off ≠ .rl ∧ accOf page (off + 4) = .rl then
    { s with caps := Sparse.place src.num { page := page, off := off, val := s.live64 src page off } (Sparse.drop src.num s.caps) }
  else s

/-- A permitted read at a view: the value, and the state with its side effects. -/
def State.readAt (s : State) (src : Source) (page : Nat) (w : Region) : State × Nat :=
  match w with
  | .window _ => (s, 0)
  | .word o => ((s.capture src page o).on (freeWord page o) (fun u => u.drawn), s.readValue src page o % 2 ^ 32)
  | .comp o => (s.on (freeWord page o) (fun u => u.drawn), 2 ^ 32 - 1 - s.readValue src page o % 2 ^ 32)
  | .bitOf o b => (s.on (freeWord page o) (fun u => u.drawn), bits (s.liveWord src page o) b b)

/-- The word that a view reads. -/
def Region.off : Region → Nat
  | .word o => o
  | .comp o => o
  | .window x => 0x1000 + x
  | .bitOf o _ => o

/-- A read of a source that is not one of a stream window: what it returns, none where it lies outside the session's rights. -/
def State.tryRead (s : State) (src : Source) (addr : Nat) : State × Option Nat :=
  let page := addrPage addr
  let w := viewAt page (addrOff addr)
  if accOf page w.off ≠ .rsv ∧ !s.mayRead src page w.off then (s.forbid src page w.off false, none)
  else ((s.readAt src page w).1, some (s.readAt src page w).2)

/-- A read of a source to BAR0 (R449: a forbidden read returns zero). -/
def State.busRead (s : State) (src : Source) (addr : Nat) : State :=
  let page := addrPage addr
  if beyondBar0 addr then (s.touch src).respond src 1 0
  else match viewAt page (addrOff addr) with
  | .window x => s.windowRead src page x
  | _ =>
    let s := s.touch src
    if !s.answers src then s.respond src 1 0
    else
      let r := s.tryRead src addr
      r.1.respond src 0 (BitVec.ofNat 32 (r.2.getD 0))

/-! ### The commands -/

/-- REGISTER_WRITE (R9, R427, R434, R449): a write with its byte enables to any offset of BAR0. -/
def execRegisterWrite (src : Source) (addr : Nat) (v : Word) (be : Nat) (s : State) : Out :=
  perform (.registerWrite src addr v be) s (s.busWrite src addr v be)

/-- GUARD_PAIR_OPEN (R437): the first half of a pair. -/
def execGuardPairOpen (src : Source) (addr : Nat) (v : Word) (s : State) : Out :=
  perform (.guardPairOpen src addr v) s (s.busWrite src addr v 15)

/-- GUARD_PAIR_TIMEOUT (R437): the microsecond of an open pair ends. -/
def execGuardPairTimeout (src : Source) (page : Nat) (s : State) : Out :=
  perform (.guardPairTimeout src page) s
    (let q := landPage page
    match s.openPair src q with
    | none => s
    | some p => (s.dropPair src q).guardFail src q p.off 1 p.val.toNat)

/-- COMPLEMENT_WRITE (R436). -/
def execComplementWrite (src : Source) (addr : Nat) (v : Word) (s : State) : Out :=
  perform (.complementWrite src addr v) s (s.busWrite src addr v 15)

/-- ENABLE_CLEAR (R432). -/
def execEnableClear (src : Source) (page : Nat) (s : State) : Out :=
  perform (.enableClear src page) s
    (s.written src (landPage page) Reg.HDR.CONTROL 0 true (fun u => u.controlAct src (landPage page) 0))

/-- ENABLE_SET (R432). -/
def execEnableSet (src : Source) (page : Nat) (s : State) : Out :=
  perform (.enableSet src page) s
    (s.written src (landPage page) Reg.HDR.CONTROL 1 true (fun u => u.controlAct src (landPage page) 1))

/-- DRAIN_COMPLETE (R432). -/
def execDrainComplete (page : Nat) (s : State) : Out := perform (.drainComplete page) s (s.finishDrain (landPage page))

/-- EVT_FLAG_CLEAR (R433). -/
def execEvtFlagClear (src : Source) (page : Nat) (v : Word) (s : State) : Out :=
  perform (.evtFlagClear src page v) s
    (s.written src (landPage page) Reg.HDR.EVT_FLAG v.toNat false (fun u => u.clearAct src (landPage page) Reg.HDR.EVT_FLAG v.toNat))

/-- CAPTURE_READ (R441): a read, which captures where the word is the low half of a 64-bit quantity. -/
def execCaptureRead (src : Source) (addr : Nat) (s : State) : Out :=
  perform (.captureRead src addr) s (s.busRead src addr)

/-- BIT_ALIAS_WRITE (R440). -/
def execBitAliasWrite (src : Source) (addr : Nat) (v : Word) (s : State) : Out :=
  perform (.bitAliasWrite src addr v) s (s.busWrite src addr v 15)

/-- BAR0 offset of a stream window's word. -/
def windowAddr (page x : Nat) : Nat := page * 16384 + 0x1000 + x % 4096

/-- STREAM_WINDOW_WRITE (R445): on a page without a window the address is one of a register (Table 12.3). -/
def execStreamWindowWrite (src : Source) (page x : Nat) (v : Word) (be : Nat) (s : State) : Out :=
  perform (.streamWindowWrite src page x v be) s
    (if streamPage (landPage page) then s.windowWrite src (landPage page) (x % 4096) v (be % 16) else s.busWrite src (windowAddr page x) v be)

/-- STREAM_WINDOW_READ (R445). -/
def execStreamWindowRead (src : Source) (page x : Nat) (s : State) : Out :=
  perform (.streamWindowRead src page x) s
    (if streamPage (landPage page) then s.windowRead src (landPage page) (x % 4096) else s.busRead src (windowAddr page x))

end Sys2Proof.Machine
end

