-- ==== Sys2Proof/Machine/Notices.lean ====
section
/-!
DEFINITION. Notices and held reads (R342, R348 to R350): SOUND releases the blocks that a notice names, UNSOUND discards them, and
a host read of a block that waits completes or aborts.
-/

namespace Sys2Proof.Machine

/-- The blocks of a notice that the member holds in its generation: none where the epoch is not the member's (R349). -/
def State.noticed (s : State) (n : Notice) : List Nat :=
  match s.job? (n.claim % 64) with
  | none => []
  | some j =>
    if n.epoch ≠ s.epoch ∨ 64 ≤ n.claim then []
    else
      let base := (j.view n.claim n.tensor n.inst).base
      ((List.range (min n.count 65536)).map (fun i => base + 4096 * (n.first + i))).filter (fun a =>
        (s.mark n.claim a).pending == some n.gen)

/-- Set what the blocks of a notice wait for. Released or discarded, they give back their landing credits, and blocks that waited
for these land (R351). -/
def State.notice (s : State) (n : Notice) (p : Option Nat) : State :=
  let gone := s.noticed n
  ((s.each gone (fun u a => u.setMark n.claim a { u.mark n.claim a with pending := p })).meshDrop (fun q =>
    q.kind == 3 && q.claim == n.claim && q.phase == 2 && gone.contains (q.tag.headD 0))).landHeld

/-- A SOUND notice: its blocks are released, and RECVs and held reads that waited for them go on. -/
def State.soundNotice (s : State) (n : Notice) : State :=
  if s.noticed n = [] then s else ((s.notice n none).tryRecvs n.claim).retryReads

/-- An UNSOUND notice: its blocks are discarded where they landed, and the recomputed ones (GEN 1) are awaited (R350). -/
def State.unsoundArrives (s : State) (n : Notice) : State :=
  let base := match s.job? (n.claim % 64) with | some j => (j.view n.claim n.tensor n.inst).base | none => 0
  let gone := (s.noticed n).map (fun a => (a - base) / 4096)
  if gone = [] then s
  else
    (s.notice n (some 1)).modJob n.claim (fun j => { j with
      landed := j.landed.filter (fun (x : Nat × Nat) => !(gone.contains x.2 && (match j.entries[x.1]? with
        | some h => h.action == 6 && h.a == n.tensor && h.mb == n.inst
        | none => false))) })

/-- NOTICE_SOUND (R349). -/
def execNoticeSound (n : Notice) (s : State) : Out := perform (.noticeSound n) s (s.soundNotice n)

/-- NOTICE_UNSOUND (R350). -/
def execNoticeUnsound (n : Notice) (s : State) : Out := perform (.noticeUnsound n) s (s.unsoundArrives n)

/-- A host read still held after 40 µs: Completer Abort and event 0x7013; the transfer ends with ERROR 4 (R446). -/
def State.abortHeld (s : State) (src : Source) : State :=
  let r := Sparse.get Resp.none s.resp src.num
  if r.status ≠ 4 then s
  else
    let page := r.addr / 16384
    ((s.recordBy src 0x7013 Src.deputy (some (page - Page.STM 0)) (items [src.num, r.addr])).strmEnd src page 4).completerAbort src

/-- PENDING_READ_ABORT (R348). -/
def execPendingReadAbort (src : Source) (s : State) : Out := perform (.pendingReadAbort src) s (s.abortHeld src)

/-- A damaged block has been rebuilt (R342): it is counted and recorded, and reads that waited for it go on. -/
def State.rebuilt (s : State) (c addr : Nat) : State :=
  let b := addr / 4096 * 4096
  let m := s.mark c b
  if !m.damaged || !m.rebuild then s
  else
    let s1 := (s.settleBlock c b).count Page.INT Reg.INT.BLOCKS_REBUILT 5 1
    (s1.record 0x7004 (if addr / 2 ^ 46 = 1 then Src.mill 0 else Src.fast 0) (some c) (items [b, s.contentClass c b])).retryReads

/-- REBUILD_DONE (R342). -/
def execRebuildDone (c addr : Nat) (s : State) : Out := perform (.rebuildDone c addr) s (s.rebuilt c addr)

end Sys2Proof.Machine
end

