-- ==== Sys2Proof/Machine/Monitor.lean ====
section
/-!
DEFINITION. Bobel, the monitor's command program (chapter 17): lines, sessions, the commands that read and write pages as source
2, breaks and alerts. A command is one step: no other source comes between its accesses (log 44). A response is the list of
values that it prints; the value 2^32 stands for a word outside the rights, and for an empty slot of `log`.
-/

namespace Sys2Proof.Machine

/-! ### Responses (R544) -/

/-- Text that Bobel prints with no status line: a nonce, an alert or a fresh prompt. -/
def State.print (s : State) (values : List Nat) : State :=
  let p : Printed := { values := values, err := 255, role := s.roleOf .monitor, claim := s.sessClaim .monitor }
  { s with mon := { s.mon with out := s.mon.out ++ [p] } }

/-- A response with its status line and the prompt that follows: an `err` counts in REJECTED, and a rate that waited for the end of
the response comes into force. -/
def State.reply (s : State) (values : List Nat) (err : Nat) : State :=
  let p : Printed := { values := values, err := err, role := s.roleOf .monitor, claim := s.sessClaim .monitor }
  let s1 := ({ s with mon := { s.mon with out := s.mon.out ++ [p] } } : State)
  (s1.on (err != 0) (fun u => u.count Page.MON Reg.MON.REJECTED 3 1)).takeBaud

/-- An `err` of a command that prints nothing else. -/
abbrev State.replyErr (s : State) (err : Nat) : State := s.reply [] err

/-! ### Lines (R541, R543) -/

/-- A line arrives: one of over 200 characters, with an overrun or a framing error is rejected with error 7. -/
def State.line (s : State) (chars : Nat) (overrun framing : Bool) : State :=
  let s1 := s.count Page.MON Reg.MON.LINES 0 1
  let s2 := s1.on framing (fun u => u.count Page.MON Reg.MON.FRAMING 1 1)
  let s3 := s2.on overrun (fun u => u.count Page.MON Reg.MON.OVERRUNS 2 (max 1 (chars - 1024)))
  let cause := if overrun then 2 else if framing then 3 else if 200 < chars then 1 else 0
  if cause = 0 then s3
  else ((s3.raise Page.MON 0).record 0xB010 Src.monitor none (items [cause])).replyErr 7

/-- COMMAND_LINE (R543). -/
def execCommandLine (chars : Nat) (overrun framing : Bool) (s : State) : Out :=
  perform (.commandLine chars overrun framing) s (s.line chars overrun framing)

/-! ### Accesses of source 2 (R547) -/

/-- BAR0 offset of a word. -/
def wordAddr (page off : Nat) : Nat := page * 16384 + off

/-- A read of one word: none outside the rights. A word of a stream window is taken from the transfer. -/
def State.monWord (s : State) (addr : Nat) : State × Option Nat :=
  let page := addrPage addr
  match viewAt page (addrOff addr) with
  | .window x =>
    let u := s.windowRead .monitor page x
    (u, if s.mayStream .monitor page then some (Sparse.get Resp.none u.resp 2).data.toNat else none)
  | _ => (s.touch .monitor).tryRead .monitor addr

/-- Reads of words in order. -/
def State.monWords : List Nat → State → State × List (Option Nat)
  | [], s => (s, [])
  | a :: t, s =>
    let r := s.monWord a
    let q := State.monWords t r.1
    (q.1, r.2 :: q.2)

/-- The response of a command that reads words. -/
def State.replyWords (s : State) (addrs : List Nat) : State :=
  let r := State.monWords addrs s
  r.1.reply (r.2.map (fun v => v.getD (2 ^ 32))) (if r.2.any (fun v => v.isNone) then 2 else 0)

/-- Both halves of a pair as consecutive writes (R548); 0, or the error of the response. -/
def State.monPair (s : State) (page off v : Nat) : State × Nat :=
  let w := BitVec.ofNat 32 v
  let r := s.tryWrite .monitor (wordAddr page off) w 15
  if r.2 ≠ 0 then r else r.1.tryWrite .monitor (wordAddr page (0x400 + off)) (~~~w) 15

/-- A selection that a command writes first (R550). -/
def State.monSelect (s : State) (page off v : Nat) : State := (s.tryWrite .monitor (wordAddr page off) (BitVec.ofNat 32 v) 15).1

/-- Does the monitor hold an installer or a maker session? -/
def State.monService (s : State) : Bool := s.roleOf .monitor == 2 || s.roleOf .monitor == 3

/-- A command of Table 17.2 for installer and maker sessions. -/
def State.service (s : State) (f : State → State) : State := if s.monService then f s else s.replyErr 2

/-- A command whose numbers name units that the module has, or not (`ok`): the spec gives no response for a number that names none,
so its error code is a free value (log 86). -/
def State.typed (s : State) (ok : Bool) (f : State → State) : State := if ok then f s else s.drawn.replyErr (s.draw 3).toNat

/-- An action of R549: its guarded pair, and `ok` or the error. -/
def State.action (s : State) (ok : Bool) (page off v : Nat) : State :=
  s.service (fun u => u.typed ok (fun w =>
    let r := w.monPair page off v
    r.1.replyErr r.2))

/-! ### help, ver, who -/

/-- HELP (R547): the names of the thirteen commands (0), or the syntax of one. -/
def execHelp (command : Nat) (s : State) : Out :=
  perform (.help command) s
    (if command = 0 then s.reply ((List.range 13).map (· + 1)) 0
    else if command ≤ 13 then s.reply [command] 0
    else s.replyErr 1)

/-- The report that `ver` requests (R409): Bobel draws a nonce and stages it as kind 0. -/
def State.monReport (s : State) : State :=
  let nonce := leBytes 48 (s.draw 384).toNat
  let s1 := s.drawn.wrB 2 (Page.ROL 3) Reg.ROL3.STAGE_KIND 0
  let s2 := { s1 with vault := { s1.vault with stagedObj := Sparse.set [] s1.vault.stagedObj 16 nonce } }
  ((s2.attestReqAct .monitor 1).1).attestSign .monitor

/-- VER (R547): FW_VERSION, ROM_VERSION, FW_STATE, IDENTITY and MEMBER of the report, DEV.STATUS, and DEV.BRINGUP in an installer
or maker session. -/
def execVer (s : State) : Out :=
  perform .ver s
    (let u := (s.touch .monitor).monReport
    let b := Sparse.get [] u.vault.reports 2
    let f (off n : Nat) : Nat := leNat ((b.drop off).take n)
    u.reply ([f 0xE0 8, f 0xE8 4, f 0xEC 4, f 0x50 48, f 0x144 2, u.liveWord .monitor Page.DEV Reg.HDR.STATUS]
      ++ (if u.monService then [u.liveWord .monitor Page.DEV Reg.DEV.BRINGUP] else [])) 0)

/-- WHO (R547): SESS_STATE of ROL 0 to ROL 2. -/
def execWho (s : State) : Out :=
  perform .who s (s.replyWords ((List.range 3).map (fun i => wordAddr (Page.ROL i) Reg.ROL.SESS_STATE)))

/-! ### login (R545) -/

/-- LOGIN (R545): SESS_REQ is written and the nonce printed; for a maker the chain has been read first and begins the proof. -/
def State.loginAs (s : State) (role : Role) (claim : Nat) (chain : List Byte) : State :=
  if role = .none then s.replyErr 1
  else
    let r := s.tryWrite .monitor (wordAddr (Page.ROL 2) Reg.ROL.SESS_REQ) (BitVec.ofNat 32 (role.code + (if role = .operator then claim * 256 else 0))) 15
    if r.2 ≠ 0 then r.1.replyErr r.2
    else
      let proof := if role = .maker then chain else []
      let s1 := r.1.setStream .monitor (Page.ROL 2) { Stream.idle with object := proof }
      let s2 := { s1 with mon := { s1.mon with login := some (role.code, claim, s1.osc) } }
      s2.print ((List.range 12).map (fun i => s2.rd (Page.ROL 2) (Reg.ROL.NONCE + 4 * i)))

/-- LOGIN (R545). -/
def execLogin (role : Role) (claim : Nat) (chain : List Byte) (s : State) : Out :=
  perform (.login role claim chain) s (s.typed (role != .operator || decide (claim < 64)) (fun u => u.loginAs role claim chain))

/-- The 96 bytes of a signature complete the proof, and SESS_PROVE is written: `ok` in the session that opens, otherwise `err 2`
and no session. -/
def State.signature (s : State) (sig : List Byte) : State :=
  if s.mon.login.isNone ∨ sig.length < 96 then s
  else
    let x := s.stream .monitor (Page.ROL 2)
    let s1 := s.setStream .monitor (Page.ROL 2) { x with object := x.object ++ sig.take 96 }
    let s2 := (s1.tryWrite .monitor (wordAddr (Page.ROL 2) Reg.ROL.SESS_PROVE) 1 15).1
    let s3 := { s2 with mon := { s2.mon with login := none } }
    s3.replyErr (if s3.roleOf .monitor = 0 then 2 else 0)

/-- LOGIN_SIGNATURE (R545). -/
def execLoginSignature (sig : List Byte) (s : State) : Out := perform (.loginSignature sig) s (s.signature sig)

/-- LOGIN_TIMEOUT (R545): 60 s pass without a signature. -/
def execLoginTimeout (s : State) : Out :=
  perform .loginTimeout s
    (if s.mon.login.isNone then s else ({ s with mon := { s.mon with login := none } } : State).replyErr 6)

/-- LOGIN_END (R545): a write of 1 to ROL 2.SESS_END. -/
def execLoginEnd (s : State) : Out :=
  perform .loginEnd s
    (let r := s.tryWrite .monitor (wordAddr (Page.ROL 2) Reg.ROL.SESS_END) 1 15
    r.1.replyErr r.2)

/-! ### peek, poke, log -/

/-- Words in ascending order of which some lie beyond BAR0: those within it are read, the others and the error code are free values
(log 86). -/
def State.replyBeyond (s : State) (addrs : List Nat) : State :=
  let r := State.monWords (addrs.filter (fun a => decide (a < 0x4000000))) s
  let free := (addrs.filter (fun a => decide (0x4000000 ≤ a))).map (fun a => (r.1.draw 32).toNat + 0 * a)
  r.1.drawn.reply (r.2.map (fun v => v.getD (2 ^ 32)) ++ free) (r.1.draw 3).toNat

/-- PEEK (R547, R548): n words in ascending order. -/
def execPeek (addr n : Nat) (s : State) : Out :=
  perform (.peek addr n) s
    (s.typed (decide (1 ≤ n) && decide (n ≤ 64)) (fun u =>
      let addrs := (List.range n).map (fun i => addr / 4 * 4 + 4 * i)
      if addrs.all (fun a => decide (a < 0x4000000)) then u.replyWords addrs else u.replyBeyond addrs))

/-- `poke` (R548): two tokens for a register that is not RWG; a value and its complement for one that is. -/
def State.pokeWord (s : State) (addr : Nat) (v : Word) (complement : Option Word) : State :=
  let page := addrPage addr
  match viewAt page (addrOff addr), complement with
  | .word o, some c =>
    if accOf page o ≠ .rwg ∨ c ≠ ~~~v then s.replyErr 3
    else
      let r := s.monPair page o v.toNat
      r.1.replyErr r.2
  | .word o, none =>
    if accOf page o = .rwg then s.replyErr 3
    else
      let r := s.tryWrite .monitor addr v 15
      r.1.replyErr r.2
  | _, some _ => s.replyErr 3
  | _, none =>
    let r := s.tryWrite .monitor addr v 15
    r.1.replyErr r.2

/-- POKE (R548); an operator session may not poke (R546). -/
def execPoke (addr : Nat) (v : Word) (complement : Option Word) (s : State) : Out :=
  perform (.poke addr v complement) s (if s.roleOf .monitor = 1 then s.replyErr 2 else s.typed (decide (addr < 0x4000000)) (fun u => u.pokeWord addr v complement))

/-- One record as `log` prints it: SEQ and the bytes that the slot holds, or SEQ and the mark of an empty slot. -/
def State.logged (s : State) (sec : Bool) (seq : Nat) : List Nat :=
  let b := s.slotBytes .monitor sec seq
  let len := leNat (b.take 2)
  if len = 0 then [seq, 2 ^ 32] else seq :: (b.take len).map (·.toNat)

/-- LOG (R547): n records up to LAST_SEQ, or from a sequence number. -/
def execLog (seq : Option Nat) (n : Nat) (sec : Bool) (s : State) : Out :=
  perform (.log seq n sec) s
    (s.service (fun u => u.typed (decide (1 ≤ n) && decide (n ≤ 64) && decide (seq.getD 0 < 2 ^ 32)) (fun w =>
      let first := match seq with | some q => q | none => w.rd Page.REC Reg.REC.LAST_SEQ + 1 + 2 ^ 32 - n
      let seqs := (List.range n).map (fun i => (first + i) % 2 ^ 32)
      (w.each seqs (fun x q => x.meetDamaged sec q)).reply (seqs.flatMap (fun q => w.logged sec q)) 0)))

/-! ### Views of the module -/

/-- TALLY (R547). -/
def execTally (s : State) : Out :=
  perform .tally s
    (s.service (fun u => u.replyWords ([Reg.HDR.STATUS, Reg.TAL.TALLY_LO, Reg.TAL.TALLY_LO + 4, Reg.TAL.OFFSET, Reg.TAL.FREQ_ADJ, Reg.TAL.UPSTREAM,
      Reg.TAL.AGREE_BOUND].map (wordAddr Page.TAL))))

/-- ASSAY (R547, R550): the selection is written first. -/
def execAssay (p k : Nat) (s : State) : Out :=
  perform (.assay p k) s
    (s.service (fun w => w.typed (decide (p < 1056) && decide (k < 17)) (fun u => (u.monSelect Page.ASY Reg.ASY.SELECT (p + k * 2 ^ 16)).replyWords
      ([Reg.ASY.STOPE_UPKEEP, Reg.ASY.STOPE_TEMP, Reg.ASY.STOPE_AGEING, Reg.ASY.SEAM_UPKEEP, Reg.ASY.SEAM_DRIFT].map (wordAddr Page.ASY)))))

/-- MON_ASSAY_FORCE (R549). -/
def execMonAssayForce (p : Nat) (s : State) : Out :=
  perform (.monAssayForce p) s (s.action (decide (p < 1056)) Page.ASY Reg.ASY.ASSAY_FORCE (p + 2 ^ 16))

/-- Pack slots with PACK_ID and VERSION, and TEST_TIME: each slot is selected in turn. -/
def State.listPacks : List Nat → State → State × List (Option Nat)
  | [], s => s.monWords [wordAddr Page.INT Reg.INT.TEST_TIME]
  | k :: t, s =>
    let r := State.monWords [wordAddr Page.INT Reg.INT.PACK_ID, wordAddr Page.INT Reg.INT.PACK_VERSION] (s.monSelect Page.INT Reg.INT.PACK_SELECT k)
    let q := State.listPacks t r.1
    (q.1, some k :: r.2 ++ q.2)

/-- CANARY (R547). -/
def execCanary (s : State) : Out :=
  perform .canary s
    (s.service (fun u =>
      let r := State.listPacks (0 :: u.packs.map (fun (e : Nat × Pack) => e.1)) u
      r.1.reply (r.2.map (fun v => v.getD (2 ^ 32))) (if r.2.any (fun v => v.isNone) then 2 else 0)))

/-- MON_CANARY_TEST (R549). -/
def execMonCanaryTest (p : Nat) (s : State) : Out :=
  perform (.monCanaryTest p) s (s.action (decide (p < 1056)) Page.INT Reg.INT.STOPE_TEST (p + 2 ^ 16))

/-- STOPE (R547): an installer's selection of SNS is written too; a maker may not write it and is shown the stope that it names. -/
def execStope (p : Nat) (s : State) : Out :=
  perform (.stope p) s
    (s.service (fun v => v.typed (decide (p < 1056)) (fun u =>
      let u1 := (u.monSelect Page.INT Reg.INT.STOPE_SELECT p).on (u.roleOf .monitor == 2) (fun w => w.monSelect Page.SNS Reg.SNS.STOPE_SELECT p)
      u1.replyWords [wordAddr (Page.STX p) Reg.HDR.STATUS, wordAddr (Page.STX p) Reg.STX.STOPE_ROLE, wordAddr Page.INT Reg.INT.STOPE_INTEG,
        wordAddr Page.INT Reg.INT.STOPE_LAST_FAIL, wordAddr Page.SNS Reg.SNS.STOPE_AVG])))

/-- MON_STOPE_RETIRE (R549). -/
def execMonStopeRetire (p : Nat) (s : State) : Out :=
  perform (.monStopeRetire p) s (s.action (decide (p < 1056)) Page.INT Reg.INT.STOPE_RETIRE (p + 2 ^ 16))

/-- DRIFT (R547): one port or all. -/
def execDrift (port : Option Nat) (s : State) : Out :=
  perform (.drift port) s
    (s.service (fun w => w.typed (decide (port.getD 0 < 12)) (fun u => u.replyWords ((match port with | some n => [n] | none => List.range 12).flatMap (fun n =>
      [Reg.DRF.PORT_STATE, Reg.DRF.LANE_MAP, Reg.DRF.EYE_A, Reg.DRF.EYE_B, Reg.DRF.FEC_UNCORR, Reg.DRF.RETRIES].map (wordAddr (Page.DRF n)))))))

/-- MON_DRIFT_DISABLE (R549). -/
def execMonDriftDisable (port : Nat) (s : State) : Out :=
  perform (.monDriftDisable port) s (s.action (decide (port < 12)) (Page.DRF port) Reg.DRF.PORT_DISABLE 1)

/-- MON_DRIFT_ENABLE (R549). -/
def execMonDriftEnable (port : Nat) (s : State) : Out :=
  perform (.monDriftEnable port) s (s.action (decide (port < 12)) (Page.DRF port) Reg.DRF.PORT_DISABLE 0)

/-- POWER (R547): for the installer INPUT_P as well. -/
def execPower (s : State) : Out :=
  perform .power s
    (s.service (fun u => u.replyWords ([Reg.PWR.INPUT_STATE, Reg.PWR.INPUT_P_1S, Reg.PWR.BUDGET_IN_FORCE, Reg.PWR.CAPACITY, Reg.PWR.CONV_MAP,
      Reg.PWR.PHASES_FAILED].map (wordAddr Page.PWR) ++ [wordAddr Page.SNS Reg.SNS.HOT_STOPE]
        ++ (if u.roleOf .monitor = 2 then [wordAddr Page.PWR Reg.PWR.INPUT_P] else []))))

/-- MON_POWER_BUDGET (R549). -/
def execMonPowerBudget (w : Nat) (s : State) : Out :=
  perform (.monPowerBudget w) s (s.action (decide (w < 2 ^ 32)) Page.PWR Reg.PWR.GOV_BUDGET w)

/-! ### Break, rate, alerts -/

/-- BREAK (R542): 115,200 baud, any partial line and command discarded, the session ended, a fresh prompt. -/
def execBreakCond (s : State) : Out :=
  perform .breakCond s
    (let ended := if s.roleOf .monitor = 0 then 0 else 1
    let s1 := ({ s with mon := { s.mon with login := none, baudNext := none } }.endSession .monitor 1).setBaud .monitor 115200
    ((s1.raise Page.MON 2).record 0xB012 Src.monitor none (items [ended])).print [])

/-- BAUD (R541): the write of MON.BAUD; one that the monitor's own `poke` makes waits for its response. -/
def execBaud (src : Source) (v : Word) (s : State) : Out :=
  perform (.baud src v) s
    (let u := s.written src Page.MON Reg.MON.BAUD v.toNat true (fun u => u.baudAct src v.toNat)
    u.on (src == .monitor && u.mon.login.isNone) (fun w => w.takeBaud))

/-- What a page has to announce (R551): its enabled events, at most once a second, and a FAULT that has not been announced. -/
def State.announcePage (s : State) (page : Nat) : State :=
  let flag := s.rdB 2 page Reg.HDR.EVT_FLAG
  let soon := match s.mon.alerts.find? (fun (e : Nat × Nat) => e.1 == page) with
    | some e => decide (s.osc < e.2 + 1000000000)
    | none => false
  let events := (flag &&& s.rdB 2 page Reg.HDR.EVT_ENABLE) != 0 && !soon
  let fault := s.fn page == 4 && !s.mon.shown.any (fun (e : Nat × Nat) => e.1 == page)
  let s1 := s.on events (fun u =>
    ({ u with mon := { u.mon with alerts := Sparse.place page u.osc (Sparse.drop page u.mon.alerts) } } : State).print [page, flag])
  let s2 := s1.on fault (fun u =>
    ({ u with mon := { u.mon with shown := Sparse.place page u.osc (Sparse.drop page u.mon.shown) } } : State).print [page])
  s2.on (s2.fn page != 4) (fun u => { u with mon := { u.mon with shown := Sparse.drop page u.mon.shown } })

/-- ALERT (R551): between responses only, and while CONFIG.ALERTS is 1. -/
def execAlert (page : Nat) (s : State) : Out :=
  perform (.alert page) s
    (if s.mon.login.isSome ∨ !bit (s.rd Page.MON Reg.MON.CONFIG) 1 then s else s.announcePage (landPage page))

end Sys2Proof.Machine
end

