-- ==== Sys2Proof/Machine/Dispatch.lean ====
section
/-! DEFINITION. The meaning of each command: one arm per constructor, each a direct call. -/

namespace Sys2Proof.Machine

/-- The effect of a command on everything but the queue. -/
def exec (i : Instr) (s : State) : Host.Outcome State Fault Refusal :=
  match i with
  | .idle c e => Sys2Proof.Machine.execIdle c e s
  | .idleEnd c e => Sys2Proof.Machine.execIdleEnd c e s
  | .seamPass c e => Sys2Proof.Machine.execSeamPass c e s
  | .vectorRead p k => Sys2Proof.Machine.execVectorRead p k s
  | .vectorReadDone p k codes => Sys2Proof.Machine.execVectorReadDone p k codes s
  | .splitPartRead p k codes => Sys2Proof.Machine.execSplitPartRead p k codes s
  | .chainPartial c layer cb rb vec => Sys2Proof.Machine.execChainPartial c layer cb rb vec s
  | .headCollarOutput c layer cb vec dupOk => Sys2Proof.Machine.execHeadCollarOutput c layer cb vec dupOk s
  | .rangeRecheck c layer cb vec => Sys2Proof.Machine.execRangeRecheck c layer cb vec s
  | .zeroVector p k => Sys2Proof.Machine.execZeroVector p k s
  | .stashWrite c layer mb => Sys2Proof.Machine.execStashWrite c layer mb s
  | .spillComplete c layer mb => Sys2Proof.Machine.execSpillComplete c layer mb s
  | .recomputeRun c mb => Sys2Proof.Machine.execRecomputeRun c mb s
  | .hewDx c e => Sys2Proof.Machine.execHewDx c e s
  | .hewDw c e => Sys2Proof.Machine.execHewDw c e s
  | .tileStart p => Sys2Proof.Machine.execTileStart p s
  | .leafEnd p dev dupOk => Sys2Proof.Machine.execLeafEnd p dev dupOk s
  | .partRootArrival c e part => Sys2Proof.Machine.execPartRootArrival c e part s
  | .tileDrain p dupOk => Sys2Proof.Machine.execTileDrain p dupOk s
  | .hewerReliefTile c layer cb rb vec => Sys2Proof.Machine.execHewerReliefTile c layer cb rb vec s
  | .wideOp c e prog checkOk => Sys2Proof.Machine.execWideOp c e prog checkOk s
  | .send c e => Sys2Proof.Machine.execSend c e s
  | .recv c e => Sys2Proof.Machine.execRecv c e s
  | .reduce c e words => Sys2Proof.Machine.execReduce c e words s
  | .millPush c e => Sys2Proof.Machine.execMillPush c e s
  | .pushAccept c set => Sys2Proof.Machine.execPushAccept c set s
  | .setUpdate agree => Sys2Proof.Machine.execSetUpdate agree s
  | .bridgeBlock c addr fails => Sys2Proof.Machine.execBridgeBlock c addr fails s
  | .verdictArrival member mask => Sys2Proof.Machine.execVerdictArrival member mask s
  | .decisionHold mask after => Sys2Proof.Machine.execDecisionHold mask after s
  | .decisionReceive mask after => Sys2Proof.Machine.execDecisionReceive mask after s
  | .assaySlot c e => Sys2Proof.Machine.execAssaySlot c e s
  | .assaySlotEnd c e => Sys2Proof.Machine.execAssaySlotEnd c e s
  | .testSlot c e => Sys2Proof.Machine.execTestSlot c e s
  | .testSlotEnd c e ends => Sys2Proof.Machine.execTestSlotEnd c e ends s
  | .probeStep c => Sys2Proof.Machine.execProbeStep c s
  | .load src => Sys2Proof.Machine.execLoad src s
  | .start src => Sys2Proof.Machine.execStart src s
  | .jobRunBegin c => Sys2Proof.Machine.execJobRunBegin c s
  | .stop src => Sys2Proof.Machine.execStop src s
  | .swap src => Sys2Proof.Machine.execSwap src s
  | .unload src => Sys2Proof.Machine.execUnload src s
  | .abort src v => Sys2Proof.Machine.execAbort src v s
  | .govWindow vcore icore => Sys2Proof.Machine.execGovWindow vcore icore s
  | .tallyMarker port value epoch hops refSource delay tagOk => Sys2Proof.Machine.execTallyMarker port value epoch hops refSource delay tagOk s
  | .refPpsEdge err => Sys2Proof.Machine.execRefPpsEdge err s
  | .refClkReject ppm => Sys2Proof.Machine.execRefClkReject ppm s
  | .tallySet src v => Sys2Proof.Machine.execTallySet src v s
  | .gridSet src v => Sys2Proof.Machine.execGridSet src v s
  | .queueWindow slow depths busiest => Sys2Proof.Machine.execQueueWindow slow depths busiest s
  | .migrateStripe slow => Sys2Proof.Machine.execMigrateStripe slow s
  | .chanRetire src stack v => Sys2Proof.Machine.execChanRetire src stack v s
  | .slowStackRetire src page v => Sys2Proof.Machine.execSlowStackRetire src page v s
  | .blockArrival way c addr fails => Sys2Proof.Machine.execBlockArrival way c addr fails s
  | .scrubRead c addr fails => Sys2Proof.Machine.execScrubRead c addr fails s
  | .rebuildDone c addr => Sys2Proof.Machine.execRebuildDone c addr s
  | .scrubPassEnd slow => Sys2Proof.Machine.execScrubPassEnd slow s
  | .resync c step => Sys2Proof.Machine.execResync c step s
  | .freezeDone c => Sys2Proof.Machine.execFreezeDone c s
  | .ckptSendDone c => Sys2Proof.Machine.execCkptSendDone c s
  | .writeListBlock lp k => Sys2Proof.Machine.execWriteListBlock lp k s
  | .seamQuiet lp k => Sys2Proof.Machine.execSeamQuiet lp k s
  | .writeRowSide p k row neg before after more => Sys2Proof.Machine.execWriteRowSide p k row neg before after more s
  | .reliefCopyDone p window => Sys2Proof.Machine.execReliefCopyDone p window s
  | .driftProbe p k group sum => Sys2Proof.Machine.execDriftProbe p k group sum s
  | .assayDue p temp => Sys2Proof.Machine.execAssayDue p temp s
  | .assayOverdue p => Sys2Proof.Machine.execAssayOverdue p s
  | .assayForce src v => Sys2Proof.Machine.execAssayForce src v s
  | .arrayAssay p k => Sys2Proof.Machine.execArrayAssay p k s
  | .arrayAssayDone p k meas => Sys2Proof.Machine.execArrayAssayDone p k meas s
  | .writeEffortReplan p k => Sys2Proof.Machine.execWriteEffortReplan p k s
  | .laneFail port lane cause => Sys2Proof.Machine.execLaneFail port lane cause s
  | .eyeMeasure port lane eye => Sys2Proof.Machine.execEyeMeasure port lane eye s
  | .laneRetrain port lane eye held => Sys2Proof.Machine.execLaneRetrain port lane eye held s
  | .laneRetire src port v => Sys2Proof.Machine.execLaneRetire src port v s
  | .tubReceive port tub => Sys2Proof.Machine.execTubReceive port tub s
  | .retry port lseq => Sys2Proof.Machine.execRetry port lseq s
  | .ackTimeout port => Sys2Proof.Machine.execAckTimeout port s
  | .messageReceive port m => Sys2Proof.Machine.execMessageReceive port m s
  | .staleRoleReply port r mseq => Sys2Proof.Machine.execStaleRoleReply port r mseq s
  | .noticeSound n => Sys2Proof.Machine.execNoticeSound n s
  | .noticeUnsound n => Sys2Proof.Machine.execNoticeUnsound n s
  | .rosterCommit src v => Sys2Proof.Machine.execRosterCommit src v s
  | .rosterReceive port bytes => Sys2Proof.Machine.execRosterReceive port bytes s
  | .linkTrained port lanes => Sys2Proof.Machine.execLinkTrained port lanes s
  | .hello port h => Sys2Proof.Machine.execHello port h s
  | .authTimeout port => Sys2Proof.Machine.execAuthTimeout port s
  | .quarantineRetry port => Sys2Proof.Machine.execQuarantineRetry port s
  | .candidate k => Sys2Proof.Machine.execCandidate k s
  | .join member identity content => Sys2Proof.Machine.execJoin member identity content s
  | .admitMember member cascade epoch tallyNow stateEpoch roles routes period origin sealW => Sys2Proof.Machine.execAdmitMember member cascade epoch tallyNow stateEpoch roles routes period origin sealW s
  | .refuse reason => Sys2Proof.Machine.execRefuse reason s
  | .standbyTakeover answers => Sys2Proof.Machine.execStandbyTakeover answers s
  | .headMove src v => Sys2Proof.Machine.execHeadMove src v s
  | .routeTable version routes => Sys2Proof.Machine.execRouteTable version routes s
  | .roleUpdate roles atTally => Sys2Proof.Machine.execRoleUpdate roles atTally s
  | .portDown port => Sys2Proof.Machine.execPortDown port s
  | .uncorrWindow port count => Sys2Proof.Machine.execUncorrWindow port count s
  | .portDisable src port v => Sys2Proof.Machine.execPortDisable src port v s
  | .memberEvict src v => Sys2Proof.Machine.execMemberEvict src v s
  | .restart job step => Sys2Proof.Machine.execRestart job step s
  | .imageFetchDone c base => Sys2Proof.Machine.execImageFetchDone c base s
  | .pendingReadAbort src => Sys2Proof.Machine.execPendingReadAbort src s
  | .watchWindowEnd p => Sys2Proof.Machine.execWatchWindowEnd p s
  | .testDue p => Sys2Proof.Machine.execTestDue p s
  | .testOverdue p => Sys2Proof.Machine.execTestOverdue p s
  | .reliefPrep p target testOk => Sys2Proof.Machine.execReliefPrep p target testOk s
  | .reliefPrepDone p => Sys2Proof.Machine.execReliefPrepDone p s
  | .stopeRetire src v => Sys2Proof.Machine.execStopeRetire src v s
  | .stopeTest src v => Sys2Proof.Machine.execStopeTest src v s
  | .fullTest src v => Sys2Proof.Machine.execFullTest src v s
  | .canaryCommit src v => Sys2Proof.Machine.execCanaryCommit src v s
  | .canaryRemove src v => Sys2Proof.Machine.execCanaryRemove src v s
  | .captureRelease src v => Sys2Proof.Machine.execCaptureRelease src v s
  | .heartbeatLoss p => Sys2Proof.Machine.execHeartbeatLoss p s
  | .coreTakeover lockstep => Sys2Proof.Machine.execCoreTakeover lockstep s
  | .routerTakeover p => Sys2Proof.Machine.execRouterTakeover p s
  | .apply src n v => Sys2Proof.Machine.execApply src n v s
  | .stripeFillDone n => Sys2Proof.Machine.execStripeFillDone n s
  | .bind src n v => Sys2Proof.Machine.execBind src n v s
  | .destroy src n v => Sys2Proof.Machine.execDestroy src n v s
  | .unbind src n v => Sys2Proof.Machine.execUnbind src n v s
  | .wipe src n v => Sys2Proof.Machine.execWipe src n v s
  | .clearDone n => Sys2Proof.Machine.execClearDone n s
  | .volatile src n v => Sys2Proof.Machine.execVolatile src n v s
  | .sessReq src v => Sys2Proof.Machine.execSessReq src v s
  | .sessProve src v => Sys2Proof.Machine.execSessProve src v s
  | .sessEnd src v => Sys2Proof.Machine.execSessEnd src v s
  | .sessionIdle src => Sys2Proof.Machine.execSessionIdle src s
  | .blockedEnd src => Sys2Proof.Machine.execBlockedEnd src s
  | .instEnrol src v => Sys2Proof.Machine.execInstEnrol src v s
  | .instWithdraw src v => Sys2Proof.Machine.execInstWithdraw src v s
  | .attestReq src v => Sys2Proof.Machine.execAttestReq src v s
  | .attestReady src => Sys2Proof.Machine.execAttestReady src s
  | .makerGate src v => Sys2Proof.Machine.execMakerGate src v s
  | .diagOpen src v => Sys2Proof.Machine.execDiagOpen src v s
  | .consentExpiry claim => Sys2Proof.Machine.execConsentExpiry claim s
  | .ideKeyCommit src v => Sys2Proof.Machine.execIdeKeyCommit src v s
  | .ideRequire src v => Sys2Proof.Machine.execIdeRequire src v s
  | .stageBegin src v => Sys2Proof.Machine.execStageBegin src v s
  | .stageDiscard src v => Sys2Proof.Machine.execStageDiscard src v s
  | .fwCommit src v => Sys2Proof.Machine.execFwCommit src v s
  | .flashWriteDone retries => Sys2Proof.Machine.execFlashWriteDone retries s
  | .fwRevert src v => Sys2Proof.Machine.execFwRevert src v s
  | .fuseBurn src v => Sys2Proof.Machine.execFuseBurn src v s
  | .registerWrite src addr v be => Sys2Proof.Machine.execRegisterWrite src addr v be s
  | .guardPairOpen src addr v => Sys2Proof.Machine.execGuardPairOpen src addr v s
  | .guardPairTimeout src page => Sys2Proof.Machine.execGuardPairTimeout src page s
  | .complementWrite src addr v => Sys2Proof.Machine.execComplementWrite src addr v s
  | .enableClear src page => Sys2Proof.Machine.execEnableClear src page s
  | .enableSet src page => Sys2Proof.Machine.execEnableSet src page s
  | .drainComplete page => Sys2Proof.Machine.execDrainComplete page s
  | .evtFlagClear src page v => Sys2Proof.Machine.execEvtFlagClear src page v s
  | .captureRead src addr => Sys2Proof.Machine.execCaptureRead src addr s
  | .bitAliasWrite src addr v => Sys2Proof.Machine.execBitAliasWrite src addr v s
  | .streamWriteStart src page => Sys2Proof.Machine.execStreamWriteStart src page s
  | .streamReadStart src page => Sys2Proof.Machine.execStreamReadStart src page s
  | .streamAbandon src page => Sys2Proof.Machine.execStreamAbandon src page s
  | .streamWindowWrite src page x v be => Sys2Proof.Machine.execStreamWindowWrite src page x v be s
  | .streamWindowRead src page x => Sys2Proof.Machine.execStreamWindowRead src page x s
  | .streamReadTimeout src page => Sys2Proof.Machine.execStreamReadTimeout src page s
  | .perst port => Sys2Proof.Machine.execPerst port s
  | .hotReset port => Sys2Proof.Machine.execHotReset port s
  | .functionLevelReset port => Sys2Proof.Machine.execFunctionLevelReset port s
  | .linkUp port speed width flit => Sys2Proof.Machine.execLinkUp port speed width flit s
  | .hostLost port => Sys2Proof.Machine.execHostLost port s
  | .d3hotEntry port => Sys2Proof.Machine.execD3hotEntry port s
  | .d0Return port => Sys2Proof.Machine.execD0Return port s
  | .unsupportedRequest port kind addr => Sys2Proof.Machine.execUnsupportedRequest port kind addr s
  | .msiHoldoffEnd port vec => Sys2Proof.Machine.execMsiHoldoffEnd port vec s
  | .bindSet src port v => Sys2Proof.Machine.execBindSet src port v s
  | .ideFail port sub => Sys2Proof.Machine.execIdeFail port sub s
  | .inputStateChange mv => Sys2Proof.Machine.execInputStateChange mv s
  | .inputOver mv => Sys2Proof.Machine.execInputOver mv s
  | .powerFail mv draw => Sys2Proof.Machine.execPowerFail mv draw s
  | .convFail k cause => Sys2Proof.Machine.execConvFail k cause s
  | .convRetire src v => Sys2Proof.Machine.execConvRetire src v s
  | .spareRotate k lowEfficiency => Sys2Proof.Machine.execSpareRotate k lowEfficiency s
  | .phaseFail k cause => Sys2Proof.Machine.execPhaseFail k cause s
  | .phaseRetire src v => Sys2Proof.Machine.execPhaseRetire src v s
  | .sensorInvalid p ch => Sys2Proof.Machine.execSensorInvalid p ch s
  | .sensorValid p ch => Sys2Proof.Machine.execSensorValid p ch s
  | .mainsWindow r => Sys2Proof.Machine.execMainsWindow r s
  | .thermalWarn cls inst temp => Sys2Proof.Machine.execThermalWarn cls inst temp s
  | .thermalClamp cls inst temp => Sys2Proof.Machine.execThermalClamp cls inst temp s
  | .thermalTrip cls inst temp => Sys2Proof.Machine.execThermalTrip cls inst temp s
  | .tripClear src v => Sys2Proof.Machine.execTripClear src v s
  | .govBudget src v => Sys2Proof.Machine.execGovBudget src v s
  | .inputLimit src v => Sys2Proof.Machine.execInputLimit src v s
  | .bringupStep ms imageOk => Sys2Proof.Machine.execBringupStep ms imageOk s
  | .recoveryImage image => Sys2Proof.Machine.execRecoveryImage image s
  | .deviceReset src v => Sys2Proof.Machine.execDeviceReset src v s
  | .prospectClear src v => Sys2Proof.Machine.execProspectClear src v s
  | .seriesRecord r => Sys2Proof.Machine.execSeriesRecord r s
  | .fcCmd src v => Sys2Proof.Machine.execFcCmd src v s
  | .forecastDone values => Sys2Proof.Machine.execForecastDone values s
  | .commandLine chars overrun framing => Sys2Proof.Machine.execCommandLine chars overrun framing s
  | .help command => Sys2Proof.Machine.execHelp command s
  | .login role claim chain => Sys2Proof.Machine.execLogin role claim chain s
  | .loginSignature sig => Sys2Proof.Machine.execLoginSignature sig s
  | .peek addr n => Sys2Proof.Machine.execPeek addr n s
  | .poke addr v complement => Sys2Proof.Machine.execPoke addr v complement s
  | .log seq n sec => Sys2Proof.Machine.execLog seq n sec s
  | .assay p k => Sys2Proof.Machine.execAssay p k s
  | .monAssayForce p => Sys2Proof.Machine.execMonAssayForce p s
  | .monCanaryTest p => Sys2Proof.Machine.execMonCanaryTest p s
  | .stope p => Sys2Proof.Machine.execStope p s
  | .monStopeRetire p => Sys2Proof.Machine.execMonStopeRetire p s
  | .drift port => Sys2Proof.Machine.execDrift port s
  | .monDriftDisable port => Sys2Proof.Machine.execMonDriftDisable port s
  | .monDriftEnable port => Sys2Proof.Machine.execMonDriftEnable port s
  | .monPowerBudget w => Sys2Proof.Machine.execMonPowerBudget w s
  | .baud src v => Sys2Proof.Machine.execBaud src v s
  | .alert page => Sys2Proof.Machine.execAlert page s
  | .testComplete p failed => Sys2Proof.Machine.execTestComplete p failed s
  | .linkDown port => Sys2Proof.Machine.execLinkDown port s
  | .perstRelease port => Sys2Proof.Machine.execPerstRelease port s
  | .thermalClampEnd cls inst temp => Sys2Proof.Machine.execThermalClampEnd cls inst temp s
  | .bringupStepLate unit => Sys2Proof.Machine.execBringupStepLate unit s
  | .sealLaunch => Sys2Proof.Machine.execSealLaunch s
  | .verdict => Sys2Proof.Machine.execVerdict s
  | .verdictDeadline => Sys2Proof.Machine.execVerdictDeadline s
  | .decisionAck => Sys2Proof.Machine.execDecisionAck s
  | .decisionDeadline => Sys2Proof.Machine.execDecisionDeadline s
  | .sealCommit => Sys2Proof.Machine.execSealCommit s
  | .markerSend => Sys2Proof.Machine.execMarkerSend s
  | .markerLoss => Sys2Proof.Machine.execMarkerLoss s
  | .ppsMissing => Sys2Proof.Machine.execPpsMissing s
  | .tallyStore => Sys2Proof.Machine.execTallyStore s
  | .gridTakesEffect => Sys2Proof.Machine.execGridTakesEffect s
  | .ageingCopy => Sys2Proof.Machine.execAgeingCopy s
  | .headframeElect => Sys2Proof.Machine.execHeadframeElect s
  | .joinRetry => Sys2Proof.Machine.execJoinRetry s
  | .fwVerify => Sys2Proof.Machine.execFwVerify s
  | .standbyBooted => Sys2Proof.Machine.execStandbyBooted s
  | .standbyBootTimeout => Sys2Proof.Machine.execStandbyBootTimeout s
  | .pairCurrent => Sys2Proof.Machine.execPairCurrent s
  | .probationEnd => Sys2Proof.Machine.execProbationEnd s
  | .recordAdmit => Sys2Proof.Machine.execRecordAdmit s
  | .archiveSegment => Sys2Proof.Machine.execArchiveSegment s
  | .powerOn => Sys2Proof.Machine.execPowerOn s
  | .recoveryAsk => Sys2Proof.Machine.execRecoveryAsk s
  | .ver => Sys2Proof.Machine.execVer s
  | .who => Sys2Proof.Machine.execWho s
  | .loginTimeout => Sys2Proof.Machine.execLoginTimeout s
  | .loginEnd => Sys2Proof.Machine.execLoginEnd s
  | .tally => Sys2Proof.Machine.execTally s
  | .canary => Sys2Proof.Machine.execCanary s
  | .power => Sys2Proof.Machine.execPower s
  | .breakCond => Sys2Proof.Machine.execBreakCond s
  | .inputOverEnd => Sys2Proof.Machine.execInputOverEnd s

end Sys2Proof.Machine
end

