-- ==== Sys2Proof/Safety.lean ====
section
/-!
DEFINITION. What counts as a safe run, in the terms that statements use: the data that is held sparsely stays in its one
canonical form; and when a command, a guarded pair or a register write reaches its own rule.
-/

namespace Sys2Proof.Machine

/-- Claim memory lists addresses in strictly rising order and no byte that reads zero. -/
def Memory.wf (m : List Host.Cell) : Bool := Sparse.wf (fun _ => (0 : Byte)) m

/-- The register file lists words in strictly rising order and none at its reset value. -/
def Registers.wf (r : List (Nat × Word)) : Bool := Sparse.wf resetWord r

/-- The invariant of every run: memory and the register file are canonical. -/
abbrev State.Canonical (s : State) : Prop := Memory.wf s.mem = true ∧ Registers.wf s.regs = true

/-! ### When a command takes effect -/

/-- The module has power, and the command names units that it has (R15). -/
abbrev ready (i : Instr) (s : State) : Prop := s.powered = true ∧ wellFormed i = true

/-- A guarded pair of value v reaches the register's own rule: the source's port answers, the session has the right, and the
value holds no reserved encoding (R437, R385, R11). -/
abbrev guardOpen (s : State) (src : Source) (page off v : Nat) : Prop :=
  (s.touch src).answers src = true ∧ (s.touch src).mayGuard src page off v = true ∧ (s.touch src).encOk page off v = true

/-- The same for a write of an RW, W1C or WO register. -/
abbrev writeOpen (s : State) (src : Source) (page off v : Nat) : Prop :=
  (s.touch src).answers src = true ∧ (s.touch src).mayWrite src page off v = true ∧ (s.touch src).encOk page off v = true

/-- The state that the register's rule sees: the session's idle time restarted, another pair open on the page discarded. -/
def ruleSees (s : State) (src : Source) (page : Nat) : State := (s.touch src).breakPair src page

/-- What completes a guarded pair whose rule gave `x`: the record of R416, and the completion. -/
def guardDone (s : State) (src : Source) (page off v : Nat) (x : State) : State :=
  (x.config (ruleSees s src page) src page off ((ruleSees s src page).rd page off) v).respond src 0 0

/-- What completes a write that R416 does not record. -/
def writeDone (x : State) (src : Source) : State := x.respond src 0 0

end Sys2Proof.Machine
end

