-- ==== Sys2Proof/Certificates/Slice0/Obligations.lean ====
section
/-!
DEFINITION. What the model claims of the AQT-9600 AI module, in the terms of its meanings: statements for the provers.

Statements whose names end in `Complete` say of every command of a family where it completes: under conditions on the state
and the operands alone, exec answers the next state that the rules give. That state is written with the shared operations
of Machine/ applied to `s`, so it says the command's whole result and, by what those operations leave alone (Laws/), that
nothing else changes.
-/

section

open Sys2Proof Sys2Proof.Machine

/-! ### Power and thermal limits (chapter 15) -/

/-- INPUT_STATE_CHANGE, POWER_FAIL, INPUT_OVER, INPUT_OVER_END, POWER_ON, MAINS_WINDOW (R489, R490, R503, R518): a new state
of the input shows in INPUT_STATE[2:0] with event 0 and record 0x9001, and the ceiling follows; a failing input is final;
without the input the module has no power until it returns. -/
def Obligations.InputComplete : Prop :=
  (∀ (mv new : Nat) (s : State), ready (.inputStateChange mv) s → inputStateOf mv = some new →
    let old := s.fld Page.PWR Reg.PWR.INPUT_STATE 2 0
    old ≠ new → old ≠ 3 →
    exec (.inputStateChange mv) s = .next (((((s.modPwr (fun x => { x with mv := mv })).setFld Page.PWR Reg.PWR.INPUT_STATE 2 0 new).raise
      Page.PWR 0).record 0x9001 Src.deputy none (items [old, new, mv])).recompute)) ∧
  (∀ (mv draw : Nat) (s : State), ready (.powerFail mv draw) s → s.pwr.failed = false →
    exec (.powerFail mv draw) s = .next (s.powerFails mv draw)) ∧
  (∀ (mv : Nat) (s : State), ready (.inputOver mv) s →
    ∃ t, exec (.inputOver mv) s = .next t ∧ t.powered = false ∧ t.pwr.stage1Off = true ∧ t.pwr.mv = mv) ∧
  (∀ s : State, s.pwr.stage1Off = true → exec .inputOverEnd s = .next (s.applyInput 80000)) ∧
  (∀ s : State, s.powered = false →
    ∃ t, exec .powerOn s = .next t ∧ t.powered = true ∧ t.boot.began = s.osc ∧ t.pwr.mv = 72000) ∧
  (∀ (r : MainsReading) (s : State), ready (.mainsWindow r) s → exec (.mainsWindow r) s = .next (s.mainsEnds r))

/-- CONV_FAIL, CONV_RETIRE, SPARE_ROTATE, PHASE_FAIL, PHASE_RETIRE (R493, R494, R497): a loaded converter that fails is marked
in CONV_MAP and the spare takes its load; with eleven working converters a loaded one changes places with the spare; a
phase fails and its band's spare takes its row. With fewer than eight working converters the member is lost (R496). -/
def Obligations.StagesComplete : Prop :=
  (∀ (k : Nat) (cause : StageCause) (s : State), ready (.convFail k cause) s →
    let m := s.rd Page.PWR Reg.PWR.CONV_MAP
    let sp := bits m 27 24
    bit m k = false → bit m (12 + k) = true → sp < 12 →
    let m2 := putBits (putBits (putBits (putBits m k k 1) (12 + k) (12 + k) 0) (12 + sp) (12 + sp) 1) 27 24 15
    let u := ((((s.wr Page.PWR Reg.PWR.CONV_MAP m2).count Page.PWR Reg.PWR.STAGE_FAULTS 1 1).raise Page.PWR 2).record 0x9004
      (Src.power k) none (items [k, causeNo cause, sp])).recompute
    exec (.convFail k cause) s = .next ((u.on (decide (u.working < 8)) (fun w => (w.setFn Page.PWR 4).clampOn clampCapacity)).lostBelow s)) ∧
  (∀ (src : Source) (v : Word) (s : State), ready (.convRetire src v) s → guardOpen s src Page.PWR Reg.PWR.CONV_RETIRE v.toNat →
    bit v.toNat 8 = true → bits v.toNat 3 0 ≤ 11 →
    exec (.convRetire src v) s = .next (guardDone s src Page.PWR Reg.PWR.CONV_RETIRE v.toNat
      (((ruleSees s src Page.PWR).convFails (bits v.toNat 3 0) .retired).lostBelow (ruleSees s src Page.PWR)))) ∧
  (∀ (k : Nat) (low : Bool) (s : State), ready (.spareRotate k low) s →
    let m := s.rd Page.PWR Reg.PWR.CONV_MAP
    let sp := bits m 27 24
    bit m k = false → bit m (12 + k) = true → 11 ≤ s.working → sp ≤ 11 → (low = true ∨ s.mostHours k = true) →
    exec (.spareRotate k low) s = .next (((s.wr Page.PWR Reg.PWR.CONV_MAP
      (putBits (putBits (putBits m (12 + k) (12 + k) 0) (12 + sp) (12 + sp) 1) 27 24 k)).replan
      (Src.power k) 6 k (if low then 1 else 0) sp k).recompute)) ∧
  (∀ (k : Nat) (cause : StageCause) (s : State), ready (.phaseFail k cause) s → s.phase k ≠ 1000 →
    exec (.phaseFail k cause) s = .next (s.phaseFails k cause)) ∧
  (∀ (src : Source) (v : Word) (s : State), ready (.phaseRetire src v) s → guardOpen s src Page.PWR Reg.PWR.PHASE_RETIRE v.toNat →
    bit v.toNat 8 = true → bits v.toNat 6 0 ≤ 101 →
    exec (.phaseRetire src v) s = .next (guardDone s src Page.PWR Reg.PWR.PHASE_RETIRE v.toNat
      ((ruleSees s src Page.PWR).phaseFails (bits v.toNat 6 0) .retired)))

/-- SENSOR_INVALID, SENSOR_VALID, THERMAL_WARN, THERMAL_CLAMP, THERMAL_CLAMP_END, THERMAL_TRIP, TRIP_CLEAR, GOV_BUDGET,
INPUT_LIMIT (R495, R501, R506, R509): a channel's bit follows its validity; a sensor that passes its threshold changes state,
counts and is recorded, a stope's clamp holds that stope and another's the module; a trip ends with an accepted pair. -/
def Obligations.ThermalComplete : Prop :=
  (∀ (p ch : Nat) (s : State), ready (.sensorInvalid p ch) s → bit (s.stope p).invalid ch = false →
    bits ((s.stope p).invalid + 2 ^ ch) 1 0 ≠ 3 →
    ∃ t, exec (.sensorInvalid p ch) s = .next t ∧ (t.stope p).invalid = (s.stope p).invalid + 2 ^ ch) ∧
  (∀ (p ch : Nat) (s : State), ready (.sensorValid p ch) s → bit (s.stope p).invalid ch = true →
    ∃ t, exec (.sensorValid p ch) s = .next t ∧ (t.stope p).invalid = (s.stope p).invalid - 2 ^ ch) ∧
  (∀ (cls inst : Nat) (temp : Int) (s : State), ready (.thermalWarn cls inst temp) s →
    (s.sensor cls inst).2.1 = 0 → s.warnAt cls < temp →
    exec (.thermalWarn cls inst temp) s = .next ((((s.setSensor cls inst temp 1 0).count Page.SNS Reg.SNS.THERM_EVENTS 1 1).raise
      Page.SNS 0).recordThermal cls inst 1 temp)) ∧
  (∀ (cls inst c : Nat) (temp : Int) (s : State), ready (.thermalClamp cls inst temp) s →
    (thresholds cls).2.1 = some c → (s.sensor cls inst).2.1 < 2 → (c : Int) * 16 < temp →
    let u := (((s.setSensor cls inst temp 2 0).count Page.SNS Reg.SNS.THERM_EVENTS 1 1).raise Page.SNS 1).recordThermal cls inst 2 temp
    exec (.thermalClamp cls inst temp) s = .next (if cls = 0 then u.setClamped inst true else u.clampOn clampThermal)) ∧
  (∀ (inst : Nat) (temp : Int) (s : State), ready (.thermalClampEnd 0 inst temp) s →
    (s.sensor 0 inst).2.1 = 2 → temp ≤ s.warnAt 0 - 80 → temp ≤ 105 * 16 - 80 → bits (s.stope inst).invalid 1 0 ≠ 3 →
    exec (.thermalClampEnd 0 inst temp) s =
      .next (((s.setSensor 0 inst temp 0 0).recordThermal 0 inst 0 temp).setClamped inst false)) ∧
  (∀ (cls inst : Nat) (temp : Int) (s : State), ready (.thermalTrip cls inst temp) s → cls < 6 →
    exec (.thermalTrip cls inst temp) s = .next (s.trips cls inst temp)) ∧
  (∀ (src : Source) (v : Word) (s : State), ready (.tripClear src v) s → guardOpen s src Page.PWR Reg.PWR.TRIP_CLEAR v.toNat →
    let b := ruleSees s src Page.PWR
    bit v.toNat 0 = true → bit (b.rd Page.PWR Reg.PWR.INPUT_STATE) 12 = true →
    (∀ e ∈ b.pwr.sensors, e.2.1 ≤ b.warnAt (e.1 / 2048) - 160) →
    let u := ((b.setFld Page.PWR Reg.PWR.INPUT_STATE 12 12 0).modPwr (fun x => { x with tripped := false })).each
      trippedPages (fun w p => w.setFn p 1)
    exec (.tripClear src v) s = .next (guardDone s src Page.PWR Reg.PWR.TRIP_CLEAR v.toNat
      { u.setFld Page.DEV Reg.DEV.BRINGUP 7 0 2 with boot := { State.reset.boot with began := b.osc } })) ∧
  (∀ (src : Source) (v : Word) (s : State), ready (.govBudget src v) s → guardOpen s src Page.PWR Reg.PWR.GOV_BUDGET v.toNat →
    exec (.govBudget src v) s = .next (guardDone s src Page.PWR Reg.PWR.GOV_BUDGET v.toNat
      ((ruleSees s src Page.PWR).wr Page.PWR Reg.PWR.GOV_BUDGET (bits v.toNat 11 0)).recompute)) ∧
  (∀ (src : Source) (v : Word) (s : State), ready (.inputLimit src v) s → guardOpen s src Page.PWR Reg.PWR.INPUT_LIMIT v.toNat →
    exec (.inputLimit src v) s = .next (guardDone s src Page.PWR Reg.PWR.INPUT_LIMIT v.toNat
      ((ruleSees s src Page.PWR).wr Page.PWR Reg.PWR.INPUT_LIMIT (bits v.toNat 11 0)).recompute))

/-! ### Drift ports (chapter 9) -/

/-- LANE_FAIL, EYE_MEASURE, LANE_RETRAIN, LANE_RETIRE (R304, R305, R306): a failed active lane gives its position to a good
spare, with LANE_SWAPS, event 1 and record 0x6002; an active lane below 35 % of nominal rotates with a good spare; a lane that
has held 35 % for 60 s is good again. -/
def Obligations.LanesComplete : Prop :=
  (∀ (n lane sp : Nat) (rest : List Nat) (cause : LaneCause) (s : State), ready (.laneFail n lane cause) s →
    s.laneFailed n lane = false → lane < 5 → ((s.laneOrder n).take (s.activeLanes n)).contains lane = true →
    s.spareLanes n = sp :: rest →
    s.portState n ≠ 0 → s.portState n ≠ 6 →
    let u := s.setFld (Page.DRF n) Reg.DRF.LANE_MAP (16 + lane) (16 + lane) 1
    exec (.laneFail n lane cause) s = .next (((((u.setLanes n ((u.laneOrder n).map
      (fun l => if l = lane then sp else if l = sp then lane else l))).count (Page.DRF n) Reg.DRF.LANE_SWAPS 8 1).raise
        (Page.DRF n) 1).record 0x6002 (Src.drift n) none (items [n, lane, laneCauseCode cause])).settleLanes n)) ∧
  (∀ (n lane eye sp : Nat) (rest : List Nat) (s : State), ready (.eyeMeasure n lane eye) s → s.laneFailed n lane = false →
    ((s.laneOrder n).take (s.activeLanes n)).contains lane = true → s.spareLanes n = sp :: rest →
    2560 ≤ eye * 100 → eye * 100 < 8960 →
    let u := s.setEye n lane eye
    exec (.eyeMeasure n lane eye) s = .next ((((u.swapSpare n lane sp).count (Page.DRF n) Reg.DRF.LANE_SWAPS 8 1).raise
      (Page.DRF n) 1).replan (Src.drift n) 5 lane eye lane sp)) ∧
  (∀ (n lane eye held : Nat) (s : State), ready (.laneRetrain n lane eye held) s → s.laneFailed n lane = true →
    8960 ≤ eye * 100 → 60 ≤ held → 4 ≤ s.activeLanes n → s.portState n ≠ 0 → s.portState n ≠ 6 →
    exec (.laneRetrain n lane eye held) s =
      .next (((s.setEye n lane eye).setFld (Page.DRF n) Reg.DRF.LANE_MAP (16 + lane) (16 + lane) 0).settleLanes n)) ∧
  (∀ (src : Source) (n : Nat) (v : Word) (s : State), ready (.laneRetire src n v) s →
    guardOpen s src (Page.DRF n) Reg.DRF.LANE_RETIRE v.toNat → bit v.toNat 8 = true → bits v.toNat 2 0 < 5 →
    exec (.laneRetire src n v) s = .next (guardDone s src (Page.DRF n) Reg.DRF.LANE_RETIRE v.toNat
      ((ruleSees s src (Page.DRF n)).failLane n (bits v.toNat 2 0) .retired)))

/-- TUB_RECEIVE, RETRY, ACK_TIMEOUT (R307, R310, R312): a sound tub that is next in sequence acknowledges, returns credits,
is counted, and lets what waits leave; what is missing is asked for once or sent again, and counted. -/
def Obligations.TubsComplete : Prop :=
  (∀ (n : Nat) (t : Tub) (s : State), ready (.tubReceive n t) s → s.portState n = 3 ∨ s.portState n = 4 →
    crc8 (tubBytes t) = t.hcrc → 3 ≤ t.cls → t.cls < 9 →
    let a := s.acknowledge n t.lack
    let b := a.takeCredits n t.vc t.cred
    t.lseq = (b.port n).rxNext →
    let d := (b.modPort n (fun p => { p with rxNext := (p.rxNext + 1) % 65536, wanted := 0 })).count64
      (Page.DRF n) Reg.DRF.RX_TUBS_LO 4 1
    t.dest = d.memberNo →
    exec (.tubReceive n t) s = .next ((d.pumpTubs n).pump n)) ∧
  (∀ (n lseq : Nat) (s : State), ready (.retry n lseq) s →
    let again := (s.port n).unacked.filter (fun q => serialLe lseq q)
    again ≠ [] →
    exec (.retry n lseq) s = .next ((s.modPort n (fun p => { p with sentAt := s.osc })).count64
      (Page.DRF n) Reg.DRF.TX_TUBS_LO 3 again.length)) ∧
  (∀ (n : Nat) (s : State), ready (.ackTimeout n) s → (s.port n).unacked ≠ [] →
    exec (.ackTimeout n) s = .next (((s.modPort n (fun p => { p with sentAt := s.osc })).count
      (Page.DRF n) Reg.DRF.RETRIES 2 1).count64 (Page.DRF n) Reg.DRF.TX_TUBS_LO 3 (s.port n).unacked.length))

/-- PORT_DOWN, UNCORR_WINDOW, PORT_DISABLE, LINK_TRAINED, AUTH_TIMEOUT, QUARANTINE_RETRY (R316, R330): a port that goes DOWN
discards its queues, and the headframe changes routes; PORT_DISABLE holds it there; a link that trains reads LINKED, sends
HELLO and reads AUTH. -/
def Obligations.PortsComplete : Prop :=
  (∀ (n : Nat) (s : State), ready (.portDown n) s → s.portState n ≠ 0 → s.portState n ≠ 6 →
    let recent := (s.port n).downs.filter (fun t => decide (s.osc < t + 10000000000)) ++ [s.osc]
    recent.length < 4 →
    let u := (s.setPort n 0).modPort n (fun p =>
      { p with outq := [], unacked := [], sends := [], ctl := [], buffered := [], flight := [], drr := [], linkKey := [], downs := recent,
               uncorr := 0 })
    exec (.portDown n) s = .next ((((u.setFld (Page.DRF n) Reg.DRF.PORT_STATE 6 4 0).setFld (Page.DRF n)
      Reg.DRF.PORT_STATE 31 16 0xFFF).wr (Page.DRF n) Reg.DRF.CREDITS 0).routesChanged n)) ∧
  (∀ (n count : Nat) (s : State), ready (.uncorrWindow n count) s → 16 < count → (s.goodLanes n).length = 5 →
    (s.port n).uncorr < 9 →
    exec (.uncorrWindow n count) s = .next (((s.drawn.count64 (Page.DRF n) Reg.DRF.FEC_CORR_LO 0 (s.draw 16).toNat).count
      (Page.DRF n) Reg.DRF.FEC_UNCORR 1 count).modPort n
      (fun p => { p with uncorr := (s.port n).uncorr + 1 }))) ∧
  (∀ (src : Source) (n : Nat) (v : Word) (s : State), ready (.portDisable src n v) s →
    guardOpen s src (Page.DRF n) Reg.DRF.PORT_DISABLE v.toNat →
    let b := ruleSees s src (Page.DRF n)
    exec (.portDisable src n v) s = .next (guardDone s src (Page.DRF n) Reg.DRF.PORT_DISABLE v.toNat
      (if bit v.toNat 0 then ((b.dropPort n).setPort n 6).wr (Page.DRF n) Reg.DRF.PORT_DISABLE 1
       else ((b.wr (Page.DRF n) Reg.DRF.PORT_DISABLE 0).on (b.portState n == 6) (fun u => u.setPort n 0)).modPort n
         (fun p => { p with downs := [] })))) ∧
  (∀ (n lanes : Nat) (s : State), ready (.linkTrained n lanes) s → s.portState n = 0 → 2 ≤ lanes → s.fn (Page.DRF n) ≠ 0 →
    let u := (s.setFld (Page.DRF n) Reg.DRF.PORT_STATE 6 4 (if lanes < 4 then 2 else 4)).modPort n (fun p =>
      { p with txNext := 0, rxNext := 0, wanted := 0, unacked := [], outq := [], buffered := [], flight := [], drr := [], linkKey := [] })
    exec (.linkTrained n lanes) s = .next ((((((u.setCredits n 1 256).setCredits n 2 2048).setCredits n 3 512).setPort
      n 1).sendHello n).setPort n 2)) ∧
  (∀ (n : Nat) (s : State), ready (.authTimeout n) s → s.portState n = 2 →
    let u := (s.setPort n 5).modPort n (fun p => { p with outq := p.outq.filter (fun m => m.cls == 3) })
    exec (.authTimeout n) s = .next ((u.raise (Page.DRF n) 3).record 0x6003 (Src.drift n) none
      [it 1 n, { id := 2, kind := 3, size := 48, val := (s.port n).identity }, it 3 3])) ∧
  (∀ (n : Nat) (s : State), ready (.quarantineRetry n) s → s.portState n = 5 →
    exec (.quarantineRetry n) s = .next (((s.count (Page.DRF n) Reg.DRF.AUTH_FAILS 5 1).sendHello n).setPort n 2))

/-! ### The cascade (chapter 9) -/

/-- ROSTER_COMMIT, ROSTER_RECEIVE, HELLO (R314, R316): a roster of higher VERSION whose signature verifies comes into force; a
HELLO from an identity that the roster lists brings its port up. -/
def Obligations.RostersComplete : Prop :=
  (∀ (src : Source) (v : Word) (s : State), ready (.rosterCommit src v) s →
    guardOpen s src Page.CAS Reg.CAS.ROSTER_COMMIT v.toNat → bit v.toNat 0 = true →
    let b := ruleSees s src Page.CAS
    let r := b.staged src Page.CAS
    b.isHead = true → rosterVersion b.casc.roster < rosterVersion r →
    exec (.rosterCommit src v) s = .next (if rosterValid b.vault.installer r
      then guardDone s src Page.CAS Reg.CAS.ROSTER_COMMIT v.toNat (b.adoptRoster r b.vault.installer)
      else (b.ignoreWrite src Page.CAS Reg.CAS.ROSTER_COMMIT v.toNat).respond src 0 0)) ∧
  (∀ (n : Nat) (r : List Byte) (s : State), ready (.rosterReceive n r) s → s.enrolled = true →
    rosterVersion s.casc.roster < rosterVersion r →
    exec (.rosterReceive n r) s = .next (if rosterValid s.vault.installer r then s.adoptRoster r s.vault.installer
      else s.quarantine n (s.port n).identity 3)) ∧
  (∀ (n : Nat) (h : Hello) (s : State), ready (.hello n h) s → s.portState n = 2 → h.chainOk = true → h.sigOk = true →
    s.listed h.member h.identity.toNat = true →
    exec (.hello n h) s = .next (if (ownEntry s.casc.roster).isSome then s.linkUp n h
      else (s.modPort n (fun p => { p with identity := h.identity.toNat })).quarantine n h.identity.toNat 3))

/-- CANDIDATE, HEADFRAME_ELECT, STANDBY_TAKEOVER, HEAD_MOVE (R317, R319, R320): a candidate is remembered; the one that has
heard no better one becomes headframe with an epoch above every one it heard; the standby takes over with one more than the
epoch in force where more than half of the roster's active members answer. -/
def Obligations.HeadframeComplete : Prop :=
  (∀ (k : Cand) (s : State), ready (.candidate k) s →
    exec (.candidate k) s = .next { s with casc := { s.casc with
      cands := s.casc.cands.filter (fun x => x.member != k.member) ++ [k], heardEpoch := max s.casc.heardEpoch k.epoch } }) ∧
  (∀ s : State, ready .headframeElect s → s.fld Page.CAS Reg.CAS.STATE 2 0 = 1 →
    exec .headframeElect s = .next (if s.headPref = 0 ∨ (∃ k ∈ s.casc.cands, k.pref ≠ 0 ∧ betterCand k s.selfCand = true) then s
      else s.becomeHead (max s.casc.heardEpoch (s.rd Page.CAS Reg.CAS.HEAD_EPOCH) + 1) 1)) ∧
  (∀ (answers : Nat) (s : State), ready (.standbyTakeover answers) s → s.fld Page.CAS Reg.CAS.STATE 2 0 = 5 →
    s.rosterActive < 2 * answers → s.sealing.phase = 0 →
    exec (.standbyTakeover answers) s =
      .next ((s.setFld Page.CAS Reg.CAS.MEMBERS 12 0 (answers + 1)).becomeHead (s.rd Page.CAS Reg.CAS.HEAD_EPOCH + 1) 2)) ∧
  (∀ (src : Source) (v : Word) (s : State), ready (.headMove src v) s → guardOpen s src Page.CAS Reg.CAS.HEAD_MOVE v.toNat →
    let b := ruleSees s src Page.CAS
    let m := bits v.toNat 11 0
    b.isHead = true → bit v.toNat 16 = true → m = b.fld Page.CAS Reg.CAS.HEADFRAME 27 16 → m ≠ 0xFFF →
    b.casc.cands.any (fun k => k.member == m && k.ref == (b.fld Page.TAL Reg.TAL.STATUS 2 0 == 1)) = true →
    exec (.headMove src v) s = .next (guardDone s src Page.CAS Reg.CAS.HEAD_MOVE v.toNat
      { b with casc := { b.casc with headMove := some m } }))

/-- JOIN, ADMIT, REFUSE, JOIN_RETRY (R318): the headframe admits a member that the roster lists, where its links agree with
the topology and there is room, or says why not; the member that is admitted takes the values in force. -/
def Obligations.JoiningComplete : Prop :=
  (∀ (m : Nat) (ident : Hash) (x : JoinContent) (s : State), ready (.join m ident x) s →
    s.fld Page.CAS Reg.CAS.STATE 2 0 = 4 → s.joinReason m ident.toNat x.adjacent = 0 →
    exec (.join m ident x) s = .next (s.admitIt m ident.toNat x.adjacent x.pub)) ∧
  (∀ (m : Nat) (ident : Hash) (x : JoinContent) (s : State), ready (.join m ident x) s →
    s.fld Page.CAS Reg.CAS.STATE 2 0 = 4 → s.joinReason m ident.toNat x.adjacent ≠ 0 →
    exec (.join m ident x) s = .next (((((s.count Page.CAS Reg.CAS.JOIN_REFUSALS 0 1).raise Page.CAS 2).record 0x6006
      (Src.cascade 0) none [it 1 (s.joinReason m ident.toNat x.adjacent), { id := 2, kind := 3, size := 48, val := ident.toNat }]).sendMsg
        (OutMsg.plain 5 m [7, s.joinReason m ident.toNat x.adjacent,
          leNat (Config.identitySign [BitVec.ofNat 8 7, BitVec.ofNat 8 (s.joinReason m ident.toNat x.adjacent)])])))) ∧
  (∀ (m cascade epoch now se : Nat) (roles : RoleTable) (routes : List (Nat × Nat × Nat))
      (period origin w : Nat) (s : State), ready (.admitMember m cascade epoch now se roles routes period origin w) s →
    s.fld Page.CAS Reg.CAS.STATE 2 0 = 2 →
    ∃ t, exec (.admitMember m cascade epoch now se roles routes period origin w) s = .next t ∧ t.tally = now ∧
      t.casc.roles = roles.entries ∧ t.casc.routes = routes ∧ t.rd Page.CAS Reg.CAS.HEAD_EPOCH = epoch % 2 ^ 32 ∧
      t.casc.heardEpoch = max s.casc.heardEpoch epoch) ∧
  (∀ (reason : Nat) (s : State), ready (.refuse reason) s → s.fld Page.CAS Reg.CAS.STATE 2 0 = 2 →
    exec (.refuse reason) s = .next ((((s.setCas 6).setFld Page.CAS Reg.CAS.STATE 15 8 reason).count
      Page.CAS Reg.CAS.JOIN_REFUSALS 0 1).raise Page.CAS 2)) ∧
  (∀ s : State, ready .joinRetry s → s.fld Page.CAS Reg.CAS.STATE 2 0 = 6 →
    exec .joinRetry s = .next (s.setCas 2).sendJoin)

/-- ROUTE_TABLE, ROLE_UPDATE, MEMBER_EVICT, RESTART (R323, R325, R331): a newer route table replaces the old one; role entries
wait for their commit tally; an evicted member is lost, with record 0x6009; a restart stops the job and asks the buddy. -/
def Obligations.RolesComplete : Prop :=
  (∀ (version : Nat) (routes : List (Nat × Nat × Nat)) (s : State), ready (.routeTable version routes) s →
    s.casc.routeVer < version → s.fld Page.CAS Reg.CAS.STATE 2 0 ≠ 4 →
    exec (.routeTable version routes) s = .next { s with casc := { s.casc with routeVer := version, routes := routes } }) ∧
  (∀ (roles : RoleTable) (tally : Nat) (s : State), ready (.roleUpdate roles tally) s →
    let u := s.takeKeys roles.keys
    exec (.roleUpdate roles tally) s = .next { u with casc := { u.casc with
      moves := u.casc.moves ++ roles.entries.map (fun e => (tally, e)) } }) ∧
  (∀ (src : Source) (v : Word) (s : State), ready (.memberEvict src v) s →
    guardOpen s src Page.CAS Reg.CAS.MEMBER_EVICT v.toNat → bit v.toNat 16 = true →
    let b := ruleSees s src Page.CAS
    let m := bits v.toNat 11 0
    b.isHead = true → b.live m = true →
    let u := ((b.modPeer m (fun p => { p with info := 5 })).setFld Page.CAS Reg.CAS.MEMBERS 12 0
      ((b.modPeer m (fun p => { p with info := 5 })).fld Page.CAS Reg.CAS.MEMBERS 12 0 - 1)).count Page.CAS Reg.CAS.LOST_MEMBERS 1 1
    exec (.memberEvict src v) s = .next (guardDone s src Page.CAS Reg.CAS.MEMBER_EVICT v.toNat
      ((State.reportMember { u with casc := { u.casc with losses := u.casc.losses.filter (fun (e : Nat × Nat) => e.1 != m) ++ [(m, 4)] } }
        m).record 0x6009 (Src.cascade 0) none (items [m, 4])))) ∧
  (∀ (job step : Nat) (s : State), ready (.restart job step) s →
    let b := s.count Page.CAS Reg.CAS.RESTARTS 2 1
    let u := { b with casc := { b.casc with restarts := b.casc.restarts.filter (fun (e : Nat × Nat) => e.1 != job) ++ [(job, step)] } }
    ∀ c, u.claimOfJob job = some c →
    let w := (u.on (u.jobActive c) (fun x => (x.dropWork c 3 (fun _ => false)).setJobState c jsReady 0)).dropReports
    ∀ r j, w.casc.roles.find? (fun (x : RoleEntry) => x.role == s.memberNo * 16 + 4) = some r → w.job? c = some j →
    exec (.restart job step) s = .next (w.sendMsg { OutMsg.plain 8 r.member [job, step, j.role] with key := c }))

/-! ### The prospector, bring-up and resets (chapter 16) -/

/-- SERIES_RECORD, FC_CMD, FORECAST_DONE, PROSPECT_CLEAR (R528, R530, R532): a record that nothing forbids takes its slot of
its series; a request of 1 to 65,536 series is BUSY until its forecasts arrive; what is cleared holds nothing of claim 0. -/
def Obligations.ProspectorComplete : Prop :=
  (∀ (r : SeriesRec) (s : State), ready (.seriesRecord r) s → s.proState = 1 ∨ s.proState = 2 → s.recordCause r = 0 →
    s.pros.refused = 0 →
    ∃ t, exec (.seriesRecord r) s = .next t ∧ t = s.keepRecord r ∧
      ∃ newest slots, (r.series, newest, slots) ∈ t.pros.series ∧ (r.tally / 900000000000, r.value) ∈ slots) ∧
  (∀ (src : Source) (v : Word) (s : State), ready (.fcCmd src v) s → writeOpen s src Page.PRO Reg.PRO.FC_CMD v.toNat →
    let b := ruleSees s src Page.PRO
    let n := b.fld Page.PRO Reg.PRO.FC_COUNT 16 0
    bit v.toNat 0 = true → b.fld Page.PRO Reg.PRO.FC_STATE 1 0 ≠ 1 → 0 < n → n ≤ 65536 → b.proState ≠ 0 → b.proState ≠ 4 →
    exec (.fcCmd src v) s = .next (writeDone ((b.setFld Page.PRO Reg.PRO.FC_STATE 1 0 1).modPros (fun x =>
      { x with request := some (b.fld Page.PRO Reg.PRO.FC_FIRST 25 0, n, b.tally / 900000000000 - 1) })) src)) ∧
  (∀ (values : List (List Word)) (first n origin : Nat) (s : State), ready (.forecastDone values) s →
    s.pros.request = some (first, n, origin) →
    ∃ t, exec (.forecastDone values) s = .next t ∧ t.pros.request = none ∧ t.pros.results.length = n ∧
      t.pros.origin = origin * 900000000000 ∧
      ∀ r ∈ t.pros.results, r.2.2.length = 96 ∧ (r.2.1 = true → ∀ w ∈ r.2.2, w = 0)) ∧
  (∀ (src : Source) (v : Word) (s : State), ready (.prospectClear src v) s →
    guardOpen s src Page.DEV Reg.DEV.PROSPECT_CLEAR v.toNat → bit v.toNat 0 = true →
    (ruleSees s src Page.DEV).proState = 0 ∨ (ruleSees s src Page.DEV).proState = 4 →
    ∃ t, exec (.prospectClear src v) s = .next t ∧ t.pros = State.reset.pros ∧ ∀ a < 2 ^ 48, t.rdByte 0 a = 0)

/-- BRINGUP_STEP, BRINGUP_STEP_LATE, RECOVERY_ASK, RECOVERY_IMAGE, DEVICE_RESET (R518, R519, R522, R525): the next step is
shown, with event 1 and record 0x0001, and its work is done; a unit that is late takes FAULT; the recovery ROM asks its
partners in ascending order; a reset runs bring-up from step 2, and loses what loss of input loses. -/
def Obligations.BringupComplete : Prop :=
  (∀ (ms : Nat) (ok : Bool) (s : State), ready (.bringupStep ms ok) s →
    let n := s.fld Page.DEV Reg.DEV.BRINGUP 3 0 + 1
    n ≤ 9 → (n = 2 → ok = true ∧ s.fw.flashOk = true) → s.boot.recovery = false →
    bit (s.rd Page.DEV Reg.DEV.BRINGUP) 6 = false → s.pwr.failed = false → (s.pwr.tripped = true → n ≤ 2) →
    exec (.bringupStep ms ok) s = .next ((((s.setFld Page.DEV Reg.DEV.BRINGUP 3 0 n).raise Page.DEV 1).record 0x0001
      Src.deputy none (items [n, ms])).stepWork n ms)) ∧
  (∀ (unit p : Nat) (s : State), ready (.bringupStepLate unit) s →
    let n := s.fld Page.DEV Reg.DEV.BRINGUP 3 0 + 1
    3 ≤ n → n ≤ 9 → n ≠ 5 → s.boot.recovery = false → bit (s.rd Page.DEV Reg.DEV.BRINGUP) 6 = false →
    unitPage unit = some p → unit / 0x1000 ≠ 6 →
    let u := s.setFn p 4
    exec (.bringupStepLate unit) s = .next (((({ u with boot := { u.boot with faults := u.boot.faults ++ [(n, unit)] } }).record
      0x0006 Src.deputy none (items [n, unit, 1])).setFld Page.DEV Reg.DEV.BRINGUP 3 0 n).stepWork n
        ((s.osc - s.boot.began) / 1000000))) ∧
  (∀ (n : Nat) (s : State), ready .recoveryAsk s → s.boot.recovery = true →
    s.upPorts.find? (fun m => decide (s.boot.askPort ≤ m)) = some n →
    let u := { s with boot := { s.boot with askPort := (n + 1) % 12 } }
    exec .recoveryAsk s = .next (u.queueOn n (OutMsg.plain 6 (u.partner n) [0x522]))) ∧
  (∀ (image : List Byte) (s : State), ready (.recoveryImage image) s → s.boot.recovery = true →
    exec (.recoveryImage image) s = .next (if s.imageCause image = 0
      then (s.count Page.DEP Reg.DEP.FETCHES 1 1).recoverWith (imageOf image) 1 else s)) ∧
  (∀ (src : Source) (v : Word) (s : State), ready (.deviceReset src v) s → guardOpen s src Page.DEV Reg.DEV.RESET v.toNat →
    let b := ruleSees s src Page.DEV
    bit v.toNat 0 = true → (∀ c ∈ claimNos, b.jobState c = 0 ∨ b.jobState c = 6) →
    let u := ((b.config b src Page.DEV Reg.DEV.RESET 0 v.toNat).recordBy src 0x0003 Src.deputy none (items [src.num])).count
      Page.DEV Reg.DEV.DEV_RESETS 0 1
    exec (.deviceReset src v) s =
      .next ((((u.each u.recorder.queue (fun w _ => w.admitFront)).losePower).bootFrom2 2).respond src 0 0))

/-! ### Host ports (chapter 13) -/

/-- PERST, HOT_RESET, FUNCTION_LEVEL_RESET, LINK_DOWN, PERST_RELEASE, LINK_UP, HOST_LOST (R453, R459, R461, R463): a reset of a
port ends its session and empties its own state; PERST and 50 ms without link also declare the
host lost, with the sessions and transfers that ended with the link. -/
def Obligations.HostLinksComplete : Prop :=
  (∀ (n : Nat) (s : State), ready (.perst n) s →
    let page := Page.HP n
    exec (.perst n) s = .next (((((s.resetPort n true).setFld page Reg.HP.LINK_STATE 1 0 0).count page Reg.HP.LINK_LOSSES 1
      1).raise page 1).record 0xA002 (Src.host n) none (items [n, 1, s.sessions n, s.transfers (portSource n)]))) ∧
  (∀ (n : Nat) (s : State), ready (.hotReset n) s → ∃ t, exec (.hotReset n) s = .next t ∧
    t.rd (Page.HP n) Reg.HP.LINK_STATE = (if bit (s.rd (Page.HP n) Reg.HP.LINK_STATE) 18 then 2 ^ 18 else 0) ∧
    (∀ e ∈ t.streams, e.1 / 4096 ≠ n) ∧ (∀ e ∈ t.pairs, e.1 / 4096 ≠ n) ∧
    (∀ e ∈ t.caps, e.1 ≠ n)) ∧
  (∀ (n : Nat) (s : State), ready (.functionLevelReset n) s → ∃ t, exec (.functionLevelReset n) s = .next t ∧
    t.rd (Page.HP n) Reg.HP.LINK_STATE = (if bit (s.rd (Page.HP n) Reg.HP.LINK_STATE) 18 then 2 ^ 18 else 0) ∧
    (∀ e ∈ t.streams, e.1 / 4096 ≠ n) ∧ (∀ e ∈ t.pairs, e.1 / 4096 ≠ n) ∧
    (∀ e ∈ t.caps, e.1 ≠ n)) ∧
  (∀ (n : Nat) (s : State), ready (.linkDown n) s → ∃ t, exec (.linkDown n) s = .next t ∧
    (t.sessOf (portSource n)).cutOff = (s.sessions n, s.transfers (portSource n)) ∧
    t.rd (Page.HP n) Reg.HP.LINK_STATE = (if bit (s.rd (Page.HP n) Reg.HP.LINK_STATE) 18 then 2 ^ 18 else 0) ∧
    (∀ e ∈ t.streams, e.1 / 4096 ≠ n) ∧ (∀ e ∈ t.pairs, e.1 / 4096 ≠ n) ∧
    (∀ e ∈ t.caps, e.1 ≠ n)) ∧
  (∀ (n : Nat) (s : State), ready (.perstRelease n) s →
    ∃ t, exec (.perstRelease n) s = .next t ∧ t.fld (Page.HP n) Reg.HP.LINK_STATE 1 0 = 1 ∧
      t.fld (Page.HP n) Reg.HP.LINK_STATE 18 18 = 0) ∧
  (∀ (n speed width : Nat) (flit : Bool) (s : State), ready (.linkUp n speed width flit) s →
    let page := Page.HP n
    let w := s.rd page Reg.HP.LINK_STATE
    bit w 18 = false → speed = 5 → 16 ≤ width →
    exec (.linkUp n speed width flit) s = .next (((((s.wr page Reg.HP.LINK_STATE (putBits (putBits (putBits (putBits (putBits w 2
      0 2) 6 4 speed) 12 8 width) 13 13 (if flit then 1 else 0)) 16 15 3)).noteCut n (0, 0)).count page Reg.HP.LINK_UPS 0 1).raise page 0).record 0xA001
        (Src.host n) none (items [n, speed, width, if flit then 1 else 0]))) ∧
  (∀ (n : Nat) (s : State), ready (.hostLost n) s → s.fld (Page.HP n) Reg.HP.LINK_STATE 1 0 ≠ 2 →
    let cut := (s.sessOf (portSource n)).cutOff
    exec (.hostLost n) s = .next (((s.endSession (portSource n) 4).noteCut n (0, 0)).declareLost n 2 (cut.1 + s.sessions n)
      (cut.2 + s.transfers (portSource n))))

/-- D3HOT_ENTRY, D0_RETURN, UNSUPPORTED_REQUEST, MSI_HOLDOFF_END, BIND_SET, IDE_FAIL (R455, R458, R460, R462, R465): the bit of
D3hot follows the power state; requests outside BAR0 complete as unsupported; a waiting vector sends one message where its
group still holds a bit; a binding is one bit of the port's map; a failure of IDE takes the port's keys. -/
def Obligations.HostPortsComplete : Prop :=
  (∀ (n : Nat) (s : State), ready (.d3hotEntry n) s → ∃ t, exec (.d3hotEntry n) s = .next t ∧
    bit (t.rd (Page.HP n) Reg.HP.LINK_STATE) 17 = true ∧ t.answers (portSource n) = false) ∧
  (∀ (n : Nat) (s : State), ready (.d0Return n) s → ∃ t, exec (.d0Return n) s = .next t ∧
    bit (t.rd (Page.HP n) Reg.HP.LINK_STATE) 17 = false ∧ t.answers (portSource n) = true) ∧
  (∀ (n : Nat) (kind : OtherRequest) (addr : Nat) (s : State), ready (.unsupportedRequest n kind addr) s →
    exec (.unsupportedRequest n kind addr) s = .next (if kind = .poisonedWrite
      then (s.count (Page.HP n) Reg.HP.UNCORR_ERRORS 4 1).record 0xA006 (Src.host n) none (items [n, addr])
      else s.respond (portSource n) 1 0)) ∧
  (∀ (n vec : Nat) (s : State), ready (.msiHoldoffEnd n vec) s → (s.msiOf n vec).waits = true →
    vec = 63 ∨ s.groupPending n vec = true → s.msiOpen n = true →
    exec (.msiHoldoffEnd n vec) s =
      .next (s.setMsi n vec { sent := (s.msiOf n vec).sent + 1, last := s.osc, waits := false })) ∧
  (∀ (src : Source) (n : Nat) (v : Word) (s : State), ready (.bindSet src n v) s →
    guardOpen s src (Page.HP n) Reg.HP.BIND_SET v.toNat → bit v.toNat 16 = true → bits v.toNat 5 0 < 32 →
    bits v.toNat 8 8 = 1 →
    let b := ruleSees s src (Page.HP n)
    let c := bits v.toNat 5 0
    exec (.bindSet src n v) s = .next (guardDone s src (Page.HP n) Reg.HP.BIND_SET v.toNat
      (((b.setFld (Page.HP n) Reg.HP.BOUND_A c c 1).raise (Page.HP n) 4).record 0xA005 (Src.host n) (some c) (items [n, c, 1, 0])))) ∧
  (∀ (n sub : Nat) (s : State), ready (.ideFail n sub) s →
    ∃ t, exec (.ideFail n sub) s = .next t ∧ t.vault.ideKeys = s.vault.ideKeys.filter (fun e => e.1 % 2 != n))

/-! ### The event recorder (chapter 14) and notices (chapter 10) -/

/-- RECORD_ADMIT, ARCHIVE_SEGMENT (R474, R476, R478): an unlimited record takes the next SEQ; one whose bucket is empty is
withheld; a region above three quarters gives its oldest records to a segment of the archive. -/
def Obligations.RecorderComplete : Prop :=
  (∀ (r : Rec) (rest : List Rec) (s : State), ready .recordAdmit s → s.recorder.queue = r :: rest → rateOf r.code = none →
    let u := ({ s with recorder := { s.recorder with queue := rest } }).setFld Page.REC Reg.REC.QUEUE 12 0 (min 8191 rest.length)
    exec .recordAdmit s = .next (u.admitQueueFull.admitRec r)) ∧
  (∀ (r : Rec) (rest : List Rec) (rate burst : Nat) (s : State), ready .recordAdmit s → s.recorder.queue = r :: rest →
    rateOf r.code = some (rate, burst) →
    let u := ({ s with recorder := { s.recorder with queue := rest } }).setFld Page.REC Reg.REC.QUEUE 12 0 (min 8191 rest.length)
    u.bucket r.code rate burst < 1000000 →
    let drawn := (u.bucket r.code rate burst, u.osc / 1000)
    exec .recordAdmit s = .next (({ u with recorder := { u.recorder with
      buckets := Sparse.place r.code drawn (Sparse.drop r.code u.recorder.buckets) } }).withhold r.code)) ∧
  (∀ s : State, ready .archiveSegment s → 3 * 2 ^ 20 < storeBytes s.recorder.region → s.recorder.archive.length < 2048 →
    ∃ t, exec .archiveSegment s = .next t ∧
      t.recorder.archive = s.recorder.archive ++ [segmentOf (2 ^ 20) s.recorder.region] ∧
      t.recorder.region = s.recorder.region.drop (segmentOf (2 ^ 20) s.recorder.region).length)

/-- NOTICE_SOUND, NOTICE_UNSOUND, PENDING_READ_ABORT, REBUILD_DONE (R342, R348, R349, R350): the blocks of a notice wait no
longer, or wait for the recomputed ones; a read held too long completes with Completer Abort and event 0x7013; a rebuilt block
is counted, recorded, and reads that waited for it go on. -/
def Obligations.NoticesComplete : Prop :=
  (∀ (n : Notice) (s : State), ready (.noticeSound n) s → s.noticed n ≠ [] →
    exec (.noticeSound n) s = .next (((s.notice n none).tryRecvs n.claim).retryReads)) ∧
  (∀ (n : Notice) (s : State), ready (.noticeUnsound n) s → s.noticed n ≠ [] →
    ∃ t, exec (.noticeUnsound n) s = .next t ∧ t.marks = (s.notice n (some 1)).marks ∧ t.mesh = (s.notice n (some 1)).mesh) ∧
  (∀ (src : Source) (s : State), ready (.pendingReadAbort src) s → (Sparse.get Resp.none s.resp src.num).status = 4 →
    let a := (Sparse.get Resp.none s.resp src.num).addr
    let page := a / 16384
    exec (.pendingReadAbort src) s = .next (((s.recordBy src 0x7013 Src.deputy (some (page - Page.STM 0))
      (items [src.num, a])).strmEnd src page 4).completerAbort src)) ∧
  (∀ (c addr : Nat) (s : State), ready (.rebuildDone c addr) s →
    let b := addr / 4096 * 4096
    (s.mark c b).damaged = true → (s.mark c b).rebuild = true →
    let u := (s.settleBlock c b).count Page.INT Reg.INT.BLOCKS_REBUILT 5 1
    exec (.rebuildDone c addr) s = .next ((u.record 0x7004 (if addr / 2 ^ 46 = 1 then Src.mill 0 else Src.fast 0) (some c)
      (items [b, s.contentClass c b])).retryReads))

/-! ### Hoists that move or hold (chapters 3, 5 and 9) -/

/-- IDLE, IDLE_END, WIDE_OP (R110, R180, R182): an entry that may launch holds its targets; a WIDE_OP whose operand is ready and
whose wide unit is free writes its program's results, with the statistics of their kind, and completes. -/
def Obligations.WideComplete : Prop :=
  (∀ (c e : Nat) (j : Job) (h : HoistE) (s : State), ready (.idle c e) s → s.hoistFor c e 0 = some (j, h) →
    exec (.idle c e) s = .next (s.startRun c e h 1)) ∧
  (∀ (c e : Nat) (j : Job) (h : HoistE) (s : State), ready (.idleEnd c e) s → s.job? c = some j → j.entries[e]? = some h →
    h.action = 0 → (j.run e).started = true → (j.run e).complete = false → (j.run e).left ≤ 1 →
    exec (.idleEnd c e) s = .next (s.hoistDone c e)) ∧
  (∀ (c e : Nat) (prog : WideProg) (j : Job) (h : HoistE) (s : State), ready (.wideOp c e prog true) s →
    s.hoistFor c e 4 = some (j, h) → s.operandReady c j e h h.a h.mb = true → s.computeFree (s.wideStope c h) = true →
    s.wideTurn c e (s.wideStope c h) = true →
    let u := ((s.readsTensor c e h.a h.mb h.serve).startRun c e h 1).beginStash c h.layer h.mb
    let ys := wideRun prog (s.elements (j.view c h.a h.mb))
    (∀ y ∈ ys, isNan32 y = false) →
    exec (.wideOp c e prog true) s = .next ((((u.putWide c e ((u.job? c).getD j) h ys 0).modRun c e
      (fun r => { r with again := false })).unitDone c e).freeTop c h))

/-- SEND, RECV, REDUCE (R183, R308, R329): a tensor that is ready leaves in blocks of 4,096 bytes, and a SOUND notice follows; a
RECV whose blocks have all landed and been released completes; a REDUCE sends its nodes, combines them with the partner's and
keeps the nodes of the next level. -/
def Obligations.TransfersComplete : Prop :=
  (∀ (c e : Nat) (j : Job) (h : HoistE) (r : RoleEntry) (s : State), ready (.send c e) s → s.hoistFor c e 5 = some (j, h) →
    s.operandReady c j e h h.a h.mb = true → s.roleEntry h.b = some r →
    let blocks := (List.range (ceilDiv (j.viewBytes c h.a h.mb) 4096)).map (fun k =>
      s.rdBytes c ((j.view c h.a h.mb).base + 4096 * k) 4096)
    let u := (s.readsTensor c e h.a h.mb h.serve).startRun c e h (ceilDiv blocks.length 8)
    exec (.send c e) s = .next (if r.member = s.memberNo then (u.landBlocks c h.result j.role 0 blocks).hoistDone c e
      else (u.sendBlocks 7 c r j.role h.result (h.target % 4096) blocks (some (c, e))).sendMsg
        { OutMsg.plain 4 r.member [1, 1, 0, c, h.result, h.mb, 0, blocks.length, s.memberNo * 4096, s.epoch] with
          destRole := r.member * 16 + 1 })) ∧
  (∀ (c e : Nat) (j : Job) (h : HoistE) (s : State), ready (.recv c e) s → s.hoistFor c e 6 = some (j, h) →
    (s.recvReady c j e h).2 = true →
    exec (.recv c e) s = .next ((s.startRun c e h 1).unitDone c e)) ∧
  (∀ (c e : Nat) (words : List Nat) (j : Job) (h : HoistE) (d : LayerD) (t res : TensorD) (r : RoleEntry) (s : State),
    ready (.reduce c e words) s → s.hoistFor c e 7 = some (j, h) → j.layer? h.layer = some d → j.tensor? h.a = some t →
    j.tensor? h.result = some res → s.operandReady c j e h h.a 0 = true → s.roleEntry h.b = some r → h.root = false →
    let g := s.gather c j h d t
    (if g.pos % 2 = 0 then g.pos + 1 else g.pos - 1) < g.count → words.length = g.nodes.length →
    let u := (s.readsTensor c e h.a 0 h.serve).startRun c e h 1
    let bytes := g.nodes.flatMap (fun n => leBytes 8 n.word)
    let w := u.sendBlocks 7 c r j.role h.result (h.target % 4096)
      ((List.range (ceilDiv bytes.length 4096)).map (fun k => (bytes.drop (4096 * k)).take 4096)) none
    exec (.reduce c e words) s = .next ((w.putNodes c res.addr 0 (g.combined h.level (words.map Node.ofWord))).unitDone c e))

/-- MESSAGE_RECEIVE, STALE_ROLE_REPLY, BRIDGE_BLOCK (R236, R309, R326): a message that passes its checks and is for a role that
the member holds is delivered and its MSEQ remembered; a role's new holder is entered and gets the message once more; resends
over the bridge are counted. -/
def Obligations.MessagesComplete : Prop :=
  (∀ (n : Nat) (m : Message) (s : State), ready (.messageReceive n m) s → (s.peer m.src).dropped = false → 4 ≤ m.cls →
    m.cls ≤ 8 → m.cls ≠ 5 → m.tagOk = true →
    let key := m.key * 4096 + m.src
    let seen := Sparse.get [] s.casc.gotSeq key
    let top := seen.foldl max 0
    top < m.mseq + 64 → seen.contains m.mseq = false → m.epoch = s.epoch → m.checksOk = true →
    let u := { s with casc := { s.casc with
      gotSeq := Sparse.set [] s.casc.gotSeq key ((seen ++ [m.mseq]).filter (fun q => decide (max top m.mseq < q + 64))) } }
    u.holdsRole m.destRole m.destEpoch = true →
    exec (.messageReceive n m) s = .next (u.deliver m)) ∧
  (∀ (n mseq c e : Nat) (r : RoleEntry) (m : OutMsg) (j : Job) (s : State), ready (.staleRoleReply n r mseq) s →
    s.casc.sent.find? (fun x => x.destRole == r.role && x.mseq == mseq) = some m → m.origin = some (c, e) →
    s.job? c = some j → (j.run e).complete = false → s.casc.resent.contains mseq = false →
    let u := { s with casc := { s.casc with roles := mergeRoles s.casc.roles [r] } }
    exec (.staleRoleReply n r mseq) s = .next (({ u with casc := { u.casc with
      resent := u.casc.resent ++ [mseq, u.nextMseq m.key r.member] } }).sendMsg { m with dest := r.member, destEpoch := r.epoch })) ∧
  (∀ (c addr fails : Nat) (s : State), ready (.bridgeBlock c addr fails) s → fails < 4 →
    exec (.bridgeBlock c addr fails) s = .next (s.count (Page.MIL 0) Reg.MIL.BRIDGE_RETRIES 4 fails))

/-! ### Sessions, enrolment and diagnostics (chapter 11) -/

/-- SESS_REQ, SESS_PROVE, SESS_END, SESSION_IDLE, BLOCKED_END (R382, R383, R384): a request ends the session held, draws a nonce
and reads CHALLENGED; a proof opens the session or fails; a session that ends does so with its cause; a block expires. -/
def Obligations.SessionsComplete : Prop :=
  (∀ (src : Source) (v : Word) (s : State), ready (.sessReq src v) s →
    writeOpen s src (Page.ROL src.num) Reg.ROL.SESS_REQ v.toNat →
    let b := ruleSees s src (Page.ROL src.num)
    b.fld (Page.ROL src.num) Reg.ROL.SESS_STATE 1 0 ≠ 3 →
    ∃ t, exec (.sessReq src v) s = .next t ∧ (t.sessOf src).fresh = true ∧ (t.sessOf src).issued = s.osc ∧
      (t.sessOf src).nonce = ((b.endSession src 2).draw 384).toNat ∧ (t.sessOf src).role = bits v.toNat 1 0 ∧
      (t.sessOf src).claim = (if bits v.toNat 1 0 = 1 then bits v.toNat 13 8 else 0)) ∧
  (∀ (src : Source) (v : Word) (s : State), ready (.sessProve src v) s →
    writeOpen s src (Page.ROL src.num) Reg.ROL.SESS_PROVE v.toNat → bit v.toNat 0 = true →
    let b := ruleSees s src (Page.ROL src.num)
    b.fld (Page.ROL src.num) Reg.ROL.SESS_STATE 1 0 = 1 →
    let cause := b.proofCause src (b.staged src (Page.ROL src.num))
    exec (.sessProve src v) s = .next (writeDone (if cause = 0 then b.openSession src else b.failSession src cause) src)) ∧
  (∀ (src : Source) (v : Word) (s : State), ready (.sessEnd src v) s →
    writeOpen s src (Page.ROL src.num) Reg.ROL.SESS_END v.toNat → bit v.toNat 0 = true →
    exec (.sessEnd src v) s = .next (writeDone ((ruleSees s src (Page.ROL src.num)).endSession src 1) src)) ∧
  (∀ (src : Source) (s : State), ready (.sessionIdle src) s → s.fld (Page.ROL 3) Reg.ROL3.SESS_IDLE 15 0 ≠ 0 →
    s.roleOf src = 1 ∨ s.roleOf src = 2 → s.strmPages src = [] →
    ∃ t, exec (.sessionIdle src) s = .next t ∧ t.roleOf src = 0 ∧ t.rd (Page.ROL src.num) Reg.ROL.IDLE_LEFT = 0xFFFFFF) ∧
  (∀ (src : Source) (s : State), ready (.blockedEnd src) s → s.fld (Page.ROL src.num) Reg.ROL.SESS_STATE 1 0 = 3 →
    ∃ t, exec (.blockedEnd src) s = .next t ∧ t.fld (Page.ROL src.num) Reg.ROL.SESS_STATE 1 0 = 0 ∧
      t.fld (Page.ROL src.num) Reg.ROL.SESS_STATE 31 24 = s.fld (Page.ROL src.num) Reg.ROL.SESS_STATE 31 24)

/-- INST_ENROL, INST_WITHDRAW, ATTEST_REQ, ATTEST_READY (R373, R409): the key staged as kind 1 enrols where it is a point of
the curve; the enrolment is withdrawn while no claim is in use; a report is signed for the source that asked. -/
def Obligations.EnrolmentComplete : Prop :=
  (∀ (src : Source) (v : Word) (s : State), ready (.instEnrol src v) s →
    guardOpen s src (Page.ROL 3) Reg.ROL3.INST_ENROL v.toNat → v.toNat = 1 →
    let b := ruleSees s src (Page.ROL 3)
    let k := (b.stagedKind src 1).take 97
    let old := b.vault.installer
    let u := ({ b with vault := { b.vault with installer := k } }).showInstaller false
    exec (.instEnrol src v) s = .next (if keyOk k
      then guardDone s src (Page.ROL 3) Reg.ROL3.INST_ENROL v.toNat
        (((u.raise (Page.ROL 3) 1).recordEnrol src old k 1 0).endSessions 5 (fun _ r _ => r == 2))
      else (b.recordEnrol src old k 1 2).respond src 0 0)) ∧
  (∀ (src : Source) (v : Word) (s : State), ready (.instWithdraw src v) s →
    guardOpen s src (Page.ROL 3) Reg.ROL3.INST_ENROL v.toNat → v.toNat = 2 →
    let b := ruleSees s src (Page.ROL 3)
    let old := b.vault.installer
    b.noOperatorClaim = true → old ≠ [] →
    exec (.instWithdraw src v) s = .next (guardDone s src (Page.ROL 3) Reg.ROL3.INST_ENROL v.toNat
      ((((({ b with vault := { b.vault with installer := [] } }).showInstaller false).raise (Page.ROL 3) 1).recordEnrol
        src old [] 1 1).endSessions 5 (fun _ r _ => r == 2)))) ∧
  (∀ (src : Source) (v : Word) (s : State), ready (.attestReq src v) s →
    writeOpen s src (Page.ROL 3) Reg.ROL3.ATTEST_REQ v.toNat → bit v.toNat 0 = true →
    ∃ t, exec (.attestReq src v) s = .next t ∧ t.rdB src.num (Page.ROL 3) Reg.ROL3.ATTEST_STATE = 0 ∧
      (src.num, []) ∈ t.vault.reports) ∧
  (∀ (src : Source) (s : State), ready (.attestReady src) s → (src.num, []) ∈ s.vault.reports →
    ∃ t, exec (.attestReady src) s = .next t ∧
      (src.num, s.attestBody src ++ Config.identitySign (s.attestBody src)) ∈ t.vault.reports)

/-- MAKER_GATE, DIAG_OPEN, CONSENT_EXPIRY, IDE_KEY_COMMIT, IDE_REQUIRE (R394, R395, R405, R407, R408): closing the gate ends the
maker's sessions; the functions that the consents allow open; a consent that expires no longer counts; a staged key is
programmed where IDE_SELECT says; IDE_REQUIRE holds one bit for each port. -/
def Obligations.RolesOfDeviceComplete : Prop :=
  (∀ (src : Source) (v : Word) (s : State), ready (.makerGate src v) s →
    guardOpen s src (Page.ROL 3) Reg.ROL3.MAKER_GATE v.toNat →
    let b := ruleSees s src (Page.ROL 3)
    let u := (((b.wr (Page.ROL 3) Reg.ROL3.MAKER_GATE (v.toNat % 2)).setFld (Page.ROL 3) Reg.ROL3.ENROL_STATE 2 2 v.toNat).raise
      (Page.ROL 3) 4).record 0x800A Src.deputy none (items [b.fld (Page.ROL 3) Reg.ROL3.DIAG_OPEN 7 0, 0, 1])
    exec (.makerGate src v) s = .next (guardDone s src (Page.ROL 3) Reg.ROL3.MAKER_GATE v.toNat
      (if bit v.toNat 0 then u else u.endSessions 6 (fun _ r _ => r == 3)))) ∧
  (∀ (src : Source) (v : Word) (s : State), ready (.diagOpen src v) s →
    guardOpen s src (Page.ROL 3) Reg.ROL3.DIAG_OPEN v.toNat →
    let u := (ruleSees s src (Page.ROL 3)).takeConsents src
    exec (.diagOpen src v) s = .next (guardDone s src (Page.ROL 3) Reg.ROL3.DIAG_OPEN v.toNat
      (u.setDiag ((List.range 5).foldl (fun a f => if bit v.toNat f && u.diagAllowed f then a + 2 ^ f else a) 0) 2))) ∧
  (∀ (c : Nat) (s : State), ready (.consentExpiry c) s →
    ∃ t, exec (.consentExpiry c) s = .next t ∧ ∀ e ∈ t.vault.consents, e.1 ≠ c) ∧
  (∀ (src : Source) (v : Word) (s : State), ready (.ideKeyCommit src v) s →
    guardOpen s src (Page.ROL 3) Reg.ROL3.IDE_KEY_COMMIT v.toNat → bit v.toNat 0 = true →
    let b := ruleSees s src (Page.ROL 3)
    ((b.stagedKind src 2).take 40).length = 40 →
    ∃ t, exec (.ideKeyCommit src v) s = .next t ∧
      (b.fld (Page.ROL 3) Reg.ROL3.IDE_SELECT 4 0, (b.stagedKind src 2).take 40) ∈ t.vault.ideKeys) ∧
  (∀ (src : Source) (v : Word) (s : State), ready (.ideRequire src v) s →
    guardOpen s src (Page.ROL 3) Reg.ROL3.IDE_REQUIRE v.toNat →
    exec (.ideRequire src v) s = .next (guardDone s src (Page.ROL 3) Reg.ROL3.IDE_REQUIRE v.toNat
      (((ruleSees s src (Page.ROL 3)).wr (Page.ROL 3) Reg.ROL3.IDE_REQUIRE (v.toNat % 4)).setFld
        (Page.ROL 3) Reg.ROL3.ENROL_STATE 17 16 v.toNat)))

/-! ### Claims (chapter 11) -/

/-- APPLY, STRIPE_FILL_DONE, BIND, VOLATILE, DESTROY, UNBIND, WIPE, CLEAR_DONE (R377 to R380, R396, R398): asks that nothing refuses
are staged for the next commit tally, and wait for their stripes; a RESERVED claim that binds a key of the curve is OPEN, with
BIND_COUNT one more; a command of Table 11.2 on a claim in use, none being
under way, begins its clearing, and when the clearing is complete the claim
reads EMPTY, RESERVED or OPEN, and no command waits in it. -/
def Obligations.ClaimsComplete : Prop :=
  (∀ (src : Source) (n : Nat) (v : Word) (s : State), ready (.apply src n v) s →
    guardOpen s src (Page.CLM n) Reg.CLM.APPLY v.toNat → bit v.toNat 0 = true →
    let b := ruleSees s src (Page.CLM n)
    b.applyRefusal n = 0 → b.claimState n ≠ 0 →
    let page := Page.CLM n
    let asked := b.stopeMap n Reg.CLM.STOPES_ASK
    let owned := b.stopeMap n Reg.CLM.STOPES_OWNED
    let fast := b.roundAsk false (b.rd64 page Reg.CLM.FAST_ASK_LO)
    let slow := b.roundAsk true (b.rd64 page Reg.CLM.SLOW_ASK_LO)
    let more := decide (b.rd64 page Reg.CLM.FAST_GRANT_LO < fast) || decide (b.rd64 page Reg.CLM.SLOW_GRANT_LO < slow)
    exec (.apply src n v) s = .next (guardDone s src page Reg.CLM.APPLY v.toNat
      (((b.setFld page Reg.CLM.CLAIM_STATE 23 16 0).modClaim n (fun x => { x with
        applied := some [fast, slow, b.rd page Reg.CLM.DRIFT_ASK, b.rd page Reg.CLM.HOIST_ASK], filling := more
        added := asked.filter (fun l => !owned.contains l), removed := owned.filter (fun l => !asked.contains l) })).setFld
          page Reg.CLM.CLAIM_STATE 6 6 (if more then 1 else 0)))) ∧
  (∀ (n : Nat) (s : State), ready (.stripeFillDone n) s →
    ∃ t, exec (.stripeFillDone n) s = .next t ∧ (t.claim n).filling = false ∧
      t.fld (Page.CLM n) Reg.CLM.CLAIM_STATE 6 6 = 0) ∧
  (∀ (src : Source) (n : Nat) (v : Word) (s : State), ready (.bind src n v) s →
    guardOpen s src (Page.CLM n) Reg.CLM.BIND v.toNat → bit v.toNat 0 = true →
    let b := ruleSees s src (Page.CLM n)
    let k := (b.staged src (Page.CLM n)).take 97
    b.claimState n = 1 →
    let u := ((b.drawn.modClaim n (fun x => { x with opKey := k, keyDraw := b.fresh })).drawInterleave n)
    exec (.bind src n v) s = .next (if keyOk k
      then guardDone s src (Page.CLM n) Reg.CLM.BIND v.toNat (((u.wr (Page.CLM n) Reg.CLM.BIND_COUNT
        (u.rd (Page.CLM n) Reg.CLM.BIND_COUNT + 1)).wrWords 0 (Page.CLM n) Reg.CLM.OP_KEY_HASH (Config.sha384 k).toNat 12).setClaimState
          n 2 0)
      else (b.record 0x8005 Src.deputy (some n) (items [n, 1, 1, 0, b.rd (Page.CLM n) Reg.CLM.BIND_COUNT])).respond src 0 0)) ∧
  (∀ (src : Source) (n : Nat) (v : Word) (s : State), ready (.volatile src n v) s →
    guardOpen s src (Page.CLM n) Reg.CLM.VOLATILE v.toNat →
    exec (.volatile src n v) s = .next (guardDone s src (Page.CLM n) Reg.CLM.VOLATILE v.toNat
      (((ruleSees s src (Page.CLM n)).wr (Page.CLM n) Reg.CLM.VOLATILE (v.toNat % 2)).setFld
        (Page.CLM n) Reg.CLM.CLAIM_STATE 3 3 v.toNat))) ∧
  (∀ (src : Source) (n : Nat) (v : Word) (s : State), ready (.destroy src n v) s → bits v.toNat 3 0 = 1 →
    guardOpen s src (Page.CLM n) Reg.CLM.CLAIM_CMD v.toNat →
    let b := ruleSees s src (Page.CLM n)
    b.claimState n ≠ 0 → b.claimState n ≠ 4 → b.fld (Page.CLM n) Reg.CLM.CLAIM_STATE 4 4 = 0 →
    exec (.destroy src n v) s = .next (guardDone s src (Page.CLM n) Reg.CLM.CLAIM_CMD v.toNat (b.startClearing n 1))) ∧
  (∀ (src : Source) (n : Nat) (v : Word) (s : State), ready (.unbind src n v) s → bits v.toNat 3 0 = 2 →
    guardOpen s src (Page.CLM n) Reg.CLM.CLAIM_CMD v.toNat →
    let b := ruleSees s src (Page.CLM n)
    b.claimState n = 2 ∨ b.claimState n = 3 → b.fld (Page.CLM n) Reg.CLM.CLAIM_STATE 4 4 = 0 →
    exec (.unbind src n v) s = .next (guardDone s src (Page.CLM n) Reg.CLM.CLAIM_CMD v.toNat (b.startClearing n 2))) ∧
  (∀ (src : Source) (n : Nat) (v : Word) (s : State), ready (.wipe src n v) s → bits v.toNat 3 0 = 3 →
    guardOpen s src (Page.CLM n) Reg.CLM.CLAIM_CMD v.toNat →
    let b := ruleSees s src (Page.CLM n)
    b.claimState n = 2 ∨ b.claimState n = 3 → b.fld (Page.CLM n) Reg.CLM.CLAIM_STATE 4 4 = 0 →
    exec (.wipe src n v) s = .next (guardDone s src (Page.CLM n) Reg.CLM.CLAIM_CMD v.toNat (b.startClearing n 3))) ∧
  (∀ (n : Nat) (s : State), ready (.clearDone n) s → s.claimState n = 4 →
    ∃ t, exec (.clearDone n) s = .next t ∧
      t.claimState n = (match (s.claim n).command with | 1 => 0 | 2 => 1 | _ => 2) ∧ (t.claim n).command = 0)

/-! ### Firmware (chapter 11) -/

/-- STAGE_BEGIN, STAGE_DISCARD, FW_VERIFY (R411): the staging store empties for a new image, or loses the one it holds; a whole
image is verified, and is STAGED or refused with its cause. -/
def Obligations.StagingComplete : Prop :=
  (∀ (src : Source) (v : Word) (s : State), ready (.stageBegin src v) s → writeOpen s src Page.DEP Reg.DEP.STAGE_CMD v.toNat →
    bits v.toNat 1 0 = 1 →
    let b := ruleSees s src Page.DEP
    b.stagingFree = true →
    exec (.stageBegin src v) s = .next (writeDone ((((b.wr Page.DEP Reg.DEP.STAGE_BYTES 0).wr64 Page.DEP Reg.DEP.STAGED_VERSION_LO
      0).modFw (fun x => { x with store := [], staging := true, staged := none })).setFw 1) src)) ∧
  (∀ (src : Source) (v : Word) (s : State), ready (.stageDiscard src v) s → writeOpen s src Page.DEP Reg.DEP.STAGE_CMD v.toNat →
    bits v.toNat 1 0 = 2 →
    let b := ruleSees s src Page.DEP
    b.stagingFree = true →
    exec (.stageDiscard src v) s = .next (writeDone ((((b.wr Page.DEP Reg.DEP.STAGE_BYTES 0).wr64 Page.DEP
      Reg.DEP.STAGED_VERSION_LO 0).modFw (fun x => { x with store := [], staging := false, staged := none })).setFw 0) src)) ∧
  (∀ s : State, ready .fwVerify s → s.fw.staging = true → (imageOf s.fw.store).bytes ≤ s.fw.store.length →
    256 ≤ s.fw.store.length → s.boot.recovery = false →
    s.fw.flashOk = true ∨ (imageOf s.fw.store).digest ≠ s.fw.running.digest →
    let im := imageOf s.fw.store
    let cause := s.imageCause s.fw.store
    exec .fwVerify s = .next (if cause = 0
      then (((((s.setFw 2).modFw (fun x => { x with staging := false, staged := some im })).wr64 Page.DEP
        Reg.DEP.STAGED_VERSION_LO im.ver).raise Page.DEP 0).record 0x800C Src.deputy none
          [it 1 im.ver, itH 2 (BitVec.ofNat 384 im.digest)])
      else ((((s.setFw 3).setFld Page.DEP Reg.DEP.FW_STATE 23 16 cause).modFw (fun x => { x with staging := false })).raise
        Page.DEP 1).record 0x800F Src.deputy none (items [cause])))

/-- FW_COMMIT, STANDBY_BOOTED, STANDBY_BOOT_TIMEOUT, PAIR_CURRENT, PROBATION_END, FLASH_WRITE_DONE, FW_REVERT, FUSE_BURN (R412 to
R415): each phase of a commit follows the one before and is recorded with 0x800D; what does not boot in time returns to STAGED;
the image that passes its probation is written to flash; the floor never decreases. -/
def Obligations.FirmwareComplete : Prop :=
  (∀ (src : Source) (v : Word) (im : Image) (s : State), ready (.fwCommit src v) s →
    guardOpen s src Page.DEP Reg.DEP.FW_COMMIT v.toNat → bit v.toNat 0 = true →
    let b := ruleSees s src Page.DEP
    b.fw.staged = some im → b.fwState = 2 →
    exec (.fwCommit src v) s = .next (guardDone s src Page.DEP Reg.DEP.FW_COMMIT v.toNat
      (((b.setFw 4).modFw (fun x => { x with reverting := false, phase := 1 })).recordSwitch b.fw.running.ver im.ver 1))) ∧
  (∀ (im : Image) (s : State), ready .standbyBooted s → s.fwState = 4 → s.fw.phase = 1 → s.fw.reverting = false →
    s.fw.staged = some im →
    ∃ t, exec .standbyBooted s = .next t ∧ t.fw.running = im ∧ t.fw.old = some s.fw.running ∧ t.fw.phase = 2 ∧
      t.rd64 Page.DEP Reg.DEP.FW_VERSION_LO = im.ver % 2 ^ 64) ∧
  (∀ s : State, ready .standbyBootTimeout s → s.fwState = 4 → s.fw.phase = 1 →
    exec .standbyBootTimeout s = .next ((((s.setFw (if s.fw.reverting then 5 else 2)).modFw
      (fun x => { x with phase := 0, reverting := false })).setFld Page.DEP Reg.DEP.FW_STATE 23 16 9).record
        0x800F Src.deputy none (items [9]))) ∧
  (∀ (old : Image) (s : State), ready .pairCurrent s → s.fwState = 4 → s.fw.phase = 2 → s.fw.reverting = false →
    s.fw.old = some old →
    exec .pairCurrent s = .next ((((s.modFw (fun x => { x with phase := 0, reverting := false })).setFld Page.DEP
      Reg.DEP.FW_STATE 6 6 1).setFw 5).raise Page.DEP 2 |>.recordSwitch old.ver s.fw.running.ver 3)) ∧
  (∀ s : State, ready .probationEnd s → s.fwState = 5 →
    exec .probationEnd s = .next ((s.setFw 6).modFw (fun x => { x with old := none }))) ∧
  (∀ (retries : Nat) (s : State), ready (.flashWriteDone retries) s → s.fwState = 6 → retries ≤ 3 →
    exec (.flashWriteDone retries) s = .next (((((s.setFw 0).modFw (fun x =>
      { x with flash := x.running, flashOk := true, staged := none, store := [] })).count Page.DEP Reg.DEP.FLASH_WRITES 0 1).raise
        Page.DEP 3).record 0x800E Src.deputy none (items [0, retries, 0]))) ∧
  (∀ (src : Source) (v : Word) (old : Image) (s : State), ready (.fwRevert src v) s →
    guardOpen s src Page.DEP Reg.DEP.FW_REVERT v.toNat → bit v.toNat 0 = true →
    let b := ruleSees s src Page.DEP
    b.fw.old = some old → b.fwState = 5 →
    exec (.fwRevert src v) s = .next (guardDone s src Page.DEP Reg.DEP.FW_REVERT v.toNat
      (((b.setFw 4).modFw (fun x => { x with reverting := true, phase := 1 })).recordSwitch b.fw.running.ver old.ver 4))) ∧
  (∀ (src : Source) (v : Word) (s : State), ready (.fuseBurn src v) s → guardOpen s src Page.DEP Reg.DEP.FUSE_BURN v.toNat →
    bit v.toNat 0 = true →
    let b := ruleSees s src Page.DEP
    b.fwState ≠ 4 → b.fwState ≠ 5 →
    let floor := max (b.rd64 Page.DEP Reg.DEP.FW_FLOOR_LO) b.fw.running.ver
    exec (.fuseBurn src v) s = .next (guardDone s src Page.DEP Reg.DEP.FUSE_BURN v.toNat
      ((b.wr64 Page.DEP Reg.DEP.FW_FLOOR_LO floor).record 0x8013 Src.deputy none (items [floor]))))

/-! ### Integrity (chapter 10) -/

/-- TEST_COMPLETE, WATCH_WINDOW_END, TEST_DUE, TEST_OVERDUE, STOPE_TEST, FULL_TEST (R354, R362, R363): a test that passes clears
its due mark; a WATCHED stope whose window ends with fewer than two failures and a test passed is in service again; a test is
due after its interval, overdue after twice that, and at once where it is asked for. -/
def Obligations.TestsComplete : Prop :=
  (∀ (p : Nat) (s : State), ready (.testComplete p none) s → (s.stope p).integ ≠ 2 → (s.stope p).slotted = false →
    (s.logicalOf p = none ∨ s.jobActive (s.claimServed p) = false ∨ (s.stope p).testing = true) →
    exec (.testComplete p none) s = .next (((s.modStope p (fun x =>
      { x with testOk := true, testAt := s.osc, testDue := false, overTest := false, testing := false })).count
        Page.INT Reg.INT.TESTS_PASSED 8 1).testRecord p 1 0 0)) ∧
  (∀ (p : Nat) (s : State), ready (.watchWindowEnd p) s → (s.stope p).integ = 1 → (s.stope p).proposed = false →
    (s.stope p).windowAt + s.fld Page.INT Reg.INT.WATCH_WINDOW 23 0 * 1000000000 ≤ s.osc → (s.stope p).fails < 2 →
    (s.stope p).testOk = true →
    ∃ t, exec (.watchWindowEnd p) s = .next t ∧ (t.stope p).integ = 0 ∧ (t.stope p).fails = 0) ∧
  (∀ (p : Nat) (s : State), ready (.testDue p) s → (s.stope p).integ ≠ 2 → (s.stope p).testAt + s.testInterval p ≤ s.osc →
    exec (.testDue p) s = .next (s.modStope p (fun y => { y with testDue := true }))) ∧
  (∀ (p : Nat) (s : State), ready (.testOverdue p) s → (s.stope p).integ ≠ 2 → (s.stope p).overTest = false →
    (s.stope p).testAt + 2 * s.testInterval p < s.osc →
    exec (.testOverdue p) s = .next (((s.modStope p (fun y => { y with overTest := true })).raise Page.INT 7).record 0x700C
      (Src.stope p) none (items [p, (s.osc - (s.stope p).testAt) / 1000000000]))) ∧
  (∀ (src : Source) (v : Word) (s : State), ready (.stopeTest src v) s → guardOpen s src Page.INT Reg.INT.STOPE_TEST v.toNat →
    bit v.toNat 16 = true → bits v.toNat 10 0 < 1056 →
    let b := ruleSees s src Page.INT
    (b.stope (bits v.toNat 10 0)).integ ≠ 2 →
    exec (.stopeTest src v) s = .next (guardDone s src Page.INT Reg.INT.STOPE_TEST v.toNat
      (b.modStope (bits v.toNat 10 0) (fun x => { x with testDue := true })))) ∧
  (∀ (src : Source) (v : Word) (s : State), ready (.fullTest src v) s → guardOpen s src Page.INT Reg.INT.FULL_TEST v.toNat →
    bit v.toNat 0 = true →
    let b := ruleSees s src Page.INT
    (∀ c < 64, b.jobActive c = false) →
    exec (.fullTest src v) s = .next (guardDone s src Page.INT Reg.INT.FULL_TEST v.toNat
      (b.each (List.range 1056) (fun u p => u.on ((u.stope p).integ != 2) (fun w =>
        w.modStope p (fun x => { x with testDue := true, testing := true }))))))

/-- TEST_SLOT, TEST_SLOT_END, RELIEF_PREP, RELIEF_PREP_DONE (R360, R361): in every row the first due stope with a relief stope
prepared hands its work over and is tested; at the end of the slot it serves again; a relief stope that has passed its own test
takes the codes of its target, and reads PREPARED once its assay is done. -/
def Obligations.TestSlotsComplete : Prop :=
  (∀ (c e : Nat) (j : Job) (h : HoistE) (s : State), ready (.testSlot c e) s → s.hoistFor c e 11 = some (j, h) →
    exec (.testSlot c e) s = .next ((s.startRun c e h 1).each (List.range 32) (fun u row =>
      match u.slotStope (u.targetLogical c h) row with
      | none => u
      | some (x, y) => ((u.fenceTiles x tcTest).modStope x (fun z => { z with slotted := true, testing := true })).handOver x y))) ∧
  (∀ (c e : Nat) (ends : List (Nat × Option (Nat × Nat))) (j : Job) (h : HoistE) (s : State), ready (.testSlotEnd c e ends) s →
    s.job? c = some j → j.entries[e]? = some h → h.action = 11 → (j.run e).started = true → (j.run e).complete = false →
    let xs := ((s.targetLogical c h).map s.serving).filter (fun p => decide (p < 1056) && (s.stope p).slotted)
    exec (.testSlotEnd c e ends) s = .next ((s.each xs (fun u x => (u.slotReturn x).on ((ends.map (·.1)).contains x) (fun w =>
      w.testEnd x ((ends.find? (fun q => q.1 == x)).bind (·.2))))).hoistDone c e)) ∧
  (∀ (p target lp : Nat) (s : State), ready (.reliefPrep p target true) s → s.idleRelief p = true → (s.stope p).integ ≠ 2 →
    (s.stope p).prep = none → s.prepTarget p = some target →
    let u := (s.testPassed p).modStope p (fun y =>
      { (List.range 17).foldl (fun w a => w.setArr a { w.arr a with assayed := false }) y with
        prep := some target, prepared := false, selfTest := true, due := true })
    u.logicalOf target = some lp →
    exec (.reliefPrep p target true) s = .next (u.each (List.range 16) (fun w k => w.copySeam p target lp k))) ∧
  (∀ (p target : Nat) (s : State), ready (.reliefPrepDone p) s → (s.stope p).prep = some target → (s.stope p).selfTest = true →
    (s.stope p).prepared = false → (s.stope p).due = false → (s.stope target).proposed = false →
    exec (.reliefPrepDone p) s = .next (s.modStope p (fun y => { y with prepared := true })))

/-- STOPE_RETIRE, HEARTBEAT_LOSS, CORE_TAKEOVER, ROUTER_TAKEOVER, CANARY_COMMIT, CANARY_REMOVE, CAPTURE_RELEASE (R355, R358,
R359, R365, R366): a stope is proposed for retirement, and fenced where it has fallen silent; a takeover of one of twins is counted
and recorded; a pack takes its slot or is refused with its cause; a released capture is recorded with a copy for the maker. -/
def Obligations.RetirementComplete : Prop :=
  (∀ (src : Source) (v : Word) (s : State), ready (.stopeRetire src v) s →
    guardOpen s src Page.INT Reg.INT.STOPE_RETIRE v.toNat → bit v.toNat 16 = true → bits v.toNat 10 0 < 1056 →
    let b := ruleSees s src Page.INT
    (b.stope (bits v.toNat 10 0)).integ ≠ 2 →
    exec (.stopeRetire src v) s = .next (guardDone s src Page.INT Reg.INT.STOPE_RETIRE v.toNat
      (if b.idleRelief (bits v.toNat 10 0) then b.modStope (bits v.toNat 10 0) (fun x => { x with proposed := true, why := 13 })
       else b.propose (bits v.toNat 10 0) 13))) ∧
  (∀ (p : Nat) (s : State), ready (.heartbeatLoss p) s → (s.stope p).integ ≠ 2 →
    exec (.heartbeatLoss p) s = .next ((((s.setFn (Page.STX p) 4).stopeFailure p 9).propose p 9).modStope p
      (fun x => { x with fenced := true, why := 9 }))) ∧
  (∀ (lockstep : Bool) (s : State), ready (.coreTakeover lockstep) s → s.fwState ≠ 4 → s.fw.lost = 0 →
    let cause := if lockstep then 1 else 2
    exec (.coreTakeover lockstep) s = .next (((((s.modFw (fun x => { x with lost := 1 })).setFld Page.DEP Reg.DEP.FW_STATE 6 6
      0).count Page.INT Reg.INT.TAKEOVERS 10 1).raise Page.INT 10).record 0x7011 Src.deputy none (items [Src.deputy, cause]))) ∧
  (∀ (p : Nat) (s : State), ready (.routerTakeover p) s → (s.stope p).routerAlone = false →
    let u := s.modStope p (fun x => { x with routerAlone := true })
    exec (.routerTakeover p) s = .next (((u.count Page.INT Reg.INT.TAKEOVERS 10 1).raise Page.INT 10).record 0x7011
      (Src.stope p) none (items [Src.stope p, 1]))) ∧
  (∀ (src : Source) (v : Word) (s : State), ready (.canaryCommit src v) s →
    guardOpen s src Page.INT Reg.INT.CANARY_COMMIT v.toNat → bit v.toNat 0 = true →
    let b := ruleSees s src Page.INT
    let x := packOf (b.staged src Page.INT)
    b.packs = [] →
    let cause := b.packCause (b.staged src Page.INT)
    exec (.canaryCommit src v) s = .next (if cause = 0
      then guardDone s src Page.INT Reg.INT.CANARY_COMMIT v.toNat (((({ b with packs := [(1, x)] } : State).showPacks).raise
        Page.INT 8).recordBy src 0x700D Src.deputy none [it 1 x.id, it 2 x.ver, itH 3 (BitVec.ofNat 384 x.digest)])
      else ((b.raise Page.INT 8).recordBy src 0x700E Src.deputy none (items [x.id, cause])).respond src 0 0)) ∧
  (∀ (src : Source) (v : Word) (s : State), ready (.canaryRemove src v) s →
    guardOpen s src Page.INT Reg.INT.CANARY_REMOVE v.toNat → bit v.toNat 8 = true →
    let b := ruleSees s src Page.INT
    let k := bits v.toNat 3 0
    k ≠ 0 → b.packs.any (fun e => e.1 == k) = true →
    exec (.canaryRemove src v) s = .next (guardDone s src Page.INT Reg.INT.CANARY_REMOVE v.toNat
      (({ b with packs := Sparse.drop k b.packs } : State).showPacks.raise Page.INT 8))) ∧
  (∀ (src : Source) (v : Word) (h : Held) (s : State), ready (.captureRelease src v) s →
    guardOpen s src Page.INT Reg.INT.CAPTURE_RELEASE v.toNat →
    let b := ruleSees s src Page.INT
    let c := b.sessClaim src
    b.capturedRec c v.toNat = some h →
    exec (.captureRelease src v) s = .next (guardDone s src Page.INT Reg.INT.CAPTURE_RELEASE v.toNat
      (b.enqueue { code := 0x700F, unit := Src.deputy, role := b.roleOf src, source := src.num, claim := some c
                   tai := if b.disciplined then b.tally else 0, items := items [v.toNat, c], hidden := [], maker := h.body.hidden })))

/-! ### Upkeep of the seams (chapter 8) -/

/-- WRITE_ROW_SIDE, WRITE_LIST_BLOCK, SEAM_QUIET, RELIEF_COPY_DONE, AGEING_COPY (R271, R274, R276, R277, R282): a row side whose
turn it is takes its target levels, and its pulses are counted; the next block of a write list arrives; a seam whose passes are done may be written
in place; a relief seam that holds its target, fitted, reads STAGED. -/
def Obligations.WritesComplete : Prop :=
  (∀ (p k row rank : Nat) (neg : Bool) (before after : List (Nat × Int)) (more : List (List (Nat × Int))) (s : State),
    ready (.writeRowSide p k row neg before after more) s →
    s.sideRank p k row neg = some rank → rank ≠ 0 → rank ≠ 1 → k < 16 → s.holdAll = false → s.arrLocked p k = false →
    (s.arr p k).vec = none → s.channelTakes p k rank = true →
    let off := before.filter offTarget
    let done := pulseLoop 4 off (after :: more)
    off ≠ [] → (∀ x ∈ done.2, x.2.natAbs ≤ 512) →
    let u := (s.modStope p (fun x => { x with sides := x.sides.filter (fun q => !(q.arr == k && q.row == row && q.neg == neg)) })).setSide
      p k row neg
    let w := ((u.modArr p k (fun x => { x with effort := addEffort x.effort done.1 off.length })).countWrites p k (row / 32)).modArr p k
      (fun x => { x with pulsed := if x.pulsed.contains (row / 32) then x.pulsed else x.pulsed ++ [row / 32] })
    exec (.writeRowSide p k row neg before after more) s = .next ((w.stubbornCells p k row neg []).settleList p k)) ∧
  (∀ (lp k : Nat) (q : Packet) (s : State), ready (.writeListBlock lp k) s → s.serving lp < 1056 → s.holdAll = false →
    s.seamsLocked (s.serving lp) = false →
    let p := s.serving lp
    s.mesh.find? (fun y => y.kind == 2 && y.dst == p && y.tag.headD 31 == k) = some q → s.mayArrive q = true →
    let u := (s.meshLand q).modStope p (fun x => { x with lists := x.lists.map (fun w =>
      if w.seam == k && w.claim == q.claim && !w.whole then { w with arrived := w.arrived + 1 } else w) })
    exec (.writeListBlock lp k) s = .next (u.settleList p (u.receiver p k))) ∧
  (∀ (lp k : Nat) (s : State), ready (.seamQuiet lp k) s → s.serving lp < 1056 → s.passesDone lp k = true →
    s.receiver (s.serving lp) k = k →
    exec (.seamQuiet lp k) s = .next ((s.modArr (s.serving lp) k (fun x => { x with quiet := true })).settleList (s.serving lp) k)) ∧
  (∀ (p window : Nat) (s : State), ready (.reliefCopyDone p window) s → s.cycle p = 1 → (s.stope p).copyFit = true →
    s.holdsTarget p 16 = true → (∀ q ∈ (s.stope p).sides, q.arr ≠ 16) →
    exec (.reliefCopyDone p window) s = .next ((s.modStope p (fun y => { y with
      windows := (s.stope p).windows.filter (fun e => decide (e.1 < (s.stope p).winAt)) ++ [((s.stope p).winAt, window)] })).setCycle
        p 3 (s.standsFor p))) ∧
  (∀ s : State, ready .ageingCopy s → exec .ageingCopy s = .next (s.each s.stopeNos (fun u p => u.copyAgeing p)))

/-- DRIFT_PROBE, ASSAY_DUE, ASSAY_OVERDUE, ASSAY_FORCE, ARRAY_ASSAY, ARRAY_ASSAY_DONE, WRITE_EFFORT_REPLAN, ASSAY_SLOT,
ASSAY_SLOT_END (R285, R287 to R291, R298, R521): a probe gives a row group's estimate or its baseline; an assay is due when R288 says so,
takes an array at a time, and its fits become targets; the 65,536th row-side write re-plans the amplitude. -/
def Obligations.AssayComplete : Prop :=
  (∀ (p k g : Nat) (sum : Int) (s : State), ready (.driftProbe p k g sum) s → s.arrLocked p k = false → g < 15 →
    (s.arr p k).pulsed.contains g = false → (s.arr p k).refresh.contains g = false →
    let e := (sum - Sparse.get 1536 (s.arr p k).base g).natAbs * s.groupLevel p k g * 1024 / 1536
    exec (.driftProbe p k g sum) s = .next ((s.modArr p k (fun y => { y with probes := Sparse.set 0 y.probes g e })).on
      s.bootSlot (fun u => u.startRefresh p k))) ∧
  (∀ (p : Nat) (temp : Int) (s : State), ready (.assayDue p temp) s →
    let x := s.stope p
    let since := (s.osc - x.lastAt) / 1000000000
    let far := decide (s.fld Page.ASY Reg.ASY.DTEMP 9 0 < (temp - x.tA).natAbs) && decide (s.fld Page.ASY Reg.ASY.MIN_INTERVAL 5 0 ≤ since)
    exec (.assayDue p temp) s = .next (s.modStope p (fun y =>
      { y with tNow := temp, due := y.due || far || decide (s.fld Page.ASY Reg.ASY.MAX_INTERVAL 9 0 ≤ since) }))) ∧
  (∀ (p : Nat) (s : State), ready (.assayOverdue p) s → (s.stope p).overdue = false →
    let since := (s.osc - (s.stope p).lastAt) / 1000000000
    s.fld Page.ASY Reg.ASY.MAX_INTERVAL 9 0 + 60 ≤ since →
    exec (.assayOverdue p) s = .next (((s.modStope p (fun y => { y with due := true, overdue := true })).raise Page.ASY 2).upkeepRec
      p 31 0x1019 (items [since]))) ∧
  (∀ (src : Source) (v : Word) (s : State), ready (.assayForce src v) s → guardOpen s src Page.ASY Reg.ASY.ASSAY_FORCE v.toNat →
    bit v.toNat 16 = true → bits v.toNat 10 0 < 1056 →
    exec (.assayForce src v) s = .next (guardDone s src Page.ASY Reg.ASY.ASSAY_FORCE v.toNat
      ((ruleSees s src Page.ASY).modStope (bits v.toNat 10 0) (fun x => { x with due := true })))) ∧
  (∀ (p k : Nat) (s : State), ready (.arrayAssay p k) s → s.assayOpen p k = true → s.roundDue p = false →
    exec (.arrayAssay p k) s = .next (s.modArr p k (fun y => { y with assaying := true }))) ∧
  (∀ (p k : Nat) (m : AssayMeas) (s : State), ready (.arrayAssayDone p k m) s → (s.arr p k).assaying = true →
    let f := (s.arr p k).fitConv m.conv
    let g := f.1.fitCells (s.targetPlan p k) (s.fld Page.ASY Reg.ASY.FIT_DET_MIN 16 0) m.cells
    let changed := decide (g.1.convT ≠ (s.arr p k).convT) || decide (g.1.cellT ≠ (s.arr p k).cellT)
    let counts := s.roundDue p && (decide (k < 16) || s.cycle p == 0 || (s.stope p).inSlot)
    let u := s.modStope p (fun y =>
      { (y.setArr k { g.1 with assaying := false, fitted := true, fitDue := false, assayed := (s.arr p k).assayed || counts }) with
        changed := if changed then y.changed + 1 else y.changed, copyFit := y.copyFit || (k == 16 && s.cycle p == 1) })
    exec (.arrayAssayDone p k m) s = .next (((((u.markFits p k f.2 g.2).each ((List.range 16).zip m.probes) (fun w q =>
      w.probeGroup p k q.1 q.2)).ageReadings p m.sigma m.rho).endRound p))) ∧
  (∀ (p k : Nat) (s : State), ready (.writeEffortReplan p k) s → 65536 ≤ (s.arr p k).effort.1 →
    0 < (s.arr p k).effort.2.2 → 5 * (s.arr p k).effort.2.2 < 2 * (s.arr p k).effort.2.1 →
    (s.arr p k).amp < 15 →
    exec (.writeEffortReplan p k) s = .next ((s.modArr p k (fun y => { y with effort := (0, 0, 0) })).makeReplan p 3 k
      ((s.arr p k).effort.2.1 * 1000 / (s.arr p k).effort.2.2) (s.arr p k).amp ((s.arr p k).amp + 1))) ∧
  (∀ (c e : Nat) (j : Job) (h : HoistE) (s : State), ready (.assaySlot c e) s → s.hoistFor c e 10 = some (j, h) →
    let u := s.startRun c e h 1
    exec (.assaySlot c e) s = .next (u.each (u.targetStopes c h) (fun w p => (List.range 17).foldl (fun x a => x.startRefresh p a)
      (w.modStope p (fun x => { x with inSlot := true }))))) ∧
  (∀ (c e : Nat) (j : Job) (h : HoistE) (s : State), ready (.assaySlotEnd c e) s → s.job? c = some j → j.entries[e]? = some h →
    h.action = 10 → (j.run e).started = true → (j.run e).complete = false →
    exec (.assaySlotEnd c e) s = .next ((s.each (s.targetStopes c h) (fun u p => u.modStope p
      (fun x => { x with inSlot := false }))).hoistDone c e))

/-! ### The memory tiers (chapters 6, 7 and 10) -/

/-- MIGRATE_STRIPE, QUEUE_WINDOW, CHAN_RETIRE, SLOW_STACK_RETIRE (R212, R213, R214): a stripe moves to its new mapping, the last one
ending the migration; a window without a channel over ends every channel's run of windows; a pair with GO retires the channel that it names. -/
def Obligations.TiersComplete : Prop :=
  (∀ (slow : Bool) (c cause : Nat) (s : State), ready (.migrateStripe slow) s → (s.tier slow).active = some (c, cause) →
    let u := s.moveStripe slow c
    exec (.migrateStripe slow) s = .next (if s.stripes c slow ≤ u.movedStripes slow c then u.endMigration slow c
      else u.showMigration slow)) ∧
  (∀ (slow : Bool) (depths : List Nat) (busiest : Nat) (s : State), ready (.queueWindow slow depths busiest) s →
    let l := s.channels slow
    let d := l.zip (depths ++ List.replicate (l.length - depths.length) 0)
    let sum := d.foldl (fun a x => a + x.2) 0
    let n := max 1 l.length
    (∀ x ∈ d, x.2 * n ≤ 2 * sum ∨ sum < 16 * n) →
    exec (.queueWindow slow depths busiest) s = .next ((((s.showWorst slow d).wrTier slow Reg.FTC.QUEUE_MEAN Reg.MIL.QUEUE_MEAN
      (min 65535 (sum / n))).modTier slow (fun x => { x with runs := [] })).wrTier slow Reg.FTC.IMBAL_RUN Reg.MIL.IMBAL_RUN 0)) ∧
  (∀ (src : Source) (stack : Nat) (v : Word) (s : State), ready (.chanRetire src stack v) s →
    guardOpen s src (Page.FTC stack) Reg.FTC.CHAN_RETIRE v.toNat → bit v.toNat 8 = true →
    exec (.chanRetire src stack v) s = .next (guardDone s src (Page.FTC stack) Reg.FTC.CHAN_RETIRE v.toNat
      ((ruleSees s src (Page.FTC stack)).retireChannel false (32 * stack + bits v.toNat 4 0) 0))) ∧
  (∀ (src : Source) (page : Nat) (v : Word) (s : State), ready (.slowStackRetire src page v) s →
    guardOpen s src (Page.MIL page) Reg.MIL.CHAN_RETIRE v.toNat → bit v.toNat 8 = true → bits v.toNat 2 0 < 6 →
    exec (.slowStackRetire src page v) s = .next (guardDone s src (Page.MIL page) Reg.MIL.CHAN_RETIRE v.toNat
      ((ruleSees s src (Page.MIL page)).retireChannel true (6 * page + bits v.toNat 2 0) 0)))

/-- SCRUB_READ, SCRUB_PASS_END, BLOCK_ARRIVAL, STASH_WRITE, SPILL_COMPLETE, RECOMPUTE_RUN (R227, R229, R340 to R344): an allocated
block is read, checked and counted; the end of a pass starts its count anew; a block that fails its check on every hop is charged
to the router of its route that sent it; a formed stash that fits is held in the fast tier; a spilled one frees its space to those
that wait; a recompute run
starts towards the highest marked layers. -/
def Obligations.BlocksComplete : Prop :=
  (∀ (c addr fails : Nat) (s : State), ready (.scrubRead c addr fails) s → s.addrOk c (addr / 4096 * 4096) 4096 = true →
    exec (.scrubRead c addr fails) s = .next (((s.modTier (addr / 2 ^ 46 == 1) (fun t => { t with scrub := t.scrub + 1 })).readBlock
      c addr fails).showScrub)) ∧
  (∀ (slow : Bool) (s : State), ready (.scrubPassEnd slow) s → (∀ c < 64, (s.claim c).lostMore = false) →
    ∃ t, exec (.scrubPassEnd slow) s = .next t ∧ (t.tier slow).scrub = 0 ∧ t.claims = s.claims ∧ t.marks = s.marks) ∧
  (∀ (way : MeshHop) (c addr fails : Nat) (s : State), ready (.blockArrival way c addr fails) s →
    let p := sendingRouter way.src (landingStop way.dst addr way.relay) way.hop
    let u := s.on (decide (0 < min 4 fails)) (fun x => x.count Page.INT Reg.INT.HOP_FAILS 3 (min 4 fails))
    exec (.blockArrival way c addr fails) s = .next (if fails < 4 then u else
      ((u.stopeFailure p 7).record 0x7003 (Src.stope p) (some c)
        (items [2, addr / 4096 * 4096, c, s.contentClass c addr])).unsoundIf c)) ∧
  (∀ (c layer mb e : Nat) (j : Job) (x : Stash) (s : State), ready (.stashWrite c layer mb) s → s.job? c = some j →
    j.stash? layer mb = some x → j.passOf layer mb = some e → x.tier = tierForming → (j.run e).left ≤ 1 →
    j.occupancy + x.held ≤ j.usable →
    exec (.stashWrite c layer mb) s = .next (((s.setJob c (j.modStash layer mb (fun y => { y with tier := tierFast }))).showStock
      c).stashDone c layer mb)) ∧
  (∀ (c layer mb : Nat) (j : Job) (x : Stash) (s : State), ready (.spillComplete c layer mb) s → s.job? c = some j →
    j.stash? layer mb = some x → x.tier = tierSpilling →
    exec (.spillComplete c layer mb) s = .next ((((s.setJob c (j.modStash layer mb (fun y => { y with tier := tierSpilled }))).showStock
      c).tierTraffic true).placeWaiting c)) ∧
  (∀ (c mb top : Nat) (rest : List Nat) (j : Job) (s : State), ready (.recomputeRun c mb) s → s.job? c = some j →
    s.jobActive c = true → s.sealing.phase = 0 → j.runsFreed mb = true → j.recomp = none → j.targets mb = top :: rest →
    let lo := j.segStart (j.segLow top mb) mb
    let way := j.order.filter (fun l => decide (lo ≤ l) && decide (l ≤ top))
    exec (.recomputeRun c mb) s = .next ((s.setJob c { j with recomp := some (mb, way, top :: rest), regen := [] }).runLayer c))

/-! ### Jobs (chapter 5) -/

/-- LOAD, START, JOB_RUN_BEGIN, IMAGE_FETCH_DONE (R175, R176, R211, R264, R265): a descriptor in order whose checks find nothing
makes the job READY, one that fails is REFUSED with the lowest reason; a READY job that has started before is STARTING with new
keys; it runs once its write lists are applied and every member that holds part of it had reported READY. -/
def Obligations.JobStartComplete : Prop :=
  (∀ (src : Source) (s : State), ready (.load src) s → writeOpen s src Page.HOI Reg.HOI.JOB_CMD 1 →
    let b := ruleSees s src Page.HOI
    let c := b.jobClaim src
    b.jobState c = 0 ∨ b.jobState c = 6 → b.hoiOpen = true → b.claimState c = 2 →
    let u := (((b.wrStock c Reg.FTC.SPILLS 0).wrStock c Reg.FTC.RECOMPUTES 0).wrStock c Reg.FTC.STOCK_PEAK 0).setJobState c 1 1
    descOk (b.staged src Page.HOI) = true →
    let f := u.findFaults c (descOf (b.staged src Page.HOI))
    let w := f.state.showPlacement c f
    exec (.load src) s = .next (writeDone (match lowestWhy f.why with
      | some y => ((w.refuseJob c y).setReason c y.1).setJobState c 6 1
      | none => (w.acceptJob c f.job).setJobState c 2 1) src)) ∧
  (∀ (src : Source) (j : Job) (s : State), ready (.start src) s → writeOpen s src Page.HOI Reg.HOI.JOB_CMD 2 →
    let b := ruleSees s src Page.HOI
    let c := b.jobClaim src
    b.job? c = some j → b.jobState c = 2 → b.hoiOpen = true → b.claimState c = 2 → j.first = false →
    exec (.start src) s = .next (writeDone (((b.setJobState c 3 2).rekeyAtStart c).modJob c (fun k =>
      { k with first := false, stopDue := false, abortDue := false, lostRun := 0, streak := 0 })).reportStarting src)) ∧
  (∀ (c : Nat) (j : Job) (s : State), ready (.jobRunBegin c) s → s.job? c = some j → s.jobState c = 3 → s.listsApplied c = true →
    s.allReady j.number s.slotOrigin = true →
    exec (.jobRunBegin c) s = .next (s.setJobState c 4 0)) ∧
  (∀ (c base : Nat) (j : Job) (s : State), ready (.imageFetchDone c base) s → s.job? c = some j → s.jobState c = 2 →
    s.hoiOpen = true →
    let u := { s with casc := { s.casc with restarts := s.casc.restarts.filter (fun (e : Nat × Nat) => e.1 != j.number) } }
    let k := { j with desc := { j.desc with ckptBase := base }, first := false, stopDue := false, abortDue := false, lostRun := 0
                      streak := 0 }
    exec (.imageFetchDone c base) s =
      .next (((((u.setJob c { k with desc := j.desc }).setJobState c 3 2).rekeyAtStart c).firstStart c k).reportStarting))

/-- PROBE_STEP, STOP, SWAP, UNLOAD, ABORT (R145, R177, R178): the probe of a cold start sets the scales layer by layer; STOP waits
for the next seal whose window it precedes; a new table that passes the checks of LOAD and differs in what may differ waits for a
seal; UNLOAD leaves NONE; ABORT makes the step unsound, with its own cause. -/
def Obligations.JobEndComplete : Prop :=
  (∀ (c : Nat) (j : Job) (s : State), ready (.probeStep c) s → s.job? c = some j → j.probe = true → j.probeDone = false →
    s.jobState c = 4 → s.sealing.phase = 0 →
    exec (.probeStep c) s = .next ((j.probeOrder.foldl (fun (p : Probe) d => p.layer c d)
      ({ state := s, outs := [] } : Probe)).state.modJob c (fun k => { k with probeDone := true, lastWork := s.tally }))) ∧
  (∀ (src : Source) (s : State), ready (.stop src) s → writeOpen s src Page.HOI Reg.HOI.JOB_CMD 3 →
    let b := ruleSees s src Page.HOI
    let c := b.jobClaim src
    b.jobState c = 4 →
    exec (.stop src) s = .next (writeDone ((b.modJob c (fun j =>
      { j with stopDue := decide ((b.sealW : Int) ≤ b.toSeal) && b.sealing.phase == 0 })).setJobState c 5 3) src)) ∧
  (∀ (src : Source) (j : Job) (s : State), ready (.swap src) s → writeOpen s src Page.HOI Reg.HOI.JOB_CMD 4 →
    let b := ruleSees s src Page.HOI
    let c := b.jobClaim src
    b.job? c = some j → b.jobState c = 4 → b.hoiOpen = true → b.claimState c = 2 → descOk (b.staged src Page.HOI) = true →
    let d := descOf (b.staged src Page.HOI)
    let f := b.findFaults c d
    f.why = [] → swapFields j.desc d = true → f.job.sets.length = j.sets.length →
    (∀ x ∈ j.sets, (f.job.sets.map (·.id)).contains x.id = true) → (b.sealW : Int) ≤ b.toSeal →
    exec (.swap src) s = .next (writeDone (f.state.setJob c { j with swap := some (d, f.job.entries) }) src)) ∧
  (∀ (src : Source) (s : State), ready (.unload src) s → writeOpen s src Page.HOI Reg.HOI.JOB_CMD 5 →
    let b := ruleSees s src Page.HOI
    let c := b.jobClaim src
    b.jobState c = 2 ∨ b.jobState c = 6 →
    exec (.unload src) s = .next (writeDone (b.unload c 5) src)) ∧
  (∀ (src : Source) (v : Word) (s : State), ready (.abort src v) s → guardOpen s src Page.HOI Reg.HOI.ABORT v.toNat →
    bit v.toNat 0 = true →
    let b := ruleSees s src Page.HOI
    let c := b.jobClaim src
    b.jobActive c = true →
    let u := (b.modJob c (fun j => { j with cause := 0 })).unsound c 6 0xFFFFFFFF
    exec (.abort src v) s = .next (guardDone s src Page.HOI Reg.HOI.ABORT v.toNat
      ((u.dropWork c 3 (fun _ => false)).modJob c (fun j => { j with abortDue := true }))))

/-! ### The seal (chapter 5) -/

/-- SEAL, VERDICT, VERDICT_ARRIVAL, VERDICT_DEADLINE (R187, R188): at T+0 what is unfinished makes its job unsound and its work in
flight is dropped; the verdict holds a bit for each unsound job; the headframe's decision holds every verdict that arrived, and
the step numbers that it leaves. -/
def Obligations.VerdictComplete : Prop :=
  (∀ s : State, ready .sealLaunch s → s.sealing.phase = 0 → s.holdAll = false →
    let u := { s with sealing := { State.reset.sealing with phase := 1, slot := s.slotNo, upkeep := s.sealing.upkeep } }
    let w := u.each u.stepClaims (fun x c => x.launchJob c)
    exec .sealLaunch s = .next (w.each w.stopeNos (fun x p => x.lateLists p))) ∧
  (∀ s : State, ready .verdict s → s.sealing.phase = 1 →
    let u := s.each s.stepClaims (fun x c => x.lateChecks c)
    exec .verdict s = .next (({ u with sealing := { u.sealing with phase := 2, verdict := BitVec.ofNat 64 u.verdictMask } }).sendVerdict
      u.memberNo u.verdictMask)) ∧
  (∀ (m : Nat) (mask : BitVec 64) (s : State), ready (.verdictArrival m mask) s → 0 < s.sealing.phase → s.sealing.phase < 3 →
    let u := { s with sealing := { s.sealing with got := Sparse.place m mask (Sparse.drop m s.sealing.got) } }
    exec (.verdictArrival m mask) s = .next ((u.modPeer m (fun p => { p with missed := 0 })).sendVerdict m mask.toNat)) ∧
  (∀ s : State, ready .verdictDeadline s → s.sealing.phase = 2 → s.isHead = true → s.silent = [] → s.casc.losses = [] →
    s.fld Page.CAS Reg.CAS.HEADFRAME 27 16 = 0xFFF →
    let mask := s.sealing.got.foldl (fun (a : Nat) e => a ||| e.2.toNat) s.sealing.verdict.toNat
    let after := s.stepsAfter mask
    exec .verdictDeadline s = .next (({ s with
      casc := { s.casc with steps := after }
      sealing := { s.sealing with
        phase := 3, decision := some (BitVec.ofNat 64 mask, s.epoch + 1), steps := after.map (fun (x : Nat × Nat × Nat) => (x.1, x.2.1)) } }).broadcast))

/-- DECISION_HOLD, DECISION_ACK, DECISION_RECEIVE, DECISION_DEADLINE, SEAL_COMMIT (R188, R189, R190): the standby holds the
decision; the headframe broadcasts it; a member stages it and commits it at the commit tally; without one it stops all
work and leaves the cascade. -/
def Obligations.DecisionComplete : Prop :=
  (∀ (mask : BitVec 64) (after : SealNumbers) (s : State), ready (.decisionHold mask after) s → s.fld Page.CAS Reg.CAS.STATE 2 0 = 5 →
    s.sealing.phase ≠ 0 →
    exec (.decisionHold mask after) s = .next (({ s with sealing := { s.sealing with
      standby := some (mask, after.epoch), heldSteps := after.steps } }).sendMsg
      (OutMsg.plain 4 (s.fld Page.CAS Reg.CAS.HEADFRAME 11 0) [6, after.epoch]))) ∧
  (∀ (mask : BitVec 64) (epoch : Nat) (s : State), ready .decisionAck s → s.sealing.phase = 3 → s.isHead = true →
    s.sealing.decision = some (mask, epoch) →
    exec .decisionAck s = .next ((({ s with sealing := { s.sealing with phase := 4 } }).toMembers 4
      ([4, mask.toNat, epoch] ++ flatPairs s.sealing.steps)).stageSeal)) ∧
  (∀ (mask : BitVec 64) (after : SealNumbers) (s : State), ready (.decisionReceive mask after) s → s.sealing.phase ≠ 0 →
    s.sealing.phase ≠ 4 → s.sealing.staged = false →
    let u := { s with sealing := { s.sealing with phase := 4, decision := some (mask, after.epoch), steps := after.steps } }
    let w := u.each (u.jobs.map (·.1)) (fun x c => x.stageJob c mask.toNat after.epoch)
    exec (.decisionReceive mask after) s = .next { w with sealing := { w.sealing with staged := true } }) ∧
  (∀ s : State, ready .decisionDeadline s → s.sealing.phase ≠ 0 → s.sealing.decision = none → s.jobs = [] →
    exec .decisionDeadline s = .next (({ s.record 0x500B Src.deputy none (items [s.epoch, 0]) with
      sealing := State.reset.sealing }).dropReports.leaveCascade)) ∧
  (∀ (mask : BitVec 64) (epoch : Nat) (s : State), ready .sealCommit s → s.sealing.phase = 4 →
    s.sealing.decision = some (mask, epoch) →
    exec .sealCommit s = .next (s.stageSeal.commitSeal mask.toNat epoch))

/-! ### The mill (chapter 7) -/

/-- MILL_PUSH, PUSH_ACCEPT, SET_UPDATE, RESYNC, FREEZE_DONE, CKPT_SEND_DONE (R244, R247, R249, R261, R262): a push waits for its
blocks, is accepted for the step that its set waits for, and is taken in turn; the captured image goes to the buddy, and CKPT_STEP
shows it when it has arrived. -/
def Obligations.MillComplete : Prop :=
  (∀ (c e ix : Nat) (j : Job) (h : HoistE) (s : State), ready (.millPush c e) s → s.hoistFor c e 8 = some (j, h) →
    j.setIx h.result = some ix → j.pushedBy e h.result = false →
    let u := (s.readsTensor c e h.a h.mb h.serve).startRun c e h 1
    exec (.millPush c e) s = .next { u with mill := { u.mill with waiting := u.mill.waiting ++ [(c, e, ix)] } }) ∧
  (∀ (c e ix : Nat) (j : Job) (h : HoistE) (d : SetD) (x : SetS) (l : LayerD) (w : Nat × Nat × Nat) (s : State),
    ready (.pushAccept c ix) s → s.job? c = some j → s.mill.waiting.find? (fun w => w.1 == c && w.2.2 == ix) = some w → w.2.1 = e →
    j.entries[e]? = some h → j.sets[ix]? = some d → j.sstate[ix]? = some x → j.setLayer d = some l → d.kind = 0 →
    j.gathers l h.a = false → s.operandReady c j e h h.a h.mb = true → s.sealing.phase = 0 → s.jobStep c = x.next →
    x.resync = false →
    exec (.pushAccept c ix) s = .next (({ s with mill := { s.mill with
      waiting := s.mill.waiting.filter (fun w => !(w.1 == c && w.2.2 == ix)) } }).acceptPush c e ix x.next j h)) ∧
  (∀ (c e ix n : Nat) (rest : List (Nat × Nat × Nat × Nat)) (j : Job) (h : HoistE) (d : SetD) (x : SetS) (l : LayerD)
    (s : State), ready (.setUpdate true) s → s.mill.queue = (c, e, ix, n) :: rest → s.sealing.phase = 0 → s.frozenOut = false →
    s.job? c = some j → j.entries[e]? = some h → j.sets[ix]? = some d → j.sstate[ix]? = some x → j.setLayer d = some l →
    exec (.setUpdate true) s =
      .next (({ s with mill := { s.mill with queue := rest } }).showQueued.updateDense c ix n j h d l x)) ∧
  (∀ (c step : Nat) (j : Job) (s : State), ready (.resync c step) s → s.job? c = some j → (∀ x ∈ j.sstate, x.next = step) →
    exec (.resync c step) s = .next ((s.setJob c { j with sstate := j.sstate.map (fun x => { x with resync := false }) }).millRec
      0x4009 c noSet [step, 0, 0])) ∧
  (∀ (c n : Nat) (j : Job) (s : State), ready (.freezeDone c) s → s.mill.freezing.find? (fun e => e.1 == c) = some (c, n) →
    s.job? c = some j →
    let u := { s with mill := { s.mill with freezing := s.mill.freezing.filter (fun e => e.1 != c) } }
    u.buddy = 0xFFF →
    exec (.freezeDone c) s = .next (u.setCkpt c 0 0 1).showCkpt.showQueued) ∧
  (∀ (c n : Nat) (j : Job) (s : State), ready (.ckptSendDone c) s → s.mill.sending.find? (fun e => e.1 == c) = some (c, n) →
    s.job? c = some j →
    let u := { s with mill := { s.mill with sending := s.mill.sending.filter (fun e => e.1 != c) } }
    let w := ((u.setCkpt c 1 1 1).wr64B (claimBank c) (Page.MIL 0) Reg.MIL.CKPT_STEP_LO n).modPeer s.memberNo (fun p =>
      { p with ckpt := Sparse.place j.number n (Sparse.drop j.number p.ckpt) })
    exec (.ckptSendDone c) s =
      .next (((w.millRec 0x4005 c noSet [n, s.buddy, j.imageBlocks]).raiseMil c 4).showCkpt))

/-! ### The power governor and the tally (chapters 5 and 4) -/

/-- GOV_WINDOW, MARKER_SEND, TALLY_MARKER, MARKER_LOSS (R168, R170, R193): while p_est is above the budget a giver's ratio that
stands 4 above its floor falls by 4 and the keeper's stays; a headframe sends its marker on every drift; a port that is up
echoes a marker, and a follower loses its source. -/
def Obligations.TallyComplete : Prop :=
  (∀ (vcore icore : List Nat) (s : State), ready (.govWindow vcore icore) s →
    let est := s.estimate (s.corePower vcore icore)
    0 < s.lossRatio.1 * s.lossRatio.2 →
    s.rd Page.PWR Reg.PWR.BUDGET_IN_FORCE < est →
    s.seamGives = bit (s.rd Page.HOI Reg.HOI.GOV_STATE) 16 →
    let g := s.rd Page.HOI Reg.HOI.GOV_STATE
    let lead := if s.seamGives then bits g 14 8 else bits g 6 0
    s.fld Page.HOI Reg.HOI.GOV_FLOOR 5 0 + 4 ≤ lead →
    let ah := if s.seamGives then bits g 6 0 else bits g 6 0 - 4
    let az := if s.seamGives then bits g 14 8 - 4 else bits g 14 8
    let fixed := decide (16 ≤ s.gov.ovf)
    let word := ah + az * 256 + (if s.seamGives then 2 ^ 16 else 0) + 2 ^ 17 + (if fixed then 2 ^ 18 else 0)
    let u := ({ s with gov := { s.gov with ovf := min 16 s.gov.ovf } }).wr Page.HOI Reg.HOI.GOV_STATE word
    let v := u.on (!bit g 17) (fun x => x.raise Page.HOI 3)
    let x := v.on (fixed && !bit g 18) (fun x => (x.raise Page.HOI 4).record 0x500A Src.deputy none
      (items [est, s.rd Page.PWR Reg.PWR.BUDGET_IN_FORCE]))
    exec (.govWindow vcore icore) s =
      .next ((x.limitWindow est (s.rd Page.PWR Reg.PWR.BUDGET_IN_FORCE)).clampWindow)) ∧
  (∀ s : State, ready .markerSend s → s.isHead = true →
    exec .markerSend s = .next (s.each s.upPorts (fun u n =>
      u.sendMarker n u.tally (u.rd Page.CAS Reg.CAS.HEAD_EPOCH) 0 false))) ∧
  (∀ (n value epoch hops delay : Nat) (ref : Bool) (s : State), ready (.tallyMarker n value epoch hops ref delay true) s →
    s.portUp n = true →
    let u := (((s.count64 (Page.DRF n) Reg.DRF.RX_TUBS_LO 4 1).wr (Page.DRF n) Reg.DRF.LINK_DELAY (delay / 2)).sendMarker n
      value epoch hops true)
    (u.port n).follow = true → u.rd Page.CAS Reg.CAS.HEAD_EPOCH ≤ epoch →
    let w := (u.heardHead epoch).modPort n (fun p => { p with hops := min 255 hops })
    w.fld Page.CAS Reg.CAS.STATE 2 0 = 3 → w.upstream = some n →
    exec (.tallyMarker n value epoch hops ref delay true) s = .next (w.follow n value epoch hops ref delay)) ∧
  (∀ s : State, ready .markerLoss s →
    (s.fld Page.TAL Reg.TAL.STATUS 2 0 = 2 ∨ s.fld Page.TAL Reg.TAL.STATUS 2 0 = 3) →
    let u := s.each (List.range 12) (fun x n => x.modPort n (fun p => { p with hops := 255 }))
    let v := ({ u with clock := { u.clock with echoes := [] } }).wr Page.TAL Reg.TAL.UPSTREAM 0xFFFF
    exec .markerLoss s = .next ((v.setSource 0).count Page.TAL Reg.TAL.MARKER_LOSSES 0 1))

/-- REF_PPS_EDGE, PPS_MISSING, REF_CLK_REJECT, TALLY_SET, TALLY_STORE, GRID_SET, GRID_TAKES_EFFECT (R165 to R167, R172, R173): at the
headframe an edge within 100 ns is accepted; the third that is rejected or missing, and a REF_CLK outside 50 ppm, end REF or
ACQUIRING in FREE with REF_FAULTS, event 1 and record 0x5002; while no job runs tally is set to the staged calendar second, or at
the next edge; it is stored; a grid within the limits is accepted, told to the members, and in force from its origin. -/
def Obligations.ReferenceComplete : Prop :=
  (∀ (err : Int) (s : State), ready (.refPpsEdge err) s → s.isHead = true →
    let out := ({ s with clock := { s.clock with refRun := 0, miss := s.clock.miss + 1 } }).setFld Page.TAL Reg.TAL.STATUS 5 5 0
    exec (.refPpsEdge err) s = .next (if err.natAbs ≤ 100 then s.edgeAccepted
      else if 2 ≤ s.clock.miss then out.loseRef 0 err else out)) ∧
  (∀ s : State, ready .ppsMissing s → s.isHead = true →
    let u := s.setFld Page.TAL Reg.TAL.STATUS 5 5 0
    let src := u.fld Page.TAL Reg.TAL.STATUS 2 0
    (src = 1 ∨ src = 4) →
    let v := { u with clock := { u.clock with refRun := 0, miss := 0 } }
    exec .ppsMissing s = .next ((((v.setSource 0).count Page.TAL Reg.TAL.REF_FAULTS 1 1).raise Page.TAL 1).record 0x5002
      (Src.cascade 0) none [itS 1 0, itS 2 0])) ∧
  (∀ (ppm : Int) (s : State), ready (.refClkReject ppm) s → s.isHead = true → 50 < ppm.natAbs →
    let u := s.setFld Page.TAL Reg.TAL.STATUS 4 4 0
    let src := u.fld Page.TAL Reg.TAL.STATUS 2 0
    (src = 1 ∨ src = 4) →
    let v := { u with clock := { u.clock with refRun := 0, miss := 0 } }
    exec (.refClkReject ppm) s = .next ((((v.setSource 0).count Page.TAL Reg.TAL.REF_FAULTS 1 1).raise Page.TAL 1).record 0x5002
      (Src.cascade 0) none [itS 1 ppm, itS 2 0])) ∧
  (∀ (src : Source) (v : Word) (s : State), ready (.tallySet src v) s → guardOpen s src Page.TAL Reg.TAL.TALLY_SET v.toNat →
    let b := ruleSees s src Page.TAL
    let second := b.rd64 Page.TAL Reg.TAL.SET_SECOND_LO
    let from' := b.fld Page.TAL Reg.TAL.STATUS 2 0
    bit v.toNat 0 = true → b.isHead = true → b.jobsRun = false →
    exec (.tallySet src v) s = .next (guardDone s src Page.TAL Reg.TAL.TALLY_SET v.toNat
      (if from' = 1 ∨ from' = 4 then { b with clock := { b.clock with setPending := some second } } else b.setCalendar second))) ∧
  (∀ s : State, ready .tallyStore s →
    exec .tallyStore s = .next { s with clock := { s.clock with stored := s.tally } }) ∧
  (∀ (src : Source) (v : Word) (s : State), ready (.gridSet src v) s → guardOpen s src Page.HOI Reg.HOI.GRID_SET v.toNat →
    let b := ruleSees s src Page.HOI
    let p := b.rd64 Page.HOI Reg.HOI.GRID_PERIOD_LO
    let o := b.rd64 Page.HOI Reg.HOI.GRID_ORIGIN_LO
    let w := b.rd Page.HOI Reg.HOI.GRID_SEAL_W
    bit v.toNat 0 = true → b.isHead = true → b.jobsLoaded = false → b.tally + 1000000000 ≤ o →
    100000 ≤ p → p ≤ 60000000000 → 4000 + 500 * b.fld Page.CAS Reg.CAS.DIAMETER 7 0 ≤ w → 2 * w ≤ p →
    let u := b.recordBy src 0x5009 (Src.cascade 0) none (items [o, p, w, 0])
    exec (.gridSet src v) s = .next (guardDone s src Page.HOI Reg.HOI.GRID_SET v.toNat
      (({ u with clock := { u.clock with grid := some (o, p, w) } }).toMembers 5 [11, o, p, w]))) ∧
  (∀ (o p w : Nat) (s : State), ready .gridTakesEffect s → s.clock.grid = some (o, p, w) →
    let u := { s with clock := { s.clock with grid := none } }
    exec .gridTakesEffect s = .next (((u.wr64 Page.HOI Reg.HOI.PERIOD_LO p).wr64 Page.HOI Reg.HOI.ORIGIN_LO o).wr
      Page.HOI Reg.HOI.SEAL_W w))

/-! ### The hewers (chapter 3) -/

/-- HEW_DX, HEW_DW, TILE_START, LEAF_END, PART_ROOT_ARRIVAL, TILE_DRAIN (R94, R97, R100, R109): a hewer hoist whose operands are
ready gives its work units to the claim's hewers; a free hewer takes the first unit in the order of ready work; a leaf whose
sums agree pushes its nodes, and one whose sums do not fails its tile with cause 1, or 3 where accumulators saturated; the roots of
a tile's parts are combined at part 0's stope; a whole tile is drained behind the fence. -/
def Obligations.HewersComplete : Prop :=
  (∀ (c e : Nat) (j : Job) (h : HoistE) (d : LayerD) (g : Geo) (s : State), ready (.hewDx c e) s → s.hoistFor c e 2 = some (j, h) →
    j.layer? h.layer = some d → j.geo h = some g → s.operandsReady c j e h d = true →
    exec (.hewDx c e) s = .next (((s.readsTensor c e h.a h.mb h.serve).startRun c e h g.tiles).queueUnits c e g)) ∧
  (∀ (c e : Nat) (j : Job) (h : HoistE) (d : LayerD) (g : Geo) (s : State), ready (.hewDw c e) s → s.hoistFor c e 3 = some (j, h) →
    j.layer? h.layer = some d → j.geo h = some g → s.operandsReady c j e h d = true →
    exec (.hewDw c e) s = .next (((s.readsTensor c e h.b h.mb h.serve).startRun c e h g.tiles).queueUnits c e g)) ∧
  (∀ (p : Nat) (w : WorkUnit) (j : Job) (h : HoistE) (d : LayerD) (g : Geo) (s : State), ready (.tileStart p) s →
    s.hewerFree p = true → s.nextUnit p = some w → s.unitWork w = some (j, h, d, g) →
    (h.free = true → -(65536 * 256) ≤ (s.stope p).allow) →
    let t := tileOf w j g
    let u := s.modStope p (fun x =>
      { x with queue := x.queue.erase w, tile := some t, allow := x.allow - (64 * 256 * t.leaves : Nat) })
    let v := u.setFld (Page.STX p) Reg.STX.HEW_STATE 5 5 (1 - s.fld (Page.STX p) Reg.STX.HEW_STATE 5 5)
    exec (.tileStart p) s = .next (((v.noteReservedCode p t j d g).beginRead w.claim j h d).afterLeaf p)) ∧
  (∀ (p : Nat) (dev : List (Nat × Nat × Int)) (t : Tile) (j : Job) (h : HoistE) (d : LayerD) (g : Geo) (s : State),
    ready (.leafEnd p dev true) s → (s.stope p).tile = some t → s.unitWork t.unit = some (j, h, d, g) → t.next < t.leaves →
    let c := t.unit.claim
    let l := t.first + t.next
    let x := s.leafOf c j h d g t l
    let a := accum x dev
    let u := ((s.countStp64 p Reg.STP.HEW_MACS_LO 8 262144).countStp64 p Reg.STP.HEW_BUSY_LO 9 64).noteNonfinite p t j x
    let after := match leafCheck a.1 with
      | some m => ((u.noteMiss p t j x m).each a.2 (fun y v => y.noteSat p t v)).tileFailed p 1 t h
      | none =>
        if a.2 = [] then (u.setTile p (some { t with
          next := t.next + 1, issued := t.issued + 1
          stack := pushNodes (s.treeCtx c j h.result 0) g t 64 0 l (leafNodes x a.1) t.stack })).afterLeaf p
        else ((u.each a.2 (fun y v => y.noteSat p t v)).noteOther p t a.2 l).tileFailed p 3 t h
    exec (.leafEnd p dev true) s = .next after) ∧
  (∀ (c e : Nat) (part : PartArrival) (q : Packet) (s : State), ready (.partRootArrival c e part) s →
    s.meshFind c e 1 [part.unit] = some q → s.mayArrive q = true →
    exec (.partRootArrival c e part) s = .next (((s.meshLand q).modJob c (fun j => { j with roots := j.roots.map (fun r =>
      if r.entry == e && r.unit == part.unit then { r with here := true } else r) })).joinParts c e part.unit part.dupOk)) ∧
  (∀ (p : Nat) (t : Tile) (rest : List Tile) (j : Job) (h : HoistE) (d : LayerD) (g : Geo) (s : State), ready (.tileDrain p true) s →
    (s.stope p).drains = t :: rest → s.unitWork t.unit = some (j, h, d, g) → (j.run t.unit.entry).split = 0 →
    let u := (s.wr (Page.STX p) Reg.STX.FENCE_MAX 96).modStope p (fun x => { x with drains := x.drains.erase t })
    exec (.tileDrain p true) s = .next (u.drainTile p t j h d g (t.root (s.treeCtx t.unit.claim j h.result 0) g))) ∧
  (∀ (p : Nat) (t : Tile) (rest : List Tile) (j : Job) (h : HoistE) (d : LayerD) (g : Geo) (s : State), ready (.tileDrain p true) s →
    (s.stope p).drains = t :: rest → s.unitWork t.unit = some (j, h, d, g) → (j.run t.unit.entry).split ≠ 0 →
    s.homeOf (j.run t.unit.entry) t.unit.unit = p → t.unit.unit % 2 ^ (j.run t.unit.entry).split = 0 →
    let u := (s.wr (Page.STX p) Reg.STX.FENCE_MAX 96).modStope p (fun x => { x with drains := x.drains.erase t })
    let root : PartRoot := { entry := t.unit.entry, unit := t.unit.unit, here := true
                             nodes := (t.root (s.treeCtx t.unit.claim j h.result 0) g).map (fun (n : Node) => n.word), again := t.failed }
    exec (.tileDrain p true) s = .next ((u.modJob t.unit.claim (fun y => { y with
      roots := y.roots.filter (fun x => !(x.entry == root.entry && x.unit == root.unit)) ++ [root] })).joinParts
        t.unit.claim t.unit.entry t.unit.unit true))

/-! ### The seams and the head collar (chapter 2) -/

/-- SEAM_PASS, VECTOR_READ, VECTOR_READ_DONE, SPLIT_PART_READ, ZERO_VECTOR (R53 to R55, R63, R64, R66, R68, R194): a pass whose
input is ready is queued on the arrays of the seams that it covers; a free array begins a vector; its last read fails its
witness check, is divided where a conversion saturated, or gives the column values; a vector that drives no row gives zeros. -/
def Obligations.SeamsComplete : Prop :=
  (∀ (c e : Nat) (j : Job) (h : HoistE) (d : LayerD) (s : State), ready (.seamPass c e) s → s.hoistFor c e 1 = some (j, h) →
    j.layer? h.layer = some d → h.recompute = false → h.ref = false → j.hewerOnly h.layer = false →
    s.operandReady c j e h h.a h.mb = true → (d.pool = 0 ∨ j.dim0 h.a % d.pool = 0) →
    (∀ x ∈ j.covered h d, ∀ q, j.seamAt d.layer x.1 x.2 = some q → s.seamRefused c q.1 q.2 = false) →
    let stash := if h.serve || !j.desc.train then 0 else 1
    exec (.seamPass c e) s = .next ((((s.readsTensor c e h.a h.mb h.serve).startRun c e h
      ((j.heads h d).length * j.dim0 h.a + stash)).beginStashOf c h d).queuePass c e d (j.covered h d) 0 (j.dim0 h.a) false)) ∧
  (∀ (p k : Nat) (w : SeamJob) (h : HoistE) (d : LayerD) (j : Job) (bytes : List Nat) (s : State), ready (.vectorRead p k) s →
    s.vectorAt p k = some (w, h, d, j, bytes) → planesOf bytes 0 512 ≠ [] →
    (h.free = true → -(65536 * 256) ≤ (s.arr p k).allow) →
    let lp := (s.worksFor p).getD 0
    let seam := (s.seamOf p k).getD 0
    s.seamBusy lp seam = false →
    let range (col : Nat) : Nat := if col < 512 then s.rangeOf lp seam (col / 8) else 0
    let digital := ((s.arr p k).unfit.take 4).filter (fun col => decide (w.cb * 512 + col < d.outputs))
    let v : VecRead :=
      { job := w, vec := w.next, bytes := bytes, parts := [(0, 512)], split := false, deepest := 512, acc := [], band := []
        coefs := (List.range 516).map (fun col =>
          (((s.arr p k).convAt col (range col)).1, ((s.arr p k).convAt col (range col)).2, range col))
        digital := digital.map (fun col => (col, s.exactColumn w.claim j d w.rb (w.cb * 512 + col) bytes))
        inst := j.cur w.layer, lp := lp, seam := seam }
    exec (.vectorRead p k) s = .next (((s.takeVector p seam w h.serve).modArr p k (fun b => { b with
      vec := some v, allow := b.allow - ((planesOf bytes 0 512).length * 40 * 256 : Nat) })).noteColumns w.claim w.entry p j d
        w.cb w.rb digital)) ∧
  (∀ (p k : Nat) (codes : List (List Int)) (v : VecRead) (h : HoistE) (d : LayerD) (s : State),
    ready (.vectorReadDone p k codes) s → (s.arr p k).vec = some v → v.parts = [(0, 512)] → v.split = false →
    (s.job? v.job.claim).bind (fun j => j.work v.job.entry) = some h →
    (s.job? v.job.claim).bind (fun j => j.layer? v.job.layer) = some d →
    let planes := planesOf v.bytes 0 512
    let reads := planes.zip (codes.map (fun l => l.map clipCode))
    (∀ r ∈ reads, witCheck v 0 512 (s.fld (Page.STX p) Reg.STX.WIT_TOL 5 0) r.1 r.2 = none ∧ planeSaturated v r.2 = false) →
    let u := (s.countPlanes p v planes.length).modArr p k (fun a => { a with vec := none })
    exec (.vectorReadDone p k codes) s =
      .next (u.vectorDone p (addPlanes v 0 512 reads) (columnValues (addPlanes v 0 512 reads)) false)) ∧
  (∀ (p k first n : Nat) (rest : List (Nat × Nat)) (codes : List (List Int)) (v : VecRead) (h : HoistE) (d : LayerD) (s : State),
    ready (.splitPartRead p k codes) s → (s.arr p k).vec = some v → v.parts = (first, n) :: rest → v.split = true →
    (s.job? v.job.claim).bind (fun j => j.work v.job.entry) = some h →
    (s.job? v.job.claim).bind (fun j => j.layer? v.job.layer) = some d →
    let planes := planesOf v.bytes first n
    let reads := planes.zip (codes.map (fun l => l.map clipCode))
    (∀ r ∈ reads, witCheck v first n (s.fld (Page.STX p) Reg.STX.WIT_TOL 5 0) r.1 r.2 = none ∧ planeSaturated v r.2 = false) →
    let u := s.countPlanes p v planes.length
    let w := addPlanes v first n reads
    exec (.splitPartRead p k codes) s = .next (if rest = []
      then (u.modArr p k (fun a => { a with vec := none })).vectorDone p w (columnValues w) false
      else u.modArr p k (fun a => { a with vec := some { w with parts := rest } }))) ∧
  (∀ (p k : Nat) (w : SeamJob) (h : HoistE) (d : LayerD) (j : Job) (bytes : List Nat) (s : State), ready (.zeroVector p k) s →
    s.vectorAt p k = some (w, h, d, j, bytes) → planesOf bytes 0 512 = [] →
    let seam := (s.seamOf p k).getD 0
    let v : VecRead :=
      { job := w, vec := w.next, bytes := bytes, parts := [], split := false, deepest := 512, acc := [], band := List.replicate 512 0
        coefs := [], digital := [], inst := j.cur w.layer, lp := (s.worksFor p).getD 0, seam := seam }
    exec (.zeroVector p k) s = .next ((s.takeVector p seam w h.serve).vectorDone p v (List.replicate 512 0) true))

/-- CHAIN_PARTIAL, HEWER_RELIEF_TILE, HEAD_COLLAR_OUTPUT, RANGE_RECHECK (R56, R57, R283, R346, R347): a partial block reaches
the head collar; the exact block of a CLOSED seam joins them; with all row blocks there the head collar converts and
activates the sums, and releases them or holds those beyond their envelope; what a recheck confirms is released. -/
def Obligations.CollarsComplete : Prop :=
  (∀ (c layer cb rb vec : Nat) (j : Job) (x : Partial) (s : State), ready (.chainPartial c layer cb rb vec) s → s.job? c = some j →
    j.partials.find? (fun y => y.layer == layer && y.cb == cb && y.rb == rb && y.vec == vec && !y.here) = some x →
    (∀ q ∈ s.mesh, q.kind ≠ 0 ∨ q.tag ≠ [cb, vec, rb]) →
    exec (.chainPartial c layer cb rb vec) s = .next (s.modJob c (fun i => { i with partials := i.partials.map (fun y =>
      if y == x then { y with here := true } else y) }))) ∧
  (∀ (c layer cb rb vec : Nat) (j : Job) (x : Partial) (q : Packet) (s : State), ready (.chainPartial c layer cb rb vec) s →
    s.job? c = some j →
    j.partials.find? (fun y => y.layer == layer && y.cb == cb && y.rb == rb && y.vec == vec && !y.here) = some x →
    s.meshFind c x.entry 0 [cb, vec, rb] = some q → s.mayArrive q = true →
    exec (.chainPartial c layer cb rb vec) s = .next ((s.meshLand q).modJob c (fun i => { i with partials := i.partials.map (fun y =>
      if y == x then { y with here := true } else y) }))) ∧
  (∀ (c layer cb rb vec e : Nat) (j : Job) (d : LayerD) (q : Nat × Nat) (h : HoistE) (s : State),
    ready (.hewerReliefTile c layer cb rb vec) s → s.job? c = some j → j.wants layer cb rb vec = some e →
    j.layer? layer = some d → j.seamAt layer cb rb = some q → j.entries[e]? = some h → s.seamClosed q.1 q.2 = true →
    s.hewers c ≠ [] → (s.sealing.phase = 0 ∨ h.serve = true) → s.holdAll = false → s.clampActs = false →
    s.reservedIn c (j.codesBase d (j.cur layer) (cb * d.rowBlocks + rb)) (min 512 (d.inputs - rb * 512))
      (min 512 (d.outputs - cb * 512)) = none →
    let bytes := s.inputBytes c j h d rb vec
    let x : Partial :=
      { entry := e, layer := layer, cb := cb, rb := rb, vec := vec, here := false, failed := false
        vals := (List.range 512).map (fun k =>
          if k < min 512 (d.outputs - cb * 512) then s.exactColumn c j d rb (cb * 512 + k) bytes else 0)
        band := List.replicate 512 0, again := false, inst := j.cur layer }
    exec (.hewerReliefTile c layer cb rb vec) s =
      .next ((s.modJob c (fun y => { y with partials := y.partials ++ [x] })).sendPartial ((s.hewers c).headD 0) x c)) ∧
  (∀ (c layer cb vec e : Nat) (j : Job) (d : LayerD) (l : List Partial) (h : HoistE) (x0 : Partial) (s : State),
    ready (.headCollarOutput c layer cb vec true) s → s.job? c = some j → j.layer? layer = some d →
    j.complete d cb vec = some (e, l) → j.entries[e]? = some h → l.find? (fun x => x.rb == 0) = some x0 →
    let p := ((j.seamAt layer cb 0).bind (fun q => s.actor q.1)).getD 0x7FF
    let ys := (List.range (min 512 (d.outputs - cb * 512))).map (fun k =>
      collarValue ⟨chainSum l k, -19⟩ (j.form h.a h.mb).beta (s.gainAt c j d x0.inst (cb * 512 + k))
        (s.biasAt c j d x0.inst (cb * 512 + k)))
    let acts := ys.map (activate d.act d.p0 d.p1)
    let m := s.monitor c layer (cb * 512) ys
    exec (.headCollarOutput c layer cb vec true) s = .next (if m.2 = [] then
        m.1.releaseVector c e p h d cb vec (l.any (·.again)) acts
      else m.1.modJob c (fun y => { y with acts :=
        { entry := e, layer := layer, cb := 8 * cb, vec := vec, vals := acts, wait := m.2 } :: y.acts }))) ∧
  (∀ (c layer cb vec : Nat) (j : Job) (d : LayerD) (row : ActRow) (h : HoistE) (s : State),
    ready (.rangeRecheck c layer cb vec) s → s.job? c = some j → j.layer? layer = some d →
    j.acts.find? (fun a => a.layer == layer && a.cb == 8 * cb && a.vec == vec && a.wait != []) = some row →
    j.entries[row.entry]? = some h →
    let l := j.partials.filter (fun x => x.entry == row.entry && x.cb == cb && x.vec == vec)
    let p := ((j.seamAt layer cb 0).bind (fun q => s.actor q.1)).getD 0x7FF
    let inst := match l.find? (fun x => x.rb == 0) with | some x => x.inst | none => 0
    let noted := s.each (List.range d.rowBlocks) (fun u rb =>
      u.noteColumns c row.entry p j d cb rb (row.wait.map (fun col => col % 512)))
    let seen := row.wait.map (fun col => (col, chainSum l (col % 512), s.exactChain c j h d vec col,
      l.foldl (fun a x => a + nth 0 x.band (col % 512)) 0))
    (∀ x ∈ seen, (x.2.1 - x.2.2.1).natAbs * 2 ^ 45 ≤ x.2.2.2) →
    let u := noted.each seen (fun w x =>
      let env := j.env layer x.1
      let y := collarValue ⟨x.2.1, -19⟩ (j.form h.a h.mb).beta (w.gainAt c j d inst x.1) (w.biasAt c j d inst x.1)
      (w.count Page.INT Reg.INT.EXCURSIONS 7 1).record 0x7006 (Src.stope p) (some c)
        (items [layer, x.1, y, nth 0 env 2, nth 0 env 3]))
    exec (.rangeRecheck c layer cb vec) s =
      .next (u.releaseVector c row.entry p h d cb vec (l.any (·.again)) row.vals))

/-! ### BAR0 and stream windows (chapter 12) -/

/-- REGISTER_WRITE, BIT_ALIAS_WRITE, CAPTURE_READ, EVT_FLAG_CLEAR (R433, R434, R440, R441): a whole-word write changes the writable
bits of an RW word, a write to a bit alias one of them; a read of a low word returns it and captures all 64 bits; ones clear
the source's own flags. -/
def Obligations.WordsComplete : Prop :=
  (∀ (src : Source) (addr off : Nat) (v : Word) (s : State), ready (.registerWrite src addr v 15) s →
    beyondBar0 addr = false → viewAt (addrPage addr) (addrOff addr) = .word off → accOf (addrPage addr) off = .rw → 0x40 ≤ off →
    [PType.hoi, .pro, .rol, .rol3, .dep, .mon].contains (pageType (addrPage addr)) = false →
    s.openPair src (addrPage addr) = none → writeOpen s src (addrPage addr) off v.toNat →
    let b := s.touch src
    let k := b.bankFor src (addrPage addr) off
    let m := writeMask (addrPage addr) off
    let w := b.rdB k (keptOn (addrPage addr) off) off
    exec (.registerWrite src addr v 15) s = .next (((b.wrB k (keptOn (addrPage addr) off) off
      (w - (w &&& m) + (v.toNat &&& m))).config b src (addrPage addr) off (b.rdB k (addrPage addr) off) v.toNat).respond src 0 0)) ∧
  (∀ (src : Source) (addr off i : Nat) (v : Word) (s : State), ready (.bitAliasWrite src addr v) s →
    beyondBar0 addr = false → viewAt (addrPage addr) (addrOff addr) = .bitOf off i → accOf (addrPage addr) off = .rw → 0x40 ≤ off →
    [PType.hoi, .pro, .rol, .rol3, .dep, .mon].contains (pageType (addrPage addr)) = false →
    bit (writeMask (addrPage addr) off) i = true →
    let b := s.touch src
    let k := b.bankFor src (addrPage addr) off
    let m := writeMask (addrPage addr) off
    let w := b.rdB k (keptOn (addrPage addr) off) off
    let x := putBits w i i (v.toNat % 2)
    s.openPair src (addrPage addr) = none → writeOpen s src (addrPage addr) off x →
    b.mayWrite src (addrPage addr) off (b.rdB k (addrPage addr) off) = true →
    exec (.bitAliasWrite src addr v) s = .next (((b.wrB k (keptOn (addrPage addr) off) off
      (w - (w &&& m) + (x &&& m))).config b src (addrPage addr) off (b.rdB k (addrPage addr) off) x).respond src 0 0)) ∧
  (∀ (src : Source) (addr off : Nat) (s : State), ready (.captureRead src addr) s →
    beyondBar0 addr = false → viewAt (addrPage addr) (addrOff addr) = .word off → accOf (addrPage addr) off = .ro → accOf (addrPage addr) (off + 4) = .rl →
    let b := s.touch src
    b.answers src = true → b.mayRead src (addrPage addr) off = true →
    ∃ t, exec (.captureRead src addr) s = .next t ∧
      Sparse.get Resp.none t.resp src.num =
        { status := 0, data := BitVec.ofNat 32 (b.liveWord src (addrPage addr) off), addr := 0 } ∧
      (t.caps.find? (fun e => e.1 == src.num)).map (·.2) =
        some { page := addrPage addr, off := off, val := b.live64 src (addrPage addr) off } ∧
      t.regs = s.regs ∧ t.mem = s.mem) ∧
  (∀ (src : Source) (page : Nat) (v : Word) (s : State), ready (.evtFlagClear src page v) s →
    writeOpen s src (landPage page) Reg.HDR.EVT_FLAG v.toNat →
    let b := ruleSees s src (landPage page)
    let f := b.rdB src.num (landPage page) Reg.HDR.EVT_FLAG
    exec (.evtFlagClear src page v) s =
      .next (writeDone (b.wrB src.num (landPage page) Reg.HDR.EVT_FLAG (f - (f &&& v.toNat))) src))

/-- GUARD_PAIR_OPEN, COMPLEMENT_WRITE, GUARD_PAIR_TIMEOUT, ENABLE_SET, ENABLE_CLEAR, DRAIN_COMPLETE (R432, R436, R437): a write of a
value to an RWG register opens a pair; its complement at the register's complement within 1 µs gives the value to the register's
rule; a pair that nothing closes ends in the microsecond with cause 1. A function that is OFF passes STARTING and comes ON; one in
service drains; a drain that is complete leaves the page OFF, or ON where ENABLE was set meanwhile. -/
def Obligations.PairsComplete : Prop :=
  (∀ (src : Source) (addr off : Nat) (v : Word) (s : State), ready (.guardPairOpen src addr v) s →
    beyondBar0 addr = false → viewAt (addrPage addr) (addrOff addr) = .word off → accOf (addrPage addr) off = .rwg →
    let b := s.touch src
    b.answers src = true → b.mayGuard src (addrPage addr) off v.toNat = true → s.openPair src (addrPage addr) = none →
    exec (.guardPairOpen src addr v) s = .next { b with
      pairs := Sparse.place (srcPage src (addrPage addr)) { off := off, val := v, opened := s.osc } s.pairs }) ∧
  (∀ (src : Source) (addr opened : Nat) (v : Word) (off : Nat) (s : State), ready (.complementWrite src addr (~~~v)) s →
    beyondBar0 addr = false → viewAt (addrPage addr) (addrOff addr) = .comp off → accOf (addrPage addr) off = .rwg →
    s.openPair src (addrPage addr) = some { off := off, val := v, opened := opened } → s.osc ≤ opened + 1000 →
    guardOpen s src (addrPage addr) off v.toNat →
    let b := (s.touch src).dropPair src (addrPage addr)
    let r := b.pairAct src (addrPage addr) off v.toNat
    exec (.complementWrite src addr (~~~v)) s = .next ((r.1.on r.2 (fun u =>
      u.config b src (addrPage addr) off (b.rd (addrPage addr) off) v.toNat)).respond src 0 0)) ∧
  (∀ (src : Source) (page : Nat) (p : Pair) (s : State), ready (.guardPairTimeout src page) s →
    s.openPair src (landPage page) = some p →
    exec (.guardPairTimeout src page) s =
      .next ((s.dropPair src (landPage page)).guardFail src (landPage page) p.off 1 p.val.toNat)) ∧
  (∀ (src : Source) (page : Nat) (s : State), ready (.enableSet src page) s → writeOpen s src (landPage page) Reg.HDR.CONTROL 1 →
    bit (pageType (landPage page)).caps 1 = true →
    let b := ruleSees s src (landPage page)
    b.fn (landPage page) = 0 →
    exec (.enableSet src page) s = .next ((((((b.wr (landPage page) Reg.HDR.CONTROL 1).setFn (landPage page) 1).setFn
      (landPage page) 2).config b src (landPage page) Reg.HDR.CONTROL (b.rdB (b.bankFor src (landPage page) Reg.HDR.CONTROL)
        (landPage page) Reg.HDR.CONTROL) 1)).respond src 0 0)) ∧
  (∀ (src : Source) (page : Nat) (s : State), ready (.enableClear src page) s → writeOpen s src (landPage page) Reg.HDR.CONTROL 0 →
    bit (pageType (landPage page)).caps 1 = true →
    let b := ruleSees s src (landPage page)
    b.fn (landPage page) = 2 →
    exec (.enableClear src page) s = .next (((((b.wr (landPage page) Reg.HDR.CONTROL 0).beginDrain src (landPage page)).config b
      src (landPage page) Reg.HDR.CONTROL (b.rdB (b.bankFor src (landPage page) Reg.HDR.CONTROL)
        (landPage page) Reg.HDR.CONTROL) 0)).respond src 0 0)) ∧
  (∀ (page : Nat) (s : State), ready (.drainComplete page) s → s.fn (landPage page) = 3 → s.drained (landPage page) = true →
    exec (.drainComplete page) s = .next ((s.on (pageType (landPage page) == .drf) (fun u =>
      u.dropPort (landPage page - Page.DRF 0))).endDrain (landPage page)))

/-- STREAM_WRITE_START, STREAM_READ_START, STREAM_ABANDON, STREAM_WINDOW_WRITE, STREAM_WINDOW_READ, STREAM_READ_TIMEOUT (R444 to
R447): MODE 1 or 2 starts a transfer of the registers' address and length with nothing passed; MODE 0 ends one with ERROR 9; a
word written fills its place of the lap, and the last one commits the lap; a word of the lap is read; a read without data ends
with ERROR 4. -/
def Obligations.StreamsComplete : Prop :=
  (∀ (src : Source) (page : Nat) (s : State), ready (.streamWriteStart src page) s → streamPage (landPage page) = true →
    writeOpen s src (landPage page) Reg.HDR.STREAM_CTL 1 →
    let p := landPage page
    let b := ruleSees s src p
    (b.stream src p).mode = 0 → (pageType p = .stm → b.fn p ≠ 0 ∧ b.fn p ≠ 3) →
    let x : Stream := { mode := 1, addr := b.strmAddr src p, len := b.strmLen src p, passed := 0, seen := [], lap := []
                        object := if b.strmAddr src p = 0 ∨ pageType p = .stm then [] else (b.stream src p).object }
    let u := ((b.setStream src p x).wrB src.num p Reg.HDR.STREAM_CHECK 0).strmShow src p 1 0 false
    u.startErr src p 1 = 0 →
    exec (.streamWriteStart src page) s = .next ((u.config b src p Reg.HDR.STREAM_CTL
      (b.rdB (b.bankFor src p Reg.HDR.STREAM_CTL) p Reg.HDR.STREAM_CTL) 1).respond src 0 0)) ∧
  (∀ (src : Source) (page : Nat) (s : State), ready (.streamReadStart src page) s → streamPage (landPage page) = true →
    writeOpen s src (landPage page) Reg.HDR.STREAM_CTL 2 →
    let p := landPage page
    let b := ruleSees s src p
    (b.stream src p).mode = 0 → (pageType p = .stm → b.fn p ≠ 0 ∧ b.fn p ≠ 3) →
    let x : Stream := { mode := 2, addr := b.strmAddr src p, len := b.strmLen src p, passed := 0, seen := [], lap := []
                        object := if pageType p = .stm ∨ pageType p = .recorder then [] else (b.stream src p).object }
    let u := ((b.setStream src p x).wrB src.num p Reg.HDR.STREAM_CHECK 0).strmShow src p 2 0 false
    u.startErr src p 2 = 0 →
    exec (.streamReadStart src page) s = .next ((u.config b src p Reg.HDR.STREAM_CTL
      (b.rdB (b.bankFor src p Reg.HDR.STREAM_CTL) p Reg.HDR.STREAM_CTL) 2).respond src 0 0)) ∧
  (∀ (src : Source) (page : Nat) (s : State), ready (.streamAbandon src page) s → streamPage (landPage page) = true →
    landPage page ≠ Page.PRO → writeOpen s src (landPage page) Reg.HDR.STREAM_CTL 0 →
    let p := landPage page
    let b := ruleSees s src p
    exec (.streamAbandon src page) s = .next (((b.strmEnd src p 9).config b src p Reg.HDR.STREAM_CTL
      (b.rdB (b.bankFor src p Reg.HDR.STREAM_CTL) p Reg.HDR.STREAM_CTL) 0).respond src 0 0)) ∧
  (∀ (src : Source) (page x : Nat) (v : Word) (s : State), ready (.streamWindowWrite src page x v 15) s →
    streamPage (landPage page) = true →
    let p := landPage page
    let place := x % 4096 / 4 * 4
    (s.touch src).answers src = true → (s.touch src).mayStream src p = true →
    let b := ruleSees s src p
    let t := b.stream src p
    t.mode = 1 → place + 4 ≤ t.lapLen → t.seen.contains place = false →
    let u := b.setStream src p { t with seen := place :: t.seen, lap := Sparse.place place v (Sparse.drop place t.lap) }
    exec (.streamWindowWrite src page x v 15) s = .next (if 4 * (t.seen.length + 1) = t.lapLen then u.lapWritten src p else u)) ∧
  (∀ (src : Source) (page x : Nat) (l : List (Nat × Word)) (s : State), ready (.streamWindowRead src page x) s →
    streamPage (landPage page) = true →
    let p := landPage page
    let place := x % 4096 / 4 * 4
    let b := s.touch src
    b.answers src = true → b.mayStream src p = true →
    let t := b.stream src p
    t.mode = 2 → place + 4 ≤ t.lapLen → t.lap.find? (fun e => e.1 == place) = none → b.fetch src p t place = .words l →
    let lap := l.foldl (fun m e => Sparse.place e.1 e.2 (Sparse.drop e.1 m)) t.lap
    exec (.streamWindowRead src page x) s = .next (((b.fetchEffects src p t place).setStream src p { t with lap := lap }).giveWord
      src p place (Sparse.get (0 : Word) lap place))) ∧
  (∀ (src : Source) (page : Nat) (s : State), ready (.streamReadTimeout src page) s → (s.stream src (landPage page)).mode = 2 →
    exec (.streamReadTimeout src page) s = .next ((s.strmEnd src (landPage page) 4).completerAbort src))

/-! ### Bobel, the monitor's command program (chapter 17) -/

/-- COMMAND_LINE, HELP, VER, WHO, BREAK, BAUD, ALERT (R541 to R543, R547, R551): a good line counts; help answers the thirteen
names or one; ver signs a report and prints from it; a break ends the session at 115,200 baud with a fresh prompt; a rate takes
effect, after the response where the monitor itself sets it; between responses a page's enabled events are announced. -/
def Obligations.ConsoleComplete : Prop :=
  (∀ (chars : Nat) (s : State), ready (.commandLine chars false false) s → chars ≤ 200 →
    exec (.commandLine chars false false) s = .next (s.count Page.MON Reg.MON.LINES 0 1)) ∧
  (∀ (k : Nat) (s : State), ready (.help k) s → k ≤ 13 →
    exec (.help k) s = .next (s.reply (if k = 0 then [1, 2, 3, 4, 5, 6, 7, 8, 9, 10, 11, 12, 13] else [k]) 0)) ∧
  (∀ s : State, ready .ver s →
    let u := (s.touch .monitor).monReport
    let f (off n : Nat) : Nat := leNat (((Sparse.get [] u.vault.reports 2).drop off).take n)
    exec .ver s = .next (u.reply ([f 0xE0 8, f 0xE8 4, f 0xEC 4, f 0x50 48, f 0x144 2, u.liveWord .monitor Page.DEV Reg.HDR.STATUS]
      ++ (if u.monService then [u.liveWord .monitor Page.DEV Reg.DEV.BRINGUP] else [])) 0)) ∧
  (∀ s : State, ready .who s →
    exec .who s = .next (s.replyWords [wordAddr (Page.ROL 0) Reg.ROL.SESS_STATE, wordAddr (Page.ROL 1) Reg.ROL.SESS_STATE,
      wordAddr (Page.ROL 2) Reg.ROL.SESS_STATE])) ∧
  (∀ s : State, ready .breakCond s →
    let u := ({ s with mon := { s.mon with login := none, baudNext := none } }.endSession .monitor 1).setBaud .monitor 115200
    ∃ t, exec .breakCond s = .next t ∧ t.mon.login = none ∧ t.mon.baudNext = none ∧
      t = ((u.raise Page.MON 2).record 0xB012 Src.monitor none (items [if s.roleOf .monitor = 0 then 0 else 1])).print []) ∧
  (∀ (src : Source) (v : Word) (s : State), ready (.baud src v) s → writeOpen s src Page.MON Reg.MON.BAUD v.toNat →
    src ≠ .monitor → s.mon.login = none →
    let b := ruleSees s src Page.MON
    exec (.baud src v) s = .next (((b.setBaud src (bits v.toNat 21 0)).config b src Page.MON Reg.MON.BAUD
      (b.rdB (b.bankFor src Page.MON Reg.MON.BAUD) Page.MON Reg.MON.BAUD) v.toNat).respond src 0 0)) ∧
  (∀ (page : Nat) (s : State), ready (.alert page) s → s.mon.login = none → bit (s.rd Page.MON Reg.MON.CONFIG) 1 = true →
    let p := landPage page
    let flag := s.rdB 2 p Reg.HDR.EVT_FLAG
    flag &&& s.rdB 2 p Reg.HDR.EVT_ENABLE ≠ 0 → s.mon.alerts.find? (fun e => e.1 == p) = none → s.fn p ≠ 4 →
    ∃ t, exec (.alert page) s = .next t ∧ t.regs = s.regs ∧ t.mon.out = s.mon.out ++
      [{ values := [p, flag], err := 255, role := s.roleOf .monitor, claim := s.sessClaim .monitor }])

/-- LOGIN, LOGIN_SIGNATURE, LOGIN_TIMEOUT, LOGIN_END, PEEK, POKE, LOG (R545 to R548): login writes SESS_REQ and prints the nonce; the
signature completes the proof, and `ok` or `err 2` follows; without one login ends with `err 6`; peek, poke and log act through
source 2's own accesses, an RWG register by a pair. -/
def Obligations.LoginComplete : Prop :=
  (∀ (role : Role) (claim : Nat) (chain : List Byte) (s : State), ready (.login role claim chain) s → role ≠ .none →
    (role = .operator → claim < 64) →
    let r := s.tryWrite .monitor (wordAddr (Page.ROL 2) Reg.ROL.SESS_REQ)
      (BitVec.ofNat 32 (role.code + (if role = .operator then claim * 256 else 0))) 15
    r.2 = 0 →
    let u := r.1.setStream .monitor (Page.ROL 2) { Stream.idle with object := if role = .maker then chain else [] }
    let w := { u with mon := { u.mon with login := some (role.code, claim, u.osc) } }
    exec (.login role claim chain) s =
      .next (w.print ((List.range 12).map (fun i => w.rd (Page.ROL 2) (Reg.ROL.NONCE + 4 * i))))) ∧
  (∀ (sig : List Byte) (s : State), ready (.loginSignature sig) s → s.mon.login ≠ none → 96 ≤ sig.length →
    let x := s.stream .monitor (Page.ROL 2)
    let u := s.setStream .monitor (Page.ROL 2) { x with object := x.object ++ sig.take 96 }
    let w := (u.tryWrite .monitor (wordAddr (Page.ROL 2) Reg.ROL.SESS_PROVE) 1 15).1
    let t := { w with mon := { w.mon with login := none } }
    exec (.loginSignature sig) s = .next (t.reply [] (if t.roleOf .monitor = 0 then 2 else 0))) ∧
  (∀ s : State, ready .loginTimeout s → s.mon.login ≠ none →
    exec .loginTimeout s = .next (State.reply { s with mon := { s.mon with login := none } } [] 6)) ∧
  (∀ s : State, ready .loginEnd s →
    let r := s.tryWrite .monitor (wordAddr (Page.ROL 2) Reg.ROL.SESS_END) 1 15
    r.2 = 0 → exec .loginEnd s = .next (r.1.reply [] 0)) ∧
  (∀ (addr n : Nat) (s : State), ready (.peek addr n) s → 1 ≤ n → n ≤ 64 → addr / 4 * 4 + 4 * n ≤ 0x4000000 →
    exec (.peek addr n) s = .next (s.replyWords ((List.range n).map (fun i => addr / 4 * 4 + 4 * i)))) ∧
  (∀ (addr off : Nat) (v : Word) (s : State), ready (.poke addr v none) s → s.roleOf .monitor ≠ 1 →
    addr < 0x4000000 → viewAt (addrPage addr) (addrOff addr) = .word off → accOf (addrPage addr) off ≠ .rwg →
    let r := s.tryWrite .monitor addr v 15
    r.2 = 0 → exec (.poke addr v none) s = .next (r.1.reply [] 0)) ∧
  (∀ (addr off : Nat) (v : Word) (s : State), ready (.poke addr v (some (~~~v))) s → s.roleOf .monitor ≠ 1 →
    addr < 0x4000000 → viewAt (addrPage addr) (addrOff addr) = .word off → accOf (addrPage addr) off = .rwg →
    let r := s.monPair (addrPage addr) off v.toNat
    r.2 = 0 → exec (.poke addr v (some (~~~v))) s = .next (r.1.reply [] 0)) ∧
  (∀ (seq : Option Nat) (n : Nat) (sec : Bool) (s : State), ready (.log seq n sec) s → s.monService = true → 1 ≤ n → n ≤ 64 →
    seq.getD 0 < 2 ^ 32 →
    let first := match seq with | some q => q | none => s.rd Page.REC Reg.REC.LAST_SEQ + 1 + 2 ^ 32 - n
    let seqs := (List.range n).map (fun i => (first + i) % 2 ^ 32)
    let u := s.each seqs (fun w q => w.meetDamaged sec q)
    exec (.log seq n sec) s = .next (u.reply (seqs.flatMap (fun q => u.logged sec q)) 0))

/-- TALLY, ASSAY, CANARY, STOPE, DRIFT, POWER (R547, R550): in an installer or maker session each reads its words as source 2,
after the selection that it writes. -/
def Obligations.InspectionComplete : Prop :=
  (∀ s : State, ready .tally s → s.monService = true →
    exec .tally s = .next (s.replyWords ([Reg.HDR.STATUS, Reg.TAL.TALLY_LO, Reg.TAL.TALLY_LO + 4, Reg.TAL.OFFSET,
      Reg.TAL.FREQ_ADJ, Reg.TAL.UPSTREAM, Reg.TAL.AGREE_BOUND].map (wordAddr Page.TAL)))) ∧
  (∀ (p k : Nat) (s : State), ready (.assay p k) s → s.monService = true → p < 1056 → k < 17 →
    exec (.assay p k) s = .next ((s.monSelect Page.ASY Reg.ASY.SELECT (p + k * 2 ^ 16)).replyWords
      ([Reg.ASY.STOPE_UPKEEP, Reg.ASY.STOPE_TEMP, Reg.ASY.STOPE_AGEING, Reg.ASY.SEAM_UPKEEP, Reg.ASY.SEAM_DRIFT].map
        (wordAddr Page.ASY)))) ∧
  (∀ s : State, ready .canary s → s.monService = true →
    let r := State.listPacks (0 :: s.packs.map (fun e => e.1)) s
    exec .canary s = .next (r.1.reply (r.2.map (fun v => v.getD (2 ^ 32))) (if r.2.any (fun v => v.isNone) then 2 else 0))) ∧
  (∀ (p : Nat) (s : State), ready (.stope p) s → s.monService = true → p < 1056 →
    let u := s.monSelect Page.INT Reg.INT.STOPE_SELECT p
    let w := if u.roleOf .monitor = 2 then u.monSelect Page.SNS Reg.SNS.STOPE_SELECT p else u
    exec (.stope p) s = .next (w.replyWords [wordAddr (Page.STX p) Reg.HDR.STATUS, wordAddr (Page.STX p) Reg.STX.STOPE_ROLE,
      wordAddr Page.INT Reg.INT.STOPE_INTEG, wordAddr Page.INT Reg.INT.STOPE_LAST_FAIL, wordAddr Page.SNS Reg.SNS.STOPE_AVG])) ∧
  (∀ (port : Option Nat) (s : State), ready (.drift port) s → s.monService = true → port.getD 0 < 12 →
    let ports := match port with | some n => [n] | none => List.range 12
    exec (.drift port) s = .next (s.replyWords (ports.flatMap (fun n => [Reg.DRF.PORT_STATE, Reg.DRF.LANE_MAP, Reg.DRF.EYE_A,
      Reg.DRF.EYE_B, Reg.DRF.FEC_UNCORR, Reg.DRF.RETRIES].map (wordAddr (Page.DRF n)))))) ∧
  (∀ s : State, ready .power s → s.monService = true →
    exec .power s = .next (s.replyWords ([Reg.PWR.INPUT_STATE, Reg.PWR.INPUT_P_1S, Reg.PWR.BUDGET_IN_FORCE, Reg.PWR.CAPACITY,
      Reg.PWR.CONV_MAP, Reg.PWR.PHASES_FAILED].map (wordAddr Page.PWR) ++ [wordAddr Page.SNS Reg.SNS.HOT_STOPE]
        ++ (if s.roleOf .monitor = 2 then [wordAddr Page.PWR Reg.PWR.INPUT_P] else []))))

/-- MON_ASSAY_FORCE, MON_CANARY_TEST, MON_STOPE_RETIRE, MON_DRIFT_DISABLE, MON_DRIFT_ENABLE, MON_POWER_BUDGET (R549): the action
is the guarded pair of its register, both halves written as source 2, and `ok`. -/
def Obligations.ActionsComplete : Prop :=
  (∀ (p : Nat) (s : State), ready (.monAssayForce p) s → s.monService = true → s.openPair .monitor Page.ASY = none → p < 1056 →
    guardOpen s .monitor Page.ASY Reg.ASY.ASSAY_FORCE (p + 65536) →
    exec (.monAssayForce p) s = .next ((guardDone s .monitor Page.ASY Reg.ASY.ASSAY_FORCE (p + 65536)
      ((s.touch .monitor).modStope p (fun x => { x with due := true }))).reply [] 0)) ∧
  (∀ (p : Nat) (s : State), ready (.monCanaryTest p) s → s.monService = true → s.openPair .monitor Page.INT = none → p < 1056 →
    guardOpen s .monitor Page.INT Reg.INT.STOPE_TEST (p + 65536) → (s.stope p).integ ≠ 2 →
    exec (.monCanaryTest p) s = .next ((guardDone s .monitor Page.INT Reg.INT.STOPE_TEST (p + 65536)
      ((s.touch .monitor).modStope p (fun x => { x with testDue := true }))).reply [] 0)) ∧
  (∀ (p : Nat) (s : State), ready (.monStopeRetire p) s → s.monService = true → s.openPair .monitor Page.INT = none → p < 1056 →
    guardOpen s .monitor Page.INT Reg.INT.STOPE_RETIRE (p + 65536) → (s.stope p).integ ≠ 2 →
    let b := s.touch .monitor
    exec (.monStopeRetire p) s = .next ((guardDone s .monitor Page.INT Reg.INT.STOPE_RETIRE (p + 65536)
      (if b.idleRelief p then b.modStope p (fun x => { x with proposed := true, why := 13 }) else b.propose p 13)).reply [] 0)) ∧
  (∀ (n : Nat) (s : State), ready (.monDriftDisable n) s → n < 12 → s.monService = true →
    s.openPair .monitor (Page.DRF n) = none →
    guardOpen s .monitor (Page.DRF n) Reg.DRF.PORT_DISABLE 1 →
    exec (.monDriftDisable n) s = .next ((guardDone s .monitor (Page.DRF n) Reg.DRF.PORT_DISABLE 1
      ((((s.touch .monitor).dropPort n).setPort n 6).wr (Page.DRF n) Reg.DRF.PORT_DISABLE 1)).reply [] 0)) ∧
  (∀ (n : Nat) (s : State), ready (.monDriftEnable n) s → n < 12 → s.monService = true →
    s.openPair .monitor (Page.DRF n) = none →
    guardOpen s .monitor (Page.DRF n) Reg.DRF.PORT_DISABLE 0 →
    exec (.monDriftEnable n) s = .next ((guardDone s .monitor (Page.DRF n) Reg.DRF.PORT_DISABLE 0
      ((((s.touch .monitor).wr (Page.DRF n) Reg.DRF.PORT_DISABLE 0).on (s.portState n == 6) (fun u => u.setPort n 0)).modPort n
        (fun p => { p with downs := [] }))).reply [] 0)) ∧
  (∀ (w : Nat) (s : State), ready (.monPowerBudget w) s → s.monService = true → s.openPair .monitor Page.PWR = none →
    w < 2 ^ 32 → guardOpen s .monitor Page.PWR Reg.PWR.GOV_BUDGET w →
    exec (.monPowerBudget w) s = .next ((guardDone s .monitor Page.PWR Reg.PWR.GOV_BUDGET w
      (((s.touch .monitor).wr Page.PWR Reg.PWR.GOV_BUDGET (bits w 11 0)).recompute)).reply [] 0))

/-! ### The machine as a whole -/

/-- A STEP RUNS THE COMMAND AT THE FRONT of the queue: it is exec of that command on the state with the queue's rest. On an empty
queue a nanosecond passes (the model's choice, log 1). -/
def Obligations.StepRunsCommand : Prop :=
  (∀ (c : Instr) (rest : List Instr) (s : State), s.pending = c :: rest → step s = exec c { s with pending := rest }) ∧
  (∀ s : State, s.pending = [] → ∃ t, step s = .next t ∧ t.osc = s.osc + 1 ∧ t.pending = [] ∧ t.mem = s.mem ∧ t.jobs = s.jobs ∧
    t.recorder = s.recorder ∧ (s.powered = false → t.tally = s.tally ∧ t.regs = s.regs) ∧
    (s.powered = true → s.clock.rate = 0 → s.clock.frac = 0 → t.tally = s.tally + 1))

/-- Every word of the register file reads its reset value at State.reset (R12), claim memory reads zero, no session is open, no
job is loaded, no pair is open, no command waits; and that state is canonical. The values without a rule of the spec are the
model's (logs 3 and 4). -/
def Obligations.ResetState : Prop :=
  (∀ b p o : Nat, State.reset.rdB b p o = (resetWord (regKey b p o)).toNat) ∧
  (∀ (p o : Nat) (r : RegRow), p < 4096 → o < 1024 → resetSpecial p o = none → findRow (pageType p) o = some r → r.reset < 2 ^ 32 →
    State.reset.rd p o = r.reset) ∧
  (∀ c a : Nat, State.reset.rdByte c a = 0) ∧ (∀ src : Source, State.reset.roleOf src = 0) ∧
  (∀ c : Nat, State.reset.job? c = none) ∧ (∀ (src : Source) (p : Nat), State.reset.openPair src p = none) ∧
  State.reset.pending = [] ∧ State.reset.powered = true ∧ State.reset.Canonical

/-- THE INVARIANT OF EVERY STEP: claim memory and the register file stay in their one canonical form (addresses strictly rising,
nothing listed that an unlisted place reads), so that equal contents are equal data, whatever command runs. -/
def Obligations.StepKeepsCanonical : Prop :=
  ∀ s t : State, s.Canonical → step s = .next t → t.Canonical

/-- No command touches the queue or the passing of time, and free values that have been drawn are not drawn again. EVERY COMMAND
whose operands name units that the module has COMPLETES in every state, whatever its data; none refuses. -/
def Obligations.ExecLeavesQueue : Prop :=
  (∀ (c : Instr) (s t : State), exec c s = .next t → t.pending = s.pending ∧ t.osc = s.osc ∧ s.fresh ≤ t.fresh) ∧
  (∀ (c : Instr) (s : State), wellFormed c = true →
    ∃ t, exec c s = .next t ∧ t.pending = s.pending ∧ t.osc = s.osc ∧ s.fresh ≤ t.fresh) ∧
  (∀ (c : Instr) (s : State) (r : Refusal), exec c s ≠ .refused r)

/-- Without the input no part of the module operates (R15): every command but the input's return leaves the state as it is,
and with no command waiting only the oscillator's time goes on. A command that names a unit that the module does not have faults,
with power or without. -/
def Obligations.NothingWithoutInput : Prop :=
  (∀ (c : Instr) (s : State), wellFormed c = false → exec c s = .fault .noSuchUnit) ∧
  (∀ (c : Instr) (s : State), s.powered = false → c ≠ .powerOn → c ≠ .inputOverEnd → wellFormed c = true → exec c s = .next s) ∧
  (∀ (c : Instr) (s : State), wellFormed c = true → ∃ t, exec c s = .next t) ∧
  (∀ s t : State, s.powered = false → s.pending = [] → step s = .next t → t.regs = s.regs ∧ t.mem = s.mem ∧ t.tally = s.tally)

/-! ### Views of a page (chapter 12) -/

/-- The regions of a page (R427, Table 12.3): register words, their complements, the alias that ignores bit 11, the stream window
or the alias that takes its place, and the bit aliases; guarded registers stand at 0x100 or above, where no bit alias reaches. -/
def Obligations.PageRegions : Prop :=
  (∀ page off : Nat, off < 0x400 → off % 4 = 0 → viewAt page off = .word off) ∧
  (∀ page off : Nat, 0x400 ≤ off → off < 0x800 → off % 4 = 0 → viewAt page off = .comp (off - 0x400)) ∧
  (∀ page off : Nat, 0x800 ≤ off → off < 0x1000 → viewAt page off = viewAt page (off &&& 0x7FF)) ∧
  (∀ page off : Nat, 0x1000 ≤ off → off < 0x2000 → streamPage page = true → viewAt page off = .window (off - 0x1000)) ∧
  (∀ page off : Nat, 0x1000 ≤ off → off < 0x2000 → streamPage page = false → viewAt page off = viewAt page (off &&& 0xFFF)) ∧
  (∀ page o b : Nat, o < 0x100 → o % 4 = 0 → b < 32 → viewAt page (0x2000 + o / 4 * 128 + b * 4) = .bitOf o b) ∧
  (∀ page o : Nat, accOf page o = .rwg → 0x100 ≤ o) ∧
  (∀ page off o b : Nat, off < 0x4000 → viewAt page off = .bitOf o b → accOf page o ≠ .rwg)

/-- A read of a bit alias (R439) returns 0 or 1: bit b of the value that a read of the word would return at that moment, of an RL
word bit b of the live high word; it neither fills nor uses a capture buffer. -/
def Obligations.BitAliasReads : Prop :=
  ∀ (src : Source) (addr o b : Nat) (s : State), ready (.captureRead src addr) s →
    beyondBar0 addr = false → viewAt (addrPage addr) (addrOff addr) = .bitOf o b → (s.touch src).answers src = true →
    (s.touch src).mayRead src (addrPage addr) o = true →
    ∃ t, exec (.captureRead src addr) s = .next t ∧ t.caps = s.caps ∧
      (Sparse.get Resp.none t.resp src.num).data.toNat = bits ((s.touch src).liveWord src (addrPage addr) o) b b ∧
      (Sparse.get Resp.none t.resp src.num).data.toNat ≤ 1 ∧
      (accOf (addrPage addr) o ≠ .rl → ∀ (addr' : Nat) (u : State), beyondBar0 addr' = false → addrPage addr' = addrPage addr →
        viewAt (addrPage addr') (addrOff addr') = .word o → exec (.captureRead src addr') s = .next u →
        (Sparse.get Resp.none t.resp src.num).data.toNat = bits (Sparse.get Resp.none u.resp src.num).data.toNat b b)

/-- A read of a complement returns the bitwise complement of the value that a read of its word would return at that moment, fills
no capture buffer, and the two never both read zero; a write to the complement of a register that is not RWG changes nothing
and is recorded as event 0x0102 (R436, of which this is the part about accesses within the session's rights; a captured high half
counts as what a read would return: the model's reading, log 44). -/
def Obligations.ComplementAccesses : Prop :=
  (∀ (src : Source) (addr addr' o : Nat) (s : State), ready (.captureRead src addr) s → ready (.captureRead src addr') s →
    beyondBar0 addr = false → beyondBar0 addr' = false → viewAt (addrPage addr) (addrOff addr) = .comp o → addrPage addr' = addrPage addr →
    viewAt (addrPage addr') (addrOff addr') = .word o → (s.touch src).answers src = true →
    (s.touch src).mayRead src (addrPage addr) o = true →
    ∃ t u, exec (.captureRead src addr) s = .next t ∧ exec (.captureRead src addr') s = .next u ∧ t.caps = s.caps ∧
      (Sparse.get Resp.none t.resp src.num).data = ~~~(Sparse.get Resp.none u.resp src.num).data ∧
      ¬((Sparse.get Resp.none t.resp src.num).data = 0 ∧ (Sparse.get Resp.none u.resp src.num).data = 0)) ∧
  (∀ (src : Source) (addr o : Nat) (v : Word) (s : State), ready (.complementWrite src addr v) s →
    beyondBar0 addr = false → viewAt (addrPage addr) (addrOff addr) = .comp o → accOf (addrPage addr) o ≠ .rwg → (s.touch src).answers src = true →
    s.openPair src (addrPage addr) = none →
    exec (.complementWrite src addr v) s =
      .next ((s.touch src).accessRec src 0x0102 (addrPage addr) (0x400 + o) (items [v.toNat])))

/-- A write outside the session's rights has no effect beyond its record and the source's own FORBIDDEN event (R433, R438, R449): no
register outside the recorder's page, no memory, job, stope, claim, stored secret, transfer or open pair changes. -/
def Obligations.ForbiddenWrites : Prop :=
  ∀ (src : Source) (addr : Nat) (v : Word) (be : Nat) (s : State), ready (.registerWrite src addr v be) s →
    beyondBar0 addr = false → (s.touch src).answers src = true →
    (s.touch src).halfAllowed src (addrPage addr) (viewAt (addrPage addr) (addrOff addr)) v = false →
    ∃ t, exec (.registerWrite src addr v be) s = .next t ∧ t.mem = s.mem ∧ t.jobs = s.jobs ∧ t.stopes = s.stopes ∧
      t.claims = s.claims ∧ t.vault = s.vault ∧ t.pairs = s.pairs ∧ t.streams = s.streams ∧ t.resp = s.resp ∧
      ∀ b p o : Nat, p < 4096 → o < 1024 → p ≠ Page.REC →
        ¬(b = src.num ∧ p = addrPage addr ∧ o = Reg.HDR.EVT_FLAG) → t.rdB b p o = s.rdB b p o

/-! ### Memory and isolation (chapters 6 and 12) -/

/-- WHERE A STREAM STORES (R204, R445, R448): a word written to a stream window changes no byte of claim memory outside the bytes
of the page's own claim that its transfer commits with this word: those waiting in the transfer and those of its lap. On a stream
page that is no claim's no byte changes at all. -/
def Obligations.StreamStores : Prop :=
  ∀ (src : Source) (page x : Nat) (v : Word) (be : Nat) (s t : State) (c a : Nat),
    exec (.streamWindowWrite src page x v be) s = .next t → streamPage (landPage page) = true → c < 64 → a < 2 ^ 48 →
    let p := landPage page
    let w := s.stream src p
    let first := w.addr + w.passed - w.object.length
    (pageType p ≠ .stm ∨ c ≠ (p - Page.STM 0) % 64 ∨ a < first ∨ first + w.object.length + w.lapLen ≤ a) →
    t.rdByte c a = s.rdByte c a

/-! ### Exact arithmetic and its checks (chapter 3) -/

/-- LEAF FORM AND CHECKS (R79, R90, R91, R96, R97): leaf form keeps every mantissa within 32,767, rounds each value to the nearest
multiple of 2^e_leaf and is exact on those that are one; on such operands no accumulator of a leaf saturates and the four sets of
sums agree; and one accumulator that is wrong, whichever it is and by whatever amount, saturates or is located: by its row where
it is in one of the 64 rows, and by its column where it is in one of the 64 columns. -/
def Obligations.LeafChecks : Prop :=
  (∀ l : List Dy, (leafForm l).2.length = l.length ∧ (∀ m ∈ (leafForm l).2, m.natAbs ≤ 32767) ∧
    ∀ (n : Nat) (d : Dy) (k : Int), l[n]? = some d → (leafForm l).2[n]? = some k →
      ((leafForm l).1 ≤ d.e → k = d.m * 2 ^ (d.e - (leafForm l).1).toNat) ∧
      (d.e < (leafForm l).1 → 2 * (d.m - k * 2 ^ ((leafForm l).1 - d.e).toNat).natAbs ≤ 2 ^ ((leafForm l).1 - d.e).toNat)) ∧
  (∀ x : Leaf, x.rows.length = 64 → x.cols.length = 64 →
    (∀ o ∈ x.rows ++ x.cols, o.ms.length = 64 ∧ ∀ m ∈ o.ms, m.natAbs ≤ 32767) →
    (accum x []).2 = [] ∧ leafCheck (accum x []).1 = none ∧
    ∀ (i q : Nat) (dev : Int), i ≤ 64 → q ≤ 64 → dev ≠ 0 → (accum x [(i, q, dev)]).2 = [] →
      ∃ m, leafCheck (accum x [(i, q, dev)]).1 = some m ∧ m.row = (if i < 64 then some i else none) ∧
        m.col = (if q < 64 then some q else none))

end
end

