-- ==== Sys2Proof/Laws/Sparse.lean ====
section
/-!
SUPPORT. Sparse data: a read after a write gives the value written and every other key reads as before, and every operation
keeps the canonical form.
-/

namespace Sys2Proof.Machine

variable {α : Type}

theorem Sparse.get_drop (d : α) (m : List (Nat × α)) (k k' : Nat) :
    Sparse.get d (Sparse.drop k m) k' = if k' = k then d else Sparse.get d m k' := by
  induction m with
  | nil => simp [Sparse.drop, Sparse.get]
  | cons e t ih =>
    obtain ⟨a, v⟩ := e
    simp only [Sparse.drop]
    split
    · subst_vars
      rw [ih]
      by_cases h : k' = a
      · simp [h]
      · simp [h, Sparse.get, Ne.symm h]
    · simp only [Sparse.get, ih]
      by_cases h1 : a = k'
      · subst h1; simp [*]
      · simp [h1]

/-- An entry placed where its key is not listed is what that key reads as. -/
theorem Sparse.get_place (d v : α) (m : List (Nat × α)) (k k' : Nat) (h : ∀ x, (k, x) ∉ m) :
    Sparse.get d (Sparse.place k v m) k' = if k' = k then v else Sparse.get d m k' := by
  induction m with
  | nil => simp [Sparse.place, Sparse.get, eq_comm]
  | cons e t ih =>
    obtain ⟨a, w⟩ := e
    have hne : a ≠ k := fun c => h w (by simp [c])
    have ht : ∀ x, (k, x) ∉ t := fun x hx => h x (by simp [hx])
    simp only [Sparse.place]
    split
    · simp only [Sparse.get, eq_comm (a := k)]
    · simp only [Sparse.get, ih ht]
      by_cases h1 : a = k'
      · subst h1; simp [hne]
      · simp [h1]

theorem Sparse.not_mem_drop (m : List (Nat × α)) (k : Nat) (x : α) : (k, x) ∉ Sparse.drop k m := by
  induction m with
  | nil => simp [Sparse.drop]
  | cons e t ih =>
    obtain ⟨a, v⟩ := e
    simp only [Sparse.drop]
    split
    · exact ih
    · rename_i hne
      simp only [List.mem_cons, Prod.mk.injEq, not_or, not_and]
      exact ⟨fun c => absurd c.symm hne, ih⟩

/-- A write is seen at its own key and nowhere else. -/
theorem Sparse.get_set [DecidableEq α] (d v : α) (m : List (Nat × α)) (k k' : Nat) :
    Sparse.get d (Sparse.set d m k v) k' = if k' = k then v else Sparse.get d m k' := by
  simp only [Sparse.set]
  split
  · rw [Sparse.get_drop]; simp [*]
  · rw [Sparse.get_place _ _ _ _ _ (Sparse.not_mem_drop m k), Sparse.get_drop]
    split <;> simp [*]

@[simp] theorem Sparse.get_set_same [DecidableEq α] (d v : α) (m : List (Nat × α)) (k : Nat) :
    Sparse.get d (Sparse.set d m k v) k = v := by simp [Sparse.get_set]

theorem Sparse.get_set_ne [DecidableEq α] (d v : α) (m : List (Nat × α)) {k k' : Nat} (h : k' ≠ k) :
    Sparse.get d (Sparse.set d m k v) k' = Sparse.get d m k' := by simp [Sparse.get_set, h]

/-- A key written reads the same whatever the value of other unlisted keys. -/
theorem Sparse.get_set_dflt [DecidableEq α] (d d' v : α) (m : List (Nat × α)) (k k' : Nat) (h : k' ≠ k) :
    Sparse.get d' (Sparse.set d m k v) k' = Sparse.get d' m k' := by
  simp only [Sparse.set]
  split
  · rw [Sparse.get_drop]; simp [h]
  · rw [Sparse.get_place _ _ _ _ _ (Sparse.not_mem_drop m k), Sparse.get_drop]; simp [h]

/-! ### The canonical form -/

/-- The canonical form in terms of the list: keys rise strictly and no entry is a default. -/
theorem Sparse.wfFrom_iff [DecidableEq α] (d : Nat → α) (lo : Option Nat) (m : List (Nat × α)) :
    Sparse.wfFrom d lo m = true ↔
      (∀ l, lo = some l → ∀ e ∈ m, l < e.1) ∧ m.Pairwise (fun a b => a.1 < b.1) ∧ ∀ e ∈ m, e.2 ≠ d e.1 := by
  induction m generalizing lo with
  | nil => simp [Sparse.wfFrom]
  | cons e t ih =>
    obtain ⟨k, v⟩ := e
    simp only [Sparse.wfFrom, Bool.and_eq_true, ih, List.pairwise_cons, List.mem_cons, decide_eq_true_eq, Option.some.injEq,
      forall_eq', forall_eq_or_imp]
    constructor
    · rintro ⟨⟨h1, h2⟩, h3, h4, h5⟩
      refine ⟨?_, ⟨h3, h4⟩, h2, h5⟩
      rintro l rfl
      simp only [decide_eq_true_eq] at h1
      exact ⟨h1, fun e he => lt_trans h1 (h3 e he)⟩
    · rintro ⟨h1, ⟨h3, h4⟩, h2, h5⟩
      refine ⟨⟨?_, h2⟩, h3, h4, h5⟩
      cases lo with
      | none => rfl
      | some l => simpa using (h1 l rfl).1

theorem Sparse.wf_iff [DecidableEq α] (d : Nat → α) (m : List (Nat × α)) :
    Sparse.wf d m = true ↔ m.Pairwise (fun a b => a.1 < b.1) ∧ ∀ e ∈ m, e.2 ≠ d e.1 := by
  simp [Sparse.wf, Sparse.wfFrom_iff]

theorem Sparse.drop_eq_filter (k : Nat) (m : List (Nat × α)) : Sparse.drop k m = m.filter (fun e => e.1 ≠ k) := by
  induction m with
  | nil => rfl
  | cons e t ih =>
    obtain ⟨a, v⟩ := e
    simp only [Sparse.drop, List.filter_cons]
    by_cases h : a = k <;> simp [h, ih]

/-- Keeping only some entries keeps the form. -/
theorem Sparse.wf_filter [DecidableEq α] (d : Nat → α) (m : List (Nat × α)) (p : Nat × α → Bool) (h : Sparse.wf d m = true) :
    Sparse.wf d (m.filter p) = true := by
  rw [Sparse.wf_iff] at *
  exact ⟨h.1.filter p, fun e he => h.2 e (List.mem_of_mem_filter he)⟩

theorem Sparse.wf_drop [DecidableEq α] (d : Nat → α) (m : List (Nat × α)) (k : Nat) (h : Sparse.wf d m = true) :
    Sparse.wf d (Sparse.drop k m) = true := by
  rw [Sparse.drop_eq_filter]; exact Sparse.wf_filter d m _ h

theorem Sparse.mem_place (k : Nat) (v : α) (m : List (Nat × α)) (e : Nat × α) :
    e ∈ Sparse.place k v m ↔ e = (k, v) ∨ e ∈ m := by
  induction m with
  | nil => simp [Sparse.place]
  | cons a t ih =>
    obtain ⟨a, w⟩ := a
    simp only [Sparse.place]
    split <;> simp [ih, or_left_comm]

theorem Sparse.wf_place [DecidableEq α] (d : Nat → α) (m : List (Nat × α)) (k : Nat) (v : α) (h : Sparse.wf d m = true)
    (hk : ∀ x, (k, x) ∉ m) (hv : v ≠ d k) : Sparse.wf d (Sparse.place k v m) = true := by
  rw [Sparse.wf_iff] at *
  obtain ⟨h1, h2⟩ := h
  constructor
  · induction m with
    | nil => simp [Sparse.place]
    | cons e t ih =>
      obtain ⟨a, w⟩ := e
      simp only [List.pairwise_cons] at h1
      have hne : a ≠ k := fun c => hk w (by simp [c])
      simp only [Sparse.place]
      split
      · rename_i hlt
        simp only [List.pairwise_cons, List.mem_cons, forall_eq_or_imp]
        exact ⟨⟨hlt, fun e he => lt_trans hlt (h1.1 e he)⟩, h1⟩
      · rename_i hge
        have hlt : a < k := by omega
        simp only [List.pairwise_cons, Sparse.mem_place, forall_eq_or_imp]
        exact ⟨⟨hlt, h1.1⟩, ih (fun x hx => hk x (by simp [hx])) h1.2 (fun e he => h2 e (by simp [he]))⟩
  · intro e he
    rcases (Sparse.mem_place k v m e).1 he with rfl | he
    · exact hv
    · exact h2 e he

/-- A write keeps the form. -/
theorem Sparse.wf_set [DecidableEq α] (d : Nat → α) (m : List (Nat × α)) (k : Nat) (v : α) (h : Sparse.wf d m = true) :
    Sparse.wf d (Sparse.set (d k) m k v) = true := by
  simp only [Sparse.set]
  split
  · exact Sparse.wf_drop d m k h
  · exact Sparse.wf_place d _ k v (Sparse.wf_drop d m k h) (Sparse.not_mem_drop m k) (by assumption)

/-- Dropping a key that has just been placed leaves the map as it was. -/
theorem Sparse.drop_place (k : Nat) (v : α) (m : List (Nat × α)) (h : ∀ x, (k, x) ∉ m) : Sparse.drop k (Sparse.place k v m) = m := by
  have key : ∀ l : List (Nat × α), (∀ x, (k, x) ∉ l) → l.filter (fun e => e.1 ≠ k) = l := by
    intro l hl
    rw [List.filter_eq_self]
    rintro ⟨a, b⟩ hab
    simp only [ne_eq, decide_not, Bool.not_eq_true', decide_eq_false_iff_not]
    rintro rfl
    exact hl _ hab
  rw [Sparse.drop_eq_filter]
  induction m with
  | nil => simp [Sparse.place]
  | cons e t ih =>
    have he : e.1 ≠ k := by rintro rfl; exact h e.2 (by simp)
    have ht : ∀ x, (k, x) ∉ t := fun x hx => h x (by simp [hx])
    unfold Sparse.place
    split
    · rw [List.filter_cons_of_neg (by simp)]
      exact key _ h
    · rw [List.filter_cons_of_pos (by simpa using he), ih ht]

/-- The last of two values set at a key stays. -/
theorem Sparse.set_set [DecidableEq α] (d : α) (m : List (Nat × α)) (k : Nat) (v w : α) :
    Sparse.set d (Sparse.set d m k v) k w = Sparse.set d m k w := by
  have hd : Sparse.drop k (Sparse.drop k m) = Sparse.drop k m := by simp [Sparse.drop_eq_filter]
  unfold Sparse.set
  by_cases h : v = d <;> simp [h, hd, Sparse.drop_place, Sparse.not_mem_drop]

/-- A placed value is found. -/
theorem Sparse.find_place (k : Nat) (v : α) (m : List (Nat × α)) (h : ∀ x, (k, x) ∉ m) :
    (Sparse.place k v m).find? (fun e => e.1 == k) = some (k, v) := by
  induction m with
  | nil => simp [Sparse.place]
  | cons e t ih =>
    have he : e.1 ≠ k := by rintro rfl; exact h e.2 (by simp)
    have ht : ∀ x, (k, x) ∉ t := fun x hx => h x (by simp [hx])
    unfold Sparse.place
    split
    · simp
    · rw [List.find?_cons_of_neg (by simpa using he), ih ht]

end Sys2Proof.Machine
end

