-- ==== Sys2Proof/Laws/State.lean ====
section
/-!
SUPPORT. What each update of the state leaves alone, a lemma for each field: all true by unfolding the update.
-/

namespace Sys2Proof.Machine

variable (s : State)

/-! ### setReg -/

@[simp] theorem State.setReg_pending (k : Nat) (v : Word) : (s.setReg k v).pending = s.pending := rfl
@[simp] theorem State.setReg_osc (k : Nat) (v : Word) : (s.setReg k v).osc = s.osc := rfl
@[simp] theorem State.setReg_fresh (k : Nat) (v : Word) : (s.setReg k v).fresh = s.fresh := rfl
@[simp] theorem State.setReg_powered (k : Nat) (v : Word) : (s.setReg k v).powered = s.powered := rfl
@[simp] theorem State.setReg_tally (k : Nat) (v : Word) : (s.setReg k v).tally = s.tally := rfl
@[simp] theorem State.setReg_sealWords (k : Nat) (v : Word) : (s.setReg k v).sealWords = s.sealWords := rfl
@[simp] theorem State.setReg_mem (k : Nat) (v : Word) : (s.setReg k v).mem = s.mem := rfl
@[simp] theorem State.setReg_recorder (k : Nat) (v : Word) : (s.setReg k v).recorder = s.recorder := rfl
@[simp] theorem State.setReg_jobs (k : Nat) (v : Word) : (s.setReg k v).jobs = s.jobs := rfl
@[simp] theorem State.setReg_stopes (k : Nat) (v : Word) : (s.setReg k v).stopes = s.stopes := rfl
@[simp] theorem State.setReg_mesh (k : Nat) (v : Word) : (s.setReg k v).mesh = s.mesh := rfl
@[simp] theorem State.setReg_aged (k : Nat) (v : Word) : (s.setReg k v).aged = s.aged := rfl
@[simp] theorem State.setReg_mill (k : Nat) (v : Word) : (s.setReg k v).mill = s.mill := rfl
@[simp] theorem State.setReg_fast (k : Nat) (v : Word) : (s.setReg k v).fast = s.fast := rfl
@[simp] theorem State.setReg_slow (k : Nat) (v : Word) : (s.setReg k v).slow = s.slow := rfl
@[simp] theorem State.setReg_sealing (k : Nat) (v : Word) : (s.setReg k v).sealing = s.sealing := rfl
@[simp] theorem State.setReg_clock (k : Nat) (v : Word) : (s.setReg k v).clock = s.clock := rfl
@[simp] theorem State.setReg_gov (k : Nat) (v : Word) : (s.setReg k v).gov = s.gov := rfl
@[simp] theorem State.setReg_marks (k : Nat) (v : Word) : (s.setReg k v).marks = s.marks := rfl
@[simp] theorem State.setReg_claims (k : Nat) (v : Word) : (s.setReg k v).claims = s.claims := rfl
@[simp] theorem State.setReg_sess (k : Nat) (v : Word) : (s.setReg k v).sess = s.sess := rfl
@[simp] theorem State.setReg_streams (k : Nat) (v : Word) : (s.setReg k v).streams = s.streams := rfl
@[simp] theorem State.setReg_pairs (k : Nat) (v : Word) : (s.setReg k v).pairs = s.pairs := rfl
@[simp] theorem State.setReg_caps (k : Nat) (v : Word) : (s.setReg k v).caps = s.caps := rfl
@[simp] theorem State.setReg_resp (k : Nat) (v : Word) : (s.setReg k v).resp = s.resp := rfl
@[simp] theorem State.setReg_msi (k : Nat) (v : Word) : (s.setReg k v).msi = s.msi := rfl
@[simp] theorem State.setReg_ports (k : Nat) (v : Word) : (s.setReg k v).ports = s.ports := rfl
@[simp] theorem State.setReg_casc (k : Nat) (v : Word) : (s.setReg k v).casc = s.casc := rfl
@[simp] theorem State.setReg_packs (k : Nat) (v : Word) : (s.setReg k v).packs = s.packs := rfl
@[simp] theorem State.setReg_fw (k : Nat) (v : Word) : (s.setReg k v).fw = s.fw := rfl
@[simp] theorem State.setReg_vault (k : Nat) (v : Word) : (s.setReg k v).vault = s.vault := rfl
@[simp] theorem State.setReg_pwr (k : Nat) (v : Word) : (s.setReg k v).pwr = s.pwr := rfl
@[simp] theorem State.setReg_boot (k : Nat) (v : Word) : (s.setReg k v).boot = s.boot := rfl
@[simp] theorem State.setReg_pros (k : Nat) (v : Word) : (s.setReg k v).pros = s.pros := rfl
@[simp] theorem State.setReg_mon (k : Nat) (v : Word) : (s.setReg k v).mon = s.mon := rfl

/-! ### wr -/

@[simp] theorem State.wr_pending (p o v : Nat) : (s.wr p o v).pending = s.pending := rfl
@[simp] theorem State.wr_osc (p o v : Nat) : (s.wr p o v).osc = s.osc := rfl
@[simp] theorem State.wr_fresh (p o v : Nat) : (s.wr p o v).fresh = s.fresh := rfl
@[simp] theorem State.wr_powered (p o v : Nat) : (s.wr p o v).powered = s.powered := rfl
@[simp] theorem State.wr_tally (p o v : Nat) : (s.wr p o v).tally = s.tally := rfl
@[simp] theorem State.wr_sealWords (p o v : Nat) : (s.wr p o v).sealWords = s.sealWords := rfl
@[simp] theorem State.wr_mem (p o v : Nat) : (s.wr p o v).mem = s.mem := rfl
@[simp] theorem State.wr_recorder (p o v : Nat) : (s.wr p o v).recorder = s.recorder := rfl
@[simp] theorem State.wr_jobs (p o v : Nat) : (s.wr p o v).jobs = s.jobs := rfl
@[simp] theorem State.wr_stopes (p o v : Nat) : (s.wr p o v).stopes = s.stopes := rfl
@[simp] theorem State.wr_mesh (p o v : Nat) : (s.wr p o v).mesh = s.mesh := rfl
@[simp] theorem State.wr_aged (p o v : Nat) : (s.wr p o v).aged = s.aged := rfl
@[simp] theorem State.wr_mill (p o v : Nat) : (s.wr p o v).mill = s.mill := rfl
@[simp] theorem State.wr_fast (p o v : Nat) : (s.wr p o v).fast = s.fast := rfl
@[simp] theorem State.wr_slow (p o v : Nat) : (s.wr p o v).slow = s.slow := rfl
@[simp] theorem State.wr_sealing (p o v : Nat) : (s.wr p o v).sealing = s.sealing := rfl
@[simp] theorem State.wr_clock (p o v : Nat) : (s.wr p o v).clock = s.clock := rfl
@[simp] theorem State.wr_gov (p o v : Nat) : (s.wr p o v).gov = s.gov := rfl
@[simp] theorem State.wr_marks (p o v : Nat) : (s.wr p o v).marks = s.marks := rfl
@[simp] theorem State.wr_claims (p o v : Nat) : (s.wr p o v).claims = s.claims := rfl
@[simp] theorem State.wr_sess (p o v : Nat) : (s.wr p o v).sess = s.sess := rfl
@[simp] theorem State.wr_streams (p o v : Nat) : (s.wr p o v).streams = s.streams := rfl
@[simp] theorem State.wr_pairs (p o v : Nat) : (s.wr p o v).pairs = s.pairs := rfl
@[simp] theorem State.wr_caps (p o v : Nat) : (s.wr p o v).caps = s.caps := rfl
@[simp] theorem State.wr_resp (p o v : Nat) : (s.wr p o v).resp = s.resp := rfl
@[simp] theorem State.wr_msi (p o v : Nat) : (s.wr p o v).msi = s.msi := rfl
@[simp] theorem State.wr_ports (p o v : Nat) : (s.wr p o v).ports = s.ports := rfl
@[simp] theorem State.wr_casc (p o v : Nat) : (s.wr p o v).casc = s.casc := rfl
@[simp] theorem State.wr_packs (p o v : Nat) : (s.wr p o v).packs = s.packs := rfl
@[simp] theorem State.wr_fw (p o v : Nat) : (s.wr p o v).fw = s.fw := rfl
@[simp] theorem State.wr_vault (p o v : Nat) : (s.wr p o v).vault = s.vault := rfl
@[simp] theorem State.wr_pwr (p o v : Nat) : (s.wr p o v).pwr = s.pwr := rfl
@[simp] theorem State.wr_boot (p o v : Nat) : (s.wr p o v).boot = s.boot := rfl
@[simp] theorem State.wr_pros (p o v : Nat) : (s.wr p o v).pros = s.pros := rfl
@[simp] theorem State.wr_mon (p o v : Nat) : (s.wr p o v).mon = s.mon := rfl

/-! ### wrB -/

@[simp] theorem State.wrB_pending (b p o v : Nat) : (s.wrB b p o v).pending = s.pending := rfl
@[simp] theorem State.wrB_osc (b p o v : Nat) : (s.wrB b p o v).osc = s.osc := rfl
@[simp] theorem State.wrB_fresh (b p o v : Nat) : (s.wrB b p o v).fresh = s.fresh := rfl
@[simp] theorem State.wrB_powered (b p o v : Nat) : (s.wrB b p o v).powered = s.powered := rfl
@[simp] theorem State.wrB_tally (b p o v : Nat) : (s.wrB b p o v).tally = s.tally := rfl
@[simp] theorem State.wrB_sealWords (b p o v : Nat) : (s.wrB b p o v).sealWords = s.sealWords := rfl
@[simp] theorem State.wrB_mem (b p o v : Nat) : (s.wrB b p o v).mem = s.mem := rfl
@[simp] theorem State.wrB_recorder (b p o v : Nat) : (s.wrB b p o v).recorder = s.recorder := rfl
@[simp] theorem State.wrB_jobs (b p o v : Nat) : (s.wrB b p o v).jobs = s.jobs := rfl
@[simp] theorem State.wrB_stopes (b p o v : Nat) : (s.wrB b p o v).stopes = s.stopes := rfl
@[simp] theorem State.wrB_mesh (b p o v : Nat) : (s.wrB b p o v).mesh = s.mesh := rfl
@[simp] theorem State.wrB_aged (b p o v : Nat) : (s.wrB b p o v).aged = s.aged := rfl
@[simp] theorem State.wrB_mill (b p o v : Nat) : (s.wrB b p o v).mill = s.mill := rfl
@[simp] theorem State.wrB_fast (b p o v : Nat) : (s.wrB b p o v).fast = s.fast := rfl
@[simp] theorem State.wrB_slow (b p o v : Nat) : (s.wrB b p o v).slow = s.slow := rfl
@[simp] theorem State.wrB_sealing (b p o v : Nat) : (s.wrB b p o v).sealing = s.sealing := rfl
@[simp] theorem State.wrB_clock (b p o v : Nat) : (s.wrB b p o v).clock = s.clock := rfl
@[simp] theorem State.wrB_gov (b p o v : Nat) : (s.wrB b p o v).gov = s.gov := rfl
@[simp] theorem State.wrB_marks (b p o v : Nat) : (s.wrB b p o v).marks = s.marks := rfl
@[simp] theorem State.wrB_claims (b p o v : Nat) : (s.wrB b p o v).claims = s.claims := rfl
@[simp] theorem State.wrB_sess (b p o v : Nat) : (s.wrB b p o v).sess = s.sess := rfl
@[simp] theorem State.wrB_streams (b p o v : Nat) : (s.wrB b p o v).streams = s.streams := rfl
@[simp] theorem State.wrB_pairs (b p o v : Nat) : (s.wrB b p o v).pairs = s.pairs := rfl
@[simp] theorem State.wrB_caps (b p o v : Nat) : (s.wrB b p o v).caps = s.caps := rfl
@[simp] theorem State.wrB_resp (b p o v : Nat) : (s.wrB b p o v).resp = s.resp := rfl
@[simp] theorem State.wrB_msi (b p o v : Nat) : (s.wrB b p o v).msi = s.msi := rfl
@[simp] theorem State.wrB_ports (b p o v : Nat) : (s.wrB b p o v).ports = s.ports := rfl
@[simp] theorem State.wrB_casc (b p o v : Nat) : (s.wrB b p o v).casc = s.casc := rfl
@[simp] theorem State.wrB_packs (b p o v : Nat) : (s.wrB b p o v).packs = s.packs := rfl
@[simp] theorem State.wrB_fw (b p o v : Nat) : (s.wrB b p o v).fw = s.fw := rfl
@[simp] theorem State.wrB_vault (b p o v : Nat) : (s.wrB b p o v).vault = s.vault := rfl
@[simp] theorem State.wrB_pwr (b p o v : Nat) : (s.wrB b p o v).pwr = s.pwr := rfl
@[simp] theorem State.wrB_boot (b p o v : Nat) : (s.wrB b p o v).boot = s.boot := rfl
@[simp] theorem State.wrB_pros (b p o v : Nat) : (s.wrB b p o v).pros = s.pros := rfl
@[simp] theorem State.wrB_mon (b p o v : Nat) : (s.wrB b p o v).mon = s.mon := rfl

/-! ### setFld -/

@[simp] theorem State.setFld_pending (p o hi lo v : Nat) : (s.setFld p o hi lo v).pending = s.pending := rfl
@[simp] theorem State.setFld_osc (p o hi lo v : Nat) : (s.setFld p o hi lo v).osc = s.osc := rfl
@[simp] theorem State.setFld_fresh (p o hi lo v : Nat) : (s.setFld p o hi lo v).fresh = s.fresh := rfl
@[simp] theorem State.setFld_powered (p o hi lo v : Nat) : (s.setFld p o hi lo v).powered = s.powered := rfl
@[simp] theorem State.setFld_tally (p o hi lo v : Nat) : (s.setFld p o hi lo v).tally = s.tally := rfl
@[simp] theorem State.setFld_sealWords (p o hi lo v : Nat) : (s.setFld p o hi lo v).sealWords = s.sealWords := rfl
@[simp] theorem State.setFld_mem (p o hi lo v : Nat) : (s.setFld p o hi lo v).mem = s.mem := rfl
@[simp] theorem State.setFld_recorder (p o hi lo v : Nat) : (s.setFld p o hi lo v).recorder = s.recorder := rfl
@[simp] theorem State.setFld_jobs (p o hi lo v : Nat) : (s.setFld p o hi lo v).jobs = s.jobs := rfl
@[simp] theorem State.setFld_stopes (p o hi lo v : Nat) : (s.setFld p o hi lo v).stopes = s.stopes := rfl
@[simp] theorem State.setFld_mesh (p o hi lo v : Nat) : (s.setFld p o hi lo v).mesh = s.mesh := rfl
@[simp] theorem State.setFld_aged (p o hi lo v : Nat) : (s.setFld p o hi lo v).aged = s.aged := rfl
@[simp] theorem State.setFld_mill (p o hi lo v : Nat) : (s.setFld p o hi lo v).mill = s.mill := rfl
@[simp] theorem State.setFld_fast (p o hi lo v : Nat) : (s.setFld p o hi lo v).fast = s.fast := rfl
@[simp] theorem State.setFld_slow (p o hi lo v : Nat) : (s.setFld p o hi lo v).slow = s.slow := rfl
@[simp] theorem State.setFld_sealing (p o hi lo v : Nat) : (s.setFld p o hi lo v).sealing = s.sealing := rfl
@[simp] theorem State.setFld_clock (p o hi lo v : Nat) : (s.setFld p o hi lo v).clock = s.clock := rfl
@[simp] theorem State.setFld_gov (p o hi lo v : Nat) : (s.setFld p o hi lo v).gov = s.gov := rfl
@[simp] theorem State.setFld_marks (p o hi lo v : Nat) : (s.setFld p o hi lo v).marks = s.marks := rfl
@[simp] theorem State.setFld_claims (p o hi lo v : Nat) : (s.setFld p o hi lo v).claims = s.claims := rfl
@[simp] theorem State.setFld_sess (p o hi lo v : Nat) : (s.setFld p o hi lo v).sess = s.sess := rfl
@[simp] theorem State.setFld_streams (p o hi lo v : Nat) : (s.setFld p o hi lo v).streams = s.streams := rfl
@[simp] theorem State.setFld_pairs (p o hi lo v : Nat) : (s.setFld p o hi lo v).pairs = s.pairs := rfl
@[simp] theorem State.setFld_caps (p o hi lo v : Nat) : (s.setFld p o hi lo v).caps = s.caps := rfl
@[simp] theorem State.setFld_resp (p o hi lo v : Nat) : (s.setFld p o hi lo v).resp = s.resp := rfl
@[simp] theorem State.setFld_msi (p o hi lo v : Nat) : (s.setFld p o hi lo v).msi = s.msi := rfl
@[simp] theorem State.setFld_ports (p o hi lo v : Nat) : (s.setFld p o hi lo v).ports = s.ports := rfl
@[simp] theorem State.setFld_casc (p o hi lo v : Nat) : (s.setFld p o hi lo v).casc = s.casc := rfl
@[simp] theorem State.setFld_packs (p o hi lo v : Nat) : (s.setFld p o hi lo v).packs = s.packs := rfl
@[simp] theorem State.setFld_fw (p o hi lo v : Nat) : (s.setFld p o hi lo v).fw = s.fw := rfl
@[simp] theorem State.setFld_vault (p o hi lo v : Nat) : (s.setFld p o hi lo v).vault = s.vault := rfl
@[simp] theorem State.setFld_pwr (p o hi lo v : Nat) : (s.setFld p o hi lo v).pwr = s.pwr := rfl
@[simp] theorem State.setFld_boot (p o hi lo v : Nat) : (s.setFld p o hi lo v).boot = s.boot := rfl
@[simp] theorem State.setFld_pros (p o hi lo v : Nat) : (s.setFld p o hi lo v).pros = s.pros := rfl
@[simp] theorem State.setFld_mon (p o hi lo v : Nat) : (s.setFld p o hi lo v).mon = s.mon := rfl

/-! ### setFldB -/

@[simp] theorem State.setFldB_pending (b p o hi lo v : Nat) : (s.setFldB b p o hi lo v).pending = s.pending := rfl
@[simp] theorem State.setFldB_osc (b p o hi lo v : Nat) : (s.setFldB b p o hi lo v).osc = s.osc := rfl
@[simp] theorem State.setFldB_fresh (b p o hi lo v : Nat) : (s.setFldB b p o hi lo v).fresh = s.fresh := rfl
@[simp] theorem State.setFldB_powered (b p o hi lo v : Nat) : (s.setFldB b p o hi lo v).powered = s.powered := rfl
@[simp] theorem State.setFldB_tally (b p o hi lo v : Nat) : (s.setFldB b p o hi lo v).tally = s.tally := rfl
@[simp] theorem State.setFldB_sealWords (b p o hi lo v : Nat) : (s.setFldB b p o hi lo v).sealWords = s.sealWords := rfl
@[simp] theorem State.setFldB_mem (b p o hi lo v : Nat) : (s.setFldB b p o hi lo v).mem = s.mem := rfl
@[simp] theorem State.setFldB_recorder (b p o hi lo v : Nat) : (s.setFldB b p o hi lo v).recorder = s.recorder := rfl
@[simp] theorem State.setFldB_jobs (b p o hi lo v : Nat) : (s.setFldB b p o hi lo v).jobs = s.jobs := rfl
@[simp] theorem State.setFldB_stopes (b p o hi lo v : Nat) : (s.setFldB b p o hi lo v).stopes = s.stopes := rfl
@[simp] theorem State.setFldB_mesh (b p o hi lo v : Nat) : (s.setFldB b p o hi lo v).mesh = s.mesh := rfl
@[simp] theorem State.setFldB_aged (b p o hi lo v : Nat) : (s.setFldB b p o hi lo v).aged = s.aged := rfl
@[simp] theorem State.setFldB_mill (b p o hi lo v : Nat) : (s.setFldB b p o hi lo v).mill = s.mill := rfl
@[simp] theorem State.setFldB_fast (b p o hi lo v : Nat) : (s.setFldB b p o hi lo v).fast = s.fast := rfl
@[simp] theorem State.setFldB_slow (b p o hi lo v : Nat) : (s.setFldB b p o hi lo v).slow = s.slow := rfl
@[simp] theorem State.setFldB_sealing (b p o hi lo v : Nat) : (s.setFldB b p o hi lo v).sealing = s.sealing := rfl
@[simp] theorem State.setFldB_clock (b p o hi lo v : Nat) : (s.setFldB b p o hi lo v).clock = s.clock := rfl
@[simp] theorem State.setFldB_gov (b p o hi lo v : Nat) : (s.setFldB b p o hi lo v).gov = s.gov := rfl
@[simp] theorem State.setFldB_marks (b p o hi lo v : Nat) : (s.setFldB b p o hi lo v).marks = s.marks := rfl
@[simp] theorem State.setFldB_claims (b p o hi lo v : Nat) : (s.setFldB b p o hi lo v).claims = s.claims := rfl
@[simp] theorem State.setFldB_sess (b p o hi lo v : Nat) : (s.setFldB b p o hi lo v).sess = s.sess := rfl
@[simp] theorem State.setFldB_streams (b p o hi lo v : Nat) : (s.setFldB b p o hi lo v).streams = s.streams := rfl
@[simp] theorem State.setFldB_pairs (b p o hi lo v : Nat) : (s.setFldB b p o hi lo v).pairs = s.pairs := rfl
@[simp] theorem State.setFldB_caps (b p o hi lo v : Nat) : (s.setFldB b p o hi lo v).caps = s.caps := rfl
@[simp] theorem State.setFldB_resp (b p o hi lo v : Nat) : (s.setFldB b p o hi lo v).resp = s.resp := rfl
@[simp] theorem State.setFldB_msi (b p o hi lo v : Nat) : (s.setFldB b p o hi lo v).msi = s.msi := rfl
@[simp] theorem State.setFldB_ports (b p o hi lo v : Nat) : (s.setFldB b p o hi lo v).ports = s.ports := rfl
@[simp] theorem State.setFldB_casc (b p o hi lo v : Nat) : (s.setFldB b p o hi lo v).casc = s.casc := rfl
@[simp] theorem State.setFldB_packs (b p o hi lo v : Nat) : (s.setFldB b p o hi lo v).packs = s.packs := rfl
@[simp] theorem State.setFldB_fw (b p o hi lo v : Nat) : (s.setFldB b p o hi lo v).fw = s.fw := rfl
@[simp] theorem State.setFldB_vault (b p o hi lo v : Nat) : (s.setFldB b p o hi lo v).vault = s.vault := rfl
@[simp] theorem State.setFldB_pwr (b p o hi lo v : Nat) : (s.setFldB b p o hi lo v).pwr = s.pwr := rfl
@[simp] theorem State.setFldB_boot (b p o hi lo v : Nat) : (s.setFldB b p o hi lo v).boot = s.boot := rfl
@[simp] theorem State.setFldB_pros (b p o hi lo v : Nat) : (s.setFldB b p o hi lo v).pros = s.pros := rfl
@[simp] theorem State.setFldB_mon (b p o hi lo v : Nat) : (s.setFldB b p o hi lo v).mon = s.mon := rfl

/-! ### wr64 -/

@[simp] theorem State.wr64_pending (p o v : Nat) : (s.wr64 p o v).pending = s.pending := rfl
@[simp] theorem State.wr64_osc (p o v : Nat) : (s.wr64 p o v).osc = s.osc := rfl
@[simp] theorem State.wr64_fresh (p o v : Nat) : (s.wr64 p o v).fresh = s.fresh := rfl
@[simp] theorem State.wr64_powered (p o v : Nat) : (s.wr64 p o v).powered = s.powered := rfl
@[simp] theorem State.wr64_tally (p o v : Nat) : (s.wr64 p o v).tally = s.tally := rfl
@[simp] theorem State.wr64_sealWords (p o v : Nat) : (s.wr64 p o v).sealWords = s.sealWords := rfl
@[simp] theorem State.wr64_mem (p o v : Nat) : (s.wr64 p o v).mem = s.mem := rfl
@[simp] theorem State.wr64_recorder (p o v : Nat) : (s.wr64 p o v).recorder = s.recorder := rfl
@[simp] theorem State.wr64_jobs (p o v : Nat) : (s.wr64 p o v).jobs = s.jobs := rfl
@[simp] theorem State.wr64_stopes (p o v : Nat) : (s.wr64 p o v).stopes = s.stopes := rfl
@[simp] theorem State.wr64_mesh (p o v : Nat) : (s.wr64 p o v).mesh = s.mesh := rfl
@[simp] theorem State.wr64_aged (p o v : Nat) : (s.wr64 p o v).aged = s.aged := rfl
@[simp] theorem State.wr64_mill (p o v : Nat) : (s.wr64 p o v).mill = s.mill := rfl
@[simp] theorem State.wr64_fast (p o v : Nat) : (s.wr64 p o v).fast = s.fast := rfl
@[simp] theorem State.wr64_slow (p o v : Nat) : (s.wr64 p o v).slow = s.slow := rfl
@[simp] theorem State.wr64_sealing (p o v : Nat) : (s.wr64 p o v).sealing = s.sealing := rfl
@[simp] theorem State.wr64_clock (p o v : Nat) : (s.wr64 p o v).clock = s.clock := rfl
@[simp] theorem State.wr64_gov (p o v : Nat) : (s.wr64 p o v).gov = s.gov := rfl
@[simp] theorem State.wr64_marks (p o v : Nat) : (s.wr64 p o v).marks = s.marks := rfl
@[simp] theorem State.wr64_claims (p o v : Nat) : (s.wr64 p o v).claims = s.claims := rfl
@[simp] theorem State.wr64_sess (p o v : Nat) : (s.wr64 p o v).sess = s.sess := rfl
@[simp] theorem State.wr64_streams (p o v : Nat) : (s.wr64 p o v).streams = s.streams := rfl
@[simp] theorem State.wr64_pairs (p o v : Nat) : (s.wr64 p o v).pairs = s.pairs := rfl
@[simp] theorem State.wr64_caps (p o v : Nat) : (s.wr64 p o v).caps = s.caps := rfl
@[simp] theorem State.wr64_resp (p o v : Nat) : (s.wr64 p o v).resp = s.resp := rfl
@[simp] theorem State.wr64_msi (p o v : Nat) : (s.wr64 p o v).msi = s.msi := rfl
@[simp] theorem State.wr64_ports (p o v : Nat) : (s.wr64 p o v).ports = s.ports := rfl
@[simp] theorem State.wr64_casc (p o v : Nat) : (s.wr64 p o v).casc = s.casc := rfl
@[simp] theorem State.wr64_packs (p o v : Nat) : (s.wr64 p o v).packs = s.packs := rfl
@[simp] theorem State.wr64_fw (p o v : Nat) : (s.wr64 p o v).fw = s.fw := rfl
@[simp] theorem State.wr64_vault (p o v : Nat) : (s.wr64 p o v).vault = s.vault := rfl
@[simp] theorem State.wr64_pwr (p o v : Nat) : (s.wr64 p o v).pwr = s.pwr := rfl
@[simp] theorem State.wr64_boot (p o v : Nat) : (s.wr64 p o v).boot = s.boot := rfl
@[simp] theorem State.wr64_pros (p o v : Nat) : (s.wr64 p o v).pros = s.pros := rfl
@[simp] theorem State.wr64_mon (p o v : Nat) : (s.wr64 p o v).mon = s.mon := rfl

/-! ### wrByte -/

@[simp] theorem State.wrByte_pending (c a : Nat) (v : Byte) : (s.wrByte c a v).pending = s.pending := rfl
@[simp] theorem State.wrByte_osc (c a : Nat) (v : Byte) : (s.wrByte c a v).osc = s.osc := rfl
@[simp] theorem State.wrByte_fresh (c a : Nat) (v : Byte) : (s.wrByte c a v).fresh = s.fresh := rfl
@[simp] theorem State.wrByte_powered (c a : Nat) (v : Byte) : (s.wrByte c a v).powered = s.powered := rfl
@[simp] theorem State.wrByte_tally (c a : Nat) (v : Byte) : (s.wrByte c a v).tally = s.tally := rfl
@[simp] theorem State.wrByte_regs (c a : Nat) (v : Byte) : (s.wrByte c a v).regs = s.regs := rfl
@[simp] theorem State.wrByte_sealWords (c a : Nat) (v : Byte) : (s.wrByte c a v).sealWords = s.sealWords := rfl
@[simp] theorem State.wrByte_recorder (c a : Nat) (v : Byte) : (s.wrByte c a v).recorder = s.recorder := rfl
@[simp] theorem State.wrByte_jobs (c a : Nat) (v : Byte) : (s.wrByte c a v).jobs = s.jobs := rfl
@[simp] theorem State.wrByte_stopes (c a : Nat) (v : Byte) : (s.wrByte c a v).stopes = s.stopes := rfl
@[simp] theorem State.wrByte_mesh (c a : Nat) (v : Byte) : (s.wrByte c a v).mesh = s.mesh := rfl
@[simp] theorem State.wrByte_aged (c a : Nat) (v : Byte) : (s.wrByte c a v).aged = s.aged := rfl
@[simp] theorem State.wrByte_mill (c a : Nat) (v : Byte) : (s.wrByte c a v).mill = s.mill := rfl
@[simp] theorem State.wrByte_fast (c a : Nat) (v : Byte) : (s.wrByte c a v).fast = s.fast := rfl
@[simp] theorem State.wrByte_slow (c a : Nat) (v : Byte) : (s.wrByte c a v).slow = s.slow := rfl
@[simp] theorem State.wrByte_sealing (c a : Nat) (v : Byte) : (s.wrByte c a v).sealing = s.sealing := rfl
@[simp] theorem State.wrByte_clock (c a : Nat) (v : Byte) : (s.wrByte c a v).clock = s.clock := rfl
@[simp] theorem State.wrByte_gov (c a : Nat) (v : Byte) : (s.wrByte c a v).gov = s.gov := rfl
@[simp] theorem State.wrByte_marks (c a : Nat) (v : Byte) : (s.wrByte c a v).marks = s.marks := rfl
@[simp] theorem State.wrByte_claims (c a : Nat) (v : Byte) : (s.wrByte c a v).claims = s.claims := rfl
@[simp] theorem State.wrByte_sess (c a : Nat) (v : Byte) : (s.wrByte c a v).sess = s.sess := rfl
@[simp] theorem State.wrByte_streams (c a : Nat) (v : Byte) : (s.wrByte c a v).streams = s.streams := rfl
@[simp] theorem State.wrByte_pairs (c a : Nat) (v : Byte) : (s.wrByte c a v).pairs = s.pairs := rfl
@[simp] theorem State.wrByte_caps (c a : Nat) (v : Byte) : (s.wrByte c a v).caps = s.caps := rfl
@[simp] theorem State.wrByte_resp (c a : Nat) (v : Byte) : (s.wrByte c a v).resp = s.resp := rfl
@[simp] theorem State.wrByte_msi (c a : Nat) (v : Byte) : (s.wrByte c a v).msi = s.msi := rfl
@[simp] theorem State.wrByte_ports (c a : Nat) (v : Byte) : (s.wrByte c a v).ports = s.ports := rfl
@[simp] theorem State.wrByte_casc (c a : Nat) (v : Byte) : (s.wrByte c a v).casc = s.casc := rfl
@[simp] theorem State.wrByte_packs (c a : Nat) (v : Byte) : (s.wrByte c a v).packs = s.packs := rfl
@[simp] theorem State.wrByte_fw (c a : Nat) (v : Byte) : (s.wrByte c a v).fw = s.fw := rfl
@[simp] theorem State.wrByte_vault (c a : Nat) (v : Byte) : (s.wrByte c a v).vault = s.vault := rfl
@[simp] theorem State.wrByte_pwr (c a : Nat) (v : Byte) : (s.wrByte c a v).pwr = s.pwr := rfl
@[simp] theorem State.wrByte_boot (c a : Nat) (v : Byte) : (s.wrByte c a v).boot = s.boot := rfl
@[simp] theorem State.wrByte_pros (c a : Nat) (v : Byte) : (s.wrByte c a v).pros = s.pros := rfl
@[simp] theorem State.wrByte_mon (c a : Nat) (v : Byte) : (s.wrByte c a v).mon = s.mon := rfl

/-! ### keepMem -/

@[simp] theorem State.keepMem_pending (f : Nat → Bool) : (s.keepMem f).pending = s.pending := rfl
@[simp] theorem State.keepMem_osc (f : Nat → Bool) : (s.keepMem f).osc = s.osc := rfl
@[simp] theorem State.keepMem_fresh (f : Nat → Bool) : (s.keepMem f).fresh = s.fresh := rfl
@[simp] theorem State.keepMem_powered (f : Nat → Bool) : (s.keepMem f).powered = s.powered := rfl
@[simp] theorem State.keepMem_tally (f : Nat → Bool) : (s.keepMem f).tally = s.tally := rfl
@[simp] theorem State.keepMem_regs (f : Nat → Bool) : (s.keepMem f).regs = s.regs := rfl
@[simp] theorem State.keepMem_sealWords (f : Nat → Bool) : (s.keepMem f).sealWords = s.sealWords := rfl
@[simp] theorem State.keepMem_recorder (f : Nat → Bool) : (s.keepMem f).recorder = s.recorder := rfl
@[simp] theorem State.keepMem_jobs (f : Nat → Bool) : (s.keepMem f).jobs = s.jobs := rfl
@[simp] theorem State.keepMem_stopes (f : Nat → Bool) : (s.keepMem f).stopes = s.stopes := rfl
@[simp] theorem State.keepMem_mesh (f : Nat → Bool) : (s.keepMem f).mesh = s.mesh := rfl
@[simp] theorem State.keepMem_aged (f : Nat → Bool) : (s.keepMem f).aged = s.aged := rfl
@[simp] theorem State.keepMem_mill (f : Nat → Bool) : (s.keepMem f).mill = s.mill := rfl
@[simp] theorem State.keepMem_fast (f : Nat → Bool) : (s.keepMem f).fast = s.fast := rfl
@[simp] theorem State.keepMem_slow (f : Nat → Bool) : (s.keepMem f).slow = s.slow := rfl
@[simp] theorem State.keepMem_sealing (f : Nat → Bool) : (s.keepMem f).sealing = s.sealing := rfl
@[simp] theorem State.keepMem_clock (f : Nat → Bool) : (s.keepMem f).clock = s.clock := rfl
@[simp] theorem State.keepMem_gov (f : Nat → Bool) : (s.keepMem f).gov = s.gov := rfl
@[simp] theorem State.keepMem_marks (f : Nat → Bool) : (s.keepMem f).marks = s.marks := rfl
@[simp] theorem State.keepMem_claims (f : Nat → Bool) : (s.keepMem f).claims = s.claims := rfl
@[simp] theorem State.keepMem_sess (f : Nat → Bool) : (s.keepMem f).sess = s.sess := rfl
@[simp] theorem State.keepMem_streams (f : Nat → Bool) : (s.keepMem f).streams = s.streams := rfl
@[simp] theorem State.keepMem_pairs (f : Nat → Bool) : (s.keepMem f).pairs = s.pairs := rfl
@[simp] theorem State.keepMem_caps (f : Nat → Bool) : (s.keepMem f).caps = s.caps := rfl
@[simp] theorem State.keepMem_resp (f : Nat → Bool) : (s.keepMem f).resp = s.resp := rfl
@[simp] theorem State.keepMem_msi (f : Nat → Bool) : (s.keepMem f).msi = s.msi := rfl
@[simp] theorem State.keepMem_ports (f : Nat → Bool) : (s.keepMem f).ports = s.ports := rfl
@[simp] theorem State.keepMem_casc (f : Nat → Bool) : (s.keepMem f).casc = s.casc := rfl
@[simp] theorem State.keepMem_packs (f : Nat → Bool) : (s.keepMem f).packs = s.packs := rfl
@[simp] theorem State.keepMem_fw (f : Nat → Bool) : (s.keepMem f).fw = s.fw := rfl
@[simp] theorem State.keepMem_vault (f : Nat → Bool) : (s.keepMem f).vault = s.vault := rfl
@[simp] theorem State.keepMem_pwr (f : Nat → Bool) : (s.keepMem f).pwr = s.pwr := rfl
@[simp] theorem State.keepMem_boot (f : Nat → Bool) : (s.keepMem f).boot = s.boot := rfl
@[simp] theorem State.keepMem_pros (f : Nat → Bool) : (s.keepMem f).pros = s.pros := rfl
@[simp] theorem State.keepMem_mon (f : Nat → Bool) : (s.keepMem f).mon = s.mon := rfl

/-! ### keepRegs -/

@[simp] theorem State.keepRegs_pending (f : Nat → Bool) : (s.keepRegs f).pending = s.pending := rfl
@[simp] theorem State.keepRegs_osc (f : Nat → Bool) : (s.keepRegs f).osc = s.osc := rfl
@[simp] theorem State.keepRegs_fresh (f : Nat → Bool) : (s.keepRegs f).fresh = s.fresh := rfl
@[simp] theorem State.keepRegs_powered (f : Nat → Bool) : (s.keepRegs f).powered = s.powered := rfl
@[simp] theorem State.keepRegs_tally (f : Nat → Bool) : (s.keepRegs f).tally = s.tally := rfl
@[simp] theorem State.keepRegs_sealWords (f : Nat → Bool) : (s.keepRegs f).sealWords = s.sealWords := rfl
@[simp] theorem State.keepRegs_mem (f : Nat → Bool) : (s.keepRegs f).mem = s.mem := rfl
@[simp] theorem State.keepRegs_recorder (f : Nat → Bool) : (s.keepRegs f).recorder = s.recorder := rfl
@[simp] theorem State.keepRegs_jobs (f : Nat → Bool) : (s.keepRegs f).jobs = s.jobs := rfl
@[simp] theorem State.keepRegs_stopes (f : Nat → Bool) : (s.keepRegs f).stopes = s.stopes := rfl
@[simp] theorem State.keepRegs_mesh (f : Nat → Bool) : (s.keepRegs f).mesh = s.mesh := rfl
@[simp] theorem State.keepRegs_aged (f : Nat → Bool) : (s.keepRegs f).aged = s.aged := rfl
@[simp] theorem State.keepRegs_mill (f : Nat → Bool) : (s.keepRegs f).mill = s.mill := rfl
@[simp] theorem State.keepRegs_fast (f : Nat → Bool) : (s.keepRegs f).fast = s.fast := rfl
@[simp] theorem State.keepRegs_slow (f : Nat → Bool) : (s.keepRegs f).slow = s.slow := rfl
@[simp] theorem State.keepRegs_sealing (f : Nat → Bool) : (s.keepRegs f).sealing = s.sealing := rfl
@[simp] theorem State.keepRegs_clock (f : Nat → Bool) : (s.keepRegs f).clock = s.clock := rfl
@[simp] theorem State.keepRegs_gov (f : Nat → Bool) : (s.keepRegs f).gov = s.gov := rfl
@[simp] theorem State.keepRegs_marks (f : Nat → Bool) : (s.keepRegs f).marks = s.marks := rfl
@[simp] theorem State.keepRegs_claims (f : Nat → Bool) : (s.keepRegs f).claims = s.claims := rfl
@[simp] theorem State.keepRegs_sess (f : Nat → Bool) : (s.keepRegs f).sess = s.sess := rfl
@[simp] theorem State.keepRegs_streams (f : Nat → Bool) : (s.keepRegs f).streams = s.streams := rfl
@[simp] theorem State.keepRegs_pairs (f : Nat → Bool) : (s.keepRegs f).pairs = s.pairs := rfl
@[simp] theorem State.keepRegs_caps (f : Nat → Bool) : (s.keepRegs f).caps = s.caps := rfl
@[simp] theorem State.keepRegs_resp (f : Nat → Bool) : (s.keepRegs f).resp = s.resp := rfl
@[simp] theorem State.keepRegs_msi (f : Nat → Bool) : (s.keepRegs f).msi = s.msi := rfl
@[simp] theorem State.keepRegs_ports (f : Nat → Bool) : (s.keepRegs f).ports = s.ports := rfl
@[simp] theorem State.keepRegs_casc (f : Nat → Bool) : (s.keepRegs f).casc = s.casc := rfl
@[simp] theorem State.keepRegs_packs (f : Nat → Bool) : (s.keepRegs f).packs = s.packs := rfl
@[simp] theorem State.keepRegs_fw (f : Nat → Bool) : (s.keepRegs f).fw = s.fw := rfl
@[simp] theorem State.keepRegs_vault (f : Nat → Bool) : (s.keepRegs f).vault = s.vault := rfl
@[simp] theorem State.keepRegs_pwr (f : Nat → Bool) : (s.keepRegs f).pwr = s.pwr := rfl
@[simp] theorem State.keepRegs_boot (f : Nat → Bool) : (s.keepRegs f).boot = s.boot := rfl
@[simp] theorem State.keepRegs_pros (f : Nat → Bool) : (s.keepRegs f).pros = s.pros := rfl
@[simp] theorem State.keepRegs_mon (f : Nat → Bool) : (s.keepRegs f).mon = s.mon := rfl

/-! ### setJob -/

@[simp] theorem State.setJob_pending (c : Nat) (j : Job) : (s.setJob c j).pending = s.pending := rfl
@[simp] theorem State.setJob_osc (c : Nat) (j : Job) : (s.setJob c j).osc = s.osc := rfl
@[simp] theorem State.setJob_fresh (c : Nat) (j : Job) : (s.setJob c j).fresh = s.fresh := rfl
@[simp] theorem State.setJob_powered (c : Nat) (j : Job) : (s.setJob c j).powered = s.powered := rfl
@[simp] theorem State.setJob_tally (c : Nat) (j : Job) : (s.setJob c j).tally = s.tally := rfl
@[simp] theorem State.setJob_regs (c : Nat) (j : Job) : (s.setJob c j).regs = s.regs := rfl
@[simp] theorem State.setJob_sealWords (c : Nat) (j : Job) : (s.setJob c j).sealWords = s.sealWords := rfl
@[simp] theorem State.setJob_mem (c : Nat) (j : Job) : (s.setJob c j).mem = s.mem := rfl
@[simp] theorem State.setJob_recorder (c : Nat) (j : Job) : (s.setJob c j).recorder = s.recorder := rfl
@[simp] theorem State.setJob_stopes (c : Nat) (j : Job) : (s.setJob c j).stopes = s.stopes := rfl
@[simp] theorem State.setJob_mesh (c : Nat) (j : Job) : (s.setJob c j).mesh = s.mesh := rfl
@[simp] theorem State.setJob_aged (c : Nat) (j : Job) : (s.setJob c j).aged = s.aged := rfl
@[simp] theorem State.setJob_mill (c : Nat) (j : Job) : (s.setJob c j).mill = s.mill := rfl
@[simp] theorem State.setJob_fast (c : Nat) (j : Job) : (s.setJob c j).fast = s.fast := rfl
@[simp] theorem State.setJob_slow (c : Nat) (j : Job) : (s.setJob c j).slow = s.slow := rfl
@[simp] theorem State.setJob_sealing (c : Nat) (j : Job) : (s.setJob c j).sealing = s.sealing := rfl
@[simp] theorem State.setJob_clock (c : Nat) (j : Job) : (s.setJob c j).clock = s.clock := rfl
@[simp] theorem State.setJob_gov (c : Nat) (j : Job) : (s.setJob c j).gov = s.gov := rfl
@[simp] theorem State.setJob_marks (c : Nat) (j : Job) : (s.setJob c j).marks = s.marks := rfl
@[simp] theorem State.setJob_claims (c : Nat) (j : Job) : (s.setJob c j).claims = s.claims := rfl
@[simp] theorem State.setJob_sess (c : Nat) (j : Job) : (s.setJob c j).sess = s.sess := rfl
@[simp] theorem State.setJob_streams (c : Nat) (j : Job) : (s.setJob c j).streams = s.streams := rfl
@[simp] theorem State.setJob_pairs (c : Nat) (j : Job) : (s.setJob c j).pairs = s.pairs := rfl
@[simp] theorem State.setJob_caps (c : Nat) (j : Job) : (s.setJob c j).caps = s.caps := rfl
@[simp] theorem State.setJob_resp (c : Nat) (j : Job) : (s.setJob c j).resp = s.resp := rfl
@[simp] theorem State.setJob_msi (c : Nat) (j : Job) : (s.setJob c j).msi = s.msi := rfl
@[simp] theorem State.setJob_ports (c : Nat) (j : Job) : (s.setJob c j).ports = s.ports := rfl
@[simp] theorem State.setJob_casc (c : Nat) (j : Job) : (s.setJob c j).casc = s.casc := rfl
@[simp] theorem State.setJob_packs (c : Nat) (j : Job) : (s.setJob c j).packs = s.packs := rfl
@[simp] theorem State.setJob_fw (c : Nat) (j : Job) : (s.setJob c j).fw = s.fw := rfl
@[simp] theorem State.setJob_vault (c : Nat) (j : Job) : (s.setJob c j).vault = s.vault := rfl
@[simp] theorem State.setJob_pwr (c : Nat) (j : Job) : (s.setJob c j).pwr = s.pwr := rfl
@[simp] theorem State.setJob_boot (c : Nat) (j : Job) : (s.setJob c j).boot = s.boot := rfl
@[simp] theorem State.setJob_pros (c : Nat) (j : Job) : (s.setJob c j).pros = s.pros := rfl
@[simp] theorem State.setJob_mon (c : Nat) (j : Job) : (s.setJob c j).mon = s.mon := rfl

/-! ### setStope -/

@[simp] theorem State.setStope_pending (p : Nat) (x : Stope) : (s.setStope p x).pending = s.pending := rfl
@[simp] theorem State.setStope_osc (p : Nat) (x : Stope) : (s.setStope p x).osc = s.osc := rfl
@[simp] theorem State.setStope_fresh (p : Nat) (x : Stope) : (s.setStope p x).fresh = s.fresh := rfl
@[simp] theorem State.setStope_powered (p : Nat) (x : Stope) : (s.setStope p x).powered = s.powered := rfl
@[simp] theorem State.setStope_tally (p : Nat) (x : Stope) : (s.setStope p x).tally = s.tally := rfl
@[simp] theorem State.setStope_regs (p : Nat) (x : Stope) : (s.setStope p x).regs = s.regs := rfl
@[simp] theorem State.setStope_sealWords (p : Nat) (x : Stope) : (s.setStope p x).sealWords = s.sealWords := rfl
@[simp] theorem State.setStope_mem (p : Nat) (x : Stope) : (s.setStope p x).mem = s.mem := rfl
@[simp] theorem State.setStope_recorder (p : Nat) (x : Stope) : (s.setStope p x).recorder = s.recorder := rfl
@[simp] theorem State.setStope_jobs (p : Nat) (x : Stope) : (s.setStope p x).jobs = s.jobs := rfl
@[simp] theorem State.setStope_mesh (p : Nat) (x : Stope) : (s.setStope p x).mesh = s.mesh := rfl
@[simp] theorem State.setStope_aged (p : Nat) (x : Stope) : (s.setStope p x).aged = s.aged := rfl
@[simp] theorem State.setStope_mill (p : Nat) (x : Stope) : (s.setStope p x).mill = s.mill := rfl
@[simp] theorem State.setStope_fast (p : Nat) (x : Stope) : (s.setStope p x).fast = s.fast := rfl
@[simp] theorem State.setStope_slow (p : Nat) (x : Stope) : (s.setStope p x).slow = s.slow := rfl
@[simp] theorem State.setStope_sealing (p : Nat) (x : Stope) : (s.setStope p x).sealing = s.sealing := rfl
@[simp] theorem State.setStope_clock (p : Nat) (x : Stope) : (s.setStope p x).clock = s.clock := rfl
@[simp] theorem State.setStope_gov (p : Nat) (x : Stope) : (s.setStope p x).gov = s.gov := rfl
@[simp] theorem State.setStope_marks (p : Nat) (x : Stope) : (s.setStope p x).marks = s.marks := rfl
@[simp] theorem State.setStope_claims (p : Nat) (x : Stope) : (s.setStope p x).claims = s.claims := rfl
@[simp] theorem State.setStope_sess (p : Nat) (x : Stope) : (s.setStope p x).sess = s.sess := rfl
@[simp] theorem State.setStope_streams (p : Nat) (x : Stope) : (s.setStope p x).streams = s.streams := rfl
@[simp] theorem State.setStope_pairs (p : Nat) (x : Stope) : (s.setStope p x).pairs = s.pairs := rfl
@[simp] theorem State.setStope_caps (p : Nat) (x : Stope) : (s.setStope p x).caps = s.caps := rfl
@[simp] theorem State.setStope_resp (p : Nat) (x : Stope) : (s.setStope p x).resp = s.resp := rfl
@[simp] theorem State.setStope_msi (p : Nat) (x : Stope) : (s.setStope p x).msi = s.msi := rfl
@[simp] theorem State.setStope_ports (p : Nat) (x : Stope) : (s.setStope p x).ports = s.ports := rfl
@[simp] theorem State.setStope_casc (p : Nat) (x : Stope) : (s.setStope p x).casc = s.casc := rfl
@[simp] theorem State.setStope_packs (p : Nat) (x : Stope) : (s.setStope p x).packs = s.packs := rfl
@[simp] theorem State.setStope_fw (p : Nat) (x : Stope) : (s.setStope p x).fw = s.fw := rfl
@[simp] theorem State.setStope_vault (p : Nat) (x : Stope) : (s.setStope p x).vault = s.vault := rfl
@[simp] theorem State.setStope_pwr (p : Nat) (x : Stope) : (s.setStope p x).pwr = s.pwr := rfl
@[simp] theorem State.setStope_boot (p : Nat) (x : Stope) : (s.setStope p x).boot = s.boot := rfl
@[simp] theorem State.setStope_pros (p : Nat) (x : Stope) : (s.setStope p x).pros = s.pros := rfl
@[simp] theorem State.setStope_mon (p : Nat) (x : Stope) : (s.setStope p x).mon = s.mon := rfl

/-! ### modStope -/

@[simp] theorem State.modStope_pending (p : Nat) (f : Stope → Stope) : (s.modStope p f).pending = s.pending := rfl
@[simp] theorem State.modStope_osc (p : Nat) (f : Stope → Stope) : (s.modStope p f).osc = s.osc := rfl
@[simp] theorem State.modStope_fresh (p : Nat) (f : Stope → Stope) : (s.modStope p f).fresh = s.fresh := rfl
@[simp] theorem State.modStope_powered (p : Nat) (f : Stope → Stope) : (s.modStope p f).powered = s.powered := rfl
@[simp] theorem State.modStope_tally (p : Nat) (f : Stope → Stope) : (s.modStope p f).tally = s.tally := rfl
@[simp] theorem State.modStope_regs (p : Nat) (f : Stope → Stope) : (s.modStope p f).regs = s.regs := rfl
@[simp] theorem State.modStope_sealWords (p : Nat) (f : Stope → Stope) : (s.modStope p f).sealWords = s.sealWords := rfl
@[simp] theorem State.modStope_mem (p : Nat) (f : Stope → Stope) : (s.modStope p f).mem = s.mem := rfl
@[simp] theorem State.modStope_recorder (p : Nat) (f : Stope → Stope) : (s.modStope p f).recorder = s.recorder := rfl
@[simp] theorem State.modStope_jobs (p : Nat) (f : Stope → Stope) : (s.modStope p f).jobs = s.jobs := rfl
@[simp] theorem State.modStope_mesh (p : Nat) (f : Stope → Stope) : (s.modStope p f).mesh = s.mesh := rfl
@[simp] theorem State.modStope_aged (p : Nat) (f : Stope → Stope) : (s.modStope p f).aged = s.aged := rfl
@[simp] theorem State.modStope_mill (p : Nat) (f : Stope → Stope) : (s.modStope p f).mill = s.mill := rfl
@[simp] theorem State.modStope_fast (p : Nat) (f : Stope → Stope) : (s.modStope p f).fast = s.fast := rfl
@[simp] theorem State.modStope_slow (p : Nat) (f : Stope → Stope) : (s.modStope p f).slow = s.slow := rfl
@[simp] theorem State.modStope_sealing (p : Nat) (f : Stope → Stope) : (s.modStope p f).sealing = s.sealing := rfl
@[simp] theorem State.modStope_clock (p : Nat) (f : Stope → Stope) : (s.modStope p f).clock = s.clock := rfl
@[simp] theorem State.modStope_gov (p : Nat) (f : Stope → Stope) : (s.modStope p f).gov = s.gov := rfl
@[simp] theorem State.modStope_marks (p : Nat) (f : Stope → Stope) : (s.modStope p f).marks = s.marks := rfl
@[simp] theorem State.modStope_claims (p : Nat) (f : Stope → Stope) : (s.modStope p f).claims = s.claims := rfl
@[simp] theorem State.modStope_sess (p : Nat) (f : Stope → Stope) : (s.modStope p f).sess = s.sess := rfl
@[simp] theorem State.modStope_streams (p : Nat) (f : Stope → Stope) : (s.modStope p f).streams = s.streams := rfl
@[simp] theorem State.modStope_pairs (p : Nat) (f : Stope → Stope) : (s.modStope p f).pairs = s.pairs := rfl
@[simp] theorem State.modStope_caps (p : Nat) (f : Stope → Stope) : (s.modStope p f).caps = s.caps := rfl
@[simp] theorem State.modStope_resp (p : Nat) (f : Stope → Stope) : (s.modStope p f).resp = s.resp := rfl
@[simp] theorem State.modStope_msi (p : Nat) (f : Stope → Stope) : (s.modStope p f).msi = s.msi := rfl
@[simp] theorem State.modStope_ports (p : Nat) (f : Stope → Stope) : (s.modStope p f).ports = s.ports := rfl
@[simp] theorem State.modStope_casc (p : Nat) (f : Stope → Stope) : (s.modStope p f).casc = s.casc := rfl
@[simp] theorem State.modStope_packs (p : Nat) (f : Stope → Stope) : (s.modStope p f).packs = s.packs := rfl
@[simp] theorem State.modStope_fw (p : Nat) (f : Stope → Stope) : (s.modStope p f).fw = s.fw := rfl
@[simp] theorem State.modStope_vault (p : Nat) (f : Stope → Stope) : (s.modStope p f).vault = s.vault := rfl
@[simp] theorem State.modStope_pwr (p : Nat) (f : Stope → Stope) : (s.modStope p f).pwr = s.pwr := rfl
@[simp] theorem State.modStope_boot (p : Nat) (f : Stope → Stope) : (s.modStope p f).boot = s.boot := rfl
@[simp] theorem State.modStope_pros (p : Nat) (f : Stope → Stope) : (s.modStope p f).pros = s.pros := rfl
@[simp] theorem State.modStope_mon (p : Nat) (f : Stope → Stope) : (s.modStope p f).mon = s.mon := rfl

/-! ### modArr -/

@[simp] theorem State.modArr_pending (p k : Nat) (f : Arr → Arr) : (s.modArr p k f).pending = s.pending := rfl
@[simp] theorem State.modArr_osc (p k : Nat) (f : Arr → Arr) : (s.modArr p k f).osc = s.osc := rfl
@[simp] theorem State.modArr_fresh (p k : Nat) (f : Arr → Arr) : (s.modArr p k f).fresh = s.fresh := rfl
@[simp] theorem State.modArr_powered (p k : Nat) (f : Arr → Arr) : (s.modArr p k f).powered = s.powered := rfl
@[simp] theorem State.modArr_tally (p k : Nat) (f : Arr → Arr) : (s.modArr p k f).tally = s.tally := rfl
@[simp] theorem State.modArr_regs (p k : Nat) (f : Arr → Arr) : (s.modArr p k f).regs = s.regs := rfl
@[simp] theorem State.modArr_sealWords (p k : Nat) (f : Arr → Arr) : (s.modArr p k f).sealWords = s.sealWords := rfl
@[simp] theorem State.modArr_mem (p k : Nat) (f : Arr → Arr) : (s.modArr p k f).mem = s.mem := rfl
@[simp] theorem State.modArr_recorder (p k : Nat) (f : Arr → Arr) : (s.modArr p k f).recorder = s.recorder := rfl
@[simp] theorem State.modArr_jobs (p k : Nat) (f : Arr → Arr) : (s.modArr p k f).jobs = s.jobs := rfl
@[simp] theorem State.modArr_mesh (p k : Nat) (f : Arr → Arr) : (s.modArr p k f).mesh = s.mesh := rfl
@[simp] theorem State.modArr_aged (p k : Nat) (f : Arr → Arr) : (s.modArr p k f).aged = s.aged := rfl
@[simp] theorem State.modArr_mill (p k : Nat) (f : Arr → Arr) : (s.modArr p k f).mill = s.mill := rfl
@[simp] theorem State.modArr_fast (p k : Nat) (f : Arr → Arr) : (s.modArr p k f).fast = s.fast := rfl
@[simp] theorem State.modArr_slow (p k : Nat) (f : Arr → Arr) : (s.modArr p k f).slow = s.slow := rfl
@[simp] theorem State.modArr_sealing (p k : Nat) (f : Arr → Arr) : (s.modArr p k f).sealing = s.sealing := rfl
@[simp] theorem State.modArr_clock (p k : Nat) (f : Arr → Arr) : (s.modArr p k f).clock = s.clock := rfl
@[simp] theorem State.modArr_gov (p k : Nat) (f : Arr → Arr) : (s.modArr p k f).gov = s.gov := rfl
@[simp] theorem State.modArr_marks (p k : Nat) (f : Arr → Arr) : (s.modArr p k f).marks = s.marks := rfl
@[simp] theorem State.modArr_claims (p k : Nat) (f : Arr → Arr) : (s.modArr p k f).claims = s.claims := rfl
@[simp] theorem State.modArr_sess (p k : Nat) (f : Arr → Arr) : (s.modArr p k f).sess = s.sess := rfl
@[simp] theorem State.modArr_streams (p k : Nat) (f : Arr → Arr) : (s.modArr p k f).streams = s.streams := rfl
@[simp] theorem State.modArr_pairs (p k : Nat) (f : Arr → Arr) : (s.modArr p k f).pairs = s.pairs := rfl
@[simp] theorem State.modArr_caps (p k : Nat) (f : Arr → Arr) : (s.modArr p k f).caps = s.caps := rfl
@[simp] theorem State.modArr_resp (p k : Nat) (f : Arr → Arr) : (s.modArr p k f).resp = s.resp := rfl
@[simp] theorem State.modArr_msi (p k : Nat) (f : Arr → Arr) : (s.modArr p k f).msi = s.msi := rfl
@[simp] theorem State.modArr_ports (p k : Nat) (f : Arr → Arr) : (s.modArr p k f).ports = s.ports := rfl
@[simp] theorem State.modArr_casc (p k : Nat) (f : Arr → Arr) : (s.modArr p k f).casc = s.casc := rfl
@[simp] theorem State.modArr_packs (p k : Nat) (f : Arr → Arr) : (s.modArr p k f).packs = s.packs := rfl
@[simp] theorem State.modArr_fw (p k : Nat) (f : Arr → Arr) : (s.modArr p k f).fw = s.fw := rfl
@[simp] theorem State.modArr_vault (p k : Nat) (f : Arr → Arr) : (s.modArr p k f).vault = s.vault := rfl
@[simp] theorem State.modArr_pwr (p k : Nat) (f : Arr → Arr) : (s.modArr p k f).pwr = s.pwr := rfl
@[simp] theorem State.modArr_boot (p k : Nat) (f : Arr → Arr) : (s.modArr p k f).boot = s.boot := rfl
@[simp] theorem State.modArr_pros (p k : Nat) (f : Arr → Arr) : (s.modArr p k f).pros = s.pros := rfl
@[simp] theorem State.modArr_mon (p k : Nat) (f : Arr → Arr) : (s.modArr p k f).mon = s.mon := rfl

/-! ### setMark -/

@[simp] theorem State.setMark_pending (c a : Nat) (m : Mark) : (s.setMark c a m).pending = s.pending := rfl
@[simp] theorem State.setMark_osc (c a : Nat) (m : Mark) : (s.setMark c a m).osc = s.osc := rfl
@[simp] theorem State.setMark_fresh (c a : Nat) (m : Mark) : (s.setMark c a m).fresh = s.fresh := rfl
@[simp] theorem State.setMark_powered (c a : Nat) (m : Mark) : (s.setMark c a m).powered = s.powered := rfl
@[simp] theorem State.setMark_tally (c a : Nat) (m : Mark) : (s.setMark c a m).tally = s.tally := rfl
@[simp] theorem State.setMark_regs (c a : Nat) (m : Mark) : (s.setMark c a m).regs = s.regs := rfl
@[simp] theorem State.setMark_sealWords (c a : Nat) (m : Mark) : (s.setMark c a m).sealWords = s.sealWords := rfl
@[simp] theorem State.setMark_mem (c a : Nat) (m : Mark) : (s.setMark c a m).mem = s.mem := rfl
@[simp] theorem State.setMark_recorder (c a : Nat) (m : Mark) : (s.setMark c a m).recorder = s.recorder := rfl
@[simp] theorem State.setMark_jobs (c a : Nat) (m : Mark) : (s.setMark c a m).jobs = s.jobs := rfl
@[simp] theorem State.setMark_stopes (c a : Nat) (m : Mark) : (s.setMark c a m).stopes = s.stopes := rfl
@[simp] theorem State.setMark_mesh (c a : Nat) (m : Mark) : (s.setMark c a m).mesh = s.mesh := rfl
@[simp] theorem State.setMark_aged (c a : Nat) (m : Mark) : (s.setMark c a m).aged = s.aged := rfl
@[simp] theorem State.setMark_mill (c a : Nat) (m : Mark) : (s.setMark c a m).mill = s.mill := rfl
@[simp] theorem State.setMark_fast (c a : Nat) (m : Mark) : (s.setMark c a m).fast = s.fast := rfl
@[simp] theorem State.setMark_slow (c a : Nat) (m : Mark) : (s.setMark c a m).slow = s.slow := rfl
@[simp] theorem State.setMark_sealing (c a : Nat) (m : Mark) : (s.setMark c a m).sealing = s.sealing := rfl
@[simp] theorem State.setMark_clock (c a : Nat) (m : Mark) : (s.setMark c a m).clock = s.clock := rfl
@[simp] theorem State.setMark_gov (c a : Nat) (m : Mark) : (s.setMark c a m).gov = s.gov := rfl
@[simp] theorem State.setMark_claims (c a : Nat) (m : Mark) : (s.setMark c a m).claims = s.claims := rfl
@[simp] theorem State.setMark_sess (c a : Nat) (m : Mark) : (s.setMark c a m).sess = s.sess := rfl
@[simp] theorem State.setMark_streams (c a : Nat) (m : Mark) : (s.setMark c a m).streams = s.streams := rfl
@[simp] theorem State.setMark_pairs (c a : Nat) (m : Mark) : (s.setMark c a m).pairs = s.pairs := rfl
@[simp] theorem State.setMark_caps (c a : Nat) (m : Mark) : (s.setMark c a m).caps = s.caps := rfl
@[simp] theorem State.setMark_resp (c a : Nat) (m : Mark) : (s.setMark c a m).resp = s.resp := rfl
@[simp] theorem State.setMark_msi (c a : Nat) (m : Mark) : (s.setMark c a m).msi = s.msi := rfl
@[simp] theorem State.setMark_ports (c a : Nat) (m : Mark) : (s.setMark c a m).ports = s.ports := rfl
@[simp] theorem State.setMark_casc (c a : Nat) (m : Mark) : (s.setMark c a m).casc = s.casc := rfl
@[simp] theorem State.setMark_packs (c a : Nat) (m : Mark) : (s.setMark c a m).packs = s.packs := rfl
@[simp] theorem State.setMark_fw (c a : Nat) (m : Mark) : (s.setMark c a m).fw = s.fw := rfl
@[simp] theorem State.setMark_vault (c a : Nat) (m : Mark) : (s.setMark c a m).vault = s.vault := rfl
@[simp] theorem State.setMark_pwr (c a : Nat) (m : Mark) : (s.setMark c a m).pwr = s.pwr := rfl
@[simp] theorem State.setMark_boot (c a : Nat) (m : Mark) : (s.setMark c a m).boot = s.boot := rfl
@[simp] theorem State.setMark_pros (c a : Nat) (m : Mark) : (s.setMark c a m).pros = s.pros := rfl
@[simp] theorem State.setMark_mon (c a : Nat) (m : Mark) : (s.setMark c a m).mon = s.mon := rfl

/-! ### modClaim -/

@[simp] theorem State.modClaim_pending (c : Nat) (f : Claim → Claim) : (s.modClaim c f).pending = s.pending := rfl
@[simp] theorem State.modClaim_osc (c : Nat) (f : Claim → Claim) : (s.modClaim c f).osc = s.osc := rfl
@[simp] theorem State.modClaim_fresh (c : Nat) (f : Claim → Claim) : (s.modClaim c f).fresh = s.fresh := rfl
@[simp] theorem State.modClaim_powered (c : Nat) (f : Claim → Claim) : (s.modClaim c f).powered = s.powered := rfl
@[simp] theorem State.modClaim_tally (c : Nat) (f : Claim → Claim) : (s.modClaim c f).tally = s.tally := rfl
@[simp] theorem State.modClaim_regs (c : Nat) (f : Claim → Claim) : (s.modClaim c f).regs = s.regs := rfl
@[simp] theorem State.modClaim_sealWords (c : Nat) (f : Claim → Claim) : (s.modClaim c f).sealWords = s.sealWords := rfl
@[simp] theorem State.modClaim_mem (c : Nat) (f : Claim → Claim) : (s.modClaim c f).mem = s.mem := rfl
@[simp] theorem State.modClaim_recorder (c : Nat) (f : Claim → Claim) : (s.modClaim c f).recorder = s.recorder := rfl
@[simp] theorem State.modClaim_jobs (c : Nat) (f : Claim → Claim) : (s.modClaim c f).jobs = s.jobs := rfl
@[simp] theorem State.modClaim_stopes (c : Nat) (f : Claim → Claim) : (s.modClaim c f).stopes = s.stopes := rfl
@[simp] theorem State.modClaim_mesh (c : Nat) (f : Claim → Claim) : (s.modClaim c f).mesh = s.mesh := rfl
@[simp] theorem State.modClaim_aged (c : Nat) (f : Claim → Claim) : (s.modClaim c f).aged = s.aged := rfl
@[simp] theorem State.modClaim_mill (c : Nat) (f : Claim → Claim) : (s.modClaim c f).mill = s.mill := rfl
@[simp] theorem State.modClaim_fast (c : Nat) (f : Claim → Claim) : (s.modClaim c f).fast = s.fast := rfl
@[simp] theorem State.modClaim_slow (c : Nat) (f : Claim → Claim) : (s.modClaim c f).slow = s.slow := rfl
@[simp] theorem State.modClaim_sealing (c : Nat) (f : Claim → Claim) : (s.modClaim c f).sealing = s.sealing := rfl
@[simp] theorem State.modClaim_clock (c : Nat) (f : Claim → Claim) : (s.modClaim c f).clock = s.clock := rfl
@[simp] theorem State.modClaim_gov (c : Nat) (f : Claim → Claim) : (s.modClaim c f).gov = s.gov := rfl
@[simp] theorem State.modClaim_marks (c : Nat) (f : Claim → Claim) : (s.modClaim c f).marks = s.marks := rfl
@[simp] theorem State.modClaim_sess (c : Nat) (f : Claim → Claim) : (s.modClaim c f).sess = s.sess := rfl
@[simp] theorem State.modClaim_streams (c : Nat) (f : Claim → Claim) : (s.modClaim c f).streams = s.streams := rfl
@[simp] theorem State.modClaim_pairs (c : Nat) (f : Claim → Claim) : (s.modClaim c f).pairs = s.pairs := rfl
@[simp] theorem State.modClaim_caps (c : Nat) (f : Claim → Claim) : (s.modClaim c f).caps = s.caps := rfl
@[simp] theorem State.modClaim_resp (c : Nat) (f : Claim → Claim) : (s.modClaim c f).resp = s.resp := rfl
@[simp] theorem State.modClaim_msi (c : Nat) (f : Claim → Claim) : (s.modClaim c f).msi = s.msi := rfl
@[simp] theorem State.modClaim_ports (c : Nat) (f : Claim → Claim) : (s.modClaim c f).ports = s.ports := rfl
@[simp] theorem State.modClaim_casc (c : Nat) (f : Claim → Claim) : (s.modClaim c f).casc = s.casc := rfl
@[simp] theorem State.modClaim_packs (c : Nat) (f : Claim → Claim) : (s.modClaim c f).packs = s.packs := rfl
@[simp] theorem State.modClaim_fw (c : Nat) (f : Claim → Claim) : (s.modClaim c f).fw = s.fw := rfl
@[simp] theorem State.modClaim_vault (c : Nat) (f : Claim → Claim) : (s.modClaim c f).vault = s.vault := rfl
@[simp] theorem State.modClaim_pwr (c : Nat) (f : Claim → Claim) : (s.modClaim c f).pwr = s.pwr := rfl
@[simp] theorem State.modClaim_boot (c : Nat) (f : Claim → Claim) : (s.modClaim c f).boot = s.boot := rfl
@[simp] theorem State.modClaim_pros (c : Nat) (f : Claim → Claim) : (s.modClaim c f).pros = s.pros := rfl
@[simp] theorem State.modClaim_mon (c : Nat) (f : Claim → Claim) : (s.modClaim c f).mon = s.mon := rfl

/-! ### modSess -/

@[simp] theorem State.modSess_pending (r : Source) (f : Sess → Sess) : (s.modSess r f).pending = s.pending := rfl
@[simp] theorem State.modSess_osc (r : Source) (f : Sess → Sess) : (s.modSess r f).osc = s.osc := rfl
@[simp] theorem State.modSess_fresh (r : Source) (f : Sess → Sess) : (s.modSess r f).fresh = s.fresh := rfl
@[simp] theorem State.modSess_powered (r : Source) (f : Sess → Sess) : (s.modSess r f).powered = s.powered := rfl
@[simp] theorem State.modSess_tally (r : Source) (f : Sess → Sess) : (s.modSess r f).tally = s.tally := rfl
@[simp] theorem State.modSess_regs (r : Source) (f : Sess → Sess) : (s.modSess r f).regs = s.regs := rfl
@[simp] theorem State.modSess_sealWords (r : Source) (f : Sess → Sess) : (s.modSess r f).sealWords = s.sealWords := rfl
@[simp] theorem State.modSess_mem (r : Source) (f : Sess → Sess) : (s.modSess r f).mem = s.mem := rfl
@[simp] theorem State.modSess_recorder (r : Source) (f : Sess → Sess) : (s.modSess r f).recorder = s.recorder := rfl
@[simp] theorem State.modSess_jobs (r : Source) (f : Sess → Sess) : (s.modSess r f).jobs = s.jobs := rfl
@[simp] theorem State.modSess_stopes (r : Source) (f : Sess → Sess) : (s.modSess r f).stopes = s.stopes := rfl
@[simp] theorem State.modSess_mesh (r : Source) (f : Sess → Sess) : (s.modSess r f).mesh = s.mesh := rfl
@[simp] theorem State.modSess_aged (r : Source) (f : Sess → Sess) : (s.modSess r f).aged = s.aged := rfl
@[simp] theorem State.modSess_mill (r : Source) (f : Sess → Sess) : (s.modSess r f).mill = s.mill := rfl
@[simp] theorem State.modSess_fast (r : Source) (f : Sess → Sess) : (s.modSess r f).fast = s.fast := rfl
@[simp] theorem State.modSess_slow (r : Source) (f : Sess → Sess) : (s.modSess r f).slow = s.slow := rfl
@[simp] theorem State.modSess_sealing (r : Source) (f : Sess → Sess) : (s.modSess r f).sealing = s.sealing := rfl
@[simp] theorem State.modSess_clock (r : Source) (f : Sess → Sess) : (s.modSess r f).clock = s.clock := rfl
@[simp] theorem State.modSess_gov (r : Source) (f : Sess → Sess) : (s.modSess r f).gov = s.gov := rfl
@[simp] theorem State.modSess_marks (r : Source) (f : Sess → Sess) : (s.modSess r f).marks = s.marks := rfl
@[simp] theorem State.modSess_claims (r : Source) (f : Sess → Sess) : (s.modSess r f).claims = s.claims := rfl
@[simp] theorem State.modSess_streams (r : Source) (f : Sess → Sess) : (s.modSess r f).streams = s.streams := rfl
@[simp] theorem State.modSess_pairs (r : Source) (f : Sess → Sess) : (s.modSess r f).pairs = s.pairs := rfl
@[simp] theorem State.modSess_caps (r : Source) (f : Sess → Sess) : (s.modSess r f).caps = s.caps := rfl
@[simp] theorem State.modSess_resp (r : Source) (f : Sess → Sess) : (s.modSess r f).resp = s.resp := rfl
@[simp] theorem State.modSess_msi (r : Source) (f : Sess → Sess) : (s.modSess r f).msi = s.msi := rfl
@[simp] theorem State.modSess_ports (r : Source) (f : Sess → Sess) : (s.modSess r f).ports = s.ports := rfl
@[simp] theorem State.modSess_casc (r : Source) (f : Sess → Sess) : (s.modSess r f).casc = s.casc := rfl
@[simp] theorem State.modSess_packs (r : Source) (f : Sess → Sess) : (s.modSess r f).packs = s.packs := rfl
@[simp] theorem State.modSess_fw (r : Source) (f : Sess → Sess) : (s.modSess r f).fw = s.fw := rfl
@[simp] theorem State.modSess_vault (r : Source) (f : Sess → Sess) : (s.modSess r f).vault = s.vault := rfl
@[simp] theorem State.modSess_pwr (r : Source) (f : Sess → Sess) : (s.modSess r f).pwr = s.pwr := rfl
@[simp] theorem State.modSess_boot (r : Source) (f : Sess → Sess) : (s.modSess r f).boot = s.boot := rfl
@[simp] theorem State.modSess_pros (r : Source) (f : Sess → Sess) : (s.modSess r f).pros = s.pros := rfl
@[simp] theorem State.modSess_mon (r : Source) (f : Sess → Sess) : (s.modSess r f).mon = s.mon := rfl

/-! ### setStream -/

@[simp] theorem State.setStream_pending (r : Source) (p : Nat) (x : Stream) : (s.setStream r p x).pending = s.pending := rfl
@[simp] theorem State.setStream_osc (r : Source) (p : Nat) (x : Stream) : (s.setStream r p x).osc = s.osc := rfl
@[simp] theorem State.setStream_fresh (r : Source) (p : Nat) (x : Stream) : (s.setStream r p x).fresh = s.fresh := rfl
@[simp] theorem State.setStream_powered (r : Source) (p : Nat) (x : Stream) : (s.setStream r p x).powered = s.powered := rfl
@[simp] theorem State.setStream_tally (r : Source) (p : Nat) (x : Stream) : (s.setStream r p x).tally = s.tally := rfl
@[simp] theorem State.setStream_regs (r : Source) (p : Nat) (x : Stream) : (s.setStream r p x).regs = s.regs := rfl
@[simp] theorem State.setStream_sealWords (r : Source) (p : Nat) (x : Stream) : (s.setStream r p x).sealWords = s.sealWords := rfl
@[simp] theorem State.setStream_mem (r : Source) (p : Nat) (x : Stream) : (s.setStream r p x).mem = s.mem := rfl
@[simp] theorem State.setStream_recorder (r : Source) (p : Nat) (x : Stream) : (s.setStream r p x).recorder = s.recorder := rfl
@[simp] theorem State.setStream_jobs (r : Source) (p : Nat) (x : Stream) : (s.setStream r p x).jobs = s.jobs := rfl
@[simp] theorem State.setStream_stopes (r : Source) (p : Nat) (x : Stream) : (s.setStream r p x).stopes = s.stopes := rfl
@[simp] theorem State.setStream_mesh (r : Source) (p : Nat) (x : Stream) : (s.setStream r p x).mesh = s.mesh := rfl
@[simp] theorem State.setStream_aged (r : Source) (p : Nat) (x : Stream) : (s.setStream r p x).aged = s.aged := rfl
@[simp] theorem State.setStream_mill (r : Source) (p : Nat) (x : Stream) : (s.setStream r p x).mill = s.mill := rfl
@[simp] theorem State.setStream_fast (r : Source) (p : Nat) (x : Stream) : (s.setStream r p x).fast = s.fast := rfl
@[simp] theorem State.setStream_slow (r : Source) (p : Nat) (x : Stream) : (s.setStream r p x).slow = s.slow := rfl
@[simp] theorem State.setStream_sealing (r : Source) (p : Nat) (x : Stream) : (s.setStream r p x).sealing = s.sealing := rfl
@[simp] theorem State.setStream_clock (r : Source) (p : Nat) (x : Stream) : (s.setStream r p x).clock = s.clock := rfl
@[simp] theorem State.setStream_gov (r : Source) (p : Nat) (x : Stream) : (s.setStream r p x).gov = s.gov := rfl
@[simp] theorem State.setStream_marks (r : Source) (p : Nat) (x : Stream) : (s.setStream r p x).marks = s.marks := rfl
@[simp] theorem State.setStream_claims (r : Source) (p : Nat) (x : Stream) : (s.setStream r p x).claims = s.claims := rfl
@[simp] theorem State.setStream_sess (r : Source) (p : Nat) (x : Stream) : (s.setStream r p x).sess = s.sess := rfl
@[simp] theorem State.setStream_pairs (r : Source) (p : Nat) (x : Stream) : (s.setStream r p x).pairs = s.pairs := rfl
@[simp] theorem State.setStream_caps (r : Source) (p : Nat) (x : Stream) : (s.setStream r p x).caps = s.caps := rfl
@[simp] theorem State.setStream_resp (r : Source) (p : Nat) (x : Stream) : (s.setStream r p x).resp = s.resp := rfl
@[simp] theorem State.setStream_msi (r : Source) (p : Nat) (x : Stream) : (s.setStream r p x).msi = s.msi := rfl
@[simp] theorem State.setStream_ports (r : Source) (p : Nat) (x : Stream) : (s.setStream r p x).ports = s.ports := rfl
@[simp] theorem State.setStream_casc (r : Source) (p : Nat) (x : Stream) : (s.setStream r p x).casc = s.casc := rfl
@[simp] theorem State.setStream_packs (r : Source) (p : Nat) (x : Stream) : (s.setStream r p x).packs = s.packs := rfl
@[simp] theorem State.setStream_fw (r : Source) (p : Nat) (x : Stream) : (s.setStream r p x).fw = s.fw := rfl
@[simp] theorem State.setStream_vault (r : Source) (p : Nat) (x : Stream) : (s.setStream r p x).vault = s.vault := rfl
@[simp] theorem State.setStream_pwr (r : Source) (p : Nat) (x : Stream) : (s.setStream r p x).pwr = s.pwr := rfl
@[simp] theorem State.setStream_boot (r : Source) (p : Nat) (x : Stream) : (s.setStream r p x).boot = s.boot := rfl
@[simp] theorem State.setStream_pros (r : Source) (p : Nat) (x : Stream) : (s.setStream r p x).pros = s.pros := rfl
@[simp] theorem State.setStream_mon (r : Source) (p : Nat) (x : Stream) : (s.setStream r p x).mon = s.mon := rfl

/-! ### setMsi -/

@[simp] theorem State.setMsi_pending (n v : Nat) (m : Msi) : (s.setMsi n v m).pending = s.pending := rfl
@[simp] theorem State.setMsi_osc (n v : Nat) (m : Msi) : (s.setMsi n v m).osc = s.osc := rfl
@[simp] theorem State.setMsi_fresh (n v : Nat) (m : Msi) : (s.setMsi n v m).fresh = s.fresh := rfl
@[simp] theorem State.setMsi_powered (n v : Nat) (m : Msi) : (s.setMsi n v m).powered = s.powered := rfl
@[simp] theorem State.setMsi_tally (n v : Nat) (m : Msi) : (s.setMsi n v m).tally = s.tally := rfl
@[simp] theorem State.setMsi_regs (n v : Nat) (m : Msi) : (s.setMsi n v m).regs = s.regs := rfl
@[simp] theorem State.setMsi_sealWords (n v : Nat) (m : Msi) : (s.setMsi n v m).sealWords = s.sealWords := rfl
@[simp] theorem State.setMsi_mem (n v : Nat) (m : Msi) : (s.setMsi n v m).mem = s.mem := rfl
@[simp] theorem State.setMsi_recorder (n v : Nat) (m : Msi) : (s.setMsi n v m).recorder = s.recorder := rfl
@[simp] theorem State.setMsi_jobs (n v : Nat) (m : Msi) : (s.setMsi n v m).jobs = s.jobs := rfl
@[simp] theorem State.setMsi_stopes (n v : Nat) (m : Msi) : (s.setMsi n v m).stopes = s.stopes := rfl
@[simp] theorem State.setMsi_mesh (n v : Nat) (m : Msi) : (s.setMsi n v m).mesh = s.mesh := rfl
@[simp] theorem State.setMsi_aged (n v : Nat) (m : Msi) : (s.setMsi n v m).aged = s.aged := rfl
@[simp] theorem State.setMsi_mill (n v : Nat) (m : Msi) : (s.setMsi n v m).mill = s.mill := rfl
@[simp] theorem State.setMsi_fast (n v : Nat) (m : Msi) : (s.setMsi n v m).fast = s.fast := rfl
@[simp] theorem State.setMsi_slow (n v : Nat) (m : Msi) : (s.setMsi n v m).slow = s.slow := rfl
@[simp] theorem State.setMsi_sealing (n v : Nat) (m : Msi) : (s.setMsi n v m).sealing = s.sealing := rfl
@[simp] theorem State.setMsi_clock (n v : Nat) (m : Msi) : (s.setMsi n v m).clock = s.clock := rfl
@[simp] theorem State.setMsi_gov (n v : Nat) (m : Msi) : (s.setMsi n v m).gov = s.gov := rfl
@[simp] theorem State.setMsi_marks (n v : Nat) (m : Msi) : (s.setMsi n v m).marks = s.marks := rfl
@[simp] theorem State.setMsi_claims (n v : Nat) (m : Msi) : (s.setMsi n v m).claims = s.claims := rfl
@[simp] theorem State.setMsi_sess (n v : Nat) (m : Msi) : (s.setMsi n v m).sess = s.sess := rfl
@[simp] theorem State.setMsi_streams (n v : Nat) (m : Msi) : (s.setMsi n v m).streams = s.streams := rfl
@[simp] theorem State.setMsi_pairs (n v : Nat) (m : Msi) : (s.setMsi n v m).pairs = s.pairs := rfl
@[simp] theorem State.setMsi_caps (n v : Nat) (m : Msi) : (s.setMsi n v m).caps = s.caps := rfl
@[simp] theorem State.setMsi_resp (n v : Nat) (m : Msi) : (s.setMsi n v m).resp = s.resp := rfl
@[simp] theorem State.setMsi_ports (n v : Nat) (m : Msi) : (s.setMsi n v m).ports = s.ports := rfl
@[simp] theorem State.setMsi_casc (n v : Nat) (m : Msi) : (s.setMsi n v m).casc = s.casc := rfl
@[simp] theorem State.setMsi_packs (n v : Nat) (m : Msi) : (s.setMsi n v m).packs = s.packs := rfl
@[simp] theorem State.setMsi_fw (n v : Nat) (m : Msi) : (s.setMsi n v m).fw = s.fw := rfl
@[simp] theorem State.setMsi_vault (n v : Nat) (m : Msi) : (s.setMsi n v m).vault = s.vault := rfl
@[simp] theorem State.setMsi_pwr (n v : Nat) (m : Msi) : (s.setMsi n v m).pwr = s.pwr := rfl
@[simp] theorem State.setMsi_boot (n v : Nat) (m : Msi) : (s.setMsi n v m).boot = s.boot := rfl
@[simp] theorem State.setMsi_pros (n v : Nat) (m : Msi) : (s.setMsi n v m).pros = s.pros := rfl
@[simp] theorem State.setMsi_mon (n v : Nat) (m : Msi) : (s.setMsi n v m).mon = s.mon := rfl

/-! ### drawn -/

@[simp] theorem State.drawn_pending : (s.drawn).pending = s.pending := rfl
@[simp] theorem State.drawn_osc : (s.drawn).osc = s.osc := rfl
@[simp] theorem State.drawn_powered : (s.drawn).powered = s.powered := rfl
@[simp] theorem State.drawn_tally : (s.drawn).tally = s.tally := rfl
@[simp] theorem State.drawn_regs : (s.drawn).regs = s.regs := rfl
@[simp] theorem State.drawn_sealWords : (s.drawn).sealWords = s.sealWords := rfl
@[simp] theorem State.drawn_mem : (s.drawn).mem = s.mem := rfl
@[simp] theorem State.drawn_recorder : (s.drawn).recorder = s.recorder := rfl
@[simp] theorem State.drawn_jobs : (s.drawn).jobs = s.jobs := rfl
@[simp] theorem State.drawn_stopes : (s.drawn).stopes = s.stopes := rfl
@[simp] theorem State.drawn_mesh : (s.drawn).mesh = s.mesh := rfl
@[simp] theorem State.drawn_aged : (s.drawn).aged = s.aged := rfl
@[simp] theorem State.drawn_mill : (s.drawn).mill = s.mill := rfl
@[simp] theorem State.drawn_fast : (s.drawn).fast = s.fast := rfl
@[simp] theorem State.drawn_slow : (s.drawn).slow = s.slow := rfl
@[simp] theorem State.drawn_sealing : (s.drawn).sealing = s.sealing := rfl
@[simp] theorem State.drawn_clock : (s.drawn).clock = s.clock := rfl
@[simp] theorem State.drawn_gov : (s.drawn).gov = s.gov := rfl
@[simp] theorem State.drawn_marks : (s.drawn).marks = s.marks := rfl
@[simp] theorem State.drawn_claims : (s.drawn).claims = s.claims := rfl
@[simp] theorem State.drawn_sess : (s.drawn).sess = s.sess := rfl
@[simp] theorem State.drawn_streams : (s.drawn).streams = s.streams := rfl
@[simp] theorem State.drawn_pairs : (s.drawn).pairs = s.pairs := rfl
@[simp] theorem State.drawn_caps : (s.drawn).caps = s.caps := rfl
@[simp] theorem State.drawn_resp : (s.drawn).resp = s.resp := rfl
@[simp] theorem State.drawn_msi : (s.drawn).msi = s.msi := rfl
@[simp] theorem State.drawn_ports : (s.drawn).ports = s.ports := rfl
@[simp] theorem State.drawn_casc : (s.drawn).casc = s.casc := rfl
@[simp] theorem State.drawn_packs : (s.drawn).packs = s.packs := rfl
@[simp] theorem State.drawn_fw : (s.drawn).fw = s.fw := rfl
@[simp] theorem State.drawn_vault : (s.drawn).vault = s.vault := rfl
@[simp] theorem State.drawn_pwr : (s.drawn).pwr = s.pwr := rfl
@[simp] theorem State.drawn_boot : (s.drawn).boot = s.boot := rfl
@[simp] theorem State.drawn_pros : (s.drawn).pros = s.pros := rfl
@[simp] theorem State.drawn_mon : (s.drawn).mon = s.mon := rfl

end Sys2Proof.Machine
end

