-- ==== Sys2Proof/Laws/Ops.lean ====
section
/-!
SUPPORT. What the named operations do: a read after a write of the same register word, field, byte or unit gives the value
written, and every other one reads as before.
-/

namespace Sys2Proof.Machine

/-! ### Commands -/

/-- A command that names units of the module answers a next state: its effect, or the same state without power (R15). -/
theorem perform_wf {i : Instr} {s t : State} (h : wellFormed i = true) :
    perform i s t = .next (if s.powered then t else s) := by simp [perform, h]

theorem perform_powered {i : Instr} {s t : State} (h : wellFormed i = true) (p : s.powered = true) : perform i s t = .next t := by
  simp [perform, h, p]

theorem performAlways_wf {i : Instr} {t : State} (h : wellFormed i = true) : performAlways i t = .next t := by
  simp [performAlways, h]

theorem perform_notWf {i : Instr} {s t : State} (h : wellFormed i = false) : perform i s t = .fault .noSuchUnit := by
  simp [perform, h]

@[simp] theorem State.on_true (s : State) (f : State → State) : s.on true f = f s := rfl

@[simp] theorem State.on_false (s : State) (f : State → State) : s.on false f = s := rfl

/-- A guarded pair that reaches its register's rule: the rule's new state, the record of R416, and the completion. -/
theorem State.guarded_done {s : State} {src : Source} {page off v : Nat} {f : Act} {x : State} (h : guardOpen s src page off v)
    (hf : f (ruleSees s src page) = (x, true)) : s.guarded src page off v f = guardDone s src page off v x := by
  obtain ⟨h1, h2, h3⟩ := h
  unfold ruleSees at hf
  simp [State.guarded, State.tryGuarded, h1, h2, h3, hf, guardDone, ruleSees]

/-- The same for a rule that records its own change. -/
theorem State.guarded_refused {s : State} {src : Source} {page off v : Nat} {f : Act} {x : State} (h : guardOpen s src page off v)
    (hf : f (ruleSees s src page) = (x, false)) : s.guarded src page off v f = x.respond src 0 0 := by
  obtain ⟨h1, h2, h3⟩ := h
  unfold ruleSees at hf
  simp [State.guarded, State.tryGuarded, h1, h2, h3, hf]

/-- A write that reaches its register's rule and that R416 does not record. -/
theorem State.written_done {s : State} {src : Source} {page off v : Nat} {f : Act} {x : State} {b : Bool}
    (h : writeOpen s src page off v) (hf : f (ruleSees s src page) = (x, b)) :
    s.written src page off v false f = writeDone x src := by
  obtain ⟨h1, h2, h3⟩ := h
  unfold ruleSees at hf
  simp [State.written, State.tryWritten, h1, h2, h3, hf, writeDone]

/-! ### Register words -/

/-- Keys of words of pages are distinct where bank, page or offset are. -/
theorem regKey_inj {b b' p p' o o' : Nat} (hp : p < 4096) (hp' : p' < 4096) (ho : o < 1024) (ho' : o' < 1024) :
    regKey b p o = regKey b' p' o' ↔ b = b' ∧ p = p' ∧ o = o' := by
  unfold regKey; omega

@[simp] theorem State.reg_setReg (s : State) (k : Nat) (v : Word) : (s.setReg k v).reg k = v := by
  simp [State.reg, State.setReg]

theorem State.reg_setReg_ne (s : State) {k k' : Nat} (v : Word) (h : k' ≠ k) : (s.setReg k v).reg k' = s.reg k' := by
  simp only [State.reg, State.setReg]
  exact Sparse.get_set_dflt _ _ _ _ _ _ h

@[simp] theorem State.rd_wr (s : State) (p o v : Nat) : (s.wr p o v).rd p o = v % 2 ^ 32 := by
  simp [State.rd, State.wr]

/-- A write of a page's word is not seen at any other word. -/
theorem State.rd_wr_ne (s : State) {p p' o o' : Nat} (v : Nat) (hp : p < 4096) (hp' : p' < 4096) (ho : o < 1024)
    (ho' : o' < 1024) (h : p' ≠ p ∨ o' ≠ o) : (s.wr p o v).rd p' o' = s.rd p' o' := by
  simp only [State.rd, State.wr]
  rw [State.reg_setReg_ne]
  intro c
  rw [regKey_inj hp' hp ho' ho] at c
  omega

@[simp] theorem State.rdB_wrB (s : State) (b p o v : Nat) : (s.wrB b p o v).rdB b p o = v % 2 ^ 32 := by
  simp [State.rdB, State.wrB]

theorem State.rdB_wrB_ne (s : State) {b b' p p' o o' : Nat} (v : Nat) (hp : p < 4096) (hp' : p' < 4096) (ho : o < 1024)
    (ho' : o' < 1024) (h : b' ≠ b ∨ p' ≠ p ∨ o' ≠ o) : (s.wrB b p o v).rdB b' p' o' = s.rdB b' p' o' := by
  simp only [State.rdB, State.wrB]
  rw [State.reg_setReg_ne]
  intro c
  rw [regKey_inj hp' hp ho' ho] at c
  omega

/-- Bank 0 holds the visible words. -/
theorem State.rdB_zero (s : State) (p o : Nat) : s.rdB 0 p o = s.rd p o := rfl

theorem State.wrB_zero (s : State) (p o v : Nat) : s.wrB 0 p o v = s.wr p o v := rfl

theorem State.rd_lt (s : State) (p o : Nat) : s.rd p o < 2 ^ 32 := (s.reg _).isLt

theorem State.rdB_lt (s : State) (b p o : Nat) : s.rdB b p o < 2 ^ 32 := (s.reg _).isLt

/-! ### Fields -/

theorem bits_eq (v hi lo : Nat) : bits v hi lo = v / 2 ^ lo % 2 ^ (hi + 1 - lo) := by
  simp [bits, Nat.shiftRight_eq_div_pow]

theorem bits_lt (v hi lo : Nat) : bits v hi lo < 2 ^ (hi + 1 - lo) := by
  rw [bits_eq]; exact Nat.mod_lt _ (by positivity)

/-- A number as what lies below a field, the field, and what lies above it. -/
theorem bits_split (w hi lo : Nat) (h : lo ≤ hi + 1) :
    w = w % 2 ^ lo + bits w hi lo * 2 ^ lo + w / 2 ^ (hi + 1) * 2 ^ (hi + 1) := by
  rw [bits_eq]
  have h1 := Nat.div_add_mod w (2 ^ lo)
  have h2 := Nat.div_add_mod (w / 2 ^ lo) (2 ^ (hi + 1 - lo))
  have h3 : w / 2 ^ lo / 2 ^ (hi + 1 - lo) = w / 2 ^ (hi + 1) := by
    rw [Nat.div_div_eq_div_mul, ← pow_add]; congr 2; omega
  have h4 : 2 ^ (hi + 1) = 2 ^ lo * 2 ^ (hi + 1 - lo) := by rw [← pow_add]; congr 1; omega
  rw [h3] at h2
  have e : w / 2 ^ lo % 2 ^ (hi + 1 - lo) * 2 ^ lo + w / 2 ^ (hi + 1) * 2 ^ (hi + 1) = 2 ^ lo * (w / 2 ^ lo) := by
    rw [← h2] ; conv_lhs => rw [h2]
    rw [show w / 2 ^ (hi + 1) * 2 ^ (hi + 1) = w / 2 ^ (hi + 1) * (2 ^ lo * 2 ^ (hi + 1 - lo)) by rw [← h4]]
    ring
  omega

theorem putBits_eq (w hi lo v : Nat) (h : lo ≤ hi + 1) :
    putBits w hi lo v = w % 2 ^ lo + v % 2 ^ (hi + 1 - lo) * 2 ^ lo + w / 2 ^ (hi + 1) * 2 ^ (hi + 1) := by
  have := bits_split w hi lo h
  unfold putBits
  omega

/-- A field written reads as the value written. -/
theorem bits_putBits (w hi lo v : Nat) (h : lo ≤ hi + 1) : bits (putBits w hi lo v) hi lo = v % 2 ^ (hi + 1 - lo) := by
  rw [putBits_eq w hi lo v h, bits_eq]
  have h4 : 2 ^ (hi + 1) = 2 ^ (hi + 1 - lo) * 2 ^ lo := by rw [← pow_add]; congr 1; omega
  have hp : 0 < 2 ^ lo := by positivity
  have e : w % 2 ^ lo + v % 2 ^ (hi + 1 - lo) * 2 ^ lo + w / 2 ^ (hi + 1) * 2 ^ (hi + 1) =
      w % 2 ^ lo + (v % 2 ^ (hi + 1 - lo) + w / 2 ^ (hi + 1) * 2 ^ (hi + 1 - lo)) * 2 ^ lo := by rw [h4]; ring
  rw [e, Nat.add_mul_div_right _ _ hp, Nat.div_eq_of_lt (Nat.mod_lt _ hp), Nat.zero_add, Nat.add_mul_mod_self_right,
    Nat.mod_mod]

/-- A field of a word that fits in 32 bits fits too. -/
theorem putBits_lt (w hi lo v : Nat) (hw : w < 2 ^ 32) (h : lo ≤ hi + 1) (hh : hi < 32) : putBits w hi lo v < 2 ^ 32 := by
  rw [putBits_eq w hi lo v h]
  have h1 : w % 2 ^ lo < 2 ^ lo := Nat.mod_lt _ (by positivity)
  have h2 : v % 2 ^ (hi + 1 - lo) + 1 ≤ 2 ^ (hi + 1 - lo) := Nat.mod_lt _ (by positivity)
  have h4 : 2 ^ (hi + 1) = 2 ^ (hi + 1 - lo) * 2 ^ lo := by rw [← pow_add]; congr 1; omega
  have h5 : 2 ^ 32 = 2 ^ (32 - (hi + 1)) * 2 ^ (hi + 1) := by rw [← pow_add]; congr 1; omega
  have h6 : w / 2 ^ (hi + 1) + 1 ≤ 2 ^ (32 - (hi + 1)) := by
    have : w / 2 ^ (hi + 1) < 2 ^ (32 - (hi + 1)) := by rw [Nat.div_lt_iff_lt_mul (by positivity), ← h5]; exact hw
    omega
  have h7 := Nat.mul_le_mul_right (2 ^ lo) h2
  have h8 := Nat.mul_le_mul_right (2 ^ (hi + 1)) h6
  rw [← h5] at h8
  rw [← h4] at h7
  nlinarith

/-- A field above or below the one written reads as before. -/
theorem bits_putBits_ne (w hi lo v a b : Nat) (h : lo ≤ hi + 1) (hab : a < lo ∨ hi < b) :
    bits (putBits w hi lo v) a b = bits w a b := by
  have e (n : Nat) : (putBits w hi lo v).testBit n = if lo ≤ n ∧ n ≤ hi then v.testBit (n - lo) else w.testBit n := by
    rw [putBits_eq w hi lo v h]
    have h4 : 2 ^ (hi + 1) = 2 ^ lo * 2 ^ (hi + 1 - lo) := by rw [← pow_add]; congr 1; omega
    have hx : w % 2 ^ lo < 2 ^ lo := Nat.mod_lt _ (by positivity)
    have hy : v % 2 ^ (hi + 1 - lo) < 2 ^ (hi + 1 - lo) := Nat.mod_lt _ (by positivity)
    have e1 : w % 2 ^ lo + v % 2 ^ (hi + 1 - lo) * 2 ^ lo + w / 2 ^ (hi + 1) * 2 ^ (hi + 1) =
        2 ^ lo * (2 ^ (hi + 1 - lo) * (w / 2 ^ (hi + 1)) + v % 2 ^ (hi + 1 - lo)) + w % 2 ^ lo := by rw [h4]; ring
    rw [e1, Nat.testBit_two_pow_mul_add _ hx]
    by_cases c : n < lo
    · simp [c, show ¬ lo ≤ n by omega, Nat.testBit_mod_two_pow]
    · simp only [c, if_false]
      rw [Nat.testBit_two_pow_mul_add _ hy]
      by_cases d : n - lo < hi + 1 - lo
      · simp [d, show lo ≤ n by omega, show n ≤ hi by omega, Nat.testBit_mod_two_pow]
      · simp only [d, if_false]
        rw [Nat.testBit_div_two_pow, if_neg (by omega)]
        congr 1; omega
  apply Nat.eq_of_testBit_eq
  intro n
  simp only [bits, Nat.testBit_mod_two_pow, Nat.testBit_shiftRight, e]
  by_cases c : n < a + 1 - b
  · rw [if_neg (by omega)]
  · simp [c]

/-- A field of a visible word written reads as the value written, if it fits. -/
theorem State.fld_setFld (s : State) (p o hi lo v : Nat) (h : lo ≤ hi + 1) (hh : hi < 32) :
    (s.setFld p o hi lo v).fld p o hi lo = v % 2 ^ (hi + 1 - lo) := by
  simp only [State.fld, State.setFld, State.rd_wr]
  rw [Nat.mod_eq_of_lt (putBits_lt _ _ _ _ (s.rd_lt p o) h hh), bits_putBits _ _ _ _ h]

/-- Another field of the same word reads as before. -/
theorem State.fld_setFld_ne (s : State) (p o hi lo v a b : Nat) (h : lo ≤ hi + 1) (hh : hi < 32) (hab : a < lo ∨ hi < b) :
    (s.setFld p o hi lo v).fld p o a b = s.fld p o a b := by
  simp only [State.fld, State.setFld, State.rd_wr]
  rw [Nat.mod_eq_of_lt (putBits_lt _ _ _ _ (s.rd_lt p o) h hh), bits_putBits_ne _ _ _ _ _ _ h hab]

/-- A word other than the one a field is written in reads as before. -/
theorem State.rd_setFld_ne (s : State) {p p' o o' : Nat} (hi lo v : Nat) (hp : p < 4096) (hp' : p' < 4096) (ho : o < 1024)
    (ho' : o' < 1024) (h : p' ≠ p ∨ o' ≠ o) : (s.setFld p o hi lo v).rd p' o' = s.rd p' o' :=
  s.rd_wr_ne _ hp hp' ho ho' h

/-! ### Memory -/

@[simp] theorem State.rdByte_wrByte (s : State) (c a : Nat) (v : Byte) : (s.wrByte c a v).rdByte c a = v := by
  simp [State.rdByte, State.wrByte]

/-- A byte written is not seen at any other address of any claim. -/
theorem State.rdByte_wrByte_ne (s : State) {c a c' a' : Nat} (v : Byte) (h : memKey c' a' ≠ memKey c a) :
    (s.wrByte c a v).rdByte c' a' = s.rdByte c' a' := by
  simp only [State.rdByte, State.wrByte]
  exact Sparse.get_set_ne _ _ _ h

/-- Bytes written are not seen outside their range. -/
theorem State.rdByte_wrBytes_ne (s : State) (c a c' a' : Nat) (l : List Byte)
    (h : ∀ i < l.length, memKey c' a' ≠ memKey c (a + i)) : (s.wrBytes c a l).rdByte c' a' = s.rdByte c' a' := by
  induction l generalizing s a with
  | nil => rfl
  | cons b t ih =>
    simp only [State.wrBytes]
    rw [ih _ _ (fun i hi => by have := h (i + 1) (by simp; omega); rwa [show a + (i + 1) = a + 1 + i by omega] at this)]
    exact s.rdByte_wrByte_ne b (by simpa using h 0 (by simp))

/-! ### Units -/

@[simp] theorem State.stope_setStope (s : State) (p : Nat) (x : Stope) : (s.setStope p x).stope p = x := by
  simp [State.stope, State.setStope]

theorem State.stope_setStope_ne (s : State) {p q : Nat} (x : Stope) (h : q ≠ p) : (s.setStope p x).stope q = s.stope q := by
  simp [State.stope, State.setStope, Sparse.get_set, h]

@[simp] theorem State.stope_modStope (s : State) (p : Nat) (f : Stope → Stope) : (s.modStope p f).stope p = f (s.stope p) := by
  simp [State.modStope]

theorem State.stope_modStope_ne (s : State) {p q : Nat} (f : Stope → Stope) (h : q ≠ p) :
    (s.modStope p f).stope q = s.stope q := s.stope_setStope_ne _ h

@[simp] theorem Stope.arr_setArr (x : Stope) (k : Nat) (a : Arr) : (x.setArr k a).arr k = a := by
  simp [Stope.arr, Stope.setArr]

@[simp] theorem State.arr_modArr (s : State) (p k : Nat) (f : Arr → Arr) : (s.modArr p k f).arr p k = f (s.arr p k) := by
  simp [State.arr, State.modArr]

@[simp] theorem State.claim_modClaim (s : State) (c : Nat) (f : Claim → Claim) : (s.modClaim c f).claim c = f (s.claim c) := by
  simp [State.claim, State.modClaim]

@[simp] theorem State.sessOf_modSess (s : State) (r : Source) (f : Sess → Sess) : (s.modSess r f).sessOf r = f (s.sessOf r) := by
  simp [State.sessOf, State.modSess]

@[simp] theorem State.stream_setStream (s : State) (r : Source) (p : Nat) (x : Stream) : (s.setStream r p x).stream r p = x := by
  simp [State.stream, State.setStream]

@[simp] theorem State.mark_setMark (s : State) (c a : Nat) (m : Mark) : (s.setMark c a m).mark c a = m := by
  simp [State.mark, State.setMark]

theorem State.find_dropJob (l : List (Nat × Job)) (c : Nat) : (Sparse.drop c l).find? (fun e => e.1 == c) = none := by
  rw [Sparse.drop_eq_filter, List.find?_eq_none]
  intro e he
  simpa using List.of_mem_filter he

/-- The job set is the job that the claim has. -/
@[simp] theorem State.job_setJob (s : State) (c : Nat) (j : Job) : (s.setJob c j).job? c = some j := by
  simp only [State.job?, State.setJob]
  have h : ∀ l : List (Nat × Job), (∀ e ∈ l, e.1 ≠ c) → (Sparse.place c j l).find? (fun e => e.1 == c) = some (c, j) := by
    intro l hl
    induction l with
    | nil => simp [Sparse.place]
    | cons e t ih =>
      obtain ⟨a, v⟩ := e
      simp only [Sparse.place]
      split
      · simp
      · have : a ≠ c := hl (a, v) (by simp)
        simp [this, ih (fun e he => hl e (by simp [he]))]
  rw [h]
  · rfl
  · intro e he
    rw [Sparse.drop_eq_filter] at he
    simpa using List.of_mem_filter he

end Sys2Proof.Machine
end

