-- ==== Sys2Proof/Laws/Frames.lean ====
section
/-!
SUPPORT. What showing something changes: register words, interrupt messages and the event recorder, and nothing else of the state.
The operations of Machine/Flags.lean and the records of Machine/Operands.lean do no more.
-/

namespace Sys2Proof.Machine

/-- `t` is `s` with other register words, interrupt messages and recorder. -/
def Shows (s t : State) : Prop := ∃ r m q, t = { s with regs := r, msi := m, recorder := q }

theorem Shows.refl (s : State) : Shows s s := ⟨s.regs, s.msi, s.recorder, rfl⟩

theorem Shows.trans {s t u : State} (h : Shows s t) (k : Shows t u) : Shows s u := by
  obtain ⟨r, m, q, rfl⟩ := h
  obtain ⟨r', m', q', rfl⟩ := k
  exact ⟨r', m', q', rfl⟩

theorem Shows.on {s t : State} {f : State → State} (b : Bool) (h : Shows s t) (k : ∀ u, Shows u (f u)) : Shows s (t.on b f) := by
  cases b
  · exact h
  · exact h.trans (k t)

theorem Shows.setReg {s t : State} (h : Shows s t) (k : Nat) (v : Word) : Shows s (t.setReg k v) := h.trans ⟨_, t.msi, t.recorder, rfl⟩
theorem Shows.wr {s t : State} (h : Shows s t) (p o v : Nat) : Shows s (t.wr p o v) := h.setReg _ _
theorem Shows.wrB {s t : State} (h : Shows s t) (b p o v : Nat) : Shows s (t.wrB b p o v) := h.setReg _ _
theorem Shows.setFld {s t : State} (h : Shows s t) (p o a b v : Nat) : Shows s (t.setFld p o a b v) := h.wr _ _ _
theorem Shows.wr64 {s t : State} (h : Shows s t) (p o v : Nat) : Shows s (t.wr64 p o v) := (h.wr _ _ _).wr _ _ _

theorem Shows.setMsi {s t : State} (h : Shows s t) (p v : Nat) (m : Msi) : Shows s (t.setMsi p v m) :=
  h.trans ⟨t.regs, _, t.recorder, rfl⟩

theorem Shows.sendMsi {s t : State} (h : Shows s t) (p v : Nat) : Shows s (t.sendMsi p v) := by
  unfold State.sendMsi
  dsimp only
  split
  · exact h.setMsi _ _ _
  · split <;> exact h.setMsi _ _ _

theorem Shows.latch {s t : State} (h : Shows s t) (b p e : Nat) : Shows s (t.latch b p e) :=
  Shows.on _ (h.wrB _ _ _ _) (fun u => (Shows.refl u).sendMsi _ _)

theorem Shows.raise {s t : State} (h : Shows s t) (p e : Nat) : Shows s (t.raise p e) := 
  (((h.latch _ _ _).latch _ _ _).latch _ _ _).wr _ _ _
theorem Shows.raiseFor {s t : State} (h : Shows s t) (a : Source) (p e : Nat) : Shows s (t.raiseFor a p e) := h.latch _ _ _

theorem Shows.enqueue {s t : State} (h : Shows s t) (r : Rec) : Shows s (t.enqueue r) := by
  unfold State.enqueue
  dsimp only
  split
  · exact (h.trans ⟨t.regs, t.msi, _, rfl⟩).setFld _ _ _ _ _
  · exact (h.trans ⟨t.regs, t.msi, _, rfl⟩).wr64 _ _ _

theorem Shows.record {s t : State} (h : Shows s t) (c u : Nat) (k : Option Nat) (l : List Item) : Shows s (t.record c u k l) :=
  h.enqueue _
theorem Shows.recordBy {s t : State} (h : Shows s t) (a : Source) (c u : Nat) (k : Option Nat) (l : List Item) :
    Shows s (t.recordBy a c u k l) := h.enqueue _
theorem Shows.accessRec {s t : State} (h : Shows s t) (a : Source) (c p o : Nat) (l : List Item) :
    Shows s (t.accessRec a c p o l) := h.recordBy _ _ _ _ _
theorem Shows.recordSealed {s t : State} (h : Shows s t) (c u k : Nat) (l x : List Item) : Shows s (t.recordSealed c u k l x) :=
  h.enqueue _

theorem Shows.forbid {s t : State} (h : Shows s t) (a : Source) (p o : Nat) (w : Bool) : Shows s (t.forbid a p o w) :=
  (h.accessRec _ _ _ _ _).raiseFor _ _ _
theorem Shows.ignoreWrite {s t : State} (h : Shows s t) (a : Source) (p o v : Nat) : Shows s (t.ignoreWrite a p o v) :=
  h.accessRec _ _ _ _ _
theorem Shows.guardFail {s t : State} (h : Shows s t) (a : Source) (p o c v : Nat) : Shows s (t.guardFail a p o c v) :=
  (h.raiseFor _ _ _).accessRec _ _ _ _ _
theorem Shows.config {s t : State} (h : Shows s t) (b : State) (a : Source) (p o x y : Nat) : Shows s (t.config b a p o x y) :=
  Shows.on _ h (fun u => (Shows.refl u).enqueue _)

theorem Shows.stuckFor {s t : State} (h : Shows s t) (k : Option Nat) (p o b : Nat) : Shows s (t.stuckFor k p o b) :=
  Shows.on _ (Shows.on _ (h.wr _ _ _) (fun u => (Shows.refl u).raise _ _)) (fun u => (Shows.refl u).record _ _ _ _)
theorem Shows.stuck {s t : State} (h : Shows s t) (p o b : Nat) : Shows s (t.stuck p o b) := h.stuckFor none p o b

theorem Shows.count {s t : State} (h : Shows s t) (p o b n : Nat) : Shows s (t.count p o b n) :=
  Shows.on _ (h.wr _ _ _) (fun u => (Shows.refl u).stuck _ _ _)
theorem Shows.count64 {s t : State} (h : Shows s t) (p o b n : Nat) : Shows s (t.count64 p o b n) :=
  Shows.on _ (h.wr64 _ _ _) (fun u => (Shows.refl u).stuck _ _ _)
theorem Shows.countB {s t : State} (h : Shows s t) (c p o b n : Nat) : Shows s (t.countB c p o b n) :=
  Shows.on _ (h.wrB _ _ _ _) (fun u => (Shows.refl u).stuckFor _ _ _ _)

theorem Shows.setFn {s t : State} (h : Shows s t) (p x : Nat) : Shows s (t.setFn p x) := by
  unfold State.setFn
  dsimp only
  split
  · exact h
  · exact Shows.on _ (((h.setFld _ _ _ _ _).raise _ _).record _ _ _ _) (fun u => ((Shows.refl u).sendMsi _ _).sendMsi _ _)

theorem Shows.mem {s t : State} (h : Shows s t) : t.mem = s.mem := by obtain ⟨r, m, q, rfl⟩ := h; rfl
theorem Shows.jobs {s t : State} (h : Shows s t) : t.jobs = s.jobs := by obtain ⟨r, m, q, rfl⟩ := h; rfl
theorem Shows.stopes {s t : State} (h : Shows s t) : t.stopes = s.stopes := by obtain ⟨r, m, q, rfl⟩ := h; rfl
theorem Shows.pairs {s t : State} (h : Shows s t) : t.pairs = s.pairs := by obtain ⟨r, m, q, rfl⟩ := h; rfl
theorem Shows.streams {s t : State} (h : Shows s t) : t.streams = s.streams := by obtain ⟨r, m, q, rfl⟩ := h; rfl
theorem Shows.mon {s t : State} (h : Shows s t) : t.mon = s.mon := by obtain ⟨r, m, q, rfl⟩ := h; rfl
theorem Shows.marks {s t : State} (h : Shows s t) : t.marks = s.marks := by obtain ⟨r, m, q, rfl⟩ := h; rfl
theorem Shows.pwr {s t : State} (h : Shows s t) : t.pwr = s.pwr := by obtain ⟨r, m, q, rfl⟩ := h; rfl

/-! ### Register words that stay -/

theorem State.regs_sendMsi (s : State) (p v : Nat) : (s.sendMsi p v).regs = s.regs := by
  unfold State.sendMsi
  dsimp only
  split
  · rfl
  · split <;> rfl

/-- Latching an event changes no word but the flags of its own copy. -/
theorem State.rdB_latch_ne (s : State) {b b' p p' o : Nat} (e : Nat) (hp : p < 4096) (hp' : p' < 4096) (ho : o < 1024)
    (h : ¬(b' = b ∧ p' = p ∧ o = Reg.HDR.EVT_FLAG)) : (s.latch b p e).rdB b' p' o = s.rdB b' p' o := by
  have e1 : ∀ u : State, ∀ c : Bool, ((u.on c (fun w => w.sendMsi b (vectorOf p))).rdB b' p' o) = u.rdB b' p' o := by
    intro u c
    cases c
    · rfl
    · simp [State.rdB, State.reg, State.regs_sendMsi]
  unfold State.latch
  dsimp only
  rw [e1, State.rdB_wrB_ne _ _ hp hp' (by decide) ho (by tauto)]

theorem State.rdB_raise_ne (s : State) {b' p p' o : Nat} (e : Nat) (hp : p < 4096) (hp' : p' < 4096) (ho : o < 1024)
    (h : ¬(b' < 3 ∧ p' = p ∧ (o = Reg.HDR.EVT_FLAG ∨ o = Reg.HDR.EVT_RAW))) : (s.raise p e).rdB b' p' o = s.rdB b' p' o := by
  unfold State.raise State.noteLive
  rw [← State.wrB_zero, State.rdB_wrB_ne _ _ hp hp' (by decide) ho (by omega), State.rdB_latch_ne _ _ hp hp' ho (by omega), State.rdB_latch_ne _ _ hp hp' ho (by omega),
    State.rdB_latch_ne _ _ hp hp' ho (by omega)]

/-- A record changes no word outside the recorder's page. -/
theorem State.rdB_enqueue_ne (s : State) {b p o : Nat} (r : Rec) (hp : p < 4096) (ho : o < 1024) (h : p ≠ Page.REC) :
    (s.enqueue r).rdB b p o = s.rdB b p o := by
  have hq : Page.REC < 4096 := by decide
  unfold State.enqueue
  dsimp only
  split
  · unfold State.setFld
    rw [← State.wrB_zero, State.rdB_wrB_ne _ _ hq hp (by decide) ho (by tauto)]
    rfl
  · unfold State.wr64
    rw [← State.wrB_zero, ← State.wrB_zero, State.rdB_wrB_ne _ _ hq hp (by decide) ho (by tauto),
      State.rdB_wrB_ne _ _ hq hp (by decide) ho (by tauto)]
    rfl

/-! ### Accesses -/

/-- An access restarts the idle time once. -/
@[simp] theorem State.touch_touch (s : State) (a : Source) : (s.touch a).touch a = s.touch a := by
  simp [State.touch, State.modSess, State.sessOf, Sparse.set_set]

@[simp] theorem State.openPair_touch (s : State) (a b : Source) (p : Nat) : (s.touch a).openPair b p = s.openPair b p := rfl

theorem State.breakPair_none {s : State} {a : Source} {p : Nat} (h : s.openPair a p = none) : s.breakPair a p = s := by
  simp only [State.breakPair, h]

/-- The state that a rule sees where no pair is open. -/
theorem ruleSees_none {s : State} {a : Source} {p : Nat} (h : s.openPair a p = none) : ruleSees s a p = s.touch a :=
  State.breakPair_none (s := s.touch a) h

/-- A source that has no pair open on a page has none in the list. -/
theorem State.openPair_none {s : State} {a : Source} {p : Nat} (h : s.openPair a p = none) : ∀ x, (srcPage a p, x) ∉ s.pairs := by
  simp only [State.openPair, Option.map_eq_none_iff, List.find?_eq_none] at h
  intro x hx
  simpa using h _ hx

end Sys2Proof.Machine
end

