-- ==== Sys2Proof/Laws/Keeps.lean ====
section
/-!
SUPPORT. What every effect of a command keeps: memory and registers stay canonical, the queue of commands and the
oscillator's count are left alone, and no free value is drawn twice. One lemma for each operation that changes the state
(the KeepsX files), each proved from those of the operations that it calls.
-/

namespace Sys2Proof.Machine

/-- `t` comes from `s` by effects of commands. -/
def Keeps (s t : State) : Prop :=
  (s.Canonical → t.Canonical) ∧ t.pending = s.pending ∧ t.osc = s.osc ∧ s.fresh ≤ t.fresh

theorem Keeps.refl (s : State) : Keeps s s := ⟨id, rfl, rfl, le_rfl⟩

theorem Keeps.trans {s t u : State} (h : Keeps s t) (k : Keeps t u) : Keeps s u :=
  ⟨fun c => k.1 (h.1 c), k.2.1.trans h.2.1, k.2.2.1.trans h.2.2.1, h.2.2.2.trans k.2.2.2⟩

/-- Fields other than registers, memory, queue, count and draws may change at will. -/
theorem Keeps.upd {s0 s t : State} (h : Keeps s0 s) (hr : t.regs = s.regs) (hm : t.mem = s.mem) (hp : t.pending = s.pending)
    (ho : t.osc = s.osc) (hf : s.fresh ≤ t.fresh) : Keeps s0 t :=
  h.trans ⟨fun c => ⟨hm ▸ c.1, hr ▸ c.2⟩, hp, ho, hf⟩

/-- The first part of a match on a pair. -/
theorem Keeps.ofEq {α : Type} {s0 t : State} {p : State × α} {n : α} (e : p = (t, n)) (h : Keeps s0 p.1) : Keeps s0 t := by
  subst e; exact h

theorem Keeps.pair {α : Type} {s0 t : State} {n : α} (h : Keeps s0 t) : Keeps s0 (t, n).1 := h

theorem Keeps.foldl {α : Type} {s0 s : State} {l : List α} {f : State → α → State} (h : Keeps s0 s)
    (hf : ∀ t x, Keeps s0 t → Keeps s0 (f t x)) : Keeps s0 (l.foldl f s) := by
  induction l generalizing s with
  | nil => exact h
  | cons a l ih => exact ih (hf s a h)

theorem Keeps.foldlFst {α β : Type} {s0 : State} {p : State × β} {l : List α} {f : State × β → α → State × β}
    (h : Keeps s0 p.1) (hf : ∀ q x, Keeps s0 q.1 → Keeps s0 (f q x).1) : Keeps s0 (l.foldl f p).1 := by
  induction l generalizing p with
  | nil => exact h
  | cons a l ih => exact ih (hf p a h)

theorem Keeps.foldlOf {α β : Type} {s0 : State} {g : β → State} {p : β} {l : List α} {f : β → α → β}
    (h : Keeps s0 (g p)) (hf : ∀ q x, Keeps s0 (g q) → Keeps s0 (g (f q x))) : Keeps s0 (g (l.foldl f p)) := by
  induction l generalizing p with
  | nil => exact h
  | cons a l ih => exact ih (hf p a h)

theorem Keeps.on {s0 s : State} {b : Bool} {f : State → State} (h : Keeps s0 s) (hf : ∀ t, Keeps s0 t → Keeps s0 (f t)) :
    Keeps s0 (s.on b f) := by
  unfold State.on; split
  · exact hf s h
  · exact h

theorem Keeps.ite {s0 a b : State} {c : Prop} [Decidable c] (ha : c → Keeps s0 a) (hb : ¬c → Keeps s0 b) :
    Keeps s0 (if c then a else b) := by
  split
  · exact ha ‹_›
  · exact hb ‹_›

theorem Keeps.each {α : Type} {s0 s : State} {l : List α} {f : State → α → State} (h : Keeps s0 s)
    (hf : ∀ t x, Keeps s0 t → Keeps s0 (f t x)) : Keeps s0 (s.each l f) := Keeps.foldl h hf

theorem Keeps.setReg {s0 s : State} (h : Keeps s0 s) (k v) : Keeps s0 (s.setReg k v) :=
  h.trans ⟨fun c => ⟨c.1, Sparse.wf_set resetWord _ k v c.2⟩, rfl, rfl, le_rfl⟩

theorem Keeps.wrByte {s0 s : State} (h : Keeps s0 s) (c a v) : Keeps s0 (s.wrByte c a v) :=
  h.trans ⟨fun d => ⟨Sparse.wf_set (fun _ => (0 : Byte)) _ (memKey c a) v d.1, d.2⟩, rfl, rfl, le_rfl⟩

theorem Keeps.keepMem {s0 s : State} (h : Keeps s0 s) (p) : Keeps s0 (s.keepMem p) :=
  h.trans ⟨fun d => ⟨Sparse.wf_filter _ _ _ d.1, d.2⟩, rfl, rfl, le_rfl⟩

theorem Keeps.keepRegs {s0 s : State} (h : Keeps s0 s) (p) : Keeps s0 (s.keepRegs p) :=
  h.trans ⟨fun d => ⟨d.1, Sparse.wf_filter _ _ _ d.2⟩, rfl, rfl, le_rfl⟩

theorem Keeps.wrBytes {s0 s : State} (h : Keeps s0 s) (c a l) : Keeps s0 (s.wrBytes c a l) := by
  induction l generalizing s a with
  | nil => exact h
  | cons b l ih => exact ih (h.wrByte c a b) (a + 1)

/-- Fields other than registers, memory, queue and count replaced. -/
theorem Keeps.mk' {s0 s : State} {fresh powered tally sealWords recorder jobs stopes mesh aged mill fast slow sealing clock gov marks claims
    sess streams pairs caps resp msi ports casc packs fw vault pwr boot pros mon} (h : Keeps s0 s) (hf : s.fresh ≤ fresh) :
    Keeps s0 (State.mk s.pending s.osc fresh powered tally s.regs sealWords s.mem recorder jobs stopes mesh aged mill fast slow sealing clock gov marks claims sess streams pairs caps resp msi ports casc packs fw vault pwr boot pros mon) := h.upd rfl rfl rfl rfl hf

theorem perform_keeps {i : Instr} {s t u : State} (h : perform i s t = .next u) (k : Keeps s t) : Keeps s u := by
  unfold perform at h
  split at h
  · injection h with h; subst h; split
    · exact k
    · exact Keeps.refl s
  · cases h

theorem performAlways_keeps {i : Instr} {s t u : State} (h : performAlways i t = .next u) (k : Keeps s t) : Keeps s u := by
  unfold performAlways at h
  split at h
  · injection h with h; subst h; exact k
  · cases h

end Sys2Proof.Machine
end

