-- ==== Sys2Proof/Laws/KeepsOps.lean ====
section
/-!
SUPPORT. What the operations of Machine/Ops.lean keep (Laws/Keeps.lean).
-/

namespace Sys2Proof.Machine

theorem State.wr_keeps {s0 s : State} (h : Keeps s0 s) (a1 a2 a3) : Keeps s0 (State.wr s a1 a2 a3) := by
  unfold State.wr
  repeat' (first | with_reducible assumption | with_reducible apply Keeps.setReg)

theorem State.wrB_keeps {s0 s : State} (h : Keeps s0 s) (a1 a2 a3 a4) : Keeps s0 (State.wrB s a1 a2 a3 a4) := by
  unfold State.wrB
  repeat' (first | with_reducible assumption | with_reducible apply Keeps.setReg)

theorem State.setFld_keeps {s0 s : State} (h : Keeps s0 s) (a1 a2 a3 a4 a5) : Keeps s0 (State.setFld s a1 a2 a3 a4 a5) := by
  unfold State.setFld
  repeat' (first | with_reducible assumption | with_reducible apply State.wr_keeps)

theorem State.setFldB_keeps {s0 s : State} (h : Keeps s0 s) (a1 a2 a3 a4 a5 a6) : Keeps s0 (State.setFldB s a1 a2 a3 a4 a5 a6) := by
  unfold State.setFldB
  repeat' (first | with_reducible assumption | with_reducible apply State.wrB_keeps)

theorem State.wr64_keeps {s0 s : State} (h : Keeps s0 s) (a1 a2 a3) : Keeps s0 (State.wr64 s a1 a2 a3) := by
  unfold State.wr64
  repeat' (first | with_reducible assumption | with_reducible apply State.wr_keeps)

theorem State.wr64B_keeps {s0 s : State} (h : Keeps s0 s) (a1 a2 a3 a4) : Keeps s0 (State.wr64B s a1 a2 a3 a4) := by
  unfold State.wr64B
  repeat' (first | with_reducible assumption | with_reducible apply State.wrB_keeps)

theorem State.wrNat_keeps {s0 s : State} (h : Keeps s0 s) (a1 a2 a3 a4) : Keeps s0 (State.wrNat s a1 a2 a3 a4) := by
  unfold State.wrNat
  repeat' (first | with_reducible assumption | with_reducible apply Keeps.wrBytes)

theorem State.zeroMem_keeps {s0 s : State} (h : Keeps s0 s) (a1 a2 a3) : Keeps s0 (State.zeroMem s a1 a2 a3) := by
  unfold State.zeroMem
  repeat' (first | with_reducible assumption | with_reducible apply Keeps.keepMem)

theorem State.setJob_keeps {s0 s : State} (h : Keeps s0 s) (a1 a2) : Keeps s0 (State.setJob s a1 a2) := by
  unfold State.setJob
  repeat' (first | with_reducible assumption | exact le_rfl | with_reducible apply Keeps.mk')

theorem State.modJob_keeps {s0 s : State} (h : Keeps s0 s) (a1 a2) : Keeps s0 (State.modJob s a1 a2) := by
  unfold State.modJob
  repeat' (first | with_reducible assumption | with_reducible apply State.setJob_keeps | split)

theorem State.dropJob_keeps {s0 s : State} (h : Keeps s0 s) (a1) : Keeps s0 (State.dropJob s a1) := by
  unfold State.dropJob
  repeat' (first | with_reducible assumption | exact le_rfl | with_reducible apply Keeps.mk')

theorem State.setStope_keeps {s0 s : State} (h : Keeps s0 s) (a1 a2) : Keeps s0 (State.setStope s a1 a2) := by
  unfold State.setStope
  repeat' (first | with_reducible assumption | exact le_rfl | with_reducible apply Keeps.mk')

theorem State.modStope_keeps {s0 s : State} (h : Keeps s0 s) (a1 a2) : Keeps s0 (State.modStope s a1 a2) := by
  unfold State.modStope
  repeat' (first | with_reducible assumption | with_reducible apply State.setStope_keeps)

theorem State.modArr_keeps {s0 s : State} (h : Keeps s0 s) (a1 a2 a3) : Keeps s0 (State.modArr s a1 a2 a3) := by
  unfold State.modArr
  repeat' (first | with_reducible assumption | with_reducible apply State.modStope_keeps)

theorem State.setMark_keeps {s0 s : State} (h : Keeps s0 s) (a1 a2 a3) : Keeps s0 (State.setMark s a1 a2 a3) := by
  unfold State.setMark
  repeat' (first | with_reducible assumption | exact le_rfl | with_reducible apply Keeps.mk')

theorem State.modClaim_keeps {s0 s : State} (h : Keeps s0 s) (a1 a2) : Keeps s0 (State.modClaim s a1 a2) := by
  unfold State.modClaim
  repeat' (first | with_reducible assumption | exact le_rfl | with_reducible apply Keeps.mk')

theorem State.modSess_keeps {s0 s : State} (h : Keeps s0 s) (a1 a2) : Keeps s0 (State.modSess s a1 a2) := by
  unfold State.modSess
  repeat' (first | with_reducible assumption | exact le_rfl | with_reducible apply Keeps.mk')

theorem State.setStream_keeps {s0 s : State} (h : Keeps s0 s) (a1 a2 a3) : Keeps s0 (State.setStream s a1 a2 a3) := by
  unfold State.setStream
  repeat' (first | with_reducible assumption | exact le_rfl | with_reducible apply Keeps.mk')

theorem State.drawn_keeps {s0 s : State} (h : Keeps s0 s) : Keeps s0 (State.drawn s) := by
  unfold State.drawn
  repeat' (first | with_reducible assumption | exact Nat.le_succ _ | with_reducible apply Keeps.mk')

theorem State.growAllow_keeps {s0 s : State} (h : Keeps s0 s) : Keeps s0 (State.growAllow s) := by
  unfold State.growAllow
  repeat' (first | with_reducible assumption | exact le_rfl | extract_lets | with_reducible apply Keeps.mk')

theorem State.secondEnds_keeps {s0 s : State} (h : Keeps s0 s) : Keeps s0 (State.secondEnds s) := by
  unfold State.secondEnds
  repeat' (first | with_reducible assumption | with_reducible apply State.wr64_keeps
                 | with_reducible apply State.wr_keeps | exact le_rfl | extract_lets | with_reducible apply Keeps.mk')

end Sys2Proof.Machine
end

