-- ==== Sys2Proof/Laws/KeepsMesh.lean ====
section
/-!
SUPPORT. What the operations of Machine/Mesh.lean keep (Laws/Keeps.lean).
-/

namespace Sys2Proof.Machine

theorem State.meshGrant_keeps {s0 s : State} (h : Keeps s0 s) (a1) : Keeps s0 (State.meshGrant s a1) := by
  unfold State.meshGrant
  repeat' (first | with_reducible assumption | exact le_rfl | with_reducible apply Keeps.mk')

theorem State.meshSend_keeps {s0 s : State} (h : Keeps s0 s) (a1) : Keeps s0 (State.meshSend s a1) := by
  unfold State.meshSend
  repeat' (first | with_reducible assumption | with_reducible apply State.meshGrant_keeps | intro _
                 | with_reducible apply Keeps.ite | exact le_rfl | extract_lets | with_reducible apply Keeps.mk')

theorem State.meshLand_keeps {s0 s : State} (h : Keeps s0 s) (a1) : Keeps s0 (State.meshLand s a1) := by
  unfold State.meshLand
  repeat' (first | with_reducible assumption | intro _ | with_reducible apply Keeps.ite | exact le_rfl | extract_lets
                 | with_reducible apply Keeps.mk')

theorem State.meshDrop_keeps {s0 s : State} (h : Keeps s0 s) (a1) : Keeps s0 (State.meshDrop s a1) := by
  unfold State.meshDrop
  repeat' (first | with_reducible assumption | with_reducible apply Keeps.each
                 | with_reducible apply State.meshGrant_keeps | intro _ | exact le_rfl | extract_lets
                 | with_reducible apply Keeps.mk')

end Sys2Proof.Machine
end

