-- ==== Sys2Proof/Laws/KeepsFlags.lean ====
section
/-!
SUPPORT. What the operations of Machine/Flags.lean keep (Laws/Keeps.lean).
-/

namespace Sys2Proof.Machine

theorem State.setMsi_keeps {s0 s : State} (h : Keeps s0 s) (a1 a2 a3) : Keeps s0 (State.setMsi s a1 a2 a3) := by
  unfold State.setMsi
  repeat' (first | with_reducible assumption | exact le_rfl | with_reducible apply Keeps.mk')

theorem State.sendMsi_keeps {s0 s : State} (h : Keeps s0 s) (a1 a2) : Keeps s0 (State.sendMsi s a1 a2) := by
  unfold State.sendMsi
  repeat' (first | with_reducible assumption | with_reducible apply State.setMsi_keeps | intro _
                 | with_reducible apply Keeps.ite)

theorem State.latch_keeps {s0 s : State} (h : Keeps s0 s) (a1 a2 a3) : Keeps s0 (State.latch s a1 a2 a3) := by
  unfold State.latch
  repeat' (first | with_reducible assumption | with_reducible apply State.wrB_keeps | with_reducible apply Keeps.on
                 | with_reducible apply State.sendMsi_keeps | intro _)

theorem State.noteLive_keeps {s0 s : State} (h : Keeps s0 s) (a1 a2) : Keeps s0 (State.noteLive s a1 a2) := by
  unfold State.noteLive
  repeat' (first | with_reducible assumption | with_reducible apply State.wr_keeps)

theorem State.raise_keeps {s0 s : State} (h : Keeps s0 s) (a1 a2) : Keeps s0 (State.raise s a1 a2) := by
  unfold State.raise
  repeat' (first | with_reducible assumption | with_reducible apply State.noteLive_keeps
                 | with_reducible apply State.latch_keeps)

theorem State.raiseFor_keeps {s0 s : State} (h : Keeps s0 s) (a1 a2 a3) : Keeps s0 (State.raiseFor s a1 a2 a3) := by
  unfold State.raiseFor
  repeat' (first | with_reducible assumption | with_reducible apply State.latch_keeps)

theorem State.enqueue_keeps {s0 s : State} (h : Keeps s0 s) (a1) : Keeps s0 (State.enqueue s a1) := by
  unfold State.enqueue
  repeat' (first | with_reducible assumption | with_reducible apply State.setFld_keeps
                 | with_reducible apply State.wr64_keeps | intro _ | with_reducible apply Keeps.ite | exact le_rfl
                 | extract_lets | split | with_reducible apply Keeps.mk')

theorem State.record_keeps {s0 s : State} (h : Keeps s0 s) (a1 a2 a3 a4) : Keeps s0 (State.record s a1 a2 a3 a4) := by
  unfold State.record
  repeat' (first | with_reducible assumption | with_reducible apply State.enqueue_keeps)

theorem State.recordBy_keeps {s0 s : State} (h : Keeps s0 s) (a1 a2 a3 a4 a5) : Keeps s0 (State.recordBy s a1 a2 a3 a4 a5) := by
  unfold State.recordBy
  repeat' (first | with_reducible assumption | with_reducible apply State.enqueue_keeps)

theorem State.recordSealed_keeps {s0 s : State} (h : Keeps s0 s) (a1 a2 a3 a4 a5) : Keeps s0 (State.recordSealed s a1 a2 a3 a4 a5) := by
  unfold State.recordSealed
  repeat' (first | with_reducible assumption | with_reducible apply State.enqueue_keeps)

theorem State.accessRec_keeps {s0 s : State} (h : Keeps s0 s) (a1 a2 a3 a4 a5) : Keeps s0 (State.accessRec s a1 a2 a3 a4 a5) := by
  unfold State.accessRec
  repeat' (first | with_reducible assumption | with_reducible apply State.recordBy_keeps)

theorem State.setFn_keeps {s0 s : State} (h : Keeps s0 s) (a1 a2) : Keeps s0 (State.setFn s a1 a2) := by
  unfold State.setFn
  repeat' (first | with_reducible assumption | with_reducible apply State.record_keeps
                 | with_reducible apply State.raise_keeps | with_reducible apply State.setFld_keeps
                 | with_reducible apply Keeps.on | with_reducible apply State.sendMsi_keeps | intro _
                 | with_reducible apply Keeps.ite)

theorem State.endDrain_keeps {s0 s : State} (h : Keeps s0 s) (a1) : Keeps s0 (State.endDrain s a1) := by
  unfold State.endDrain
  repeat' (first | with_reducible assumption | with_reducible apply State.setFn_keeps | intro _
                 | with_reducible apply Keeps.ite)

theorem State.stuckFor_keeps {s0 s : State} (h : Keeps s0 s) (a1 a2 a3 a4) : Keeps s0 (State.stuckFor s a1 a2 a3 a4) := by
  unfold State.stuckFor
  repeat' (first | with_reducible assumption | with_reducible apply State.wr_keeps | with_reducible apply Keeps.on
                 | with_reducible apply State.raise_keeps | with_reducible apply State.record_keeps | intro _)

theorem State.stuck_keeps {s0 s : State} (h : Keeps s0 s) (a1 a2 a3) : Keeps s0 (State.stuck s a1 a2 a3) := by
  unfold State.stuck
  repeat' (first | with_reducible assumption | with_reducible apply State.stuckFor_keeps)

theorem State.count_keeps {s0 s : State} (h : Keeps s0 s) (a1 a2 a3 a4) : Keeps s0 (State.count s a1 a2 a3 a4) := by
  unfold State.count
  repeat' (first | with_reducible assumption | with_reducible apply State.wr_keeps | with_reducible apply Keeps.on
                 | with_reducible apply State.stuck_keeps | intro _)

theorem State.count64_keeps {s0 s : State} (h : Keeps s0 s) (a1 a2 a3 a4) : Keeps s0 (State.count64 s a1 a2 a3 a4) := by
  unfold State.count64
  repeat' (first | with_reducible assumption | with_reducible apply State.wr64_keeps | with_reducible apply Keeps.on
                 | with_reducible apply State.stuck_keeps | intro _)

theorem State.countB_keeps {s0 s : State} (h : Keeps s0 s) (a1 a2 a3 a4 a5) : Keeps s0 (State.countB s a1 a2 a3 a4 a5) := by
  unfold State.countB
  repeat' (first | with_reducible assumption | with_reducible apply State.wrB_keeps | with_reducible apply Keeps.on
                 | with_reducible apply State.stuckFor_keeps | intro _)

theorem State.stageEvent_keeps {s0 s : State} (h : Keeps s0 s) (a1 a2) : Keeps s0 (State.stageEvent s a1 a2) := by
  unfold State.stageEvent
  repeat' (first | with_reducible assumption | with_reducible apply State.wrB_keeps)

theorem State.stuckSealed_keeps {s0 s : State} (h : Keeps s0 s) (a1 a2 a3) : Keeps s0 (State.stuckSealed s a1 a2 a3) := by
  unfold State.stuckSealed
  repeat' (first | with_reducible assumption | with_reducible apply State.stageEvent_keeps
                 | with_reducible apply State.wrB_keeps | with_reducible apply State.record_keeps)

theorem State.countSealed_keeps {s0 s : State} (h : Keeps s0 s) (a1 a2 a3 a4) : Keeps s0 (State.countSealed s a1 a2 a3 a4) := by
  unfold State.countSealed
  repeat' (first | with_reducible assumption | with_reducible apply State.wrB_keeps | with_reducible apply Keeps.on
                 | with_reducible apply State.stuckSealed_keeps | intro _)

theorem State.countSealed64_keeps {s0 s : State} (h : Keeps s0 s) (a1 a2 a3 a4) : Keeps s0 (State.countSealed64 s a1 a2 a3 a4) := by
  unfold State.countSealed64
  repeat' (first | with_reducible assumption | with_reducible apply State.wr64B_keeps | with_reducible apply Keeps.on
                 | with_reducible apply State.stuckSealed_keeps | intro _)

end Sys2Proof.Machine
end

