-- ==== Sys2Proof/Laws/KeepsOperands.lean ====
section
/-!
SUPPORT. What the operations of Machine/Operands.lean keep (Laws/Keeps.lean).
-/

namespace Sys2Proof.Machine

theorem State.forbid_keeps {s0 s : State} (h : Keeps s0 s) (a1 a2 a3 a4) : Keeps s0 (State.forbid s a1 a2 a3 a4) := by
  unfold State.forbid
  repeat' (first | with_reducible assumption | with_reducible apply State.raiseFor_keeps
                 | with_reducible apply State.accessRec_keeps)

theorem State.ignoreWrite_keeps {s0 s : State} (h : Keeps s0 s) (a1 a2 a3 a4) : Keeps s0 (State.ignoreWrite s a1 a2 a3 a4) := by
  unfold State.ignoreWrite
  repeat' (first | with_reducible assumption | with_reducible apply State.accessRec_keeps)

theorem State.config_keeps {s0 s : State} (h : Keeps s0 s) (a1 : State) (a2) (a3) (a4) (a5) (a6) : Keeps s0 (State.config s a1 a2 a3 a4 a5 a6) := by
  unfold State.config
  repeat' (first | with_reducible assumption | with_reducible apply Keeps.on
                 | with_reducible apply State.enqueue_keeps | intro _)

theorem State.respond_keeps {s0 s : State} (h : Keeps s0 s) (a1 a2 a3) : Keeps s0 (State.respond s a1 a2 a3) := by
  unfold State.respond
  repeat' (first | with_reducible assumption | exact le_rfl | with_reducible apply Keeps.mk')

theorem State.touch_keeps {s0 s : State} (h : Keeps s0 s) (a1) : Keeps s0 (State.touch s a1) := by
  unfold State.touch
  repeat' (first | with_reducible assumption | with_reducible apply State.modSess_keeps)

theorem State.guardFail_keeps {s0 s : State} (h : Keeps s0 s) (a1 a2 a3 a4 a5) : Keeps s0 (State.guardFail s a1 a2 a3 a4 a5) := by
  unfold State.guardFail
  repeat' (first | with_reducible assumption | with_reducible apply State.accessRec_keeps
                 | with_reducible apply State.raiseFor_keeps)

theorem State.dropPair_keeps {s0 s : State} (h : Keeps s0 s) (a1 a2) : Keeps s0 (State.dropPair s a1 a2) := by
  unfold State.dropPair
  repeat' (first | with_reducible assumption | exact le_rfl | with_reducible apply Keeps.mk')

theorem State.breakPair_keeps {s0 s : State} (h : Keeps s0 s) (a1 a2) : Keeps s0 (State.breakPair s a1 a2) := by
  unfold State.breakPair
  repeat' (first | with_reducible assumption | with_reducible apply State.guardFail_keeps
                 | with_reducible apply State.dropPair_keeps | split)

theorem State.tryGuarded_keeps {s0 s : State} (h : Keeps s0 s) (a1 a2 a3 a4 a5) (h5 : ∀ x0, Keeps s0 x0 → Keeps s0 (a5 x0).1) : Keeps s0 (State.tryGuarded s a1 a2 a3 a4 a5).1 := by
  unfold State.tryGuarded
  repeat' (first | with_reducible assumption | with_reducible apply h5 | with_reducible apply State.touch_keeps
                 | with_reducible apply State.respond_keeps | with_reducible apply State.forbid_keeps
                 | with_reducible apply State.ignoreWrite_keeps | with_reducible apply State.breakPair_keeps
                 | with_reducible apply Keeps.on | with_reducible apply State.config_keeps | intro _ | extract_lets
                 | split)

theorem State.guarded_keeps {s0 s : State} (h : Keeps s0 s) (a1 a2 a3 a4 a5) (h5 : ∀ x0, Keeps s0 x0 → Keeps s0 (a5 x0).1) : Keeps s0 (State.guarded s a1 a2 a3 a4 a5) := by
  unfold State.guarded
  repeat' (first | with_reducible assumption | with_reducible apply State.tryGuarded_keeps)

theorem State.tryWritten_keeps {s0 s : State} (h : Keeps s0 s) (a1 a2 a3 a4 a5 a6) (h6 : ∀ x0, Keeps s0 x0 → Keeps s0 (a6 x0).1) : Keeps s0 (State.tryWritten s a1 a2 a3 a4 a5 a6).1 := by
  unfold State.tryWritten
  repeat' (first | with_reducible assumption | with_reducible apply h6 | with_reducible apply State.touch_keeps
                 | with_reducible apply State.respond_keeps | with_reducible apply State.forbid_keeps
                 | with_reducible apply State.ignoreWrite_keeps | with_reducible apply State.breakPair_keeps
                 | with_reducible apply Keeps.on | with_reducible apply State.config_keeps | intro _ | extract_lets
                 | split)

theorem State.written_keeps {s0 s : State} (h : Keeps s0 s) (a1 a2 a3 a4 a5 a6) (h6 : ∀ x0, Keeps s0 x0 → Keeps s0 (a6 x0).1) : Keeps s0 (State.written s a1 a2 a3 a4 a5 a6) := by
  unfold State.written
  repeat' (first | with_reducible assumption | with_reducible apply State.tryWritten_keeps)

end Sys2Proof.Machine
end

