-- ==== Sys2Proof/Laws/KeepsJobOps.lean ====
section
/-!
SUPPORT. What the operations of Machine/JobOps.lean keep (Laws/Keeps.lean).
-/

namespace Sys2Proof.Machine

theorem State.showLoaded_keeps {s0 s : State} (h : Keeps s0 s) (a1 a2) : Keeps s0 (State.showLoaded s a1 a2) := by
  unfold State.showLoaded
  repeat' (first | with_reducible assumption | with_reducible apply State.setFld_keeps)

theorem State.setJobState_keeps {s0 s : State} (h : Keeps s0 s) (a1 a2 a3) : Keeps s0 (State.setJobState s a1 a2 a3) := by
  unfold State.setJobState
  repeat' (first | with_reducible assumption | with_reducible apply State.setFldB_keeps
                 | with_reducible apply State.record_keeps | with_reducible apply State.raise_keeps
                 | with_reducible apply Keeps.on | with_reducible apply State.showLoaded_keeps | intro _
                 | with_reducible apply Keeps.ite)

theorem State.setReason_keeps {s0 s : State} (h : Keeps s0 s) (a1 a2) : Keeps s0 (State.setReason s a1 a2) := by
  unfold State.setReason
  repeat' (first | with_reducible assumption | with_reducible apply State.setFldB_keeps)

theorem State.ignoreCmd_keeps {s0 s : State} (h : Keeps s0 s) (a1 a2 a3) : Keeps s0 (State.ignoreCmd s a1 a2 a3) := by
  unfold State.ignoreCmd
  repeat' (first | with_reducible assumption | with_reducible apply State.recordBy_keeps)

theorem State.unsound_keeps {s0 s : State} (h : Keeps s0 s) (a1 a2 a3) : Keeps s0 (State.unsound s a1 a2 a3) := by
  unfold State.unsound
  repeat' (first | with_reducible assumption | with_reducible apply State.setJob_keeps
                 | with_reducible apply State.wrB_keeps | with_reducible apply State.record_keeps | intro _
                 | with_reducible apply Keeps.ite | split)

theorem State.setCycle_keeps {s0 s : State} (h : Keeps s0 s) (a1 a2 a3) : Keeps s0 (State.setCycle s a1 a2 a3) := by
  unfold State.setCycle
  repeat' (first | with_reducible assumption | with_reducible apply Keeps.on | with_reducible apply State.wr_keeps
                 | with_reducible apply State.raise_keeps | intro _)

theorem State.tierTraffic_keeps {s0 s : State} (h : Keeps s0 s) (a1) : Keeps s0 (State.tierTraffic s a1) := by
  unfold State.tierTraffic
  repeat' (first | with_reducible assumption | with_reducible apply Keeps.each
                 | with_reducible apply State.drawn_keeps | with_reducible apply State.count64_keeps | intro _
                 | with_reducible apply Keeps.ite)

theorem State.modRun_keeps {s0 s : State} (h : Keeps s0 s) (a1 a2 a3) : Keeps s0 (State.modRun s a1 a2 a3) := by
  unfold State.modRun
  repeat' (first | with_reducible assumption | with_reducible apply State.modJob_keeps)

theorem State.hoistDone_keeps {s0 s : State} (h : Keeps s0 s) (a1 a2) : Keeps s0 (State.hoistDone s a1 a2) := by
  unfold State.hoistDone
  repeat' (first | with_reducible assumption | with_reducible apply State.setJob_keeps
                 | with_reducible apply State.modJob_keeps | with_reducible apply Keeps.each
                 | with_reducible apply Keeps.on | with_reducible apply State.stageEvent_keeps
                 | with_reducible apply State.tierTraffic_keeps | with_reducible apply State.record_keeps | intro _
                 | with_reducible apply Keeps.ite | split)

theorem State.unitDone_keeps {s0 s : State} (h : Keeps s0 s) (a1 a2) : Keeps s0 (State.unitDone s a1 a2) := by
  unfold State.unitDone
  repeat' (first | with_reducible assumption | with_reducible apply State.hoistDone_keeps
                 | with_reducible apply State.setJob_keeps | intro _ | with_reducible apply Keeps.ite | split)

theorem State.noteAbandoned_keeps {s0 s : State} (h : Keeps s0 s) (a1 a2 a3) : Keeps s0 (State.noteAbandoned s a1 a2 a3) := by
  unfold State.noteAbandoned
  repeat' (first | with_reducible assumption | with_reducible apply State.countSealed_keeps
                 | with_reducible apply State.record_keeps | extract_lets | split)

theorem State.abandonTiles_keeps {s0 s : State} (h : Keeps s0 s) (a1 a2 a3) : Keeps s0 (State.abandonTiles s a1 a2 a3) := by
  unfold State.abandonTiles
  repeat' (first | with_reducible assumption | with_reducible apply Keeps.each
                 | with_reducible apply State.modStope_keeps | with_reducible apply State.noteAbandoned_keeps
                 | intro _)

theorem State.fenceTiles_keeps {s0 s : State} (h : Keeps s0 s) (a1 a2) : Keeps s0 (State.fenceTiles s a1 a2) := by
  unfold State.fenceTiles
  repeat' (first | with_reducible assumption | with_reducible apply State.modStope_keeps
                 | with_reducible apply State.abandonTiles_keeps)

theorem State.dropHeld_keeps {s0 s : State} (h : Keeps s0 s) (a1 a2) : Keeps s0 (State.dropHeld s a1 a2) := by
  unfold State.dropHeld
  repeat' (first | with_reducible assumption | exact le_rfl | extract_lets | with_reducible apply Keeps.mk')

theorem State.dropWork_keeps {s0 s : State} (h : Keeps s0 s) (a1 a2 a3) : Keeps s0 (State.dropWork s a1 a2 a3) := by
  unfold State.dropWork
  repeat' (first | with_reducible assumption | with_reducible apply State.meshDrop_keeps
                 | with_reducible apply State.dropHeld_keeps | with_reducible apply Keeps.each
                 | with_reducible apply State.abandonTiles_keeps | with_reducible apply State.modStope_keeps
                 | intro _)

theorem State.abortJob_keeps {s0 s : State} (h : Keeps s0 s) (a1) : Keeps s0 (State.abortJob s a1) := by
  unfold State.abortJob
  repeat' (first | with_reducible assumption | with_reducible apply State.unsound_keeps
                 | with_reducible apply State.modJob_keeps | with_reducible apply State.dropWork_keeps)

theorem State.stageWord_keeps {s0 s : State} (h : Keeps s0 s) (a1 a2 a3) : Keeps s0 (State.stageWord s a1 a2 a3) := by
  unfold State.stageWord
  repeat' (first | with_reducible assumption | exact le_rfl | with_reducible apply Keeps.mk')

theorem State.forgetJob_keeps {s0 s : State} (h : Keeps s0 s) (a1 a2) : Keeps s0 (State.forgetJob s a1 a2) := by
  unfold State.forgetJob
  repeat' (first | with_reducible assumption | with_reducible apply State.modClaim_keeps | exact le_rfl | extract_lets
                 | split | with_reducible apply Keeps.mk')

theorem State.unload_keeps {s0 s : State} (h : Keeps s0 s) (a1 a2) : Keeps s0 (State.unload s a1 a2) := by
  unfold State.unload
  repeat' (first | with_reducible assumption | with_reducible apply State.setJobState_keeps
                 | with_reducible apply State.setReason_keeps | with_reducible apply State.forgetJob_keeps
                 | with_reducible apply State.dropJob_keeps | with_reducible apply State.setFld_keeps
                 | with_reducible apply Keeps.each | with_reducible apply State.stageWord_keeps
                 | with_reducible apply State.setFldB_keeps | intro _ | extract_lets | split)

theorem State.bumpStates_keeps {s0 s : State} (h : Keeps s0 s) (a1 a2 a3) : Keeps s0 (State.bumpStates s a1 a2 a3) := by
  unfold State.bumpStates
  repeat' (first | with_reducible assumption | with_reducible apply State.setFld_keeps)

theorem State.enterWatched_keeps {s0 s : State} (h : Keeps s0 s) (a1 a2) : Keeps s0 (State.enterWatched s a1 a2) := by
  unfold State.enterWatched
  repeat' (first | with_reducible assumption | with_reducible apply State.modStope_keeps
                 | with_reducible apply State.setFn_keeps | with_reducible apply Keeps.on
                 | with_reducible apply State.record_keeps | with_reducible apply State.stageEvent_keeps
                 | with_reducible apply State.bumpStates_keeps | intro _ | with_reducible apply Keeps.ite)

theorem State.propose_keeps {s0 s : State} (h : Keeps s0 s) (a1 a2) : Keeps s0 (State.propose s a1 a2) := by
  unfold State.propose
  repeat' (first | with_reducible assumption | with_reducible apply State.enterWatched_keeps
                 | with_reducible apply State.modStope_keeps | intro _ | with_reducible apply Keeps.ite | extract_lets
                 | split)

theorem State.stopeFailure_keeps {s0 s : State} (h : Keeps s0 s) (a1 a2) : Keeps s0 (State.stopeFailure s a1 a2) := by
  unfold State.stopeFailure
  repeat' (first | with_reducible assumption | with_reducible apply State.modStope_keeps
                 | with_reducible apply State.enterWatched_keeps | with_reducible apply State.propose_keeps | intro _
                 | with_reducible apply Keeps.ite | extract_lets | split)

theorem State.recomputeFailed_keeps {s0 s : State} (h : Keeps s0 s) (a1 a2) : Keeps s0 (State.recomputeFailed s a1 a2) := by
  unfold State.recomputeFailed
  repeat' (first | with_reducible assumption | with_reducible apply State.record_keeps
                 | with_reducible apply State.raise_keeps | with_reducible apply State.count_keeps
                 | with_reducible apply State.unsound_keeps)

theorem State.unsoundNotice_keeps {s0 s : State} (h : Keeps s0 s) (a1 a2 a3 a4) : Keeps s0 (State.unsoundNotice s a1 a2 a3 a4) := by
  unfold State.unsoundNotice
  repeat' (first | with_reducible assumption | with_reducible apply State.record_keeps
                 | with_reducible apply State.raise_keeps | with_reducible apply State.count_keeps)

theorem State.showLost_keeps {s0 s : State} (h : Keeps s0 s) (a1) : Keeps s0 (State.showLost s a1) := by
  unfold State.showLost
  repeat' (first | with_reducible assumption | with_reducible apply State.wr64B_keeps
                 | with_reducible apply State.wrB_keeps)

theorem State.loseBlock_keeps {s0 s : State} (h : Keeps s0 s) (a1 a2) : Keeps s0 (State.loseBlock s a1 a2) := by
  unfold State.loseBlock
  repeat' (first | with_reducible assumption | with_reducible apply State.setMark_keeps
                 | with_reducible apply State.modClaim_keeps | with_reducible apply State.record_keeps
                 | with_reducible apply State.raise_keeps | with_reducible apply State.count_keeps
                 | with_reducible apply State.showLost_keeps | intro _ | with_reducible apply Keeps.ite)

theorem State.damageBlock_keeps {s0 s : State} (h : Keeps s0 s) (a1 a2 a3 a4) : Keeps s0 (State.damageBlock s a1 a2 a3 a4) := by
  unfold State.damageBlock
  repeat' (first | with_reducible assumption | with_reducible apply State.record_keeps
                 | with_reducible apply State.count_keeps | with_reducible apply State.setMark_keeps | intro _
                 | with_reducible apply Keeps.ite)

theorem State.clearLost_keeps {s0 s : State} (h : Keeps s0 s) (a1 a2) : Keeps s0 (State.clearLost s a1 a2) := by
  unfold State.clearLost
  repeat' (first | with_reducible assumption | with_reducible apply State.setMark_keeps
                 | with_reducible apply State.showLost_keeps | with_reducible apply State.modClaim_keeps | intro _
                 | with_reducible apply Keeps.ite)

end Sys2Proof.Machine
end

