-- ==== Sys2Proof/Laws/KeepsAccess.lean ====
section
/-!
SUPPORT. What the operations of Machine/Access.lean keep (Laws/Keeps.lean).
-/

namespace Sys2Proof.Machine

theorem State.strmShow_keeps {s0 s : State} (h : Keeps s0 s) (a1 a2 a3 a4 a5) : Keeps s0 (State.strmShow s a1 a2 a3 a4 a5) := by
  unfold State.strmShow
  repeat' (first | with_reducible assumption | with_reducible apply State.wrB_keeps)

theorem State.strmError_keeps {s0 s : State} (h : Keeps s0 s) (a1 a2 a3 a4 a5) : Keeps s0 (State.strmError s a1 a2 a3 a4 a5) := by
  unfold State.strmError
  repeat' (first | with_reducible assumption | with_reducible apply State.accessRec_keeps
                 | with_reducible apply State.raiseFor_keeps)

theorem State.strmSettle_keeps {s0 s : State} (h : Keeps s0 s) (a1) : Keeps s0 (State.strmSettle s a1) := by
  unfold State.strmSettle
  repeat' (first | with_reducible assumption | with_reducible apply Keeps.on
                 | with_reducible apply State.endDrain_keeps | intro _)

theorem State.strmEnd_keeps {s0 s : State} (h : Keeps s0 s) (a1 a2 a3) : Keeps s0 (State.strmEnd s a1 a2 a3) := by
  unfold State.strmEnd
  repeat' (first | with_reducible assumption | with_reducible apply State.strmShow_keeps
                 | with_reducible apply State.setStream_keeps | with_reducible apply State.strmSettle_keeps
                 | with_reducible apply Keeps.on | with_reducible apply State.strmError_keeps
                 | with_reducible apply State.count_keeps | intro _ | with_reducible apply Keeps.ite)

theorem State.wrWords_keeps {s0 s : State} (h : Keeps s0 s) (a1 a2 a3 a4 a5) : Keeps s0 (State.wrWords s a1 a2 a3 a4 a5) := by
  induction a5 generalizing s a1 a2 a3 a4 with
  | zero => unfold State.wrWords; repeat' (with_reducible assumption)
  | succ n ih => unfold State.wrWords; repeat' (first | with_reducible assumption
                                                      | with_reducible apply State.wrB_keeps
                                                      | with_reducible apply ih)

theorem State.setDiag_keeps {s0 s : State} (h : Keeps s0 s) (a1 a2) : Keeps s0 (State.setDiag s a1 a2) := by
  unfold State.setDiag
  repeat' (first | with_reducible assumption | with_reducible apply State.setFld_keeps
                 | with_reducible apply State.wr_keeps | with_reducible apply State.record_keeps
                 | with_reducible apply State.raise_keeps | intro _ | with_reducible apply Keeps.ite)

theorem State.reviewDiag_keeps {s0 s : State} (h : Keeps s0 s) (a1) : Keeps s0 (State.reviewDiag s a1) := by
  unfold State.reviewDiag
  repeat' (first | with_reducible assumption | with_reducible apply State.setDiag_keeps)

theorem State.setClaimState_keeps {s0 s : State} (h : Keeps s0 s) (a1 a2 a3) : Keeps s0 (State.setClaimState s a1 a2 a3) := by
  unfold State.setClaimState
  repeat' (first | with_reducible assumption | with_reducible apply State.raise_keeps
                 | with_reducible apply State.setFld_keeps | with_reducible apply State.record_keeps
                 | with_reducible apply State.reviewDiag_keeps)

theorem State.setSeams_keeps {s0 s : State} (h : Keeps s0 s) (a1 a2) : Keeps s0 (State.setSeams s a1 a2) := by
  unfold State.setSeams
  repeat' (first | with_reducible assumption | with_reducible apply State.wr_keeps | exact le_rfl | extract_lets
                 | with_reducible apply Keeps.mk')

theorem State.endSession_keeps {s0 s : State} (h : Keeps s0 s) (a1 a2) : Keeps s0 (State.endSession s a1 a2) := by
  unfold State.endSession
  repeat' (first | with_reducible assumption | with_reducible apply State.recordBy_keeps
                 | with_reducible apply State.raise_keeps | with_reducible apply State.wr_keeps
                 | with_reducible apply Keeps.each | with_reducible apply State.strmEnd_keeps
                 | with_reducible apply Keeps.on | with_reducible apply State.setDiag_keeps | intro _
                 | with_reducible apply Keeps.ite | exact le_rfl | extract_lets | with_reducible apply Keeps.mk')

theorem State.endSessions_keeps {s0 s : State} (h : Keeps s0 s) (a1 a2) : Keeps s0 (State.endSessions s a1 a2) := by
  unfold State.endSessions
  repeat' (first | with_reducible assumption | with_reducible apply Keeps.each | with_reducible apply Keeps.on
                 | with_reducible apply State.endSession_keeps | intro _)

end Sys2Proof.Machine
end

