-- ==== Sys2Proof/Laws/KeepsSessions.lean ====
section
/-!
SUPPORT. What the operations of Machine/Sessions.lean keep (Laws/Keeps.lean).
-/

namespace Sys2Proof.Machine

theorem State.sessReqAct_keeps {s0 s : State} (h : Keeps s0 s) (a1 a2) : Keeps s0 (State.sessReqAct s a1 a2).1 := by
  unfold State.sessReqAct
  repeat' (first | with_reducible assumption | with_reducible apply State.recordBy_keeps
                 | with_reducible apply State.endSession_keeps | with_reducible apply State.wrWords_keeps
                 | with_reducible apply State.drawn_keeps | with_reducible apply State.wr_keeps
                 | with_reducible apply State.modSess_keeps | extract_lets | split)

theorem State.openSession_keeps {s0 s : State} (h : Keeps s0 s) (a1) : Keeps s0 (State.openSession s a1) := by
  unfold State.openSession
  repeat' (first | with_reducible assumption | with_reducible apply State.wr_keeps
                 | with_reducible apply State.wrWords_keeps | with_reducible apply State.wr64_keeps
                 | with_reducible apply State.raise_keeps | with_reducible apply State.modSess_keeps
                 | with_reducible apply State.recordBy_keeps | with_reducible apply Keeps.on
                 | with_reducible apply State.setClaimState_keeps | with_reducible apply Keeps.each
                 | with_reducible apply State.setSeams_keeps | intro _)

theorem State.failSession_keeps {s0 s : State} (h : Keeps s0 s) (a1 a2) : Keeps s0 (State.failSession s a1 a2) := by
  unfold State.failSession
  repeat' (first | with_reducible assumption | with_reducible apply State.wr_keeps
                 | with_reducible apply State.modSess_keeps | with_reducible apply State.wrWords_keeps
                 | with_reducible apply State.record_keeps | with_reducible apply Keeps.on
                 | with_reducible apply State.raise_keeps | intro _)

theorem State.sessProveAct_keeps {s0 s : State} (h : Keeps s0 s) (a1 a2) : Keeps s0 (State.sessProveAct s a1 a2).1 := by
  unfold State.sessProveAct
  repeat' (first | with_reducible assumption | with_reducible apply State.openSession_keeps
                 | with_reducible apply State.failSession_keeps | extract_lets | split)

theorem State.sessEndAct_keeps {s0 s : State} (h : Keeps s0 s) (a1 a2) : Keeps s0 (State.sessEndAct s a1 a2).1 := by
  unfold State.sessEndAct
  repeat' (first | with_reducible assumption | with_reducible apply State.endSession_keeps | split)

theorem execSessReq_keeps {s t : State} (a0 a1) (h : execSessReq a0 a1 s = .next t) : Keeps s t := by
  unfold execSessReq at h
  refine perform_keeps h ?_
  have hs := Keeps.refl s
  repeat' (first | with_reducible assumption | with_reducible apply State.written_keeps
                 | with_reducible apply State.sessReqAct_keeps | intro _)

theorem execSessProve_keeps {s t : State} (a0 a1) (h : execSessProve a0 a1 s = .next t) : Keeps s t := by
  unfold execSessProve at h
  refine perform_keeps h ?_
  have hs := Keeps.refl s
  repeat' (first | with_reducible assumption | with_reducible apply State.written_keeps
                 | with_reducible apply State.sessProveAct_keeps | intro _)

theorem execSessEnd_keeps {s t : State} (a0 a1) (h : execSessEnd a0 a1 s = .next t) : Keeps s t := by
  unfold execSessEnd at h
  refine perform_keeps h ?_
  have hs := Keeps.refl s
  repeat' (first | with_reducible assumption | with_reducible apply State.written_keeps
                 | with_reducible apply State.sessEndAct_keeps | intro _)

theorem execSessionIdle_keeps {s t : State} (a0) (h : execSessionIdle a0 s = .next t) : Keeps s t := by
  unfold execSessionIdle at h
  refine perform_keeps h ?_
  have hs := Keeps.refl s
  repeat' (first | with_reducible assumption | with_reducible apply State.endSession_keeps | intro _
                 | with_reducible apply Keeps.ite)

theorem execBlockedEnd_keeps {s t : State} (a0) (h : execBlockedEnd a0 s = .next t) : Keeps s t := by
  unfold execBlockedEnd at h
  refine perform_keeps h ?_
  have hs := Keeps.refl s
  repeat' (first | with_reducible assumption | with_reducible apply State.setFld_keeps | intro _
                 | with_reducible apply Keeps.ite)

theorem State.showInstaller_keeps {s0 s : State} (h : Keeps s0 s) (a1) : Keeps s0 (State.showInstaller s a1) := by
  unfold State.showInstaller
  repeat' (first | with_reducible assumption | with_reducible apply State.setFld_keeps
                 | with_reducible apply State.wrWords_keeps)

theorem State.recordEnrol_keeps {s0 s : State} (h : Keeps s0 s) (a1 a2 a3 a4 a5) : Keeps s0 (State.recordEnrol s a1 a2 a3 a4 a5) := by
  unfold State.recordEnrol
  repeat' (first | with_reducible assumption | with_reducible apply State.recordBy_keeps)

theorem State.enrolAct_keeps {s0 s : State} (h : Keeps s0 s) (a1) : Keeps s0 (State.enrolAct s a1).1 := by
  unfold State.enrolAct
  repeat' (first | with_reducible assumption | with_reducible apply State.recordEnrol_keeps
                 | with_reducible apply State.raise_keeps | with_reducible apply State.showInstaller_keeps
                 | with_reducible apply State.endSessions_keeps | exact le_rfl | extract_lets y0 y1 y2 y3 | split
                 | (guard_target =ₛ Keeps s0 y3; unfold y3) | with_reducible apply Keeps.mk')

theorem State.withdrawAct_keeps {s0 s : State} (h : Keeps s0 s) (a1) : Keeps s0 (State.withdrawAct s a1).1 := by
  unfold State.withdrawAct
  repeat' (first | with_reducible assumption | with_reducible apply State.showInstaller_keeps
                 | with_reducible apply State.endSessions_keeps | with_reducible apply State.recordEnrol_keeps
                 | with_reducible apply State.raise_keeps | exact le_rfl | extract_lets | split
                 | with_reducible apply Keeps.mk')

theorem State.instEnrolAct_keeps {s0 s : State} (h : Keeps s0 s) (a1 a2) : Keeps s0 (State.instEnrolAct s a1 a2).1 := by
  unfold State.instEnrolAct
  repeat' (first | with_reducible assumption | with_reducible apply State.enrolAct_keeps
                 | with_reducible apply State.withdrawAct_keeps | split)

theorem execInstEnrol_keeps {s t : State} (a0 a1) (h : execInstEnrol a0 a1 s = .next t) : Keeps s t := by
  unfold execInstEnrol at h
  refine perform_keeps h ?_
  have hs := Keeps.refl s
  repeat' (first | with_reducible assumption | with_reducible apply State.guarded_keeps
                 | with_reducible apply State.instEnrolAct_keeps | intro _)

theorem execInstWithdraw_keeps {s t : State} (a0 a1) (h : execInstWithdraw a0 a1 s = .next t) : Keeps s t := by
  unfold execInstWithdraw at h
  refine perform_keeps h ?_
  have hs := Keeps.refl s
  repeat' (first | with_reducible assumption | with_reducible apply State.guarded_keeps
                 | with_reducible apply State.instEnrolAct_keeps | intro _)

theorem State.attestReqAct_keeps {s0 s : State} (h : Keeps s0 s) (a1 a2) : Keeps s0 (State.attestReqAct s a1 a2).1 := by
  unfold State.attestReqAct
  repeat' (first | with_reducible assumption | with_reducible apply State.wrB_keeps | exact le_rfl | extract_lets
                 | split | with_reducible apply Keeps.mk')

theorem execAttestReq_keeps {s t : State} (a0 a1) (h : execAttestReq a0 a1 s = .next t) : Keeps s t := by
  unfold execAttestReq at h
  refine perform_keeps h ?_
  have hs := Keeps.refl s
  repeat' (first | with_reducible assumption | with_reducible apply State.written_keeps
                 | with_reducible apply State.attestReqAct_keeps | intro _)

theorem State.attestSign_keeps {s0 s : State} (h : Keeps s0 s) (a1) : Keeps s0 (State.attestSign s a1) := by
  unfold State.attestSign
  repeat' (first | with_reducible assumption | with_reducible apply State.wrB_keeps
                 | with_reducible apply State.recordBy_keeps | with_reducible apply State.raise_keeps | exact le_rfl
                 | extract_lets | with_reducible apply Keeps.mk')

theorem execAttestReady_keeps {s t : State} (a0) (h : execAttestReady a0 s = .next t) : Keeps s t := by
  unfold execAttestReady at h
  refine perform_keeps h ?_
  have hs := Keeps.refl s
  repeat' (first | with_reducible assumption | with_reducible apply State.attestSign_keeps | intro _
                 | with_reducible apply Keeps.ite)

theorem State.makerGateAct_keeps {s0 s : State} (h : Keeps s0 s) (a1) : Keeps s0 (State.makerGateAct s a1).1 := by
  unfold State.makerGateAct
  repeat' (first | with_reducible assumption | with_reducible apply State.raise_keeps
                 | with_reducible apply State.setFld_keeps | with_reducible apply State.wr_keeps
                 | with_reducible apply State.record_keeps | with_reducible apply Keeps.on
                 | with_reducible apply State.endSessions_keeps | intro _)

theorem execMakerGate_keeps {s t : State} (a0 a1) (h : execMakerGate a0 a1 s = .next t) : Keeps s t := by
  unfold execMakerGate at h
  refine perform_keeps h ?_
  have hs := Keeps.refl s
  repeat' (first | with_reducible assumption | with_reducible apply State.guarded_keeps
                 | with_reducible apply State.makerGateAct_keeps | intro _)

theorem State.takeConsents_keeps {s0 s : State} (h : Keeps s0 s) (a1) : Keeps s0 (State.takeConsents s a1) := by
  unfold State.takeConsents
  repeat' (first | with_reducible assumption | with_reducible apply Keeps.each
                 | with_reducible apply State.recordBy_keeps | intro _ | with_reducible apply Keeps.ite | exact le_rfl
                 | extract_lets | with_reducible apply Keeps.mk')

theorem State.diagOpenAct_keeps {s0 s : State} (h : Keeps s0 s) (a1 a2) : Keeps s0 (State.diagOpenAct s a1 a2).1 := by
  unfold State.diagOpenAct
  repeat' (first | with_reducible assumption | with_reducible apply State.takeConsents_keeps
                 | with_reducible apply State.setDiag_keeps)

theorem execDiagOpen_keeps {s t : State} (a0 a1) (h : execDiagOpen a0 a1 s = .next t) : Keeps s t := by
  unfold execDiagOpen at h
  refine perform_keeps h ?_
  have hs := Keeps.refl s
  repeat' (first | with_reducible assumption | with_reducible apply State.guarded_keeps
                 | with_reducible apply State.diagOpenAct_keeps | intro _)

theorem execConsentExpiry_keeps {s t : State} (a0) (h : execConsentExpiry a0 s = .next t) : Keeps s t := by
  unfold execConsentExpiry at h
  refine perform_keeps h ?_
  have hs := Keeps.refl s
  repeat' (first | with_reducible assumption | with_reducible apply State.reviewDiag_keeps | exact le_rfl
                 | extract_lets | with_reducible apply Keeps.mk')

theorem State.ideCommitAct_keeps {s0 s : State} (h : Keeps s0 s) (a1 a2) : Keeps s0 (State.ideCommitAct s a1 a2).1 := by
  unfold State.ideCommitAct
  repeat' (first | with_reducible assumption | with_reducible apply Keeps.on | with_reducible apply State.setFld_keeps
                 | with_reducible apply State.recordBy_keeps | with_reducible apply State.raise_keeps | intro _
                 | exact le_rfl | extract_lets y0 y1 y2 y3 y4 y5 y6 | split | (guard_target =ₛ Keeps s0 y6; unfold y6)
                 | with_reducible apply Keeps.mk')

theorem execIdeKeyCommit_keeps {s t : State} (a0 a1) (h : execIdeKeyCommit a0 a1 s = .next t) : Keeps s t := by
  unfold execIdeKeyCommit at h
  refine perform_keeps h ?_
  have hs := Keeps.refl s
  repeat' (first | with_reducible assumption | with_reducible apply State.guarded_keeps
                 | with_reducible apply State.ideCommitAct_keeps | intro _)

theorem State.ideRequireAct_keeps {s0 s : State} (h : Keeps s0 s) (a1) : Keeps s0 (State.ideRequireAct s a1).1 := by
  unfold State.ideRequireAct
  repeat' (first | with_reducible assumption | with_reducible apply State.setFld_keeps
                 | with_reducible apply State.wr_keeps)

theorem execIdeRequire_keeps {s t : State} (a0 a1) (h : execIdeRequire a0 a1 s = .next t) : Keeps s t := by
  unfold execIdeRequire at h
  refine perform_keeps h ?_
  have hs := Keeps.refl s
  repeat' (first | with_reducible assumption | with_reducible apply State.guarded_keeps
                 | with_reducible apply State.ideRequireAct_keeps | intro _)

end Sys2Proof.Machine
end

