-- ==== Sys2Proof/Laws/KeepsClaims.lean ====
section
/-!
SUPPORT. What the operations of Machine/Claims.lean keep (Laws/Keeps.lean).
-/

namespace Sys2Proof.Machine

theorem State.drawInterleave_keeps {s0 s : State} (h : Keeps s0 s) (a1) : Keeps s0 (State.drawInterleave s a1) := by
  unfold State.drawInterleave
  repeat' (first | with_reducible assumption | with_reducible apply State.drawn_keeps
                 | with_reducible apply State.modClaim_keeps)

theorem State.recordResources_keeps {s0 s : State} (h : Keeps s0 s) (a1 a2) : Keeps s0 (State.recordResources s a1 a2) := by
  unfold State.recordResources
  repeat' (first | with_reducible assumption | with_reducible apply State.record_keeps)

theorem State.applyAct_keeps {s0 s : State} (h : Keeps s0 s) (a1 a2) : Keeps s0 (State.applyAct s a1 a2).1 := by
  unfold State.applyAct
  repeat' (first | with_reducible assumption | with_reducible apply State.recordResources_keeps
                 | with_reducible apply State.raise_keeps | with_reducible apply State.setFld_keeps
                 | with_reducible apply Keeps.on | with_reducible apply State.drawInterleave_keeps
                 | with_reducible apply State.modClaim_keeps | intro _ | extract_lets | split)

theorem execApply_keeps {s t : State} (a0 a1 a2) (h : execApply a0 a1 a2 s = .next t) : Keeps s t := by
  unfold execApply at h
  refine perform_keeps h ?_
  have hs := Keeps.refl s
  repeat' (first | with_reducible assumption | with_reducible apply State.guarded_keeps
                 | with_reducible apply State.applyAct_keeps | intro _)

theorem execStripeFillDone_keeps {s t : State} (a0) (h : execStripeFillDone a0 s = .next t) : Keeps s t := by
  unfold execStripeFillDone at h
  refine perform_keeps h ?_
  have hs := Keeps.refl s
  repeat' (first | with_reducible assumption | with_reducible apply State.setFld_keeps
                 | with_reducible apply State.modClaim_keeps)

theorem State.zeroStp_keeps {s0 s : State} (h : Keeps s0 s) (a1) : Keeps s0 (State.zeroStp s a1) := by
  unfold State.zeroStp
  repeat' (first | with_reducible assumption | with_reducible apply Keeps.each | with_reducible apply State.wrB_keeps
                 | intro _)

theorem State.clearStope_keeps {s0 s : State} (h : Keeps s0 s) (a1) : Keeps s0 (State.clearStope s a1) := by
  unfold State.clearStope
  repeat' (first | with_reducible assumption | with_reducible apply State.abandonTiles_keeps
                 | with_reducible apply State.modStope_keeps | with_reducible apply State.meshDrop_keeps
                 | with_reducible apply State.setCycle_keeps | with_reducible apply State.zeroStp_keeps | extract_lets
                 | split)

theorem State.clearPrepared_keeps {s0 s : State} (h : Keeps s0 s) (a1) : Keeps s0 (State.clearPrepared s a1) := by
  unfold State.clearPrepared
  repeat' (first | with_reducible assumption | with_reducible apply State.clearStope_keeps | split)

theorem State.clearClaim_keeps {s0 s : State} (h : Keeps s0 s) (a1) : Keeps s0 (State.clearClaim s a1) := by
  unfold State.clearClaim
  repeat' (first | with_reducible assumption | with_reducible apply State.unload_keeps
                 | with_reducible apply State.dropWork_keeps | with_reducible apply Keeps.keepMem
                 | with_reducible apply State.modClaim_keeps | with_reducible apply Keeps.each
                 | with_reducible apply State.modStope_keeps | with_reducible apply State.zeroStp_keeps
                 | with_reducible apply State.setClaimState_keeps | with_reducible apply State.setFld_keeps
                 | with_reducible apply State.showLost_keeps | intro _ | exact le_rfl | extract_lets
                 | with_reducible apply Keeps.mk')

theorem State.startClearing_keeps {s0 s : State} (h : Keeps s0 s) (a1 a2) : Keeps s0 (State.startClearing s a1 a2) := by
  unfold State.startClearing
  repeat' (first | with_reducible assumption | with_reducible apply State.modClaim_keeps
                 | with_reducible apply State.setFld_keeps | with_reducible apply State.endSessions_keeps
                 | with_reducible apply State.abortJob_keeps | with_reducible apply State.clearClaim_keeps | intro _
                 | with_reducible apply Keeps.ite)

theorem State.clearWaiting_keeps {s0 s : State} (h : Keeps s0 s) : Keeps s0 (State.clearWaiting s) := by
  unfold State.clearWaiting
  repeat' (first | with_reducible assumption | with_reducible apply Keeps.each
                 | with_reducible apply State.clearClaim_keeps | intro _)

theorem State.claimCmdAct_keeps {s0 s : State} (h : Keeps s0 s) (a1 a2) : Keeps s0 (State.claimCmdAct s a1 a2).1 := by
  unfold State.claimCmdAct
  repeat' (first | with_reducible assumption | with_reducible apply State.record_keeps
                 | with_reducible apply State.startClearing_keeps | extract_lets | split)

theorem execDestroy_keeps {s t : State} (a0 a1 a2) (h : execDestroy a0 a1 a2 s = .next t) : Keeps s t := by
  unfold execDestroy at h
  refine perform_keeps h ?_
  have hs := Keeps.refl s
  repeat' (first | with_reducible assumption | with_reducible apply State.guarded_keeps
                 | with_reducible apply State.claimCmdAct_keeps | intro _)

theorem execUnbind_keeps {s t : State} (a0 a1 a2) (h : execUnbind a0 a1 a2 s = .next t) : Keeps s t := by
  unfold execUnbind at h
  refine perform_keeps h ?_
  have hs := Keeps.refl s
  repeat' (first | with_reducible assumption | with_reducible apply State.guarded_keeps
                 | with_reducible apply State.claimCmdAct_keeps | intro _)

theorem execWipe_keeps {s t : State} (a0 a1 a2) (h : execWipe a0 a1 a2 s = .next t) : Keeps s t := by
  unfold execWipe at h
  refine perform_keeps h ?_
  have hs := Keeps.refl s
  repeat' (first | with_reducible assumption | with_reducible apply State.guarded_keeps
                 | with_reducible apply State.claimCmdAct_keeps | intro _)

theorem State.giveStope_keeps {s0 s : State} (h : Keeps s0 s) (a1 a2) : Keeps s0 (State.giveStope s a1 a2) := by
  unfold State.giveStope
  repeat' (first | with_reducible assumption | with_reducible apply State.setFld_keeps | with_reducible apply Keeps.on
                 | intro _ | with_reducible apply Keeps.ite)

theorem State.setGrants_keeps {s0 s : State} (h : Keeps s0 s) (a1 a2 a3 a4 a5) : Keeps s0 (State.setGrants s a1 a2 a3 a4 a5) := by
  unfold State.setGrants
  repeat' (first | with_reducible assumption | with_reducible apply State.wr_keeps
                 | with_reducible apply State.wr64_keeps)

theorem State.dropKey_keeps {s0 s : State} (h : Keeps s0 s) (a1) : Keeps s0 (State.dropKey s a1) := by
  unfold State.dropKey
  repeat' (first | with_reducible assumption | with_reducible apply State.wrWords_keeps
                 | with_reducible apply State.modClaim_keeps)

theorem State.removeRails_keeps {s0 s : State} (h : Keeps s0 s) (a1) : Keeps s0 (State.removeRails s a1) := by
  unfold State.removeRails
  repeat' (first | with_reducible assumption | with_reducible apply State.modStope_keeps
                 | with_reducible apply State.bumpStates_keeps | with_reducible apply State.setFn_keeps | intro _
                 | with_reducible apply Keeps.ite)

theorem State.finishClearing_keeps {s0 s : State} (h : Keeps s0 s) (a1) : Keeps s0 (State.finishClearing s a1) := by
  unfold State.finishClearing
  repeat' (first | with_reducible assumption | with_reducible apply Keeps.each
                 | with_reducible apply State.clearStope_keeps | with_reducible apply State.clearPrepared_keeps
                 | with_reducible apply State.removeRails_keeps | with_reducible apply State.setSeams_keeps
                 | with_reducible apply State.setGrants_keeps | with_reducible apply State.dropKey_keeps
                 | with_reducible apply State.giveStope_keeps | with_reducible apply State.wr_keeps
                 | with_reducible apply State.drawInterleave_keeps | with_reducible apply State.setFld_keeps
                 | with_reducible apply State.record_keeps | with_reducible apply State.raise_keeps
                 | with_reducible apply State.modClaim_keeps | with_reducible apply State.setClaimState_keeps
                 | intro _ | with_reducible apply Keeps.ite | extract_lets | split)

theorem execClearDone_keeps {s t : State} (a0) (h : execClearDone a0 s = .next t) : Keeps s t := by
  unfold execClearDone at h
  refine perform_keeps h ?_
  have hs := Keeps.refl s
  repeat' (first | with_reducible assumption | with_reducible apply State.finishClearing_keeps | intro _
                 | with_reducible apply Keeps.ite)

theorem State.bindAct_keeps {s0 s : State} (h : Keeps s0 s) (a1 a2 a3) : Keeps s0 (State.bindAct s a1 a2 a3).1 := by
  unfold State.bindAct
  repeat' (first | with_reducible assumption | with_reducible apply State.record_keeps
                 | with_reducible apply State.drawInterleave_keeps | with_reducible apply State.modClaim_keeps
                 | with_reducible apply State.drawn_keeps | with_reducible apply State.wr_keeps
                 | with_reducible apply State.setClaimState_keeps | with_reducible apply State.wrWords_keeps
                 | extract_lets | split)

theorem execBind_keeps {s t : State} (a0 a1 a2) (h : execBind a0 a1 a2 s = .next t) : Keeps s t := by
  unfold execBind at h
  refine perform_keeps h ?_
  have hs := Keeps.refl s
  repeat' (first | with_reducible assumption | with_reducible apply State.guarded_keeps
                 | with_reducible apply State.bindAct_keeps | intro _)

theorem State.volatileAct_keeps {s0 s : State} (h : Keeps s0 s) (a1 a2) : Keeps s0 (State.volatileAct s a1 a2).1 := by
  unfold State.volatileAct
  repeat' (first | with_reducible assumption | with_reducible apply State.setFld_keeps
                 | with_reducible apply State.wr_keeps)

theorem execVolatile_keeps {s t : State} (a0 a1 a2) (h : execVolatile a0 a1 a2 s = .next t) : Keeps s t := by
  unfold execVolatile at h
  refine perform_keeps h ?_
  have hs := Keeps.refl s
  repeat' (first | with_reducible assumption | with_reducible apply State.guarded_keeps
                 | with_reducible apply State.volatileAct_keeps | intro _)

theorem State.applyEffect_keeps {s0 s : State} (h : Keeps s0 s) (a1) : Keeps s0 (State.applyEffect s a1) := by
  unfold State.applyEffect
  repeat' (first | with_reducible assumption | with_reducible apply Keeps.each
                 | with_reducible apply State.clearStope_keeps | with_reducible apply State.clearPrepared_keeps
                 | with_reducible apply State.setSeams_keeps | with_reducible apply State.giveStope_keeps
                 | with_reducible apply State.zeroMem_keeps | with_reducible apply State.setGrants_keeps
                 | with_reducible apply State.modClaim_keeps | with_reducible apply State.raise_keeps
                 | with_reducible apply State.recordResources_keeps | with_reducible apply Keeps.on
                 | with_reducible apply State.setFld_keeps | with_reducible apply State.setClaimState_keeps | intro _
                 | with_reducible apply Keeps.ite | extract_lets | split)

end Sys2Proof.Machine
end

