-- ==== Sys2Proof/Laws/KeepsFirmware.lean ====
section
/-!
SUPPORT. What the operations of Machine/Firmware.lean keep (Laws/Keeps.lean).
-/

namespace Sys2Proof.Machine

theorem State.setFw_keeps {s0 s : State} (h : Keeps s0 s) (a1) : Keeps s0 (State.setFw s a1) := by
  unfold State.setFw
  repeat' (first | with_reducible assumption | with_reducible apply State.setFld_keeps)

theorem State.showFw_keeps {s0 s : State} (h : Keeps s0 s) : Keeps s0 (State.showFw s) := by
  unfold State.showFw
  repeat' (first | with_reducible assumption | with_reducible apply State.wr64_keeps)

theorem State.modFw_keeps {s0 s : State} (h : Keeps s0 s) (a1) : Keeps s0 (State.modFw s a1) := by
  unfold State.modFw
  repeat' (first | with_reducible assumption | exact le_rfl | with_reducible apply Keeps.mk')

theorem State.bootFrom2_keeps {s0 s : State} (h : Keeps s0 s) (a1) : Keeps s0 (State.bootFrom2 s a1) := by
  unfold State.bootFrom2
  repeat' (first | with_reducible assumption | with_reducible apply State.wr_keeps | exact le_rfl | extract_lets
                 | with_reducible apply Keeps.mk')

theorem State.recoverWith_keeps {s0 s : State} (h : Keeps s0 s) (a1 a2) : Keeps s0 (State.recoverWith s a1 a2) := by
  unfold State.recoverWith
  repeat' (first | with_reducible assumption | with_reducible apply State.modFw_keeps
                 | with_reducible apply State.count_keeps | with_reducible apply State.setFw_keeps
                 | with_reducible apply State.showFw_keeps | with_reducible apply State.bootFrom2_keeps
                 | with_reducible apply State.record_keeps | with_reducible apply State.raise_keeps)

theorem State.stageCmdAct_keeps {s0 s : State} (h : Keeps s0 s) (a1) : Keeps s0 (State.stageCmdAct s a1).1 := by
  unfold State.stageCmdAct
  repeat' (first | with_reducible assumption | with_reducible apply State.wr64_keeps
                 | with_reducible apply State.wr_keeps | with_reducible apply State.modFw_keeps
                 | with_reducible apply State.setFw_keeps | extract_lets | split)

theorem execStageBegin_keeps {s t : State} (a0 a1) (h : execStageBegin a0 a1 s = .next t) : Keeps s t := by
  unfold execStageBegin at h
  refine perform_keeps h ?_
  have hs := Keeps.refl s
  repeat' (first | with_reducible assumption | with_reducible apply State.written_keeps
                 | with_reducible apply State.stageCmdAct_keeps | intro _)

theorem execStageDiscard_keeps {s t : State} (a0 a1) (h : execStageDiscard a0 a1 s = .next t) : Keeps s t := by
  unfold execStageDiscard at h
  refine perform_keeps h ?_
  have hs := Keeps.refl s
  repeat' (first | with_reducible assumption | with_reducible apply State.written_keeps
                 | with_reducible apply State.stageCmdAct_keeps | intro _)

theorem State.rewriteFlash_keeps {s0 s : State} (h : Keeps s0 s) : Keeps s0 (State.rewriteFlash s) := by
  unfold State.rewriteFlash
  repeat' (first | with_reducible assumption | with_reducible apply State.modFw_keeps
                 | with_reducible apply State.setFw_keeps)

theorem State.verifyStaged_keeps {s0 s : State} (h : Keeps s0 s) : Keeps s0 (State.verifyStaged s) := by
  unfold State.verifyStaged
  repeat' (first | with_reducible assumption | with_reducible apply State.record_keeps
                 | with_reducible apply State.raise_keeps | with_reducible apply State.modFw_keeps
                 | with_reducible apply State.setFld_keeps | with_reducible apply State.setFw_keeps
                 | with_reducible apply State.recoverWith_keeps | with_reducible apply State.rewriteFlash_keeps
                 | with_reducible apply State.wr64_keeps | intro _ | with_reducible apply Keeps.ite)

theorem execFwVerify_keeps {s t : State} (h : execFwVerify s = .next t) : Keeps s t := by
  unfold execFwVerify at h
  refine perform_keeps h ?_
  have hs := Keeps.refl s
  repeat' (first | with_reducible assumption | with_reducible apply State.verifyStaged_keeps)

theorem State.recordSwitch_keeps {s0 s : State} (h : Keeps s0 s) (a1 a2 a3) : Keeps s0 (State.recordSwitch s a1 a2 a3) := by
  unfold State.recordSwitch
  repeat' (first | with_reducible assumption | with_reducible apply State.record_keeps)

theorem State.fwCommitAct_keeps {s0 s : State} (h : Keeps s0 s) (a1) : Keeps s0 (State.fwCommitAct s a1).1 := by
  unfold State.fwCommitAct
  repeat' (first | with_reducible assumption | with_reducible apply State.recordSwitch_keeps
                 | with_reducible apply State.modFw_keeps | with_reducible apply State.setFw_keeps | split)

theorem execFwCommit_keeps {s t : State} (a0 a1) (h : execFwCommit a0 a1 s = .next t) : Keeps s t := by
  unfold execFwCommit at h
  refine perform_keeps h ?_
  have hs := Keeps.refl s
  repeat' (first | with_reducible assumption | with_reducible apply State.guarded_keeps
                 | with_reducible apply State.fwCommitAct_keeps | intro _)

theorem State.takeover1_keeps {s0 s : State} (h : Keeps s0 s) : Keeps s0 (State.takeover1 s) := by
  unfold State.takeover1
  repeat' (first | with_reducible assumption | with_reducible apply State.modFw_keeps
                 | with_reducible apply State.recordSwitch_keeps | with_reducible apply State.setFld_keeps
                 | with_reducible apply State.showFw_keeps | intro _ | with_reducible apply Keeps.ite | extract_lets
                 | ((conv => arg 2; zeta); split))

theorem execStandbyBooted_keeps {s t : State} (h : execStandbyBooted s = .next t) : Keeps s t := by
  unfold execStandbyBooted at h
  refine perform_keeps h ?_
  have hs := Keeps.refl s
  repeat' (first | with_reducible assumption | with_reducible apply State.takeover1_keeps)

theorem State.bootTimeout_keeps {s0 s : State} (h : Keeps s0 s) : Keeps s0 (State.bootTimeout s) := by
  unfold State.bootTimeout
  repeat' (first | with_reducible assumption | with_reducible apply State.modFw_keeps
                 | with_reducible apply State.setFw_keeps | with_reducible apply State.record_keeps
                 | with_reducible apply State.setFld_keeps | intro _ | with_reducible apply Keeps.ite)

theorem execStandbyBootTimeout_keeps {s t : State} (h : execStandbyBootTimeout s = .next t) : Keeps s t := by
  unfold execStandbyBootTimeout at h
  refine perform_keeps h ?_
  have hs := Keeps.refl s
  repeat' (first | with_reducible assumption | with_reducible apply State.bootTimeout_keeps)

theorem State.takeover2_keeps {s0 s : State} (h : Keeps s0 s) : Keeps s0 (State.takeover2 s) := by
  unfold State.takeover2
  repeat' (first | with_reducible assumption | with_reducible apply State.setFld_keeps
                 | with_reducible apply State.modFw_keeps | with_reducible apply State.recordSwitch_keeps
                 | with_reducible apply State.raise_keeps | with_reducible apply State.setFw_keeps | intro _
                 | with_reducible apply Keeps.ite)

theorem execPairCurrent_keeps {s t : State} (h : execPairCurrent s = .next t) : Keeps s t := by
  unfold execPairCurrent at h
  refine perform_keeps h ?_
  have hs := Keeps.refl s
  repeat' (first | with_reducible assumption | with_reducible apply State.takeover2_keeps)

theorem execProbationEnd_keeps {s t : State} (h : execProbationEnd s = .next t) : Keeps s t := by
  unfold execProbationEnd at h
  refine perform_keeps h ?_
  have hs := Keeps.refl s
  repeat' (first | with_reducible assumption | with_reducible apply State.modFw_keeps
                 | with_reducible apply State.setFw_keeps | intro _ | with_reducible apply Keeps.ite)

theorem State.flashDone_keeps {s0 s : State} (h : Keeps s0 s) (a1) : Keeps s0 (State.flashDone s a1) := by
  unfold State.flashDone
  repeat' (first | with_reducible assumption | with_reducible apply State.modFw_keeps
                 | with_reducible apply State.setFw_keeps | with_reducible apply State.record_keeps
                 | with_reducible apply State.raise_keeps | with_reducible apply State.count_keeps | intro _
                 | with_reducible apply Keeps.ite)

theorem execFlashWriteDone_keeps {s t : State} (a0) (h : execFlashWriteDone a0 s = .next t) : Keeps s t := by
  unfold execFlashWriteDone at h
  refine perform_keeps h ?_
  have hs := Keeps.refl s
  repeat' (first | with_reducible assumption | with_reducible apply State.flashDone_keeps)

theorem State.fwRevertAct_keeps {s0 s : State} (h : Keeps s0 s) (a1) : Keeps s0 (State.fwRevertAct s a1).1 := by
  unfold State.fwRevertAct
  repeat' (first | with_reducible assumption | with_reducible apply State.recordSwitch_keeps
                 | with_reducible apply State.modFw_keeps | with_reducible apply State.setFw_keeps | split)

theorem execFwRevert_keeps {s t : State} (a0 a1) (h : execFwRevert a0 a1 s = .next t) : Keeps s t := by
  unfold execFwRevert at h
  refine perform_keeps h ?_
  have hs := Keeps.refl s
  repeat' (first | with_reducible assumption | with_reducible apply State.guarded_keeps
                 | with_reducible apply State.fwRevertAct_keeps | intro _)

theorem State.fuseBurnAct_keeps {s0 s : State} (h : Keeps s0 s) (a1) : Keeps s0 (State.fuseBurnAct s a1).1 := by
  unfold State.fuseBurnAct
  repeat' (first | with_reducible assumption | with_reducible apply State.record_keeps
                 | with_reducible apply State.wr64_keeps | extract_lets | split)

theorem execFuseBurn_keeps {s t : State} (a0 a1) (h : execFuseBurn a0 a1 s = .next t) : Keeps s t := by
  unfold execFuseBurn at h
  refine perform_keeps h ?_
  have hs := Keeps.refl s
  repeat' (first | with_reducible assumption | with_reducible apply State.guarded_keeps
                 | with_reducible apply State.fuseBurnAct_keeps | intro _)

end Sys2Proof.Machine
end

