-- ==== Sys2Proof/Laws/KeepsHostPorts.lean ====
section
/-!
SUPPORT. What the operations of Machine/HostPorts.lean keep (Laws/Keeps.lean).
-/

namespace Sys2Proof.Machine

theorem State.completerAbort_keeps {s0 s : State} (h : Keeps s0 s) (a1) : Keeps s0 (State.completerAbort s a1) := by
  unfold State.completerAbort
  repeat' (first | with_reducible assumption | with_reducible apply Keeps.on
                 | with_reducible apply State.respond_keeps | with_reducible apply State.count_keeps | intro _)

theorem State.resetPort_keeps {s0 s : State} (h : Keeps s0 s) (a1 a2) : Keeps s0 (State.resetPort s a1 a2) := by
  unfold State.resetPort
  repeat' (first | with_reducible assumption | with_reducible apply State.endSession_keeps
                 | with_reducible apply Keeps.each | with_reducible apply State.strmEnd_keeps
                 | with_reducible apply State.wrWords_keeps | with_reducible apply Keeps.on
                 | with_reducible apply State.setFld_keeps | with_reducible apply Keeps.keepRegs
                 | with_reducible apply State.wr_keeps | intro _ | exact le_rfl | extract_lets
                 | with_reducible apply Keeps.mk')

theorem State.declareLost_keeps {s0 s : State} (h : Keeps s0 s) (a1 a2 a3 a4) : Keeps s0 (State.declareLost s a1 a2 a3 a4) := by
  unfold State.declareLost
  repeat' (first | with_reducible assumption | with_reducible apply State.record_keeps
                 | with_reducible apply State.raise_keeps | with_reducible apply State.count_keeps
                 | with_reducible apply State.setFld_keeps)

theorem execPerst_keeps {s t : State} (a0) (h : execPerst a0 s = .next t) : Keeps s t := by
  unfold execPerst at h
  refine perform_keeps h ?_
  have hs := Keeps.refl s
  repeat' (first | with_reducible assumption | with_reducible apply State.declareLost_keeps
                 | with_reducible apply State.resetPort_keeps)

theorem execHotReset_keeps {s t : State} (a0) (h : execHotReset a0 s = .next t) : Keeps s t := by
  unfold execHotReset at h
  refine perform_keeps h ?_
  have hs := Keeps.refl s
  repeat' (first | with_reducible assumption | with_reducible apply State.resetPort_keeps)

theorem execFunctionLevelReset_keeps {s t : State} (a0) (h : execFunctionLevelReset a0 s = .next t) : Keeps s t := by
  unfold execFunctionLevelReset at h
  refine perform_keeps h ?_
  have hs := Keeps.refl s
  repeat' (first | with_reducible assumption | with_reducible apply State.resetPort_keeps)

theorem State.noteCut_keeps {s0 s : State} (h : Keeps s0 s) (a1 a2) : Keeps s0 (State.noteCut s a1 a2) := by
  unfold State.noteCut
  repeat' (first | with_reducible assumption | with_reducible apply State.modSess_keeps)

theorem State.linkFalls_keeps {s0 s : State} (h : Keeps s0 s) (a1) : Keeps s0 (State.linkFalls s a1) := by
  unfold State.linkFalls
  repeat' (first | with_reducible assumption | with_reducible apply State.noteCut_keeps
                 | with_reducible apply State.resetPort_keeps)

theorem execLinkDown_keeps {s t : State} (a0) (h : execLinkDown a0 s = .next t) : Keeps s t := by
  unfold execLinkDown at h
  refine perform_keeps h ?_
  have hs := Keeps.refl s
  repeat' (first | with_reducible assumption | with_reducible apply State.linkFalls_keeps)

theorem execPerstRelease_keeps {s t : State} (a0) (h : execPerstRelease a0 s = .next t) : Keeps s t := by
  unfold execPerstRelease at h
  refine perform_keeps h ?_
  have hs := Keeps.refl s
  repeat' (first | with_reducible assumption | with_reducible apply State.setFld_keeps)

theorem State.linkActive_keeps {s0 s : State} (h : Keeps s0 s) (a1 a2 a3 a4) : Keeps s0 (State.linkActive s a1 a2 a3 a4) := by
  unfold State.linkActive
  repeat' (first | with_reducible assumption | with_reducible apply State.wr_keeps
                 | with_reducible apply State.record_keeps | with_reducible apply State.raise_keeps
                 | with_reducible apply State.count_keeps | with_reducible apply State.noteCut_keeps
                 | with_reducible apply Keeps.on | intro _ | with_reducible apply Keeps.ite)

theorem execLinkUp_keeps {s t : State} (a0 a1 a2 a3) (h : execLinkUp a0 a1 a2 a3 s = .next t) : Keeps s t := by
  unfold execLinkUp at h
  refine perform_keeps h ?_
  have hs := Keeps.refl s
  repeat' (first | with_reducible assumption | with_reducible apply State.linkActive_keeps)

theorem execHostLost_keeps {s t : State} (a0) (h : execHostLost a0 s = .next t) : Keeps s t := by
  unfold execHostLost at h
  refine perform_keeps h ?_
  have hs := Keeps.refl s
  repeat' (first | with_reducible assumption | with_reducible apply State.declareLost_keeps
                 | with_reducible apply State.noteCut_keeps | with_reducible apply State.endSession_keeps | intro _
                 | with_reducible apply Keeps.ite)

theorem execD3hotEntry_keeps {s t : State} (a0) (h : execD3hotEntry a0 s = .next t) : Keeps s t := by
  unfold execD3hotEntry at h
  refine perform_keeps h ?_
  have hs := Keeps.refl s
  repeat' (first | with_reducible assumption | with_reducible apply State.setFld_keeps)

theorem execD0Return_keeps {s t : State} (a0) (h : execD0Return a0 s = .next t) : Keeps s t := by
  unfold execD0Return at h
  refine perform_keeps h ?_
  have hs := Keeps.refl s
  repeat' (first | with_reducible assumption | with_reducible apply State.setFld_keeps)

theorem execUnsupportedRequest_keeps {s t : State} (a0 a1 a2) (h : execUnsupportedRequest a0 a1 a2 s = .next t) : Keeps s t := by
  unfold execUnsupportedRequest at h
  refine perform_keeps h ?_
  have hs := Keeps.refl s
  repeat' (first | with_reducible assumption | with_reducible apply State.record_keeps
                 | with_reducible apply State.count_keeps | with_reducible apply State.respond_keeps | split)

theorem execMsiHoldoffEnd_keeps {s t : State} (a0 a1) (h : execMsiHoldoffEnd a0 a1 s = .next t) : Keeps s t := by
  unfold execMsiHoldoffEnd at h
  refine perform_keeps h ?_
  have hs := Keeps.refl s
  repeat' (first | with_reducible assumption | with_reducible apply State.setMsi_keeps | intro _
                 | with_reducible apply Keeps.ite)

theorem State.bindSetAct_keeps {s0 s : State} (h : Keeps s0 s) (a1 a2) : Keeps s0 (State.bindSetAct s a1 a2).1 := by
  unfold State.bindSetAct
  repeat' (first | with_reducible assumption | with_reducible apply State.setFld_keeps | with_reducible apply Keeps.on
                 | with_reducible apply State.endSession_keeps | with_reducible apply State.record_keeps
                 | with_reducible apply State.raise_keeps | intro _ | with_reducible apply Keeps.ite | extract_lets
                 | split)

theorem execBindSet_keeps {s t : State} (a0 a1 a2) (h : execBindSet a0 a1 a2 s = .next t) : Keeps s t := by
  unfold execBindSet at h
  refine perform_keeps h ?_
  have hs := Keeps.refl s
  repeat' (first | with_reducible assumption | with_reducible apply State.guarded_keeps
                 | with_reducible apply State.bindSetAct_keeps | intro _)

theorem State.ideFailure_keeps {s0 s : State} (h : Keeps s0 s) (a1 a2) : Keeps s0 (State.ideFailure s a1 a2) := by
  unfold State.ideFailure
  repeat' (first | with_reducible assumption | with_reducible apply State.setFld_keeps | with_reducible apply Keeps.on
                 | with_reducible apply State.endSession_keeps | with_reducible apply State.record_keeps
                 | with_reducible apply State.raise_keeps | with_reducible apply State.count_keeps | intro _
                 | exact le_rfl | extract_lets | with_reducible apply Keeps.mk')

theorem execIdeFail_keeps {s t : State} (a0 a1) (h : execIdeFail a0 a1 s = .next t) : Keeps s t := by
  unfold execIdeFail at h
  refine perform_keeps h ?_
  have hs := Keeps.refl s
  repeat' (first | with_reducible assumption | with_reducible apply State.ideFailure_keeps)

end Sys2Proof.Machine
end

