-- ==== Sys2Proof/Laws/KeepsRecording.lean ====
section
/-!
SUPPORT. What the operations of Machine/Recording.lean keep (Laws/Keeps.lean).
-/

namespace Sys2Proof.Machine

theorem State.showStores_keeps {s0 s : State} (h : Keeps s0 s) : Keeps s0 (State.showStores s) := by
  unfold State.showStores
  repeat' (first | with_reducible assumption | with_reducible apply State.wr_keeps)

theorem State.admitRec_keeps {s0 s : State} (h : Keeps s0 s) (a1) : Keeps s0 (State.admitRec s a1) := by
  unfold State.admitRec
  repeat' (first | with_reducible assumption | with_reducible apply State.wr64_keeps
                 | with_reducible apply State.wr_keeps | with_reducible apply Keeps.on
                 | with_reducible apply State.raise_keeps | with_reducible apply State.showStores_keeps | intro _
                 | exact le_rfl | extract_lets | split | with_reducible apply Keeps.mk')

theorem State.withhold_keeps {s0 s : State} (h : Keeps s0 s) (a1) : Keeps s0 (State.withhold s a1) := by
  unfold State.withhold
  repeat' (first | with_reducible assumption | with_reducible apply State.wr64_keeps | exact le_rfl | extract_lets
                 | with_reducible apply Keeps.mk')

theorem State.admitQueueFull_keeps {s0 s : State} (h : Keeps s0 s) : Keeps s0 (State.admitQueueFull s) := by
  unfold State.admitQueueFull
  repeat' (first | with_reducible assumption | with_reducible apply State.raise_keeps
                 | with_reducible apply State.admitRec_keeps | intro _ | with_reducible apply Keeps.ite | exact le_rfl
                 | extract_lets | with_reducible apply Keeps.mk')

theorem State.admitFront_keeps {s0 s : State} (h : Keeps s0 s) : Keeps s0 (State.admitFront s) := by
  unfold State.admitFront
  repeat' (first | with_reducible assumption | with_reducible apply State.setFld_keeps
                 | with_reducible apply State.admitRec_keeps | with_reducible apply State.admitQueueFull_keeps
                 | with_reducible apply State.withhold_keeps | intro _ | with_reducible apply Keeps.ite | exact le_rfl
                 | extract_lets y0 | split | (guard_target =ₛ Keeps s0 y0; unfold y0)
                 | with_reducible apply Keeps.mk')

theorem State.dropTorn_keeps {s0 s : State} (h : Keeps s0 s) : Keeps s0 (State.dropTorn s) := by
  unfold State.dropTorn
  repeat' (first | with_reducible assumption | with_reducible apply State.record_keeps | exact le_rfl | extract_lets
                 | split | with_reducible apply Keeps.mk')

theorem execRecordAdmit_keeps {s t : State} (h : execRecordAdmit s = .next t) : Keeps s t := by
  unfold execRecordAdmit at h
  refine perform_keeps h ?_
  have hs := Keeps.refl s
  repeat' (first | with_reducible assumption | with_reducible apply State.admitFront_keeps)

theorem State.archiveMove_keeps {s0 s : State} (h : Keeps s0 s) : Keeps s0 (State.archiveMove s) := by
  unfold State.archiveMove
  repeat' (first | with_reducible assumption | with_reducible apply Keeps.on | with_reducible apply State.record_keeps
                 | with_reducible apply State.raise_keeps | with_reducible apply State.wr64_keeps
                 | with_reducible apply State.showStores_keeps | intro _ | with_reducible apply Keeps.ite
                 | exact le_rfl | extract_lets | split | with_reducible apply Keeps.mk')

theorem execArchiveSegment_keeps {s t : State} (h : execArchiveSegment s = .next t) : Keeps s t := by
  unfold execArchiveSegment at h
  refine perform_keeps h ?_
  have hs := Keeps.refl s
  repeat' (first | with_reducible assumption | with_reducible apply State.archiveMove_keeps)

theorem State.meetDamaged_keeps {s0 s : State} (h : Keeps s0 s) (a1 a2) : Keeps s0 (State.meetDamaged s a1 a2) := by
  unfold State.meetDamaged
  repeat' (first | with_reducible assumption | with_reducible apply State.record_keeps
                 | with_reducible apply State.raise_keeps | with_reducible apply State.wr64_keeps | intro _
                 | with_reducible apply Keeps.ite)

end Sys2Proof.Machine
end

