-- ==== Sys2Proof/Laws/KeepsPower.lean ====
section
/-!
SUPPORT. What the operations of Machine/Power.lean keep (Laws/Keeps.lean).
-/

namespace Sys2Proof.Machine

theorem State.modPwr_keeps {s0 s : State} (h : Keeps s0 s) (a1) : Keeps s0 (State.modPwr s a1) := by
  unfold State.modPwr
  repeat' (first | with_reducible assumption | exact le_rfl | with_reducible apply Keeps.mk')

theorem State.losePower_keeps {s0 s : State} (h : Keeps s0 s) : Keeps s0 (State.losePower s) := by
  unfold State.losePower
  repeat' (first | with_reducible assumption | with_reducible apply Keeps.keepRegs
                 | with_reducible apply Keeps.keepMem | with_reducible apply State.setFld_keeps
                 | with_reducible apply Keeps.on | with_reducible apply Keeps.each | intro _
                 | exact Nat.le_add_right _ _ | extract_lets | with_reducible apply Keeps.mk')

theorem State.clampOn_keeps {s0 s : State} (h : Keeps s0 s) (a1) : Keeps s0 (State.clampOn s a1) := by
  unfold State.clampOn
  repeat' (first | with_reducible assumption | with_reducible apply State.modPwr_keeps
                 | with_reducible apply State.record_keeps | with_reducible apply State.raise_keeps
                 | with_reducible apply State.setFld_keeps | intro _ | with_reducible apply Keeps.ite)

theorem State.clampOff_keeps {s0 s : State} (h : Keeps s0 s) (a1) : Keeps s0 (State.clampOff s a1) := by
  unfold State.clampOff
  repeat' (first | with_reducible assumption | with_reducible apply State.modPwr_keeps
                 | with_reducible apply State.setFld_keeps | with_reducible apply State.record_keeps
                 | with_reducible apply State.raise_keeps | with_reducible apply State.count_keeps | intro _
                 | with_reducible apply Keeps.ite | extract_lets | ((conv => arg 2; zeta); split))

theorem State.recompute_keeps {s0 s : State} (h : Keeps s0 s) : Keeps s0 (State.recompute s) := by
  unfold State.recompute
  repeat' (first | with_reducible assumption | with_reducible apply State.wr_keeps
                 | with_reducible apply State.record_keeps | with_reducible apply State.raise_keeps
                 | with_reducible apply State.modPwr_keeps | intro _ | with_reducible apply Keeps.ite)

theorem State.inputGone_keeps {s0 s : State} (h : Keeps s0 s) (a1) : Keeps s0 (State.inputGone s a1) := by
  unfold State.inputGone
  repeat' (first | with_reducible assumption | with_reducible apply State.losePower_keeps | intro _
                 | with_reducible apply Keeps.ite | exact le_rfl | extract_lets | with_reducible apply Keeps.mk')

theorem execInputStateChange_keeps {s t : State} (a0) (h : execInputStateChange a0 s = .next t) : Keeps s t := by
  unfold execInputStateChange at h
  refine perform_keeps h ?_
  have hs := Keeps.refl s
  repeat' (first | with_reducible assumption | with_reducible apply State.modPwr_keeps
                 | with_reducible apply State.recompute_keeps | with_reducible apply State.record_keeps
                 | with_reducible apply State.raise_keeps | with_reducible apply State.setFld_keeps
                 | with_reducible apply Keeps.on | with_reducible apply State.inputGone_keeps | intro _
                 | with_reducible apply Keeps.ite | extract_lets | split)

theorem execInputOver_keeps {s t : State} (a0) (h : execInputOver a0 s = .next t) : Keeps s t := by
  unfold execInputOver at h
  refine perform_keeps h ?_
  have hs := Keeps.refl s
  repeat' (first | with_reducible assumption | with_reducible apply State.losePower_keeps | exact le_rfl
                 | extract_lets | with_reducible apply Keeps.mk')

theorem State.powerFails_keeps {s0 s : State} (h : Keeps s0 s) (a1 a2) : Keeps s0 (State.powerFails s a1 a2) := by
  unfold State.powerFails
  repeat' (first | with_reducible assumption | with_reducible apply State.setFld_keeps
                 | with_reducible apply State.modPwr_keeps | with_reducible apply State.clampOn_keeps
                 | with_reducible apply State.record_keeps | with_reducible apply State.raise_keeps
                 | with_reducible apply Keeps.each | with_reducible apply State.dropWork_keeps
                 | with_reducible apply State.unsound_keeps | with_reducible apply State.inputGone_keeps
                 | with_reducible apply State.admitRec_keeps | with_reducible apply State.count_keeps | intro _
                 | exact le_rfl | extract_lets | with_reducible apply Keeps.mk')

theorem execPowerFail_keeps {s t : State} (a0 a1) (h : execPowerFail a0 a1 s = .next t) : Keeps s t := by
  unfold execPowerFail at h
  refine perform_keeps h ?_
  have hs := Keeps.refl s
  repeat' (first | with_reducible assumption | with_reducible apply State.powerFails_keeps | intro _
                 | with_reducible apply Keeps.ite)

theorem State.convFails_keeps {s0 s : State} (h : Keeps s0 s) (a1 a2) : Keeps s0 (State.convFails s a1 a2) := by
  unfold State.convFails
  repeat' (first | with_reducible assumption | with_reducible apply State.raise_keeps
                 | with_reducible apply State.count_keeps | with_reducible apply State.wr_keeps
                 | with_reducible apply State.recompute_keeps | with_reducible apply State.record_keeps
                 | with_reducible apply Keeps.on | with_reducible apply State.clampOn_keeps
                 | with_reducible apply State.setFn_keeps | intro _ | with_reducible apply Keeps.ite)

theorem State.replan_keeps {s0 s : State} (h : Keeps s0 s) (a1 a2 a3 a4 a5 a6) : Keeps s0 (State.replan s a1 a2 a3 a4 a5 a6) := by
  unfold State.replan
  repeat' (first | with_reducible assumption | with_reducible apply State.record_keeps
                 | with_reducible apply State.stageEvent_keeps | with_reducible apply State.count_keeps)

theorem execSpareRotate_keeps {s t : State} (a0 a1) (h : execSpareRotate a0 a1 s = .next t) : Keeps s t := by
  unfold execSpareRotate at h
  refine perform_keeps h ?_
  have hs := Keeps.refl s
  repeat' (first | with_reducible assumption | with_reducible apply State.wr_keeps
                 | with_reducible apply State.recompute_keeps | with_reducible apply State.replan_keeps | intro _
                 | with_reducible apply Keeps.ite)

theorem State.rowShort_keeps {s0 s : State} (h : Keeps s0 s) (a1) : Keeps s0 (State.rowShort s a1) := by
  unfold State.rowShort
  repeat' (first | with_reducible assumption | with_reducible apply State.modPwr_keeps
                 | with_reducible apply Keeps.each | with_reducible apply State.propose_keeps
                 | with_reducible apply State.modStope_keeps | with_reducible apply State.setFn_keeps | intro _
                 | with_reducible apply Keeps.ite)

theorem State.phaseFails_keeps {s0 s : State} (h : Keeps s0 s) (a1 a2) : Keeps s0 (State.phaseFails s a1 a2) := by
  unfold State.phaseFails
  repeat' (first | with_reducible assumption | with_reducible apply State.modPwr_keeps
                 | with_reducible apply State.raise_keeps | with_reducible apply State.count_keeps
                 | with_reducible apply State.wr_keeps | with_reducible apply State.record_keeps
                 | with_reducible apply State.rowShort_keeps | intro _ | with_reducible apply Keeps.ite | extract_lets
                 | split | ((conv => arg 2; zeta); split))

theorem execPhaseFail_keeps {s t : State} (a0 a1) (h : execPhaseFail a0 a1 s = .next t) : Keeps s t := by
  unfold execPhaseFail at h
  refine perform_keeps h ?_
  have hs := Keeps.refl s
  repeat' (first | with_reducible assumption | with_reducible apply State.phaseFails_keeps)

theorem State.phaseRetireAct_keeps {s0 s : State} (h : Keeps s0 s) (a1) : Keeps s0 (State.phaseRetireAct s a1).1 := by
  unfold State.phaseRetireAct
  repeat' (first | with_reducible assumption | with_reducible apply State.phaseFails_keeps | extract_lets | split)

theorem execPhaseRetire_keeps {s t : State} (a0 a1) (h : execPhaseRetire a0 a1 s = .next t) : Keeps s t := by
  unfold execPhaseRetire at h
  refine perform_keeps h ?_
  have hs := Keeps.refl s
  repeat' (first | with_reducible assumption | with_reducible apply State.guarded_keeps
                 | with_reducible apply State.phaseRetireAct_keeps | intro _)

theorem State.setClamped_keeps {s0 s : State} (h : Keeps s0 s) (a1 a2) : Keeps s0 (State.setClamped s a1 a2) := by
  unfold State.setClamped
  repeat' (first | with_reducible assumption | with_reducible apply State.wr_keeps
                 | with_reducible apply State.modStope_keeps | intro _ | with_reducible apply Keeps.ite)

theorem execSensorInvalid_keeps {s t : State} (a0 a1) (h : execSensorInvalid a0 a1 s = .next t) : Keeps s t := by
  unfold execSensorInvalid at h
  refine perform_keeps h ?_
  have hs := Keeps.refl s
  repeat' (first | with_reducible assumption | with_reducible apply State.modStope_keeps
                 | with_reducible apply State.record_keeps | with_reducible apply State.raise_keeps
                 | with_reducible apply State.count_keeps | with_reducible apply State.propose_keeps
                 | with_reducible apply State.setClamped_keeps | intro _ | with_reducible apply Keeps.ite)

theorem execSensorValid_keeps {s t : State} (a0 a1) (h : execSensorValid a0 a1 s = .next t) : Keeps s t := by
  unfold execSensorValid at h
  refine perform_keeps h ?_
  have hs := Keeps.refl s
  repeat' (first | with_reducible assumption | with_reducible apply State.modStope_keeps
                 | with_reducible apply State.record_keeps | with_reducible apply State.raise_keeps
                 | with_reducible apply State.setClamped_keeps | intro _ | with_reducible apply Keeps.ite)

theorem State.mainsEnds_keeps {s0 s : State} (h : Keeps s0 s) (a1) : Keeps s0 (State.mainsEnds s a1) := by
  unfold State.mainsEnds
  repeat' (first | with_reducible assumption | with_reducible apply State.modPwr_keeps
                 | with_reducible apply State.wr_keeps | with_reducible apply State.record_keeps
                 | with_reducible apply State.raise_keeps | with_reducible apply State.setFld_keeps
                 | with_reducible apply Keeps.on | with_reducible apply State.recompute_keeps
                 | with_reducible apply State.clampOn_keeps | intro _ | with_reducible apply Keeps.ite)

theorem execMainsWindow_keeps {s t : State} (a0) (h : execMainsWindow a0 s = .next t) : Keeps s t := by
  unfold execMainsWindow at h
  refine perform_keeps h ?_
  have hs := Keeps.refl s
  repeat' (first | with_reducible assumption | with_reducible apply State.mainsEnds_keeps)

theorem State.setSensor_keeps {s0 s : State} (h : Keeps s0 s) (a1 a2 a3 a4 a5) : Keeps s0 (State.setSensor s a1 a2 a3 a4 a5) := by
  unfold State.setSensor
  repeat' (first | with_reducible assumption | with_reducible apply State.modPwr_keeps)

theorem State.recordThermal_keeps {s0 s : State} (h : Keeps s0 s) (a1 a2 a3 a4) : Keeps s0 (State.recordThermal s a1 a2 a3 a4) := by
  unfold State.recordThermal
  repeat' (first | with_reducible assumption | with_reducible apply State.record_keeps)

theorem execThermalWarn_keeps {s t : State} (a0 a1 a2) (h : execThermalWarn a0 a1 a2 s = .next t) : Keeps s t := by
  unfold execThermalWarn at h
  refine perform_keeps h ?_
  have hs := Keeps.refl s
  repeat' (first | with_reducible assumption | with_reducible apply State.setSensor_keeps
                 | with_reducible apply State.recordThermal_keeps | with_reducible apply State.raise_keeps
                 | with_reducible apply State.count_keeps | intro _ | with_reducible apply Keeps.ite)

theorem execThermalClamp_keeps {s t : State} (a0 a1 a2) (h : execThermalClamp a0 a1 a2 s = .next t) : Keeps s t := by
  unfold execThermalClamp at h
  refine perform_keeps h ?_
  have hs := Keeps.refl s
  repeat' (first | with_reducible assumption | with_reducible apply State.setSensor_keeps
                 | with_reducible apply State.recordThermal_keeps | with_reducible apply State.raise_keeps
                 | with_reducible apply State.count_keeps | with_reducible apply State.setClamped_keeps
                 | with_reducible apply State.clampOn_keeps | intro _ | with_reducible apply Keeps.ite | extract_lets
                 | split)

theorem execThermalClampEnd_keeps {s t : State} (a0 a1 a2) (h : execThermalClampEnd a0 a1 a2 s = .next t) : Keeps s t := by
  unfold execThermalClampEnd at h
  refine perform_keeps h ?_
  have hs := Keeps.refl s
  repeat' (first | with_reducible assumption | with_reducible apply State.setSensor_keeps
                 | with_reducible apply State.recordThermal_keeps | with_reducible apply State.setClamped_keeps
                 | with_reducible apply Keeps.on | with_reducible apply State.clampOff_keeps | intro _
                 | with_reducible apply Keeps.ite | extract_lets | split)

theorem State.loseUnits_keeps {s0 s : State} (h : Keeps s0 s) : Keeps s0 (State.loseUnits s) := by
  unfold State.loseUnits
  repeat' (first | with_reducible assumption | with_reducible apply Keeps.each
                 | with_reducible apply State.linkFalls_keeps | with_reducible apply State.unload_keeps
                 | with_reducible apply State.dropWork_keeps | with_reducible apply Keeps.keepMem | intro _
                 | exact le_rfl | extract_lets | with_reducible apply Keeps.mk')

theorem State.trips_keeps {s0 s : State} (h : Keeps s0 s) (a1 a2 a3) : Keeps s0 (State.trips s a1 a2 a3) := by
  unfold State.trips
  repeat' (first | with_reducible assumption | with_reducible apply State.modPwr_keeps
                 | with_reducible apply State.setFld_keeps | with_reducible apply State.setSensor_keeps
                 | with_reducible apply Keeps.each | with_reducible apply State.setFn_keeps
                 | with_reducible apply State.loseUnits_keeps | with_reducible apply State.record_keeps
                 | with_reducible apply State.losePower_keeps | intro _ | with_reducible apply Keeps.ite
                 | exact le_rfl | extract_lets | with_reducible apply Keeps.mk')

theorem State.tripClearAct_keeps {s0 s : State} (h : Keeps s0 s) (a1) : Keeps s0 (State.tripClearAct s a1).1 := by
  unfold State.tripClearAct
  repeat' (first | with_reducible assumption | with_reducible apply State.modPwr_keeps
                 | with_reducible apply State.setFld_keeps | with_reducible apply Keeps.each
                 | with_reducible apply State.setFn_keeps | intro _ | exact le_rfl | extract_lets | split
                 | with_reducible apply Keeps.mk')

theorem execTripClear_keeps {s t : State} (a0 a1) (h : execTripClear a0 a1 s = .next t) : Keeps s t := by
  unfold execTripClear at h
  refine perform_keeps h ?_
  have hs := Keeps.refl s
  repeat' (first | with_reducible assumption | with_reducible apply State.guarded_keeps
                 | with_reducible apply State.tripClearAct_keeps | intro _)

theorem execGovBudget_keeps {s t : State} (a0 a1) (h : execGovBudget a0 a1 s = .next t) : Keeps s t := by
  unfold execGovBudget at h
  refine perform_keeps h ?_
  have hs := Keeps.refl s
  repeat' (first | with_reducible assumption | with_reducible apply State.guarded_keeps
                 | with_reducible apply State.recompute_keeps | with_reducible apply State.wr_keeps | intro _)

theorem execInputLimit_keeps {s t : State} (a0 a1) (h : execInputLimit a0 a1 s = .next t) : Keeps s t := by
  unfold execInputLimit at h
  refine perform_keeps h ?_
  have hs := Keeps.refl s
  repeat' (first | with_reducible assumption | with_reducible apply State.guarded_keeps
                 | with_reducible apply State.recompute_keeps | with_reducible apply State.wr_keeps | intro _)

end Sys2Proof.Machine
end

