-- ==== Sys2Proof/Laws/KeepsDrift.lean ====
section
/-!
SUPPORT. What the operations of Machine/Drift.lean keep (Laws/Keeps.lean).
-/

namespace Sys2Proof.Machine

theorem State.modPort_keeps {s0 s : State} (h : Keeps s0 s) (a1 a2) : Keeps s0 (State.modPort s a1 a2) := by
  unfold State.modPort
  repeat' (first | with_reducible assumption | exact le_rfl | with_reducible apply Keeps.mk')

theorem State.modPeer_keeps {s0 s : State} (h : Keeps s0 s) (a1 a2) : Keeps s0 (State.modPeer s a1 a2) := by
  unfold State.modPeer
  repeat' (first | with_reducible assumption | exact le_rfl | extract_lets | with_reducible apply Keeps.mk')

theorem State.setPort_keeps {s0 s : State} (h : Keeps s0 s) (a1 a2) : Keeps s0 (State.setPort s a1 a2) := by
  unfold State.setPort
  repeat' (first | with_reducible assumption | with_reducible apply State.raise_keeps
                 | with_reducible apply State.modPort_keeps | with_reducible apply State.setFld_keeps
                 | with_reducible apply State.record_keeps | with_reducible apply Keeps.on | intro _
                 | with_reducible apply Keeps.ite)

theorem State.setCredits_keeps {s0 s : State} (h : Keeps s0 s) (a1 a2 a3) : Keeps s0 (State.setCredits s a1 a2 a3) := by
  unfold State.setCredits
  repeat' (first | with_reducible assumption | with_reducible apply State.setFld_keeps | intro _
                 | with_reducible apply Keeps.ite)

theorem State.sendTubs_keeps {s0 s : State} (h : Keeps s0 s) (a1 a2 a3 a4) : Keeps s0 (State.sendTubs s a1 a2 a3 a4) := by
  unfold State.sendTubs
  repeat' (first | with_reducible assumption | with_reducible apply State.setCredits_keeps
                 | with_reducible apply State.modPort_keeps | with_reducible apply State.count64_keeps)

theorem State.takeCredits_keeps {s0 s : State} (h : Keeps s0 s) (a1 a2 a3) : Keeps s0 (State.takeCredits s a1 a2 a3) := by
  unfold State.takeCredits
  repeat' (first | with_reducible assumption | with_reducible apply State.modPort_keeps
                 | with_reducible apply State.setCredits_keeps)

theorem State.drrPick_keeps {s0 s u : State} {n k : Nat} {l : List (Nat × Nat)} (h : Keeps s0 s) (e : s.drrPick n l = some (k, u)) :
    Keeps s0 u := by
  unfold State.drrPick at e
  cases l with
  | nil => cases e
  | cons a r =>
    simp only [Option.some.injEq, Prod.mk.injEq] at e
    obtain ⟨-, rfl⟩ := e
    exact State.modPort_keeps h _ _

theorem State.nextOut_keeps {s0 s u : State} {n : Nat} {m : OutMsg} (h : Keeps s0 s) (e : s.nextOut n = some (m, u)) : Keeps s0 u := by
  unfold State.nextOut at e
  split at e
  · obtain ⟨-, rfl⟩ := Prod.mk.inj (Option.some.inj e); exact h
  · extract_lets at e
    split at e
    · cases e
    · obtain ⟨-, rfl⟩ := Prod.mk.inj (Option.some.inj e); exact h
    · rename_i hp
      obtain ⟨_, -, e2⟩ := Option.map_eq_some_iff.mp e
      obtain ⟨-, rfl⟩ := Prod.mk.inj e2
      exact State.drrPick_keeps h hp
    · rename_i hp
      have hu := State.drrPick_keeps h hp
      split at e
      · obtain ⟨-, rfl⟩ := Prod.mk.inj (Option.some.inj e); exact h
      · split at e
        · rename_i hq
          obtain ⟨-, rfl⟩ := Prod.mk.inj (Option.some.inj e); exact State.drrPick_keeps h hq
        · obtain ⟨⟨x, v⟩, hq, e2⟩ := Option.map_eq_some_iff.mp e
          obtain ⟨-, rfl⟩ := Prod.mk.inj e2
          exact State.drrPick_keeps hu hq

theorem State.pumpOne_keeps {s0 s : State} (h : Keeps s0 s) (a1) : Keeps s0 (State.pumpOne s a1) := by
  unfold State.pumpOne
  split
  · exact h
  · rename_i e
    have hu := State.nextOut_keeps h e
    extract_lets y0
    have hy : Keeps s0 y0 := State.sendTubs_keeps (State.modPort_keeps hu _ _) _ _ _ _
    split
    · exact hy
    · exact State.modPort_keeps hy _ _


theorem State.pump_keeps {s0 s : State} (h : Keeps s0 s) (a1) : Keeps s0 (State.pump s a1) := by
  unfold State.pump
  repeat' (first | with_reducible assumption | with_reducible apply State.pumpOne_keeps | intro _
                 | with_reducible apply Keeps.foldl)

theorem State.queueOn_keeps {s0 s : State} (h : Keeps s0 s) (a1 a2) : Keeps s0 (State.queueOn s a1 a2) := by
  unfold State.queueOn
  repeat' (first | with_reducible assumption | with_reducible apply State.pump_keeps
                 | with_reducible apply State.modPort_keeps)

theorem State.sendMsg_keeps {s0 s : State} (h : Keeps s0 s) (a1) : Keeps s0 (State.sendMsg s a1) := by
  unfold State.sendMsg
  repeat' (first | with_reducible assumption | with_reducible apply State.queueOn_keeps | exact le_rfl
                 | extract_lets y0 y1 y2 | split | (guard_target =ₛ Keeps s0 y2; unfold y2)
                 | with_reducible apply Keeps.mk')

theorem State.toPartners_keeps {s0 s : State} (h : Keeps s0 s) (a1 a2) : Keeps s0 (State.toPartners s a1 a2) := by
  unfold State.toPartners
  repeat' (first | with_reducible assumption | with_reducible apply Keeps.each
                 | with_reducible apply State.queueOn_keeps | intro _)

theorem State.toMembers_keeps {s0 s : State} (h : Keeps s0 s) (a1 a2) : Keeps s0 (State.toMembers s a1 a2) := by
  unfold State.toMembers
  repeat' (first | with_reducible assumption | with_reducible apply Keeps.each
                 | with_reducible apply State.toPartners_keeps | with_reducible apply State.sendMsg_keeps | intro _)

theorem State.newRoutes_keeps {s0 s : State} (h : Keeps s0 s) (a1 a2) : Keeps s0 (State.newRoutes s a1 a2) := by
  unfold State.newRoutes
  repeat' (first | with_reducible assumption | with_reducible apply State.record_keeps
                 | with_reducible apply Keeps.each | with_reducible apply State.sendMsg_keeps | intro _ | exact le_rfl
                 | extract_lets | with_reducible apply Keeps.mk')

theorem State.routesChanged_keeps {s0 s : State} (h : Keeps s0 s) (a1) : Keeps s0 (State.routesChanged s a1) := by
  unfold State.routesChanged
  repeat' (first | with_reducible assumption | with_reducible apply State.newRoutes_keeps
                 | with_reducible apply State.sendMsg_keeps | intro _ | with_reducible apply Keeps.ite)

theorem State.dropPort_keeps {s0 s : State} (h : Keeps s0 s) (a1) : Keeps s0 (State.dropPort s a1) := by
  unfold State.dropPort
  repeat' (first | with_reducible assumption | with_reducible apply State.modPort_keeps
                 | with_reducible apply State.setPort_keeps | with_reducible apply State.wr_keeps
                 | with_reducible apply State.setFld_keeps | with_reducible apply Keeps.on
                 | with_reducible apply State.record_keeps | with_reducible apply State.routesChanged_keeps | intro _
                 | with_reducible apply Keeps.ite)

theorem State.quarantine_keeps {s0 s : State} (h : Keeps s0 s) (a1 a2 a3) : Keeps s0 (State.quarantine s a1 a2 a3) := by
  unfold State.quarantine
  repeat' (first | with_reducible assumption | with_reducible apply State.modPort_keeps
                 | with_reducible apply State.setPort_keeps | with_reducible apply State.record_keeps
                 | with_reducible apply State.raise_keeps | with_reducible apply Keeps.on
                 | with_reducible apply State.routesChanged_keeps | intro _ | with_reducible apply Keeps.ite)

theorem State.setLanes_keeps {s0 s : State} (h : Keeps s0 s) (a1 a2) : Keeps s0 (State.setLanes s a1 a2) := by
  unfold State.setLanes
  repeat' (first | with_reducible assumption | with_reducible apply Keeps.each
                 | with_reducible apply State.setFld_keeps | intro _)

theorem State.settleLanes_keeps {s0 s : State} (h : Keeps s0 s) (a1) : Keeps s0 (State.settleLanes s a1) := by
  unfold State.settleLanes
  repeat' (first | with_reducible assumption | with_reducible apply State.setFld_keeps
                 | with_reducible apply State.dropPort_keeps | with_reducible apply Keeps.on
                 | with_reducible apply State.setLanes_keeps | with_reducible apply State.setPort_keeps | intro _
                 | with_reducible apply Keeps.ite)

theorem State.swapSpare_keeps {s0 s : State} (h : Keeps s0 s) (a1 a2 a3) : Keeps s0 (State.swapSpare s a1 a2 a3) := by
  unfold State.swapSpare
  repeat' (first | with_reducible assumption | with_reducible apply State.setLanes_keeps)

theorem State.failLane_keeps {s0 s : State} (h : Keeps s0 s) (a1 a2 a3) : Keeps s0 (State.failLane s a1 a2 a3) := by
  unfold State.failLane
  repeat' (first | with_reducible assumption | with_reducible apply State.setFld_keeps
                 | with_reducible apply State.record_keeps | with_reducible apply State.raise_keeps
                 | with_reducible apply State.count_keeps | with_reducible apply State.setLanes_keeps
                 | with_reducible apply Keeps.on | with_reducible apply State.settleLanes_keeps | intro _
                 | with_reducible apply Keeps.ite | extract_lets | split)

theorem execLaneFail_keeps {s t : State} (a0 a1 a2) (h : execLaneFail a0 a1 a2 s = .next t) : Keeps s t := by
  unfold execLaneFail at h
  refine perform_keeps h ?_
  have hs := Keeps.refl s
  repeat' (first | with_reducible assumption | with_reducible apply State.failLane_keeps)

theorem State.setEye_keeps {s0 s : State} (h : Keeps s0 s) (a1 a2 a3) : Keeps s0 (State.setEye s a1 a2 a3) := by
  unfold State.setEye
  repeat' (first | with_reducible assumption | with_reducible apply State.setFld_keeps | intro _
                 | with_reducible apply Keeps.ite)

theorem execEyeMeasure_keeps {s t : State} (a0 a1 a2) (h : execEyeMeasure a0 a1 a2 s = .next t) : Keeps s t := by
  unfold execEyeMeasure at h
  refine perform_keeps h ?_
  have hs := Keeps.refl s
  repeat' (first | with_reducible assumption | with_reducible apply State.setEye_keeps
                 | with_reducible apply State.failLane_keeps | with_reducible apply State.replan_keeps
                 | with_reducible apply State.raise_keeps | with_reducible apply State.count_keeps
                 | with_reducible apply State.swapSpare_keeps | intro _ | with_reducible apply Keeps.ite
                 | extract_lets | split)

theorem execLaneRetrain_keeps {s t : State} (a0 a1 a2 a3) (h : execLaneRetrain a0 a1 a2 a3 s = .next t) : Keeps s t := by
  unfold execLaneRetrain at h
  refine perform_keeps h ?_
  have hs := Keeps.refl s
  repeat' (first | with_reducible assumption | with_reducible apply State.setEye_keeps
                 | with_reducible apply State.setFld_keeps | with_reducible apply Keeps.on
                 | with_reducible apply State.setLanes_keeps | with_reducible apply State.settleLanes_keeps | intro _
                 | with_reducible apply Keeps.ite)

theorem State.laneRetireAct_keeps {s0 s : State} (h : Keeps s0 s) (a1 a2) : Keeps s0 (State.laneRetireAct s a1 a2).1 := by
  unfold State.laneRetireAct
  repeat' (first | with_reducible assumption | with_reducible apply State.failLane_keeps | split)

theorem execLaneRetire_keeps {s t : State} (a0 a1 a2) (h : execLaneRetire a0 a1 a2 s = .next t) : Keeps s t := by
  unfold execLaneRetire at h
  refine perform_keeps h ?_
  have hs := Keeps.refl s
  repeat' (first | with_reducible assumption | with_reducible apply State.guarded_keeps
                 | with_reducible apply State.laneRetireAct_keeps | intro _)

theorem State.acknowledge_keeps {s0 s : State} (h : Keeps s0 s) (a1 a2) : Keeps s0 (State.acknowledge s a1 a2) := by
  unfold State.acknowledge
  repeat' (first | with_reducible assumption | with_reducible apply State.modPort_keeps
                 | with_reducible apply Keeps.each | with_reducible apply State.unitDone_keeps | intro _
                 | with_reducible apply Keeps.ite)

theorem State.askRetry_keeps {s0 s : State} (h : Keeps s0 s) (a1) : Keeps s0 (State.askRetry s a1) := by
  unfold State.askRetry
  repeat' (first | with_reducible assumption | with_reducible apply State.count_keeps
                 | with_reducible apply State.modPort_keeps | intro _ | with_reducible apply Keeps.ite)

theorem State.forwardTub_keeps {s0 s : State} (h : Keeps s0 s) (a1 a2) : Keeps s0 (State.forwardTub s a1 a2) := by
  unfold State.forwardTub
  repeat' (first | with_reducible assumption | with_reducible apply State.sendTubs_keeps
                 | with_reducible apply State.modPort_keeps | intro _ | with_reducible apply Keeps.ite | extract_lets
                 | split)

theorem State.pumpTubs_keeps {s0 s : State} (h : Keeps s0 s) (a1) : Keeps s0 (State.pumpTubs s a1) := by
  unfold State.pumpTubs
  repeat' (first | with_reducible assumption | with_reducible apply State.sendTubs_keeps
                 | with_reducible apply State.modPort_keeps | intro _ | with_reducible apply Keeps.foldl
                 | with_reducible apply Keeps.ite)

theorem State.tubArrives_keeps {s0 s : State} (h : Keeps s0 s) (a1 a2) : Keeps s0 (State.tubArrives s a1 a2) := by
  unfold State.tubArrives
  repeat' (first | with_reducible assumption | with_reducible apply State.askRetry_keeps
                 | with_reducible apply State.acknowledge_keeps | with_reducible apply State.takeCredits_keeps
                 | with_reducible apply State.count64_keeps | with_reducible apply State.modPort_keeps
                 | with_reducible apply Keeps.on | with_reducible apply State.forwardTub_keeps
                 | with_reducible apply State.pump_keeps | with_reducible apply State.pumpTubs_keeps | intro _
                 | with_reducible apply Keeps.ite)

theorem execTubReceive_keeps {s t : State} (a0 a1) (h : execTubReceive a0 a1 s = .next t) : Keeps s t := by
  unfold execTubReceive at h
  refine perform_keeps h ?_
  have hs := Keeps.refl s
  repeat' (first | with_reducible assumption | with_reducible apply State.tubArrives_keeps)

theorem execRetry_keeps {s t : State} (a0 a1) (h : execRetry a0 a1 s = .next t) : Keeps s t := by
  unfold execRetry at h
  refine perform_keeps h ?_
  have hs := Keeps.refl s
  repeat' (first | with_reducible assumption | with_reducible apply State.count64_keeps
                 | with_reducible apply State.modPort_keeps | intro _ | with_reducible apply Keeps.ite)

theorem execAckTimeout_keeps {s t : State} (a0) (h : execAckTimeout a0 s = .next t) : Keeps s t := by
  unfold execAckTimeout at h
  refine perform_keeps h ?_
  have hs := Keeps.refl s
  repeat' (first | with_reducible assumption | with_reducible apply State.count64_keeps
                 | with_reducible apply State.count_keeps | with_reducible apply State.modPort_keeps | intro _
                 | with_reducible apply Keeps.ite)

theorem execPortDown_keeps {s t : State} (a0) (h : execPortDown a0 s = .next t) : Keeps s t := by
  unfold execPortDown at h
  refine perform_keeps h ?_
  have hs := Keeps.refl s
  repeat' (first | with_reducible assumption | with_reducible apply State.dropPort_keeps)

theorem execUncorrWindow_keeps {s t : State} (a0 a1) (h : execUncorrWindow a0 a1 s = .next t) : Keeps s t := by
  unfold execUncorrWindow at h
  refine perform_keeps h ?_
  have hs := Keeps.refl s
  repeat' (first | with_reducible assumption | with_reducible apply State.count_keeps
                 | with_reducible apply State.count64_keeps | with_reducible apply State.drawn_keeps
                 | with_reducible apply State.modPort_keeps | with_reducible apply Keeps.on
                 | with_reducible apply State.quarantine_keeps | intro _)

theorem State.portDisableAct_keeps {s0 s : State} (h : Keeps s0 s) (a1 a2) : Keeps s0 (State.portDisableAct s a1 a2).1 := by
  unfold State.portDisableAct
  repeat' (first | with_reducible assumption | with_reducible apply State.wr_keeps
                 | with_reducible apply State.setPort_keeps | with_reducible apply State.dropPort_keeps
                 | with_reducible apply State.modPort_keeps | with_reducible apply Keeps.on | intro _ | split)

theorem execPortDisable_keeps {s t : State} (a0 a1 a2) (h : execPortDisable a0 a1 a2 s = .next t) : Keeps s t := by
  unfold execPortDisable at h
  refine perform_keeps h ?_
  have hs := Keeps.refl s
  repeat' (first | with_reducible assumption | with_reducible apply State.guarded_keeps
                 | with_reducible apply State.portDisableAct_keeps | intro _)

theorem State.sendHello_keeps {s0 s : State} (h : Keeps s0 s) (a1) : Keeps s0 (State.sendHello s a1) := by
  unfold State.sendHello
  repeat' (first | with_reducible assumption | with_reducible apply State.queueOn_keeps
                 | with_reducible apply State.modPort_keeps | with_reducible apply State.drawn_keeps)

theorem execLinkTrained_keeps {s t : State} (a0 a1) (h : execLinkTrained a0 a1 s = .next t) : Keeps s t := by
  unfold execLinkTrained at h
  refine perform_keeps h ?_
  have hs := Keeps.refl s
  repeat' (first | with_reducible assumption | with_reducible apply State.modPort_keeps
                 | with_reducible apply State.setFld_keeps | with_reducible apply State.setPort_keeps
                 | with_reducible apply State.setCredits_keeps | with_reducible apply State.sendHello_keeps | intro _
                 | with_reducible apply Keeps.ite)

theorem execAuthTimeout_keeps {s t : State} (a0) (h : execAuthTimeout a0 s = .next t) : Keeps s t := by
  unfold execAuthTimeout at h
  refine perform_keeps h ?_
  have hs := Keeps.refl s
  repeat' (first | with_reducible assumption | with_reducible apply State.quarantine_keeps | intro _
                 | with_reducible apply Keeps.ite)

theorem execQuarantineRetry_keeps {s t : State} (a0) (h : execQuarantineRetry a0 s = .next t) : Keeps s t := by
  unfold execQuarantineRetry at h
  refine perform_keeps h ?_
  have hs := Keeps.refl s
  repeat' (first | with_reducible assumption | with_reducible apply State.setPort_keeps
                 | with_reducible apply State.sendHello_keeps | with_reducible apply State.count_keeps | intro _
                 | with_reducible apply Keeps.ite)

end Sys2Proof.Machine
end

