-- ==== Sys2Proof/Laws/KeepsCascade.lean ====
section
/-!
SUPPORT. What the operations of Machine/Cascade.lean keep (Laws/Keeps.lean).
-/

namespace Sys2Proof.Machine

theorem State.becomeReady_keeps {s0 s : State} (h : Keeps s0 s) (a1) : Keeps s0 (State.becomeReady s a1) := by
  unfold State.becomeReady
  repeat' (first | with_reducible assumption | with_reducible apply Keeps.on | with_reducible apply State.wr64_keeps
                 | with_reducible apply State.wr_keeps | with_reducible apply State.setFld_keeps
                 | with_reducible apply State.record_keeps | with_reducible apply State.raise_keeps
                 | with_reducible apply Keeps.each | with_reducible apply State.setFn_keeps | intro _)

theorem State.setSource_keeps {s0 s : State} (h : Keeps s0 s) (a1) : Keeps s0 (State.setSource s a1) := by
  unfold State.setSource
  repeat' (first | with_reducible assumption | with_reducible apply State.record_keeps
                 | with_reducible apply State.raise_keeps | with_reducible apply State.setFld_keeps
                 | with_reducible apply Keeps.on | with_reducible apply State.becomeReady_keeps | intro _
                 | with_reducible apply Keeps.ite)

theorem State.showRoster_keeps {s0 s : State} (h : Keeps s0 s) : Keeps s0 (State.showRoster s) := by
  unfold State.showRoster
  repeat' (first | with_reducible assumption | with_reducible apply State.wr64_keeps
                 | with_reducible apply State.wr_keeps | with_reducible apply State.setFld_keeps | extract_lets
                 | split)

theorem State.setCas_keeps {s0 s : State} (h : Keeps s0 s) (a1) : Keeps s0 (State.setCas s a1) := by
  unfold State.setCas
  repeat' (first | with_reducible assumption | with_reducible apply State.raise_keeps
                 | with_reducible apply State.setFld_keeps | intro _ | with_reducible apply Keeps.ite)

theorem State.sendJoin_keeps {s0 s : State} (h : Keeps s0 s) : Keeps s0 (State.sendJoin s) := by
  unfold State.sendJoin
  repeat' (first | with_reducible assumption | with_reducible apply State.toPartners_keeps
                 | with_reducible apply State.sendMsg_keeps | intro _ | with_reducible apply Keeps.ite)

theorem State.startJoin_keeps {s0 s : State} (h : Keeps s0 s) : Keeps s0 (State.startJoin s) := by
  unfold State.startJoin
  repeat' (first | with_reducible assumption | with_reducible apply State.sendJoin_keeps
                 | with_reducible apply State.setCas_keeps)

theorem State.adoptRoster_keeps {s0 s : State} (h : Keeps s0 s) (a1 a2) : Keeps s0 (State.adoptRoster s a1 a2) := by
  unfold State.adoptRoster
  repeat' (first | with_reducible assumption | with_reducible apply State.showRoster_keeps
                 | with_reducible apply State.record_keeps | with_reducible apply State.toPartners_keeps
                 | with_reducible apply Keeps.on | with_reducible apply State.startJoin_keeps | exact le_rfl
                 | extract_lets | with_reducible apply Keeps.mk')

theorem State.rosterCommitAct_keeps {s0 s : State} (h : Keeps s0 s) (a1 a2) : Keeps s0 (State.rosterCommitAct s a1 a2).1 := by
  unfold State.rosterCommitAct
  repeat' (first | with_reducible assumption | with_reducible apply State.ignoreWrite_keeps
                 | with_reducible apply State.adoptRoster_keeps | extract_lets | split)

theorem execRosterCommit_keeps {s t : State} (a0 a1) (h : execRosterCommit a0 a1 s = .next t) : Keeps s t := by
  unfold execRosterCommit at h
  refine perform_keeps h ?_
  have hs := Keeps.refl s
  repeat' (first | with_reducible assumption | with_reducible apply State.guarded_keeps
                 | with_reducible apply State.rosterCommitAct_keeps | intro _)

theorem State.enrolByRoster_keeps {s0 s : State} (h : Keeps s0 s) (a1) : Keeps s0 (State.enrolByRoster s a1) := by
  unfold State.enrolByRoster
  repeat' (first | with_reducible assumption | with_reducible apply State.showInstaller_keeps
                 | with_reducible apply State.record_keeps | with_reducible apply State.raise_keeps | exact le_rfl
                 | extract_lets | with_reducible apply Keeps.mk')

theorem State.rosterArrives_keeps {s0 s : State} (h : Keeps s0 s) (a1 a2) : Keeps s0 (State.rosterArrives s a1 a2) := by
  unfold State.rosterArrives
  repeat' (first | with_reducible assumption | with_reducible apply State.quarantine_keeps
                 | with_reducible apply State.adoptRoster_keeps | with_reducible apply State.enrolByRoster_keeps
                 | intro _ | with_reducible apply Keeps.ite | extract_lets | split)

theorem execRosterReceive_keeps {s t : State} (a0 a1) (h : execRosterReceive a0 a1 s = .next t) : Keeps s t := by
  unfold execRosterReceive at h
  refine perform_keeps h ?_
  have hs := Keeps.refl s
  repeat' (first | with_reducible assumption | with_reducible apply State.rosterArrives_keeps)

theorem State.announce_keeps {s0 s : State} (h : Keeps s0 s) : Keeps s0 (State.announce s) := by
  unfold State.announce
  repeat' (first | with_reducible assumption | with_reducible apply State.toPartners_keeps
                 | with_reducible apply State.setCas_keeps | exact le_rfl | extract_lets
                 | with_reducible apply Keeps.mk')

theorem State.keyLink_keeps {s0 s : State} (h : Keeps s0 s) (a1 a2) : Keeps s0 (State.keyLink s a1 a2) := by
  unfold State.keyLink
  repeat' (first | with_reducible assumption | with_reducible apply State.queueOn_keeps
                 | with_reducible apply State.modPort_keeps)

theorem State.linkUp_keeps {s0 s : State} (h : Keeps s0 s) (a1 a2) : Keeps s0 (State.linkUp s a1 a2) := by
  unfold State.linkUp
  repeat' (first | with_reducible assumption | with_reducible apply State.setFld_keeps
                 | with_reducible apply State.modPeer_keeps | with_reducible apply State.modPort_keeps
                 | with_reducible apply State.setPort_keeps | with_reducible apply State.keyLink_keeps
                 | with_reducible apply State.routesChanged_keeps | with_reducible apply State.pump_keeps
                 | with_reducible apply Keeps.on | with_reducible apply State.announce_keeps)

theorem execHello_keeps {s t : State} (a0 a1) (h : execHello a0 a1 s = .next t) : Keeps s t := by
  unfold execHello at h
  refine perform_keeps h ?_
  have hs := Keeps.refl s
  repeat' (first | with_reducible assumption | with_reducible apply State.linkUp_keeps
                 | with_reducible apply State.quarantine_keeps | with_reducible apply State.modPort_keeps | intro _
                 | with_reducible apply Keeps.ite)

theorem State.nameHead_keeps {s0 s : State} (h : Keeps s0 s) (a1 a2 a3 a4) : Keeps s0 (State.nameHead s a1 a2 a3 a4) := by
  unfold State.nameHead
  repeat' (first | with_reducible assumption | with_reducible apply State.wr_keeps
                 | with_reducible apply State.record_keeps | with_reducible apply State.raise_keeps | exact le_rfl
                 | extract_lets | with_reducible apply Keeps.mk')

theorem State.becomeHead_keeps {s0 s : State} (h : Keeps s0 s) (a1 a2) : Keeps s0 (State.becomeHead s a1 a2) := by
  unfold State.becomeHead
  repeat' (first | with_reducible assumption | with_reducible apply State.modPeer_keeps
                 | with_reducible apply State.setCas_keeps | with_reducible apply State.nameHead_keeps
                 | with_reducible apply State.setFld_keeps | with_reducible apply State.wr_keeps
                 | with_reducible apply State.toMembers_keeps | with_reducible apply Keeps.on
                 | with_reducible apply State.setSource_keeps | intro _)

theorem State.heardHead_keeps {s0 s : State} (h : Keeps s0 s) (a1) : Keeps s0 (State.heardHead s a1) := by
  unfold State.heardHead
  repeat' (first | with_reducible assumption | with_reducible apply State.wr_keeps | with_reducible apply Keeps.on
                 | with_reducible apply State.raise_keeps | with_reducible apply State.setCas_keeps | intro _
                 | with_reducible apply Keeps.ite | exact le_rfl | extract_lets | with_reducible apply Keeps.mk')

theorem execCandidate_keeps {s t : State} (a0) (h : execCandidate a0 s = .next t) : Keeps s t := by
  unfold execCandidate at h
  refine perform_keeps h ?_
  have hs := Keeps.refl s
  repeat' (first | with_reducible assumption | exact le_rfl | extract_lets | with_reducible apply Keeps.mk')

theorem execHeadframeElect_keeps {s t : State} (h : execHeadframeElect s = .next t) : Keeps s t := by
  unfold execHeadframeElect at h
  refine perform_keeps h ?_
  have hs := Keeps.refl s
  repeat' (first | with_reducible assumption | with_reducible apply State.becomeHead_keeps | intro _
                 | with_reducible apply Keeps.ite)

theorem State.takeoverSeal_keeps {s0 s : State} (h : Keeps s0 s) : Keeps s0 (State.takeoverSeal s) := by
  unfold State.takeoverSeal
  repeat' (first | with_reducible assumption | with_reducible apply Keeps.on | with_reducible apply Keeps.each
                 | with_reducible apply State.unsound_keeps | with_reducible apply State.toMembers_keeps | intro _
                 | exact le_rfl | extract_lets | split | with_reducible apply Keeps.mk')

theorem execStandbyTakeover_keeps {s t : State} (a0) (h : execStandbyTakeover a0 s = .next t) : Keeps s t := by
  unfold execStandbyTakeover at h
  refine perform_keeps h ?_
  have hs := Keeps.refl s
  repeat' (first | with_reducible assumption | with_reducible apply State.becomeHead_keeps
                 | with_reducible apply State.setFld_keeps | with_reducible apply Keeps.on
                 | with_reducible apply State.takeoverSeal_keeps | intro _ | with_reducible apply Keeps.ite)

theorem State.headMoveAct_keeps {s0 s : State} (h : Keeps s0 s) (a1 a2) : Keeps s0 (State.headMoveAct s a1 a2).1 := by
  unfold State.headMoveAct
  repeat' (first | with_reducible assumption | with_reducible apply State.ignoreWrite_keeps
                 | with_reducible apply State.record_keeps | exact le_rfl | extract_lets | split
                 | with_reducible apply Keeps.mk')

theorem execHeadMove_keeps {s t : State} (a0 a1) (h : execHeadMove a0 a1 s = .next t) : Keeps s t := by
  unfold execHeadMove at h
  refine perform_keeps h ?_
  have hs := Keeps.refl s
  repeat' (first | with_reducible assumption | with_reducible apply State.guarded_keeps
                 | with_reducible apply State.headMoveAct_keeps | intro _)

theorem State.takeKeys_keeps {s0 s : State} (h : Keeps s0 s) (a1) : Keeps s0 (State.takeKeys s a1) := by
  unfold State.takeKeys
  repeat' (first | with_reducible assumption | with_reducible apply Keeps.each
                 | with_reducible apply State.modPeer_keeps | intro _)

theorem State.takeJobKey_keeps {s0 s : State} (h : Keeps s0 s) (a1 a2) : Keeps s0 (State.takeJobKey s a1 a2) := by
  unfold State.takeJobKey
  repeat' (first | with_reducible assumption | exact le_rfl | extract_lets | with_reducible apply Keeps.mk')

theorem State.reportMember_keeps {s0 s : State} (h : Keeps s0 s) (a1) : Keeps s0 (State.reportMember s a1) := by
  unfold State.reportMember
  repeat' (first | with_reducible assumption | with_reducible apply State.toMembers_keeps)

theorem State.admitIt_keeps {s0 s : State} (h : Keeps s0 s) (a1 a2 a3 a4) : Keeps s0 (State.admitIt s a1 a2 a3 a4) := by
  unfold State.admitIt
  repeat' (first | with_reducible assumption | with_reducible apply State.modPeer_keeps
                 | with_reducible apply State.setFld_keeps | with_reducible apply Keeps.on
                 | with_reducible apply State.sendMsg_keeps | with_reducible apply State.record_keeps
                 | with_reducible apply State.reportMember_keeps | intro _)

theorem State.refuseIt_keeps {s0 s : State} (h : Keeps s0 s) (a1 a2 a3) : Keeps s0 (State.refuseIt s a1 a2 a3) := by
  unfold State.refuseIt
  repeat' (first | with_reducible assumption | with_reducible apply State.record_keeps
                 | with_reducible apply State.raise_keeps | with_reducible apply State.count_keeps
                 | with_reducible apply State.sendMsg_keeps)

theorem execJoin_keeps {s t : State} (a0 a1 a2) (h : execJoin a0 a1 a2 s = .next t) : Keeps s t := by
  unfold execJoin at h
  refine perform_keeps h ?_
  have hs := Keeps.refl s
  repeat' (first | with_reducible assumption | with_reducible apply State.admitIt_keeps
                 | with_reducible apply State.refuseIt_keeps | intro _ | with_reducible apply Keeps.ite | extract_lets
                 | split)

theorem State.showRoles_keeps {s0 s : State} (h : Keeps s0 s) : Keeps s0 (State.showRoles s) := by
  unfold State.showRoles
  repeat' (first | with_reducible assumption | with_reducible apply State.wr_keeps
                 | with_reducible apply State.setCas_keeps | intro _ | with_reducible apply Keeps.ite)

theorem execAdmitMember_keeps {s t : State} (a0 a1 a2 a3 a4 a5 a6 a7 a8 a9) (h : execAdmitMember a0 a1 a2 a3 a4 a5 a6 a7 a8 a9 s = .next t) : Keeps s t := by
  unfold execAdmitMember at h
  refine perform_keeps h ?_
  have hs := Keeps.refl s
  repeat' (first | with_reducible assumption | with_reducible apply State.setFld_keeps
                 | with_reducible apply State.setCas_keeps | with_reducible apply State.takeKeys_keeps
                 | with_reducible apply State.wr64_keeps | with_reducible apply State.wr_keeps
                 | with_reducible apply State.showRoles_keeps | intro _ | with_reducible apply Keeps.ite
                 | exact le_rfl | extract_lets | with_reducible apply Keeps.mk')

theorem execRefuse_keeps {s t : State} (a0) (h : execRefuse a0 s = .next t) : Keeps s t := by
  unfold execRefuse at h
  refine perform_keeps h ?_
  have hs := Keeps.refl s
  repeat' (first | with_reducible assumption | with_reducible apply State.raise_keeps
                 | with_reducible apply State.count_keeps | with_reducible apply State.setFld_keeps
                 | with_reducible apply State.setCas_keeps | intro _ | with_reducible apply Keeps.ite)

theorem execJoinRetry_keeps {s t : State} (h : execJoinRetry s = .next t) : Keeps s t := by
  unfold execJoinRetry at h
  refine perform_keeps h ?_
  have hs := Keeps.refl s
  repeat' (first | with_reducible assumption | with_reducible apply State.startJoin_keeps | intro _
                 | with_reducible apply Keeps.ite)

theorem execRouteTable_keeps {s t : State} (a0 a1) (h : execRouteTable a0 a1 s = .next t) : Keeps s t := by
  unfold execRouteTable at h
  refine perform_keeps h ?_
  have hs := Keeps.refl s
  repeat' (first | with_reducible assumption | intro _ | with_reducible apply Keeps.ite | exact le_rfl | extract_lets
                 | with_reducible apply Keeps.mk')

theorem execRoleUpdate_keeps {s t : State} (a0 a1) (h : execRoleUpdate a0 a1 s = .next t) : Keeps s t := by
  unfold execRoleUpdate at h
  refine perform_keeps h ?_
  have hs := Keeps.refl s
  repeat' (first | with_reducible assumption | with_reducible apply State.takeKeys_keeps | exact le_rfl | extract_lets
                 | with_reducible apply Keeps.mk')

theorem State.declareMemberLost_keeps {s0 s : State} (h : Keeps s0 s) (a1 a2) : Keeps s0 (State.declareMemberLost s a1 a2) := by
  unfold State.declareMemberLost
  repeat' (first | with_reducible assumption | with_reducible apply State.modPeer_keeps
                 | with_reducible apply State.count_keeps | with_reducible apply State.setFld_keeps
                 | with_reducible apply State.record_keeps | with_reducible apply State.reportMember_keeps | intro _
                 | with_reducible apply Keeps.ite | exact le_rfl | extract_lets | with_reducible apply Keeps.mk')

theorem State.selfLost_keeps {s0 s : State} (h : Keeps s0 s) : Keeps s0 (State.selfLost s) := by
  unfold State.selfLost
  repeat' (first | with_reducible assumption | with_reducible apply State.declareMemberLost_keeps
                 | with_reducible apply State.sendMsg_keeps | intro _ | with_reducible apply Keeps.ite)

theorem State.memberEvictAct_keeps {s0 s : State} (h : Keeps s0 s) (a1 a2) : Keeps s0 (State.memberEvictAct s a1 a2).1 := by
  unfold State.memberEvictAct
  repeat' (first | with_reducible assumption | with_reducible apply State.ignoreWrite_keeps
                 | with_reducible apply State.declareMemberLost_keeps | split)

theorem execMemberEvict_keeps {s t : State} (a0 a1) (h : execMemberEvict a0 a1 s = .next t) : Keeps s t := by
  unfold execMemberEvict at h
  refine perform_keeps h ?_
  have hs := Keeps.refl s
  repeat' (first | with_reducible assumption | with_reducible apply State.guarded_keeps
                 | with_reducible apply State.memberEvictAct_keeps | intro _)

theorem State.noteReady_keeps {s0 s : State} (h : Keeps s0 s) (a1 a2 a3 a4 a5) : Keeps s0 (State.noteReady s a1 a2 a3 a4 a5) := by
  unfold State.noteReady
  repeat' (first | with_reducible assumption | exact le_rfl | extract_lets | split | with_reducible apply Keeps.mk')

theorem State.report_keeps {s0 s : State} (h : Keeps s0 s) (a1 a2) : Keeps s0 (State.report s a1 a2) := by
  unfold State.report
  repeat' (first | with_reducible assumption | with_reducible apply State.noteReady_keeps
                 | with_reducible apply State.sendMsg_keeps | intro _ | with_reducible apply Keeps.ite | split)

theorem State.dropReports_keeps {s0 s : State} (h : Keeps s0 s) : Keeps s0 (State.dropReports s) := by
  unfold State.dropReports
  repeat' (first | with_reducible assumption | with_reducible apply Keeps.each | with_reducible apply Keeps.on
                 | with_reducible apply State.report_keeps | with_reducible apply State.noteReady_keeps | intro _
                 | extract_lets | split)

theorem State.linkReport_keeps {s0 s : State} (h : Keeps s0 s) (a1 a2 a3 a4) : Keeps s0 (State.linkReport s a1 a2 a3 a4) := by
  unfold State.linkReport
  repeat' (first | with_reducible assumption | with_reducible apply State.modPeer_keeps
                 | with_reducible apply Keeps.each | with_reducible apply State.newRoutes_keeps
                 | with_reducible apply State.declareMemberLost_keeps | intro _)

theorem State.learnJob_keeps {s0 s : State} (h : Keeps s0 s) (a1 a2 a3) : Keeps s0 (State.learnJob s a1 a2 a3) := by
  unfold State.learnJob
  repeat' (first | with_reducible assumption | intro _ | with_reducible apply Keeps.ite | exact le_rfl | extract_lets
                 | with_reducible apply Keeps.mk')

theorem State.chargeLate_keeps {s0 s : State} (h : Keeps s0 s) (a1 a2) : Keeps s0 (State.chargeLate s a1 a2) := by
  unfold State.chargeLate
  repeat' (first | with_reducible assumption | with_reducible apply State.modPeer_keeps
                 | with_reducible apply State.sendMsg_keeps | intro _ | with_reducible apply Keeps.ite)

theorem State.hearRole_keeps {s0 s : State} (h : Keeps s0 s) (a1) : Keeps s0 (State.hearRole s a1) := by
  unfold State.hearRole
  repeat' (first | with_reducible assumption | with_reducible apply Keeps.on | with_reducible apply State.wr_keeps
                 | with_reducible apply State.heardHead_keeps | with_reducible apply State.startJoin_keeps
                 | with_reducible apply State.noteReady_keeps | with_reducible apply State.declareMemberLost_keeps
                 | with_reducible apply State.linkReport_keeps | with_reducible apply State.modPeer_keeps
                 | with_reducible apply State.setFld_keeps | with_reducible apply State.takeJobKey_keeps
                 | with_reducible apply State.learnJob_keeps | with_reducible apply State.drawn_keeps
                 | with_reducible apply State.toMembers_keeps | with_reducible apply State.chargeLate_keeps | intro _
                 | with_reducible apply Keeps.ite | exact le_rfl | extract_lets | split
                 | with_reducible apply Keeps.mk')

theorem execRestart_keeps {s t : State} (a0 a1) (h : execRestart a0 a1 s = .next t) : Keeps s t := by
  unfold execRestart at h
  refine perform_keeps h ?_
  have hs := Keeps.refl s
  repeat' (first | with_reducible assumption | with_reducible apply State.count_keeps
                 | with_reducible apply State.dropReports_keeps | with_reducible apply Keeps.on
                 | with_reducible apply State.setJobState_keeps | with_reducible apply State.dropWork_keeps
                 | with_reducible apply State.sendMsg_keeps | intro _ | exact le_rfl | extract_lets y0 y1 y2 | split
                 | (guard_target =ₛ Keeps s y2; unfold y2) | with_reducible apply Keeps.mk')

end Sys2Proof.Machine
end

