-- ==== Sys2Proof/Laws/KeepsLosses.lean ====
section
/-!
SUPPORT. What the operations of Machine/Losses.lean keep (Laws/Keeps.lean).
-/

namespace Sys2Proof.Machine

theorem State.lostBelow_keeps {s0 s : State} (h : Keeps s0 s) (a1 : State) : Keeps s0 (State.lostBelow s a1) := by
  unfold State.lostBelow
  repeat' (first | with_reducible assumption | with_reducible apply Keeps.on
                 | with_reducible apply State.selfLost_keeps)

theorem execConvFail_keeps {s t : State} (a0 a1) (h : execConvFail a0 a1 s = .next t) : Keeps s t := by
  unfold execConvFail at h
  refine perform_keeps h ?_
  have hs := Keeps.refl s
  repeat' (first | with_reducible assumption | with_reducible apply State.lostBelow_keeps
                 | with_reducible apply State.convFails_keeps)

theorem State.convRetireAct_keeps {s0 s : State} (h : Keeps s0 s) (a1) : Keeps s0 (State.convRetireAct s a1).1 := by
  unfold State.convRetireAct
  repeat' (first | with_reducible assumption | with_reducible apply State.lostBelow_keeps
                 | with_reducible apply State.convFails_keeps | extract_lets | split)

theorem execConvRetire_keeps {s t : State} (a0 a1) (h : execConvRetire a0 a1 s = .next t) : Keeps s t := by
  unfold execConvRetire at h
  refine perform_keeps h ?_
  have hs := Keeps.refl s
  repeat' (first | with_reducible assumption | with_reducible apply State.guarded_keeps
                 | with_reducible apply State.convRetireAct_keeps | intro _)

theorem execThermalTrip_keeps {s t : State} (a0 a1 a2) (h : execThermalTrip a0 a1 a2 s = .next t) : Keeps s t := by
  unfold execThermalTrip at h
  refine perform_keeps h ?_
  have hs := Keeps.refl s
  repeat' (first | with_reducible assumption | with_reducible apply State.lostBelow_keeps
                 | with_reducible apply State.convFails_keeps | with_reducible apply State.setSensor_keeps
                 | with_reducible apply State.phaseFails_keeps | with_reducible apply State.trips_keeps | intro _
                 | with_reducible apply Keeps.ite)

end Sys2Proof.Machine
end

