-- ==== Sys2Proof/Laws/KeepsProspector.lean ====
section
/-!
SUPPORT. What the operations of Machine/Prospector.lean keep (Laws/Keeps.lean).
-/

namespace Sys2Proof.Machine

theorem State.modPros_keeps {s0 s : State} (h : Keeps s0 s) (a1) : Keeps s0 (State.modPros s a1) := by
  unfold State.modPros
  repeat' (first | with_reducible assumption | exact le_rfl | with_reducible apply Keeps.mk')

theorem State.setPro_keeps {s0 s : State} (h : Keeps s0 s) (a1) : Keeps s0 (State.setPro s a1) := by
  unfold State.setPro
  repeat' (first | with_reducible assumption | with_reducible apply State.setFld_keeps)

theorem State.proMemory_keeps {s0 s : State} (h : Keeps s0 s) (a1) : Keeps s0 (State.proMemory s a1) := by
  unfold State.proMemory
  repeat' (first | with_reducible assumption | with_reducible apply State.wr64_keeps | intro _
                 | with_reducible apply Keeps.ite)

theorem State.startPro_keeps {s0 s : State} (h : Keeps s0 s) : Keeps s0 (State.startPro s) := by
  unfold State.startPro
  repeat' (first | with_reducible assumption | with_reducible apply State.drawInterleave_keeps
                 | with_reducible apply State.drawn_keeps | with_reducible apply State.proMemory_keeps
                 | with_reducible apply State.setFld_keeps | with_reducible apply State.setPro_keeps
                 | with_reducible apply State.modPros_keeps | with_reducible apply State.record_keeps)

theorem State.drainPro_keeps {s0 s : State} (h : Keeps s0 s) (a1) : Keeps s0 (State.drainPro s a1) := by
  unfold State.drainPro
  repeat' (first | with_reducible assumption | with_reducible apply State.record_keeps
                 | with_reducible apply State.setPro_keeps | intro _ | with_reducible apply Keeps.ite)

theorem State.stopPro_keeps {s0 s : State} (h : Keeps s0 s) : Keeps s0 (State.stopPro s) := by
  unfold State.stopPro
  repeat' (first | with_reducible assumption | with_reducible apply State.record_keeps
                 | with_reducible apply State.raise_keeps | with_reducible apply State.setPro_keeps | intro _
                 | with_reducible apply Keeps.ite)

theorem State.keepRecord_keeps {s0 s : State} (h : Keeps s0 s) (a1) : Keeps s0 (State.keepRecord s a1) := by
  unfold State.keepRecord
  repeat' (first | with_reducible assumption | with_reducible apply State.modPros_keeps
                 | with_reducible apply State.count64_keeps | with_reducible apply State.setFld_keeps)

theorem State.takeRecord_keeps {s0 s : State} (h : Keeps s0 s) (a1) : Keeps s0 (State.takeRecord s a1) := by
  unfold State.takeRecord
  repeat' (first | with_reducible assumption | with_reducible apply State.keepRecord_keeps
                 | with_reducible apply State.count_keeps | with_reducible apply State.modPros_keeps | split)

theorem State.endRecords_keeps {s0 s : State} (h : Keeps s0 s) : Keeps s0 (State.endRecords s) := by
  unfold State.endRecords
  repeat' (first | with_reducible assumption | with_reducible apply State.modPros_keeps
                 | with_reducible apply State.record_keeps | with_reducible apply State.raise_keeps | intro _
                 | with_reducible apply Keeps.ite)

theorem execSeriesRecord_keeps {s t : State} (a0) (h : execSeriesRecord a0 s = .next t) : Keeps s t := by
  unfold execSeriesRecord at h
  refine perform_keeps h ?_
  have hs := Keeps.refl s
  repeat' (first | with_reducible assumption | with_reducible apply State.endRecords_keeps
                 | with_reducible apply State.takeRecord_keeps | intro _ | with_reducible apply Keeps.ite)

theorem State.fcCmdAct_keeps {s0 s : State} (h : Keeps s0 s) (a1) : Keeps s0 (State.fcCmdAct s a1).1 := by
  unfold State.fcCmdAct
  repeat' (first | with_reducible assumption | with_reducible apply Keeps.on | with_reducible apply State.setFld_keeps
                 | with_reducible apply State.modPros_keeps | intro _ | extract_lets | split)

theorem execFcCmd_keeps {s t : State} (a0 a1) (h : execFcCmd a0 a1 s = .next t) : Keeps s t := by
  unfold execFcCmd at h
  refine perform_keeps h ?_
  have hs := Keeps.refl s
  repeat' (first | with_reducible assumption | with_reducible apply State.written_keeps
                 | with_reducible apply State.fcCmdAct_keeps | intro _)

theorem execForecastDone_keeps {s t : State} (a0) (h : execForecastDone a0 s = .next t) : Keeps s t := by
  unfold execForecastDone at h
  refine perform_keeps h ?_
  have hs := Keeps.refl s
  repeat' (first | with_reducible assumption | with_reducible apply State.modPros_keeps
                 | with_reducible apply State.raise_keeps | with_reducible apply State.wr64_keeps
                 | with_reducible apply State.setFld_keeps | split)

theorem State.prospectClearAct_keeps {s0 s : State} (h : Keeps s0 s) (a1 a2) : Keeps s0 (State.prospectClearAct s a1 a2).1 := by
  unfold State.prospectClearAct
  repeat' (first | with_reducible assumption | with_reducible apply Keeps.on
                 | with_reducible apply State.proMemory_keeps | with_reducible apply Keeps.each
                 | with_reducible apply State.setSeams_keeps | with_reducible apply State.clearStope_keeps
                 | with_reducible apply State.clearPrepared_keeps | with_reducible apply Keeps.keepMem
                 | with_reducible apply State.setFld_keeps | with_reducible apply State.wr_keeps
                 | with_reducible apply State.modClaim_keeps | with_reducible apply State.reviewDiag_keeps
                 | with_reducible apply State.recordBy_keeps | intro _ | with_reducible apply Keeps.ite | exact le_rfl
                 | extract_lets y0 y1 y2 y3 | split | (guard_target =ₛ Keeps s0 y3; unfold y3)
                 | with_reducible apply Keeps.mk')

theorem execProspectClear_keeps {s t : State} (a0 a1) (h : execProspectClear a0 a1 s = .next t) : Keeps s t := by
  unfold execProspectClear at h
  refine perform_keeps h ?_
  have hs := Keeps.refl s
  repeat' (first | with_reducible assumption | with_reducible apply State.guarded_keeps
                 | with_reducible apply State.prospectClearAct_keeps | intro _)

end Sys2Proof.Machine
end

