-- ==== Sys2Proof/Laws/KeepsBringup.lean ====
section
/-!
SUPPORT. What the operations of Machine/Bringup.lean keep (Laws/Keeps.lean).
-/

namespace Sys2Proof.Machine

theorem State.clearAtPowerUp_keeps {s0 s : State} (h : Keeps s0 s) : Keeps s0 (State.clearAtPowerUp s) := by
  unfold State.clearAtPowerUp
  repeat' (first | with_reducible assumption | with_reducible apply Keeps.each
                 | with_reducible apply State.startClearing_keeps | with_reducible apply Keeps.on
                 | with_reducible apply State.setClaimState_keeps | with_reducible apply State.setSeams_keeps
                 | intro _ | with_reducible apply Keeps.ite)

theorem State.enterRecovery_keeps {s0 s : State} (h : Keeps s0 s) : Keeps s0 (State.enterRecovery s) := by
  unfold State.enterRecovery
  repeat' (first | with_reducible assumption | with_reducible apply State.raise_keeps
                 | with_reducible apply State.setFld_keeps | with_reducible apply State.record_keeps
                 | with_reducible apply State.modFw_keeps | with_reducible apply Keeps.on
                 | with_reducible apply State.drawn_keeps | exact le_rfl | extract_lets
                 | with_reducible apply Keeps.mk')

theorem State.stepWork_keeps {s0 s : State} (h : Keeps s0 s) (a1 a2) : Keeps s0 (State.stepWork s a1 a2) := by
  unfold State.stepWork
  repeat' (first | with_reducible assumption | with_reducible apply State.dropTorn_keeps
                 | with_reducible apply State.showFw_keeps | with_reducible apply Keeps.on
                 | with_reducible apply State.setFld_keeps | with_reducible apply State.clearAtPowerUp_keeps
                 | with_reducible apply State.startPro_keeps | with_reducible apply State.becomeReady_keeps | intro _
                 | extract_lets | split)

theorem execBringupStep_keeps {s t : State} (a0 a1) (h : execBringupStep a0 a1 s = .next t) : Keeps s t := by
  unfold execBringupStep at h
  refine perform_keeps h ?_
  have hs := Keeps.refl s
  repeat' (first | with_reducible assumption | with_reducible apply State.enterRecovery_keeps
                 | with_reducible apply State.stepWork_keeps | with_reducible apply State.record_keeps
                 | with_reducible apply State.raise_keeps | with_reducible apply State.setFld_keeps | intro _
                 | with_reducible apply Keeps.ite)

theorem execBringupStepLate_keeps {s t : State} (a0) (h : execBringupStepLate a0 s = .next t) : Keeps s t := by
  unfold execBringupStepLate at h
  refine perform_keeps h ?_
  have hs := Keeps.refl s
  repeat' (first | with_reducible assumption | with_reducible apply State.setFn_keeps | with_reducible apply Keeps.on
                 | with_reducible apply State.record_keeps | with_reducible apply State.stopeFailure_keeps
                 | with_reducible apply State.setFld_keeps | with_reducible apply State.stepWork_keeps | intro _
                 | with_reducible apply Keeps.ite | exact le_rfl | extract_lets | split
                 | with_reducible apply Keeps.mk')

theorem State.applyInput_keeps {s0 s : State} (h : Keeps s0 s) (a1) : Keeps s0 (State.applyInput s a1) := by
  unfold State.applyInput
  repeat' (first | with_reducible assumption | with_reducible apply State.losePower_keeps
                 | with_reducible apply State.wr_keeps | with_reducible apply Keeps.on
                 | with_reducible apply Keeps.each | with_reducible apply State.setFn_keeps | intro _ | exact le_rfl
                 | extract_lets | with_reducible apply Keeps.mk')

theorem execPowerOn_keeps {s t : State} (h : execPowerOn s = .next t) : Keeps s t := by
  unfold execPowerOn at h
  refine performAlways_keeps h ?_
  have hs := Keeps.refl s
  repeat' (first | with_reducible assumption | with_reducible apply State.applyInput_keeps | intro _
                 | with_reducible apply Keeps.ite | exact le_rfl | extract_lets | with_reducible apply Keeps.mk')

theorem execInputOverEnd_keeps {s t : State} (h : execInputOverEnd s = .next t) : Keeps s t := by
  unfold execInputOverEnd at h
  refine performAlways_keeps h ?_
  have hs := Keeps.refl s
  repeat' (first | with_reducible assumption | with_reducible apply State.applyInput_keeps | intro _
                 | with_reducible apply Keeps.ite)

theorem execRecoveryAsk_keeps {s t : State} (h : execRecoveryAsk s = .next t) : Keeps s t := by
  unfold execRecoveryAsk at h
  refine perform_keeps h ?_
  have hs := Keeps.refl s
  repeat' (first | with_reducible assumption | with_reducible apply State.queueOn_keeps | intro _
                 | with_reducible apply Keeps.ite | exact le_rfl | extract_lets y0 y1 y2 | split
                 | (guard_target =ₛ Keeps s y2; unfold y2) | (clear_value y0; split) | with_reducible apply Keeps.mk')

theorem execRecoveryImage_keeps {s t : State} (a0) (h : execRecoveryImage a0 s = .next t) : Keeps s t := by
  unfold execRecoveryImage at h
  refine perform_keeps h ?_
  have hs := Keeps.refl s
  repeat' (first | with_reducible assumption | with_reducible apply State.recoverWith_keeps
                 | with_reducible apply State.count_keeps | with_reducible apply State.rewriteFlash_keeps | intro _
                 | with_reducible apply Keeps.ite)

theorem State.deviceResetAct_keeps {s0 s : State} (h : Keeps s0 s) (a1 a2) : Keeps s0 (State.deviceResetAct s a1 a2).1 := by
  unfold State.deviceResetAct
  repeat' (first | with_reducible assumption | with_reducible apply State.recordBy_keeps
                 | with_reducible apply State.raise_keeps | with_reducible apply State.count_keeps
                 | with_reducible apply State.config_keeps | with_reducible apply Keeps.each
                 | with_reducible apply State.admitFront_keeps | with_reducible apply State.bootFrom2_keeps
                 | with_reducible apply State.losePower_keeps | intro _ | extract_lets | split)

theorem execDeviceReset_keeps {s t : State} (a0 a1) (h : execDeviceReset a0 a1 s = .next t) : Keeps s t := by
  unfold execDeviceReset at h
  refine perform_keeps h ?_
  have hs := Keeps.refl s
  repeat' (first | with_reducible assumption | with_reducible apply State.guarded_keeps
                 | with_reducible apply State.deviceResetAct_keeps | intro _)

end Sys2Proof.Machine
end

