-- ==== Sys2Proof/Laws/KeepsLayers.lean ====
section
/-!
SUPPORT. What the operations of Machine/Layers.lean keep (Laws/Keeps.lean).
-/

namespace Sys2Proof.Machine

theorem State.onLogical_keeps {s0 s : State} (h : Keeps s0 s) (a1 a2) (h2 : ∀ x0 x1, Keeps s0 x0 → Keeps s0 (a2 x0 x1)) : Keeps s0 (State.onLogical s a1 a2) := by
  unfold State.onLogical
  repeat' (first | with_reducible assumption | with_reducible apply h2 | split)

theorem State.stageStp_keeps {s0 s : State} (h : Keeps s0 s) (a1 a2) : Keeps s0 (State.stageStp s a1 a2) := by
  unfold State.stageStp
  repeat' (first | with_reducible assumption | with_reducible apply State.onLogical_keeps
                 | with_reducible apply State.stageEvent_keeps | intro _)

theorem State.countStp_keeps {s0 s : State} (h : Keeps s0 s) (a1 a2 a3 a4) : Keeps s0 (State.countStp s a1 a2 a3 a4) := by
  unfold State.countStp
  repeat' (first | with_reducible assumption | with_reducible apply State.onLogical_keeps
                 | with_reducible apply State.countSealed_keeps | intro _)

theorem State.countStp64_keeps {s0 s : State} (h : Keeps s0 s) (a1 a2 a3 a4) : Keeps s0 (State.countStp64 s a1 a2 a3 a4) := by
  unfold State.countStp64
  repeat' (first | with_reducible assumption | with_reducible apply State.onLogical_keeps
                 | with_reducible apply State.countSealed64_keeps | intro _)

theorem State.wrCode_keeps {s0 s : State} (h : Keeps s0 s) (a1 a2 a3 a4 a5) : Keeps s0 (State.wrCode s a1 a2 a3 a4 a5) := by
  unfold State.wrCode
  repeat' (first | with_reducible assumption | with_reducible apply State.wrNat_keeps)

theorem State.zeroTails_keeps {s0 s : State} (h : Keeps s0 s) (a1 a2 a3 a4) : Keeps s0 (State.zeroTails s a1 a2 a3 a4) := by
  unfold State.zeroTails
  repeat' (first | with_reducible assumption | with_reducible apply Keeps.each
                 | with_reducible apply State.zeroMem_keeps | intro _ | with_reducible apply Keeps.ite | split)

theorem State.putElem_keeps {s0 s : State} (h : Keeps s0 s) (a1 a2 a3 a4) : Keeps s0 (State.putElem s a1 a2 a3 a4).1 := by
  unfold State.putElem
  repeat' (first | with_reducible assumption | with_reducible apply State.wrNat_keeps | extract_lets | split)

theorem State.putBlock_keeps {s0 s : State} (h : Keeps s0 s) (a1 a2 a3 a4) : Keeps s0 (State.putBlock s a1 a2 a3 a4).1 := by
  unfold State.putBlock
  repeat' (first | with_reducible assumption | with_reducible apply State.wrNat_keeps
                 | with_reducible apply Keeps.each | intro _)

theorem State.putRow_keeps {s0 s : State} (h : Keeps s0 s) (a1 a2 a3 a4) : Keeps s0 (State.putRow s a1 a2 a3 a4).1 := by
  unfold State.putRow
  repeat' (first | with_reducible assumption | with_reducible apply State.putBlock_keeps
                 | with_reducible apply State.putElem_keeps | intro _ | with_reducible apply Keeps.foldlFst
                 | extract_lets | split)

theorem State.park_keeps {s0 s : State} (h : Keeps s0 s) (a1 a2 a3 a4) : Keeps s0 (State.park s a1 a2 a3 a4) := by
  unfold State.park
  repeat' (first | with_reducible assumption | with_reducible apply Keeps.each
                 | with_reducible apply State.setMark_keeps | intro _)

theorem State.readsTensor_keeps {s0 s : State} (h : Keeps s0 s) (a1 a2 a3 a4 a5) : Keeps s0 (State.readsTensor s a1 a2 a3 a4 a5) := by
  unfold State.readsTensor
  repeat' (first | with_reducible assumption | with_reducible apply State.modJob_keeps
                 | with_reducible apply State.unsound_keeps | intro _ | with_reducible apply Keeps.ite | split)

theorem State.parkRow_keeps {s0 s : State} (h : Keeps s0 s) (a1 a2 a3) : Keeps s0 (State.parkRow s a1 a2 a3) := by
  unfold State.parkRow
  repeat' (first | with_reducible assumption | with_reducible apply State.park_keeps | intro _
                 | with_reducible apply Keeps.ite)

theorem State.raiseStock_keeps {s0 s : State} (h : Keeps s0 s) (a1 a2) : Keeps s0 (State.raiseStock s a1 a2) := by
  unfold State.raiseStock
  repeat' (first | with_reducible assumption | with_reducible apply Keeps.each | with_reducible apply Keeps.on
                 | with_reducible apply State.noteLive_keeps | with_reducible apply State.raiseFor_keeps | intro _)

theorem State.wrStock_keeps {s0 s : State} (h : Keeps s0 s) (a1 a2 a3) : Keeps s0 (State.wrStock s a1 a2 a3) := by
  unfold State.wrStock
  repeat' (first | with_reducible assumption | with_reducible apply State.wrB_keeps)

theorem State.showStock_keeps {s0 s : State} (h : Keeps s0 s) (a1) : Keeps s0 (State.showStock s a1) := by
  unfold State.showStock
  repeat' (first | with_reducible assumption | with_reducible apply State.wrStock_keeps
                 | with_reducible apply Keeps.on | with_reducible apply State.raiseStock_keeps | intro _
                 | extract_lets | split)

theorem State.freePlanes_keeps {s0 s : State} (h : Keeps s0 s) (a1 a2 a3 a4 a5) : Keeps s0 (State.freePlanes s a1 a2 a3 a4 a5) := by
  unfold State.freePlanes
  repeat' (first | with_reducible assumption | with_reducible apply State.showStock_keeps
                 | with_reducible apply State.setJob_keeps | split)

theorem State.beginStash_keeps {s0 s : State} (h : Keeps s0 s) (a1 a2 a3) : Keeps s0 (State.beginStash s a1 a2 a3) := by
  unfold State.beginStash
  repeat' (first | with_reducible assumption | with_reducible apply State.modJob_keeps)

theorem State.startRun_keeps {s0 s : State} (h : Keeps s0 s) (a1 a2 a3 a4) : Keeps s0 (State.startRun s a1 a2 a3 a4) := by
  unfold State.startRun
  repeat' (first | with_reducible assumption | with_reducible apply State.setJob_keeps
                 | with_reducible apply State.zeroTails_keeps | with_reducible apply Keeps.on
                 | with_reducible apply State.record_keeps | with_reducible apply State.raise_keeps
                 | with_reducible apply State.countB_keeps | intro _ | extract_lets | split)

theorem State.waitRun_keeps {s0 s : State} (h : Keeps s0 s) (a1 a2 a3) : Keeps s0 (State.waitRun s a1 a2 a3) := by
  unfold State.waitRun
  repeat' (first | with_reducible assumption | with_reducible apply State.modRun_keeps | intro _
                 | with_reducible apply Keeps.ite)

theorem State.workFailed_keeps {s0 s : State} (h : Keeps s0 s) (a1 a2 a3 a4 a5 a6) : Keeps s0 (State.workFailed s a1 a2 a3 a4 a5 a6) := by
  unfold State.workFailed
  repeat' (first | with_reducible assumption | with_reducible apply State.stopeFailure_keeps
                 | with_reducible apply State.modRun_keeps | with_reducible apply State.record_keeps
                 | with_reducible apply State.raise_keeps | with_reducible apply State.count_keeps
                 | with_reducible apply State.recomputeFailed_keeps | intro _ | with_reducible apply Keeps.ite)

end Sys2Proof.Machine
end

