-- ==== Sys2Proof/Laws/KeepsStockpile.lean ====
section
/-!
SUPPORT. What the operations of Machine/Stockpile.lean keep (Laws/Keeps.lean).
-/

namespace Sys2Proof.Machine

theorem State.queueUnits_keeps {s0 s : State} (h : Keeps s0 s) (a1 a2 a3) : Keeps s0 (State.queueUnits s a1 a2 a3) := by
  unfold State.queueUnits
  repeat' (first | with_reducible assumption | with_reducible apply State.modRun_keeps
                 | with_reducible apply Keeps.each | with_reducible apply State.modStope_keeps | intro _)

theorem State.spillStash_keeps {s0 s : State} (h : Keeps s0 s) (a1 a2) : Keeps s0 (State.spillStash s a1 a2) := by
  unfold State.spillStash
  repeat' (first | with_reducible assumption | with_reducible apply State.modJob_keeps
                 | with_reducible apply State.showStock_keeps | with_reducible apply State.record_keeps
                 | with_reducible apply State.raiseStock_keeps | with_reducible apply State.countB_keeps)

theorem State.dropStash_keeps {s0 s : State} (h : Keeps s0 s) (a1 a2 a3) : Keeps s0 (State.dropStash s a1 a2 a3) := by
  unfold State.dropStash
  repeat' (first | with_reducible assumption | with_reducible apply State.setJob_keeps
                 | with_reducible apply State.record_keeps | with_reducible apply State.raiseStock_keeps
                 | with_reducible apply State.countB_keeps | split)

theorem State.stashDone_keeps {s0 s : State} (h : Keeps s0 s) (a1 a2 a3) : Keeps s0 (State.stashDone s a1 a2 a3) := by
  unfold State.stashDone
  repeat' (first | with_reducible assumption | with_reducible apply State.unitDone_keeps | split)

theorem State.placeStash_keeps {s0 s : State} (h : Keeps s0 s) (a0 a1 a2 a3) : Keeps s0 (State.placeStash a0 a1 a2 a3 s) := by
  induction a3 generalizing s a0 a1 a2 with
  | zero => unfold State.placeStash; repeat' (with_reducible assumption)
  | succ n ih => unfold State.placeStash; repeat' (first | with_reducible assumption
                                                         | with_reducible apply State.setJob_keeps
                                                         | with_reducible apply State.showStock_keeps
                                                         | with_reducible apply State.spillStash_keeps
                                                         | with_reducible apply State.dropStash_keeps
                                                         | with_reducible apply State.stashDone_keeps
                                                         | with_reducible apply ih | extract_lets | split)

theorem State.placeWaiting_keeps {s0 s : State} (h : Keeps s0 s) (a1) : Keeps s0 (State.placeWaiting s a1) := by
  unfold State.placeWaiting
  repeat' (first | with_reducible assumption | with_reducible apply Keeps.each
                 | with_reducible apply State.placeStash_keeps | intro _ | split)

theorem State.freeStash_keeps {s0 s : State} (h : Keeps s0 s) (a1 a2 a3 a4 a5) : Keeps s0 (State.freeStash s a1 a2 a3 a4 a5) := by
  unfold State.freeStash
  repeat' (first | with_reducible assumption | with_reducible apply State.placeWaiting_keeps
                 | with_reducible apply State.freePlanes_keeps)

theorem execStashWrite_keeps {s t : State} (a0 a1 a2) (h : execStashWrite a0 a1 a2 s = .next t) : Keeps s t := by
  unfold execStashWrite at h
  refine perform_keeps h ?_
  have hs := Keeps.refl s
  repeat' (first | with_reducible assumption | with_reducible apply State.placeStash_keeps | intro _
                 | with_reducible apply Keeps.ite | split)

theorem execSpillComplete_keeps {s t : State} (a0 a1 a2) (h : execSpillComplete a0 a1 a2 s = .next t) : Keeps s t := by
  unfold execSpillComplete at h
  refine perform_keeps h ?_
  have hs := Keeps.refl s
  repeat' (first | with_reducible assumption | with_reducible apply State.placeWaiting_keeps
                 | with_reducible apply State.tierTraffic_keeps | with_reducible apply State.showStock_keeps
                 | with_reducible apply State.setJob_keeps | intro _ | with_reducible apply Keeps.ite | split)

theorem State.runLayer_keeps {s0 s : State} (h : Keeps s0 s) (a1) : Keeps s0 (State.runLayer s a1) := by
  unfold State.runLayer
  repeat' (first | with_reducible assumption | with_reducible apply State.queueUnits_keeps
                 | with_reducible apply State.setJob_keeps | extract_lets | split)

theorem State.startRecompute_keeps {s0 s : State} (h : Keeps s0 s) (a1 a2 a3) : Keeps s0 (State.startRecompute s a1 a2 a3) := by
  unfold State.startRecompute
  repeat' (first | with_reducible assumption | with_reducible apply State.runLayer_keeps
                 | with_reducible apply State.setJob_keeps | intro _ | with_reducible apply Keeps.ite | split)

theorem execRecomputeRun_keeps {s t : State} (a0 a1) (h : execRecomputeRun a0 a1 s = .next t) : Keeps s t := by
  unfold execRecomputeRun at h
  refine perform_keeps h ?_
  have hs := Keeps.refl s
  repeat' (first | with_reducible assumption | with_reducible apply State.startRecompute_keeps | intro _
                 | with_reducible apply Keeps.ite | split)

theorem State.recomputeDone_keeps {s0 s : State} (h : Keeps s0 s) (a1 a2 a3) : Keeps s0 (State.recomputeDone s a1 a2 a3) := by
  unfold State.recomputeDone
  repeat' (first | with_reducible assumption | with_reducible apply Keeps.each | with_reducible apply Keeps.on
                 | with_reducible apply State.hoistDone_keeps | intro _ | extract_lets | split)

theorem State.layerRegenerated_keeps {s0 s : State} (h : Keeps s0 s) (a1) : Keeps s0 (State.layerRegenerated s a1) := by
  unfold State.layerRegenerated
  repeat' (first | with_reducible assumption | with_reducible apply State.showStock_keeps
                 | with_reducible apply State.setJob_keeps | with_reducible apply State.runLayer_keeps
                 | with_reducible apply Keeps.on | with_reducible apply State.recomputeDone_keeps | intro _ | split)

end Sys2Proof.Machine
end

