-- ==== Sys2Proof/Laws/KeepsCollar.lean ====
section
/-!
SUPPORT. What the operations of Machine/Collar.lean keep (Laws/Keeps.lean).
-/

namespace Sys2Proof.Machine

theorem State.overflows_keeps {s0 s : State} (h : Keeps s0 s) (a1 a2 a3 a4 a5) : Keeps s0 (State.overflows s a1 a2 a3 a4 a5) := by
  unfold State.overflows
  repeat' (first | with_reducible assumption | with_reducible apply State.modRun_keeps
                 | with_reducible apply State.modJob_keeps | with_reducible apply State.unsoundNotice_keeps
                 | with_reducible apply State.unsound_keeps | with_reducible apply State.record_keeps | intro _
                 | with_reducible apply Keeps.ite | extract_lets | split)

theorem State.writeOutputs_keeps {s0 s : State} (h : Keeps s0 s) (a1 a2 a3 a4 a5 a6 a7 a8 a9) : Keeps s0 (State.writeOutputs s a1 a2 a3 a4 a5 a6 a7 a8 a9).1 := by
  unfold State.writeOutputs
  repeat' (first | with_reducible assumption | with_reducible apply State.putRow_keeps
                 | with_reducible apply State.setJob_keeps | with_reducible apply State.countStp_keeps
                 | with_reducible apply State.parkRow_keeps | with_reducible apply State.modJob_keeps
                 | with_reducible apply State.record_keeps | with_reducible apply State.overflows_keeps | intro _
                 | with_reducible apply Keeps.ite | extract_lets | split)

theorem State.keepRegen_keeps {s0 s : State} (h : Keeps s0 s) (a1 a2 a3 a4 a5) : Keeps s0 (State.keepRegen s a1 a2 a3 a4 a5) := by
  unfold State.keepRegen
  repeat' (first | with_reducible assumption | with_reducible apply State.modJob_keeps)

theorem State.takeOutputs_keeps {s0 s : State} (h : Keeps s0 s) (a1 a2 a3 a4 a5 a6 a7 a8 a9) : Keeps s0 (State.takeOutputs s a1 a2 a3 a4 a5 a6 a7 a8 a9).1 := by
  unfold State.takeOutputs
  repeat' (first | with_reducible assumption | with_reducible apply State.setJob_keeps
                 | with_reducible apply State.keepRegen_keeps | with_reducible apply State.writeOutputs_keeps
                 | extract_lets | split)

theorem State.monitor_keeps {s0 s : State} (h : Keeps s0 s) (a1 a2 a3 a4) : Keeps s0 (State.monitor s a1 a2 a3 a4).1 := by
  unfold State.monitor
  repeat' (first | with_reducible assumption | with_reducible apply State.setJob_keeps | extract_lets | split)

end Sys2Proof.Machine
end

