-- ==== Sys2Proof/Laws/KeepsSeam.lean ====
section
/-!
SUPPORT. What the operations of Machine/Seam.lean keep (Laws/Keeps.lean).
-/

namespace Sys2Proof.Machine

theorem State.refuseSeam_keeps {s0 s : State} (h : Keeps s0 s) (a1 a2 a3 a4 a5) : Keeps s0 (State.refuseSeam s a1 a2 a3 a4 a5) := by
  unfold State.refuseSeam
  repeat' (first | with_reducible assumption | with_reducible apply State.record_keeps
                 | with_reducible apply State.unsound_keeps | with_reducible apply Keeps.on | intro _)

theorem State.queuePass_keeps {s0 s : State} (h : Keeps s0 s) (a1 a2 a3 a4 a5 a6 a7) : Keeps s0 (State.queuePass s a1 a2 a3 a4 a5 a6 a7) := by
  unfold State.queuePass
  repeat' (first | with_reducible assumption | with_reducible apply Keeps.each
                 | with_reducible apply State.modArr_keeps | intro _ | with_reducible apply Keeps.ite | extract_lets
                 | split)

theorem State.beginStashOf_keeps {s0 s : State} (h : Keeps s0 s) (a1 a2 a3) : Keeps s0 (State.beginStashOf s a1 a2 a3) := by
  unfold State.beginStashOf
  repeat' (first | with_reducible assumption | with_reducible apply State.setJob_keeps | intro _
                 | with_reducible apply Keeps.ite | split)

theorem State.refusePool_keeps {s0 s : State} (h : Keeps s0 s) (a1 a2 a3 a4 a5 a6) : Keeps s0 (State.refusePool s a1 a2 a3 a4 a5 a6) := by
  unfold State.refusePool
  repeat' (first | with_reducible assumption | with_reducible apply State.unsound_keeps
                 | with_reducible apply State.record_keeps | extract_lets | split)

theorem State.seamPass_keeps {s0 s : State} (h : Keeps s0 s) (a1 a2) : Keeps s0 (State.seamPass s a1 a2) := by
  unfold State.seamPass
  repeat' (first | with_reducible assumption | with_reducible apply Keeps.on
                 | with_reducible apply State.startRun_keeps | with_reducible apply State.startRecompute_keeps
                 | with_reducible apply State.hoistDone_keeps | with_reducible apply State.waitRun_keeps
                 | with_reducible apply State.refusePool_keeps | with_reducible apply State.readsTensor_keeps
                 | with_reducible apply State.queueUnits_keeps | with_reducible apply State.beginStashOf_keeps
                 | with_reducible apply State.refuseSeam_keeps | with_reducible apply State.queuePass_keeps | intro _
                 | with_reducible apply Keeps.ite | extract_lets | split)

theorem execSeamPass_keeps {s t : State} (a0 a1) (h : execSeamPass a0 a1 s = .next t) : Keeps s t := by
  unfold execSeamPass at h
  refine perform_keeps h ?_
  have hs := Keeps.refl s
  repeat' (first | with_reducible assumption | with_reducible apply State.seamPass_keeps)

theorem State.takeVector_keeps {s0 s : State} (h : Keeps s0 s) (a1 a2 a3 a4) : Keeps s0 (State.takeVector s a1 a2 a3 a4) := by
  unfold State.takeVector
  repeat' (first | with_reducible assumption | with_reducible apply State.modArr_keeps)

theorem State.noteReserved_keeps {s0 s : State} (h : Keeps s0 s) (a1 a2 a3 a4 a5 a6) : Keeps s0 (State.noteReserved s a1 a2 a3 a4 a5 a6) := by
  unfold State.noteReserved
  repeat' (first | with_reducible assumption | with_reducible apply State.record_keeps
                 | with_reducible apply State.modRun_keeps | intro _ | with_reducible apply Keeps.ite | split)

theorem State.noteColumns_keeps {s0 s : State} (h : Keeps s0 s) (a1 a2 a3 a4 a5 a6 a7 a8) : Keeps s0 (State.noteColumns s a1 a2 a3 a4 a5 a6 a7 a8) := by
  unfold State.noteColumns
  repeat' (first | with_reducible assumption | with_reducible apply State.noteReserved_keeps | extract_lets | split)

theorem State.vectorRead_keeps {s0 s : State} (h : Keeps s0 s) (a1 a2) : Keeps s0 (State.vectorRead s a1 a2) := by
  unfold State.vectorRead
  repeat' (first | with_reducible assumption | with_reducible apply State.count_keeps
                 | with_reducible apply State.noteColumns_keeps | with_reducible apply State.modArr_keeps
                 | with_reducible apply State.takeVector_keeps | intro _ | with_reducible apply Keeps.ite
                 | extract_lets | split)

theorem execVectorRead_keeps {s t : State} (a0 a1) (h : execVectorRead a0 a1 s = .next t) : Keeps s t := by
  unfold execVectorRead at h
  refine perform_keeps h ?_
  have hs := Keeps.refl s
  repeat' (first | with_reducible assumption | with_reducible apply State.vectorRead_keeps)

theorem State.rereads_keeps {s0 s : State} (h : Keeps s0 s) (a1 a2 a3 a4 a5 a6) : Keeps s0 (State.rereads s a1 a2 a3 a4 a5 a6) := by
  unfold State.rereads
  repeat' (first | with_reducible assumption | with_reducible apply State.meshDrop_keeps
                 | with_reducible apply State.modJob_keeps | with_reducible apply State.queuePass_keeps)

theorem State.vectorFailed_keeps {s0 s : State} (h : Keeps s0 s) (a1 a2 a3 a4 a5 a6 a7 a8 a9 a10) : Keeps s0 (State.vectorFailed s a1 a2 a3 a4 a5 a6 a7 a8 a9 a10) := by
  unfold State.vectorFailed
  repeat' (first | with_reducible assumption | with_reducible apply State.workFailed_keeps
                 | with_reducible apply State.unsoundNotice_keeps | with_reducible apply State.modJob_keeps
                 | with_reducible apply State.rereads_keeps | intro _ | with_reducible apply Keeps.ite)

theorem VecRead.count_keeps {s0 s : State} (h : Keeps s0 s) (a0 a2 a3 a4) : Keeps s0 (VecRead.count a0 s a2 a3 a4) := by
  unfold VecRead.count
  repeat' (first | with_reducible assumption | with_reducible apply State.countSealed_keeps)

theorem VecRead.count64_keeps {s0 s : State} (h : Keeps s0 s) (a0 a2 a3 a4) : Keeps s0 (VecRead.count64 a0 s a2 a3 a4) := by
  unfold VecRead.count64
  repeat' (first | with_reducible assumption | with_reducible apply State.countSealed64_keeps)

theorem State.witnessFailed_keeps {s0 s : State} (h : Keeps s0 s) (a1 a2 a3 a4 a5) : Keeps s0 (State.witnessFailed s a1 a2 a3 a4 a5) := by
  unfold State.witnessFailed
  repeat' (first | with_reducible assumption | with_reducible apply State.stageEvent_keeps
                 | with_reducible apply VecRead.count_keeps | with_reducible apply State.raise_keeps
                 | with_reducible apply State.wr_keeps | with_reducible apply State.recordSealed_keeps
                 | with_reducible apply State.vectorFailed_keeps)

theorem State.rowSaturated_keeps {s0 s : State} (h : Keeps s0 s) (a1 a2 a3 a4 a5) : Keeps s0 (State.rowSaturated s a1 a2 a3 a4 a5) := by
  unfold State.rowSaturated
  repeat' (first | with_reducible assumption | with_reducible apply State.stageEvent_keeps
                 | with_reducible apply VecRead.count_keeps | with_reducible apply State.drawn_keeps
                 | with_reducible apply State.raise_keeps | with_reducible apply State.wr_keeps
                 | with_reducible apply State.recordSealed_keeps | with_reducible apply State.vectorFailed_keeps)

theorem State.sendPartial_keeps {s0 s : State} (h : Keeps s0 s) (a1 a2 a3) : Keeps s0 (State.sendPartial s a1 a2 a3) := by
  unfold State.sendPartial
  repeat' (first | with_reducible assumption | with_reducible apply State.meshSend_keeps | intro _
                 | with_reducible apply Keeps.ite | split)

theorem State.vectorDone_keeps {s0 s : State} (h : Keeps s0 s) (a1 a2 a3 a4) : Keeps s0 (State.vectorDone s a1 a2 a3 a4) := by
  unfold State.vectorDone
  repeat' (first | with_reducible assumption | with_reducible apply Keeps.on | with_reducible apply State.modJob_keeps
                 | with_reducible apply State.sendPartial_keeps | with_reducible apply VecRead.count64_keeps
                 | with_reducible apply VecRead.count_keeps | intro _)

theorem State.countPlanes_keeps {s0 s : State} (h : Keeps s0 s) (a1 a2 a3) : Keeps s0 (State.countPlanes s a1 a2 a3) := by
  unfold State.countPlanes
  repeat' (first | with_reducible assumption | with_reducible apply VecRead.count64_keeps
                 | with_reducible apply State.count_keeps | intro _ | with_reducible apply Keeps.ite)

theorem State.partDone_keeps {s0 s : State} (h : Keeps s0 s) (a1 a2 a3 a4) : Keeps s0 (State.partDone s a1 a2 a3 a4) := by
  unfold State.partDone
  repeat' (first | with_reducible assumption | with_reducible apply State.countPlanes_keeps
                 | with_reducible apply State.modArr_keeps | with_reducible apply State.witnessFailed_keeps
                 | with_reducible apply State.rowSaturated_keeps | with_reducible apply Keeps.on
                 | with_reducible apply State.stageEvent_keeps | with_reducible apply VecRead.count_keeps
                 | with_reducible apply State.modRun_keeps | with_reducible apply State.vectorDone_keeps | intro _
                 | with_reducible apply Keeps.ite | extract_lets | split)

theorem execVectorReadDone_keeps {s t : State} (a0 a1 a2) (h : execVectorReadDone a0 a1 a2 s = .next t) : Keeps s t := by
  unfold execVectorReadDone at h
  refine perform_keeps h ?_
  have hs := Keeps.refl s
  repeat' (first | with_reducible assumption | with_reducible apply State.partDone_keeps)

theorem execSplitPartRead_keeps {s t : State} (a0 a1 a2) (h : execSplitPartRead a0 a1 a2 s = .next t) : Keeps s t := by
  unfold execSplitPartRead at h
  refine perform_keeps h ?_
  have hs := Keeps.refl s
  repeat' (first | with_reducible assumption | with_reducible apply State.partDone_keeps)

theorem State.zeroVec_keeps {s0 s : State} (h : Keeps s0 s) (a1 a2) : Keeps s0 (State.zeroVec s a1 a2) := by
  unfold State.zeroVec
  repeat' (first | with_reducible assumption | with_reducible apply State.vectorDone_keeps
                 | with_reducible apply State.takeVector_keeps | intro _ | with_reducible apply Keeps.ite
                 | extract_lets | split)

theorem execZeroVector_keeps {s t : State} (a0 a1) (h : execZeroVector a0 a1 s = .next t) : Keeps s t := by
  unfold execZeroVector at h
  refine perform_keeps h ?_
  have hs := Keeps.refl s
  repeat' (first | with_reducible assumption | with_reducible apply State.zeroVec_keeps)

theorem State.partialArrives_keeps {s0 s : State} (h : Keeps s0 s) (a1 a2 a3 a4 a5) : Keeps s0 (State.partialArrives s a1 a2 a3 a4 a5) := by
  unfold State.partialArrives
  repeat' (first | with_reducible assumption | with_reducible apply State.modJob_keeps
                 | with_reducible apply State.meshLand_keeps | intro _ | with_reducible apply Keeps.ite | extract_lets
                 | split)

theorem execChainPartial_keeps {s t : State} (a0 a1 a2 a3 a4) (h : execChainPartial a0 a1 a2 a3 a4 s = .next t) : Keeps s t := by
  unfold execChainPartial at h
  refine perform_keeps h ?_
  have hs := Keeps.refl s
  repeat' (first | with_reducible assumption | with_reducible apply State.partialArrives_keeps)

theorem execHewerReliefTile_keeps {s t : State} (a0 a1 a2 a3 a4) (h : execHewerReliefTile a0 a1 a2 a3 a4 s = .next t) : Keeps s t := by
  unfold execHewerReliefTile at h
  refine perform_keeps h ?_
  have hs := Keeps.refl s
  repeat' (first | with_reducible assumption | with_reducible apply State.noteReserved_keeps
                 | with_reducible apply State.sendPartial_keeps | with_reducible apply State.modJob_keeps | intro _
                 | with_reducible apply Keeps.ite | extract_lets y0 y1 y2 y3 y4 | split
                 | (guard_target =ₛ Keeps s y4; unfold y4))

theorem State.releaseVector_keeps {s0 s : State} (h : Keeps s0 s) (a1 a2 a3 a4 a5 a6 a7 a8 a9) : Keeps s0 (State.releaseVector s a1 a2 a3 a4 a5 a6 a7 a8 a9) := by
  unfold State.releaseVector
  repeat' (first | with_reducible assumption | with_reducible apply State.meshDrop_keeps
                 | with_reducible apply State.modJob_keeps | with_reducible apply Keeps.on
                 | with_reducible apply State.count_keeps | with_reducible apply State.takeOutputs_keeps
                 | with_reducible apply State.dropWork_keeps | with_reducible apply State.queuePass_keeps
                 | with_reducible apply State.modRun_keeps | with_reducible apply State.unitDone_keeps | intro _
                 | with_reducible apply Keeps.ite | extract_lets | split)

theorem State.headOutput_keeps {s0 s : State} (h : Keeps s0 s) (a1 a2 a3 a4 a5) : Keeps s0 (State.headOutput s a1 a2 a3 a4 a5) := by
  unfold State.headOutput
  repeat' (first | with_reducible assumption | with_reducible apply State.vectorFailed_keeps
                 | with_reducible apply State.monitor_keeps | with_reducible apply State.releaseVector_keeps
                 | with_reducible apply State.modJob_keeps | intro _ | with_reducible apply Keeps.ite | extract_lets
                 | split)

theorem execHeadCollarOutput_keeps {s t : State} (a0 a1 a2 a3 a4) (h : execHeadCollarOutput a0 a1 a2 a3 a4 s = .next t) : Keeps s t := by
  unfold execHeadCollarOutput at h
  refine perform_keeps h ?_
  have hs := Keeps.refl s
  repeat' (first | with_reducible assumption | with_reducible apply State.headOutput_keeps)

theorem State.rangeRecheck_keeps {s0 s : State} (h : Keeps s0 s) (a1 a2 a3 a4) : Keeps s0 (State.rangeRecheck s a1 a2 a3 a4) := by
  unfold State.rangeRecheck
  repeat' (first | with_reducible assumption | with_reducible apply Keeps.each
                 | with_reducible apply State.noteColumns_keeps | with_reducible apply State.record_keeps
                 | with_reducible apply State.count_keeps | with_reducible apply State.releaseVector_keeps
                 | with_reducible apply State.recordSealed_keeps | with_reducible apply State.raise_keeps
                 | with_reducible apply State.vectorFailed_keeps | intro _ | extract_lets | split
                 | ((conv => arg 2; zeta); split))

theorem execRangeRecheck_keeps {s t : State} (a0 a1 a2 a3) (h : execRangeRecheck a0 a1 a2 a3 s = .next t) : Keeps s t := by
  unfold execRangeRecheck at h
  refine perform_keeps h ?_
  have hs := Keeps.refl s
  repeat' (first | with_reducible assumption | with_reducible apply State.rangeRecheck_keeps)

end Sys2Proof.Machine
end

