-- ==== Sys2Proof/Laws/KeepsHewer.lean ====
section
/-!
SUPPORT. What the operations of Machine/Hewer.lean keep (Laws/Keeps.lean).
-/

namespace Sys2Proof.Machine

theorem State.hewHoist_keeps {s0 s : State} (h : Keeps s0 s) (a1 a2 a3 a4) : Keeps s0 (State.hewHoist s a1 a2 a3 a4) := by
  unfold State.hewHoist
  repeat' (first | with_reducible assumption | with_reducible apply State.waitRun_keeps
                 | with_reducible apply State.queueUnits_keeps | with_reducible apply State.startRun_keeps
                 | with_reducible apply State.readsTensor_keeps | intro _ | with_reducible apply Keeps.ite | split)

theorem execHewDx_keeps {s t : State} (a0 a1) (h : execHewDx a0 a1 s = .next t) : Keeps s t := by
  unfold execHewDx at h
  refine perform_keeps h ?_
  have hs := Keeps.refl s
  repeat' (first | with_reducible assumption | with_reducible apply State.hewHoist_keeps)

theorem execHewDw_keeps {s t : State} (a0 a1) (h : execHewDw a0 a1 s = .next t) : Keeps s t := by
  unfold execHewDw at h
  refine perform_keeps h ?_
  have hs := Keeps.refl s
  repeat' (first | with_reducible assumption | with_reducible apply State.hewHoist_keeps)

theorem State.noteReservedCode_keeps {s0 s : State} (h : Keeps s0 s) (a1 a2 a3 a4 a5) : Keeps s0 (State.noteReservedCode s a1 a2 a3 a4 a5) := by
  unfold State.noteReservedCode
  repeat' (first | with_reducible assumption | with_reducible apply State.record_keeps
                 | with_reducible apply State.modRun_keeps | intro _ | with_reducible apply Keeps.ite | extract_lets
                 | split)

theorem State.setTile_keeps {s0 s : State} (h : Keeps s0 s) (a1 a2) : Keeps s0 (State.setTile s a1 a2) := by
  unfold State.setTile
  repeat' (first | with_reducible assumption | with_reducible apply State.modStope_keeps)

theorem State.skipLeaves_keeps {s0 s : State} (h : Keeps s0 s) (a0 a1) : Keeps s0 (State.skipLeaves a0 a1 s) := by
  induction a1 generalizing s a0 with
  | zero => unfold State.skipLeaves; repeat' (with_reducible assumption)
  | succ n ih => unfold State.skipLeaves; repeat' (first | with_reducible assumption
                                                         | with_reducible apply State.countStp_keeps
                                                         | with_reducible apply State.setTile_keeps
                                                         | with_reducible apply ih | extract_lets | split)

theorem State.afterLeaf_keeps {s0 s : State} (h : Keeps s0 s) (a1) : Keeps s0 (State.afterLeaf s a1) := by
  unfold State.afterLeaf
  repeat' (first | with_reducible assumption | with_reducible apply State.skipLeaves_keeps
                 | with_reducible apply Keeps.on | with_reducible apply State.modStope_keeps | intro _ | extract_lets
                 | split)

theorem State.beginRead_keeps {s0 s : State} (h : Keeps s0 s) (a1 a2 a3 a4) : Keeps s0 (State.beginRead s a1 a2 a3 a4) := by
  unfold State.beginRead
  repeat' (first | with_reducible assumption | with_reducible apply State.beginStash_keeps | split)

theorem State.tileStart_keeps {s0 s : State} (h : Keeps s0 s) (a1) : Keeps s0 (State.tileStart s a1) := by
  unfold State.tileStart
  repeat' (first | with_reducible assumption | with_reducible apply State.count_keeps
                 | with_reducible apply State.modStope_keeps | with_reducible apply State.setFld_keeps
                 | with_reducible apply State.afterLeaf_keeps | with_reducible apply State.beginRead_keeps
                 | with_reducible apply State.noteReservedCode_keeps | intro _ | with_reducible apply Keeps.ite
                 | extract_lets | split)

theorem execTileStart_keeps {s t : State} (a0) (h : execTileStart a0 s = .next t) : Keeps s t := by
  unfold execTileStart at h
  refine perform_keeps h ?_
  have hs := Keeps.refl s
  repeat' (first | with_reducible assumption | with_reducible apply State.tileStart_keeps)

theorem State.showCheck_keeps {s0 s : State} (h : Keeps s0 s) (a1 a2 a3 a4 a5 a6 a7) : Keeps s0 (State.showCheck s a1 a2 a3 a4 a5 a6 a7) := by
  unfold State.showCheck
  repeat' (first | with_reducible assumption | with_reducible apply State.raise_keeps
                 | with_reducible apply State.wr_keeps)

theorem State.tileFailed_keeps {s0 s : State} (h : Keeps s0 s) (a1 a2 a3 a4) : Keeps s0 (State.tileFailed s a1 a2 a3 a4) := by
  unfold State.tileFailed
  repeat' (first | with_reducible assumption | with_reducible apply State.unsoundNotice_keeps
                 | with_reducible apply State.stageStp_keeps | with_reducible apply State.countStp_keeps
                 | with_reducible apply State.modStope_keeps | with_reducible apply State.workFailed_keeps | intro _
                 | with_reducible apply Keeps.ite)

theorem State.noteMiss_keeps {s0 s : State} (h : Keeps s0 s) (a1 a2 a3 a4 a5) : Keeps s0 (State.noteMiss s a1 a2 a3 a4 a5) := by
  unfold State.noteMiss
  repeat' (first | with_reducible assumption | with_reducible apply State.showCheck_keeps
                 | with_reducible apply State.recordSealed_keeps)

theorem State.noteSat_keeps {s0 s : State} (h : Keeps s0 s) (a1 a2 a3) : Keeps s0 (State.noteSat s a1 a2 a3) := by
  unfold State.noteSat
  repeat' (first | with_reducible assumption | with_reducible apply State.wr_keeps
                 | with_reducible apply State.stageStp_keeps | with_reducible apply State.countStp_keeps
                 | with_reducible apply State.record_keeps | with_reducible apply State.raise_keeps)

theorem State.noteOther_keeps {s0 s : State} (h : Keeps s0 s) (a1 a2 a3 a4) : Keeps s0 (State.noteOther s a1 a2 a3 a4) := by
  unfold State.noteOther
  repeat' (first | with_reducible assumption | with_reducible apply State.showCheck_keeps
                 | with_reducible apply State.drawn_keeps | split)

theorem State.noteDup_keeps {s0 s : State} (h : Keeps s0 s) (a1 a2 a3 a4) : Keeps s0 (State.noteDup s a1 a2 a3 a4) := by
  unfold State.noteDup
  repeat' (first | with_reducible assumption | with_reducible apply State.wr_keeps
                 | with_reducible apply State.stageStp_keeps | with_reducible apply State.countStp_keeps
                 | with_reducible apply State.drawn_keeps | with_reducible apply State.record_keeps
                 | with_reducible apply State.raise_keeps)

theorem State.noteNonfinite_keeps {s0 s : State} (h : Keeps s0 s) (a1 a2 a3 a4) : Keeps s0 (State.noteNonfinite s a1 a2 a3 a4) := by
  unfold State.noteNonfinite
  repeat' (first | with_reducible assumption | with_reducible apply State.record_keeps
                 | with_reducible apply State.modRun_keeps | intro _ | with_reducible apply Keeps.ite)

theorem State.leafEnd_keeps {s0 s : State} (h : Keeps s0 s) (a1 a2 a3) : Keeps s0 (State.leafEnd s a1 a2 a3) := by
  unfold State.leafEnd
  repeat' (first | with_reducible assumption | with_reducible apply State.noteNonfinite_keeps
                 | with_reducible apply State.countStp64_keeps | with_reducible apply State.noteMiss_keeps
                 | with_reducible apply Keeps.each | with_reducible apply State.noteSat_keeps
                 | with_reducible apply State.noteDup_keeps | with_reducible apply State.drawn_keeps
                 | with_reducible apply State.tileFailed_keeps | with_reducible apply State.noteOther_keeps
                 | with_reducible apply State.afterLeaf_keeps | with_reducible apply State.setTile_keeps | intro _
                 | with_reducible apply Keeps.ite | extract_lets | split)

theorem execLeafEnd_keeps {s t : State} (a0 a1 a2) (h : execLeafEnd a0 a1 a2 s = .next t) : Keeps s t := by
  unfold execLeafEnd at h
  refine perform_keeps h ?_
  have hs := Keeps.refl s
  repeat' (first | with_reducible assumption | with_reducible apply State.leafEnd_keeps)

theorem State.drainRow_keeps {s0 s : State} (h : Keeps s0 s) (a1 a2 a3 a4 a5 a6 a7 a8 a9 a10) : Keeps s0 (State.drainRow s a1 a2 a3 a4 a5 a6 a7 a8 a9 a10) := by
  unfold State.drainRow
  repeat' (first | with_reducible assumption | with_reducible apply State.putRow_keeps
                 | with_reducible apply State.setJob_keeps | with_reducible apply State.modJob_keeps
                 | with_reducible apply State.parkRow_keeps | with_reducible apply Keeps.on
                 | with_reducible apply State.overflows_keeps | intro _ | split)

theorem State.putNodes_keeps {s0 s : State} (h : Keeps s0 s) (a1 a2 a3 a4) : Keeps s0 (State.putNodes s a1 a2 a3 a4) := by
  unfold State.putNodes
  repeat' (first | with_reducible assumption | with_reducible apply State.park_keeps | with_reducible apply Keeps.each
                 | with_reducible apply State.wrNat_keeps | intro _)

theorem State.putRootRow_keeps {s0 s : State} (h : Keeps s0 s) (a1 a2 a3 a4 a5 a6 a7 a8) : Keeps s0 (State.putRootRow s a1 a2 a3 a4 a5 a6 a7 a8) := by
  unfold State.putRootRow
  repeat' (first | with_reducible assumption | with_reducible apply State.putNodes_keeps)

theorem State.drainDxTile_keeps {s0 s : State} (h : Keeps s0 s) (a1 a2 a3 a4 a5 a6 a7 a8 a9) : Keeps s0 (State.drainDxTile s a1 a2 a3 a4 a5 a6 a7 a8 a9) := by
  unfold State.drainDxTile
  repeat' (first | with_reducible assumption | with_reducible apply Keeps.each
                 | with_reducible apply State.putRootRow_keeps | with_reducible apply State.drainRow_keeps | intro _
                 | extract_lets | split)

theorem State.drainDwTile_keeps {s0 s : State} (h : Keeps s0 s) (a1 a2 a3 a4 a5 a6 a7 a8 a9) : Keeps s0 (State.drainDwTile s a1 a2 a3 a4 a5 a6 a7 a8 a9) := by
  unfold State.drainDwTile
  repeat' (first | with_reducible assumption | with_reducible apply Keeps.each
                 | with_reducible apply State.drainRow_keeps | intro _)

theorem State.drainFwdTile_keeps {s0 s : State} (h : Keeps s0 s) (a1 a2 a3 a4 a5 a6 a7 a8 a9 a10) : Keeps s0 (State.drainFwdTile s a1 a2 a3 a4 a5 a6 a7 a8 a9 a10).1 := by
  unfold State.drainFwdTile
  repeat' (first | with_reducible assumption | with_reducible apply State.takeOutputs_keeps | intro _
                 | with_reducible apply Keeps.foldlFst)

theorem State.repeatTiles_keeps {s0 s : State} (h : Keeps s0 s) (a1 a2 a3) : Keeps s0 (State.repeatTiles s a1 a2 a3) := by
  unfold State.repeatTiles
  repeat' (first | with_reducible assumption | with_reducible apply State.modJob_keeps
                 | with_reducible apply State.dropWork_keeps | with_reducible apply State.queueUnits_keeps
                 | with_reducible apply State.modRun_keeps)

theorem State.afterHoist_keeps {s0 s : State} (h : Keeps s0 s) (a1 a2 a3 a4 a5) : Keeps s0 (State.afterHoist s a1 a2 a3 a4 a5) := by
  unfold State.afterHoist
  repeat' (first | with_reducible assumption | with_reducible apply Keeps.on
                 | with_reducible apply State.freeStash_keeps | with_reducible apply State.layerRegenerated_keeps
                 | intro _ | with_reducible apply Keeps.ite | extract_lets | split)

theorem State.drainTile_keeps {s0 s : State} (h : Keeps s0 s) (a1 a2 a3 a4 a5 a6 a7) : Keeps s0 (State.drainTile s a1 a2 a3 a4 a5 a6 a7) := by
  unfold State.drainTile
  repeat' (first | with_reducible assumption | with_reducible apply Keeps.on | with_reducible apply State.count_keeps
                 | with_reducible apply State.afterHoist_keeps | with_reducible apply State.unitDone_keeps
                 | with_reducible apply State.countStp_keeps | with_reducible apply State.drainDxTile_keeps
                 | with_reducible apply State.drainDwTile_keeps | with_reducible apply State.drainFwdTile_keeps
                 | with_reducible apply State.repeatTiles_keeps | intro _ | with_reducible apply Keeps.ite
                 | extract_lets | split)

theorem State.joinParts_keeps {s0 s : State} (h : Keeps s0 s) (a1 a2 a3 a4) : Keeps s0 (State.joinParts s a1 a2 a3 a4) := by
  unfold State.joinParts
  repeat' (first | with_reducible assumption | with_reducible apply State.setJob_keeps
                 | with_reducible apply State.tileFailed_keeps | with_reducible apply State.noteOther_keeps
                 | with_reducible apply State.noteDup_keeps | with_reducible apply State.drawn_keeps
                 | with_reducible apply State.drainTile_keeps | with_reducible apply State.meshDrop_keeps | intro _
                 | with_reducible apply Keeps.ite | split)

theorem State.rootArrives_keeps {s0 s : State} (h : Keeps s0 s) (a1 a2 a3 a4) : Keeps s0 (State.rootArrives s a1 a2 a3 a4) := by
  unfold State.rootArrives
  repeat' (first | with_reducible assumption | with_reducible apply State.joinParts_keeps
                 | with_reducible apply State.modJob_keeps | with_reducible apply State.meshLand_keeps | intro _
                 | with_reducible apply Keeps.ite | split)

theorem execPartRootArrival_keeps {s t : State} (a0 a1 a2) (h : execPartRootArrival a0 a1 a2 s = .next t) : Keeps s t := by
  unfold execPartRootArrival at h
  refine perform_keeps h ?_
  have hs := Keeps.refl s
  repeat' (first | with_reducible assumption | with_reducible apply State.rootArrives_keeps)

theorem State.tileDrain_keeps {s0 s : State} (h : Keeps s0 s) (a1 a2) : Keeps s0 (State.tileDrain s a1 a2) := by
  unfold State.tileDrain
  repeat' (first | with_reducible assumption | with_reducible apply State.wr_keeps
                 | with_reducible apply State.tileFailed_keeps | with_reducible apply State.noteOther_keeps
                 | with_reducible apply State.noteDup_keeps | with_reducible apply State.modStope_keeps
                 | with_reducible apply State.drainTile_keeps | with_reducible apply State.modJob_keeps
                 | with_reducible apply Keeps.on | with_reducible apply State.meshSend_keeps
                 | with_reducible apply State.joinParts_keeps | intro _ | with_reducible apply Keeps.ite
                 | extract_lets | split)

theorem execTileDrain_keeps {s t : State} (a0 a1) (h : execTileDrain a0 a1 s = .next t) : Keeps s t := by
  unfold execTileDrain at h
  refine perform_keeps h ?_
  have hs := Keeps.refl s
  repeat' (first | with_reducible assumption | with_reducible apply State.tileDrain_keeps)

end Sys2Proof.Machine
end

