-- ==== Sys2Proof/Laws/KeepsMovers.lean ====
section
/-!
SUPPORT. What the operations of Machine/Movers.lean keep (Laws/Keeps.lean).
-/

namespace Sys2Proof.Machine

theorem execIdle_keeps {s t : State} (a0 a1) (h : execIdle a0 a1 s = .next t) : Keeps s t := by
  unfold execIdle at h
  refine perform_keeps h ?_
  have hs := Keeps.refl s
  repeat' (first | with_reducible assumption | with_reducible apply State.startRun_keeps | split)

theorem execIdleEnd_keeps {s t : State} (a0 a1) (h : execIdleEnd a0 a1 s = .next t) : Keeps s t := by
  unfold execIdleEnd at h
  refine perform_keeps h ?_
  have hs := Keeps.refl s
  repeat' (first | with_reducible assumption | with_reducible apply State.unitDone_keeps | intro _
                 | with_reducible apply Keeps.ite | split)

theorem State.putWideIn_keeps {s0 s : State} (h : Keeps s0 s) (a1 a2 a3 a4 a5 a6) : Keeps s0 (State.putWideIn s a1 a2 a3 a4 a5 a6).1 := by
  unfold State.putWideIn
  repeat' (first | with_reducible assumption | with_reducible apply State.putRow_keeps
                 | with_reducible apply State.parkRow_keeps | with_reducible apply State.modJob_keeps | intro _
                 | with_reducible apply Keeps.foldlFst)

theorem State.serveWide_keeps {s0 s : State} (h : Keeps s0 s) (a0 a1 a2 a3 a4 a5 a6 a7 a8 a9) : Keeps s0 (State.serveWide a0 a1 a2 a3 a4 a5 a6 a7 a8 a9 s) := by
  induction a8 generalizing s a0 a1 a2 a3 a4 a5 a6 a7 a9 with
  | zero => unfold State.serveWide; repeat' (first | with_reducible assumption
                                                   | with_reducible apply State.putWideIn_keeps)
  | succ n ih => unfold State.serveWide; repeat' (first | with_reducible assumption
                                                        | with_reducible apply State.modJob_keeps
                                                        | with_reducible apply State.record_keeps
                                                        | with_reducible apply State.putWideIn_keeps
                                                        | with_reducible apply ih | extract_lets | split)

theorem State.putWide_keeps {s0 s : State} (h : Keeps s0 s) (a1 a2 a3 a4 a5 a6) : Keeps s0 (State.putWide s a1 a2 a3 a4 a5 a6) := by
  unfold State.putWide
  repeat' (first | with_reducible assumption | with_reducible apply State.serveWide_keeps
                 | with_reducible apply State.putWideIn_keeps | with_reducible apply State.modJob_keeps
                 | with_reducible apply Keeps.on | with_reducible apply State.overflows_keeps | intro _
                 | with_reducible apply Keeps.ite)

theorem State.freeTop_keeps {s0 s : State} (h : Keeps s0 s) (a1 a2) : Keeps s0 (State.freeTop s a1 a2) := by
  unfold State.freeTop
  repeat' (first | with_reducible assumption | with_reducible apply Keeps.on
                 | with_reducible apply State.freeStash_keeps | intro _ | extract_lets | split)

theorem State.wideOp_keeps {s0 s : State} (h : Keeps s0 s) (a1 a2 a3 a4) : Keeps s0 (State.wideOp s a1 a2 a3 a4) := by
  unfold State.wideOp
  repeat' (first | with_reducible assumption | with_reducible apply State.waitRun_keeps
                 | with_reducible apply State.beginStash_keeps | with_reducible apply Keeps.on
                 | with_reducible apply State.startRun_keeps | with_reducible apply State.readsTensor_keeps
                 | with_reducible apply State.drawn_keeps | with_reducible apply State.raise_keeps
                 | with_reducible apply State.stageStp_keeps | with_reducible apply State.countStp_keeps
                 | with_reducible apply State.record_keeps | with_reducible apply State.modRun_keeps
                 | with_reducible apply State.workFailed_keeps | with_reducible apply State.unsoundNotice_keeps
                 | with_reducible apply State.putWide_keeps | with_reducible apply State.count_keeps
                 | with_reducible apply State.freeTop_keeps | with_reducible apply State.unitDone_keeps | intro _
                 | with_reducible apply Keeps.ite | extract_lets | split)

theorem execWideOp_keeps {s t : State} (a0 a1 a2 a3) (h : execWideOp a0 a1 a2 a3 s = .next t) : Keeps s t := by
  unfold execWideOp at h
  refine perform_keeps h ?_
  have hs := Keeps.refl s
  repeat' (first | with_reducible assumption | with_reducible apply State.wideOp_keeps)

theorem State.sendVia_keeps {s0 s : State} (h : Keeps s0 s) (a1 a2) : Keeps s0 (State.sendVia s a1 a2) := by
  unfold State.sendVia
  repeat' (first | with_reducible assumption | with_reducible apply State.sendMsg_keeps
                 | with_reducible apply State.queueOn_keeps | intro _ | with_reducible apply Keeps.ite | exact le_rfl
                 | extract_lets | with_reducible apply Keeps.mk')

theorem State.sendBlocks_keeps {s0 s : State} (h : Keeps s0 s) (a1 a2 a3 a4 a5 a6 a7 a8) : Keeps s0 (State.sendBlocks s a1 a2 a3 a4 a5 a6 a7 a8) := by
  unfold State.sendBlocks
  repeat' (first | with_reducible assumption | with_reducible apply Keeps.each
                 | with_reducible apply State.sendVia_keeps | intro _ | exact le_rfl | extract_lets
                 | with_reducible apply Keeps.mk')

theorem State.tryRecvs_keeps {s0 s : State} (h : Keeps s0 s) (a1) : Keeps s0 (State.tryRecvs s a1) := by
  unfold State.tryRecvs
  repeat' (first | with_reducible assumption | with_reducible apply Keeps.each | with_reducible apply Keeps.on
                 | with_reducible apply State.unitDone_keeps | intro _ | split)

theorem State.landNow_keeps {s0 s : State} (h : Keeps s0 s) (a1 a2 a3 a4 a5) : Keeps s0 (State.landNow s a1 a2 a3 a4 a5) := by
  unfold State.landNow
  repeat' (first | with_reducible assumption | with_reducible apply Keeps.each | with_reducible apply Keeps.wrBytes
                 | with_reducible apply State.setMark_keeps | with_reducible apply State.tryRecvs_keeps
                 | with_reducible apply State.modJob_keeps | intro _ | with_reducible apply Keeps.ite | exact le_rfl
                 | extract_lets | split | with_reducible apply Keeps.mk')

theorem State.landHeld_keeps {s0 s : State} (h : Keeps s0 s) : Keeps s0 (State.landHeld s) := by
  unfold State.landHeld
  repeat' (first | with_reducible assumption | with_reducible apply Keeps.each
                 | with_reducible apply State.landNow_keeps | intro _ | exact le_rfl | extract_lets y0 | split
                 | (guard_target =ₛ Keeps s0 y0; unfold y0) | with_reducible apply Keeps.mk')

theorem State.landBlocks_keeps {s0 s : State} (h : Keeps s0 s) (a1 a2 a3 a4 a5) : Keeps s0 (State.landBlocks s a1 a2 a3 a4 a5) := by
  unfold State.landBlocks
  repeat' (first | with_reducible assumption | with_reducible apply State.landNow_keeps
                 | with_reducible apply State.landHeld_keeps | with_reducible apply Keeps.each
                 | with_reducible apply State.meshSend_keeps | intro _ | exact le_rfl | extract_lets | split
                 | with_reducible apply Keeps.mk')

theorem State.sendHoist_keeps {s0 s : State} (h : Keeps s0 s) (a1 a2) : Keeps s0 (State.sendHoist s a1 a2) := by
  unfold State.sendHoist
  repeat' (first | with_reducible assumption | with_reducible apply State.waitRun_keeps
                 | with_reducible apply State.startRun_keeps | with_reducible apply State.readsTensor_keeps
                 | with_reducible apply State.hoistDone_keeps | with_reducible apply State.landBlocks_keeps
                 | with_reducible apply State.sendBlocks_keeps | with_reducible apply State.sendMsg_keeps | intro _
                 | with_reducible apply Keeps.ite | extract_lets | split)

theorem execSend_keeps {s t : State} (a0 a1) (h : execSend a0 a1 s = .next t) : Keeps s t := by
  unfold execSend at h
  refine perform_keeps h ?_
  have hs := Keeps.refl s
  repeat' (first | with_reducible assumption | with_reducible apply State.sendHoist_keeps)

theorem State.recvHoist_keeps {s0 s : State} (h : Keeps s0 s) (a1 a2) : Keeps s0 (State.recvHoist s a1 a2) := by
  unfold State.recvHoist
  repeat' (first | with_reducible assumption | with_reducible apply State.startRun_keeps
                 | with_reducible apply State.unitDone_keeps | with_reducible apply State.chargeLate_keeps
                 | with_reducible apply State.unsound_keeps | intro _ | with_reducible apply Keeps.ite | extract_lets
                 | split)

theorem execRecv_keeps {s t : State} (a0 a1) (h : execRecv a0 a1 s = .next t) : Keeps s t := by
  unfold execRecv at h
  refine perform_keeps h ?_
  have hs := Keeps.refl s
  repeat' (first | with_reducible assumption | with_reducible apply State.recvHoist_keeps)

theorem State.putGathered_keeps {s0 s : State} (h : Keeps s0 s) (a1 a2 a3 a4 a5 a6) : Keeps s0 (State.putGathered s a1 a2 a3 a4 a5 a6) := by
  unfold State.putGathered
  repeat' (first | with_reducible assumption | with_reducible apply State.putRow_keeps
                 | with_reducible apply State.parkRow_keeps | with_reducible apply State.setJob_keeps
                 | with_reducible apply State.modJob_keeps | with_reducible apply Keeps.on
                 | with_reducible apply State.overflows_keeps | intro _ | with_reducible apply Keeps.foldlFst)

theorem State.drainElem_keeps {s0 s : State} (h : Keeps s0 s) (a1 a2 a3 a4 a5 a6 a7 a8 a9) : Keeps s0 (State.drainElem s a1 a2 a3 a4 a5 a6 a7 a8 a9) := by
  unfold State.drainElem
  repeat' (first | with_reducible assumption | with_reducible apply State.putElem_keeps
                 | with_reducible apply State.setJob_keeps | with_reducible apply State.modJob_keeps
                 | with_reducible apply State.parkRow_keeps | with_reducible apply Keeps.on
                 | with_reducible apply State.overflows_keeps | intro _ | split)

theorem State.putReducedDx_keeps {s0 s : State} (h : Keeps s0 s) (a1 a2 a3 a4 a5 a6 a7) : Keeps s0 (State.putReducedDx s a1 a2 a3 a4 a5 a6 a7) := by
  unfold State.putReducedDx
  repeat' (first | with_reducible assumption | with_reducible apply Keeps.each
                 | with_reducible apply State.drainElem_keeps | with_reducible apply Keeps.on
                 | with_reducible apply State.freeStash_keeps | intro _ | extract_lets | split)

theorem State.reduceHoist_keeps {s0 s : State} (h : Keeps s0 s) (a1 a2 a3) : Keeps s0 (State.reduceHoist s a1 a2 a3) := by
  unfold State.reduceHoist
  repeat' (first | with_reducible assumption | with_reducible apply State.waitRun_keeps
                 | with_reducible apply State.startRun_keeps | with_reducible apply State.readsTensor_keeps
                 | with_reducible apply Keeps.on | with_reducible apply State.sendBlocks_keeps
                 | with_reducible apply State.putNodes_keeps | with_reducible apply State.putGathered_keeps
                 | with_reducible apply State.putReducedDx_keeps | with_reducible apply State.unitDone_keeps | intro _
                 | with_reducible apply Keeps.ite | extract_lets | split)

theorem execReduce_keeps {s t : State} (a0 a1 a2) (h : execReduce a0 a1 a2 s = .next t) : Keeps s t := by
  unfold execReduce at h
  refine perform_keeps h ?_
  have hs := Keeps.refl s
  repeat' (first | with_reducible assumption | with_reducible apply State.reduceHoist_keeps)

theorem State.rejectMsg_keeps {s0 s : State} (h : Keeps s0 s) (a1 a2) : Keeps s0 (State.rejectMsg s a1 a2) := by
  unfold State.rejectMsg
  repeat' (first | with_reducible assumption | with_reducible apply State.record_keeps
                 | with_reducible apply State.modPeer_keeps | with_reducible apply State.count_keeps
                 | with_reducible apply State.quarantine_keeps | intro _ | with_reducible apply Keeps.ite)

theorem State.staleRole_keeps {s0 s : State} (h : Keeps s0 s) (a1 a2) : Keeps s0 (State.staleRole s a1 a2) := by
  unfold State.staleRole
  repeat' (first | with_reducible assumption | with_reducible apply State.record_keeps
                 | with_reducible apply State.raise_keeps | with_reducible apply State.count_keeps
                 | with_reducible apply State.sendMsg_keeps)

theorem State.hostBlocks_keeps {s0 s : State} (h : Keeps s0 s) (a1) : Keeps s0 (State.hostBlocks s a1) := by
  unfold State.hostBlocks
  repeat' (first | with_reducible assumption | with_reducible apply Keeps.each | with_reducible apply Keeps.wrBytes
                 | with_reducible apply State.setFld_keeps | intro _ | with_reducible apply Keeps.ite | exact le_rfl
                 | extract_lets | split | with_reducible apply Keeps.mk')

theorem State.giveImage_keeps {s0 s : State} (h : Keeps s0 s) (a1) : Keeps s0 (State.giveImage s a1) := by
  unfold State.giveImage
  repeat' (first | with_reducible assumption | with_reducible apply State.sendBlocks_keeps | extract_lets | split)

theorem State.takeImage_keeps {s0 s : State} (h : Keeps s0 s) (a1) : Keeps s0 (State.takeImage s a1) := by
  unfold State.takeImage
  repeat' (first | with_reducible assumption | with_reducible apply Keeps.each | with_reducible apply Keeps.wrBytes
                 | intro _ | with_reducible apply Keeps.ite | split)

theorem State.ckptMessage_keeps {s0 s : State} (h : Keeps s0 s) (a1) : Keeps s0 (State.ckptMessage s a1) := by
  unfold State.ckptMessage
  repeat' (first | with_reducible assumption | with_reducible apply State.giveImage_keeps
                 | with_reducible apply State.takeImage_keeps | with_reducible apply State.hostBlocks_keeps | intro _
                 | with_reducible apply Keeps.ite)

theorem State.deliver_keeps {s0 s : State} (h : Keeps s0 s) (a1) : Keeps s0 (State.deliver s a1) := by
  unfold State.deliver
  repeat' (first | with_reducible assumption | with_reducible apply State.landBlocks_keeps
                 | with_reducible apply State.ckptMessage_keeps | with_reducible apply State.hearRole_keeps | intro _
                 | with_reducible apply Keeps.ite)

theorem State.failedArrival_keeps {s0 s : State} (h : Keeps s0 s) (a1 a2) : Keeps s0 (State.failedArrival s a1 a2) := by
  unfold State.failedArrival
  repeat' (first | with_reducible assumption | with_reducible apply Keeps.on | with_reducible apply State.count_keeps
                 | with_reducible apply State.record_keeps | with_reducible apply State.unsound_keeps | intro _
                 | exact le_rfl | extract_lets | with_reducible apply Keeps.mk')

theorem State.messageReceive_keeps {s0 s : State} (h : Keeps s0 s) (a1 a2) : Keeps s0 (State.messageReceive s a1 a2) := by
  unfold State.messageReceive
  repeat' (first | with_reducible assumption | with_reducible apply State.rejectMsg_keeps
                 | with_reducible apply State.count_keeps | with_reducible apply State.failedArrival_keeps
                 | with_reducible apply State.quarantine_keeps | with_reducible apply State.modPeer_keeps
                 | with_reducible apply Keeps.on | with_reducible apply State.heardHead_keeps
                 | with_reducible apply State.staleRole_keeps | with_reducible apply State.deliver_keeps | intro _
                 | with_reducible apply Keeps.ite | exact le_rfl | extract_lets | with_reducible apply Keeps.mk')

theorem execMessageReceive_keeps {s t : State} (a0 a1) (h : execMessageReceive a0 a1 s = .next t) : Keeps s t := by
  unfold execMessageReceive at h
  refine perform_keeps h ?_
  have hs := Keeps.refl s
  repeat' (first | with_reducible assumption | with_reducible apply State.messageReceive_keeps)

theorem State.staleReply_keeps {s0 s : State} (h : Keeps s0 s) (a1 a2) : Keeps s0 (State.staleReply s a1 a2) := by
  unfold State.staleReply
  repeat' (first | with_reducible assumption | with_reducible apply State.sendMsg_keeps | intro _
                 | with_reducible apply Keeps.ite | exact le_rfl | extract_lets y0 y1 | split
                 | (guard_target =ₛ Keeps s0 y1; unfold y1) | with_reducible apply Keeps.mk')

theorem execStaleRoleReply_keeps {s t : State} (a0 a1 a2) (h : execStaleRoleReply a0 a1 a2 s = .next t) : Keeps s t := by
  unfold execStaleRoleReply at h
  refine perform_keeps h ?_
  have hs := Keeps.refl s
  repeat' (first | with_reducible assumption | with_reducible apply State.staleReply_keeps)

theorem execBridgeBlock_keeps {s t : State} (a0 a1 a2) (h : execBridgeBlock a0 a1 a2 s = .next t) : Keeps s t := by
  unfold execBridgeBlock at h
  refine perform_keeps h ?_
  have hs := Keeps.refl s
  repeat' (first | with_reducible assumption | with_reducible apply State.count_keeps
                 | with_reducible apply State.record_keeps | with_reducible apply State.unsound_keeps
                 | with_reducible apply State.setMark_keeps | intro _ | with_reducible apply Keeps.ite)

end Sys2Proof.Machine
end

