-- ==== Sys2Proof/Laws/KeepsMill.lean ====
section
/-!
SUPPORT. What the operations of Machine/Mill.lean keep (Laws/Keeps.lean).
-/

namespace Sys2Proof.Machine

theorem State.modSet_keeps {s0 s : State} (h : Keeps s0 s) (a1 a2 a3) : Keeps s0 (State.modSet s a1 a2 a3) := by
  unfold State.modSet
  repeat' (first | with_reducible assumption | with_reducible apply State.modJob_keeps)

theorem State.stageMil_keeps {s0 s : State} (h : Keeps s0 s) (a1 a2) : Keeps s0 (State.stageMil s a1 a2) := by
  unfold State.stageMil
  repeat' (first | with_reducible assumption | with_reducible apply State.wrB_keeps)

theorem State.raiseMil_keeps {s0 s : State} (h : Keeps s0 s) (a1 a2) : Keeps s0 (State.raiseMil s a1 a2) := by
  unfold State.raiseMil
  repeat' (first | with_reducible assumption | with_reducible apply Keeps.each | with_reducible apply Keeps.on
                 | with_reducible apply State.noteLive_keeps | with_reducible apply State.raiseFor_keeps | intro _)

theorem State.millRec_keeps {s0 s : State} (h : Keeps s0 s) (a1 a2 a3 a4) : Keeps s0 (State.millRec s a1 a2 a3 a4) := by
  unfold State.millRec
  repeat' (first | with_reducible assumption | with_reducible apply State.record_keeps)

theorem State.mismatch_keeps {s0 s : State} (h : Keeps s0 s) (a1 a2 a3 a4 a5 a6) : Keeps s0 (State.mismatch s a1 a2 a3 a4 a5 a6) := by
  unfold State.mismatch
  repeat' (first | with_reducible assumption | with_reducible apply State.unsound_keeps
                 | with_reducible apply State.stageMil_keeps | with_reducible apply State.millRec_keeps
                 | with_reducible apply State.countB_keeps)

theorem State.millPush_keeps {s0 s : State} (h : Keeps s0 s) (a1 a2) : Keeps s0 (State.millPush s a1 a2) := by
  unfold State.millPush
  repeat' (first | with_reducible assumption | with_reducible apply State.startRun_keeps
                 | with_reducible apply State.readsTensor_keeps | with_reducible apply State.millRec_keeps | intro _
                 | with_reducible apply Keeps.ite | exact le_rfl | extract_lets | split
                 | with_reducible apply Keeps.mk')

theorem execMillPush_keeps {s t : State} (a0 a1) (h : execMillPush a0 a1 s = .next t) : Keeps s t := by
  unfold execMillPush at h
  refine perform_keeps h ?_
  have hs := Keeps.refl s
  repeat' (first | with_reducible assumption | with_reducible apply State.millPush_keeps)

theorem State.showQueued_keeps {s0 s : State} (h : Keeps s0 s) : Keeps s0 (State.showQueued s) := by
  unfold State.showQueued
  repeat' (first | with_reducible assumption | with_reducible apply State.setFld_keeps)

theorem State.acceptPush_keeps {s0 s : State} (h : Keeps s0 s) (a1 a2 a3 a4 a5 a6) : Keeps s0 (State.acceptPush s a1 a2 a3 a4 a5 a6) := by
  unfold State.acceptPush
  repeat' (first | with_reducible assumption | with_reducible apply State.modSet_keeps
                 | with_reducible apply State.showQueued_keeps | with_reducible apply State.count_keeps
                 | with_reducible apply State.modJob_keeps | with_reducible apply State.unitDone_keeps | exact le_rfl
                 | extract_lets | split | with_reducible apply Keeps.mk')

theorem State.withheldRows_keeps {s0 s : State} (h : Keeps s0 s) (a1 a2 a3 a4 a5 a6 a7) : Keeps s0 (State.withheldRows s a1 a2 a3 a4 a5 a6 a7) := by
  unfold State.withheldRows
  repeat' (first | with_reducible assumption | with_reducible apply Keeps.each
                 | with_reducible apply State.mismatch_keeps | intro _)

theorem State.pushAccept_keeps {s0 s : State} (h : Keeps s0 s) (a1 a2) : Keeps s0 (State.pushAccept s a1 a2) := by
  unfold State.pushAccept
  repeat' (first | with_reducible assumption | with_reducible apply State.mismatch_keeps
                 | with_reducible apply State.modJob_keeps | with_reducible apply State.overflows_keeps
                 | with_reducible apply State.acceptPush_keeps | with_reducible apply State.millRec_keeps
                 | with_reducible apply State.withheldRows_keeps | intro _ | with_reducible apply Keeps.ite
                 | exact le_rfl | extract_lets y0 y1 | split | (guard_target =ₛ Keeps s0 y1; unfold y1)
                 | with_reducible apply Keeps.mk')

theorem execPushAccept_keeps {s t : State} (a0 a1) (h : execPushAccept a0 a1 s = .next t) : Keeps s t := by
  unfold execPushAccept at h
  refine perform_keeps h ?_
  have hs := Keeps.refl s
  repeat' (first | with_reducible assumption | with_reducible apply State.pushAccept_keeps)

theorem State.updateBlock_keeps {s0 s : State} (h : Keeps s0 s) (a1 a2 a3 a4 a5 a6 a7) : Keeps s0 (State.updateBlock s a1 a2 a3 a4 a5 a6 a7).1 := by
  unfold State.updateBlock
  repeat' (first | with_reducible assumption | with_reducible apply Keeps.each
                 | with_reducible apply State.wrNat_keeps | with_reducible apply Keeps.on | intro _)

theorem State.sendList_keeps {s0 s : State} (h : Keeps s0 s) (a1 a2) : Keeps s0 (State.sendList s a1 a2) := by
  unfold State.sendList
  repeat' (first | with_reducible assumption | with_reducible apply Keeps.each
                 | with_reducible apply State.meshSend_keeps | intro _)

theorem State.giveList_keeps {s0 s : State} (h : Keeps s0 s) (a1 a2) : Keeps s0 (State.giveList s a1 a2) := by
  unfold State.giveList
  repeat' (first | with_reducible assumption | with_reducible apply Keeps.on
                 | with_reducible apply State.meshDrop_keeps | with_reducible apply State.sendList_keeps
                 | with_reducible apply State.modStope_keeps | intro _ | with_reducible apply Keeps.ite)

theorem State.projectBlock_keeps {s0 s : State} (a1 a2 a3 a4 a5 a6 a7 a8 a9 a10 a11 a12 a13) (h : Keeps s0 (Projected.state a13)) :
    Keeps s0 (State.projectBlock s a1 a2 a3 a4 a5 a6 a7 a8 a9 a10 a11 a12 a13).state := by
  unfold State.projectBlock
  repeat' (first | with_reducible assumption | with_reducible apply Keeps.each
                 | with_reducible apply State.zeroMem_keeps | with_reducible apply State.wrNat_keeps
                 | with_reducible apply State.wrCode_keeps | with_reducible apply State.giveList_keeps
                 | with_reducible apply Keeps.on | with_reducible apply State.millRec_keeps | intro _ | extract_lets
                 | split)


theorem State.projectSet_keeps {s0 s : State} (h : Keeps s0 s) (a1 a2 a3 a4 a5 a6 a7 a8 a9 a10) :
    Keeps s0 (State.projectSet s a1 a2 a3 a4 a5 a6 a7 a8 a9 a10).state := by
  have hf : ∀ lists, Keeps s0 ((List.range a5.colBlocks).foldl (fun a cb => s.projectBlock a1 a2 a3 a4 a5 a6 a7 a8 a9 a10 cb lists a)
    ({ state := s, writes := 0, held := 0, ls := [] } : Projected)).state := fun lists =>
    Keeps.foldlOf (g := Projected.state) h (fun p x hp => State.projectBlock_keeps _ _ _ _ _ _ _ _ _ _ _ _ _ hp)
  unfold State.projectSet
  repeat' (first | with_reducible assumption | apply hf | with_reducible apply Keeps.each
                 | with_reducible apply State.wrNat_keeps | intro _ | extract_lets | ((conv => arg 2; zeta); split))


theorem State.copyMem_keeps {s0 s : State} (h : Keeps s0 s) (a1 a2 a3 a4) : Keeps s0 (State.copyMem s a1 a2 a3 a4) := by
  unfold State.copyMem
  repeat' (first | with_reducible assumption | with_reducible apply Keeps.wrBytes)

theorem State.copyCommitted_keeps {s0 s : State} (h : Keeps s0 s) (a1 a2 a3 a4 a5) : Keeps s0 (State.copyCommitted s a1 a2 a3 a4 a5) := by
  unfold State.copyCommitted
  repeat' (first | with_reducible assumption | with_reducible apply State.copyMem_keeps | extract_lets y0 y1 y2 y3
                 | split | (guard_target =ₛ Keeps s0 y2; unfold y2) | (guard_target =ₛ Keeps s0 y3; unfold y3)
                 | ((conv => arg 2; zeta); split))

theorem State.noteSkip_keeps {s0 s : State} (h : Keeps s0 s) (a1 a2 a3 a4 a5) : Keeps s0 (State.noteSkip s a1 a2 a3 a4 a5) := by
  unfold State.noteSkip
  repeat' (first | with_reducible assumption | with_reducible apply State.stageMil_keeps
                 | with_reducible apply State.millRec_keeps | with_reducible apply State.countB_keeps)

theorem State.updateDense_keeps {s0 s : State} (h : Keeps s0 s) (a1 a2 a3 a4 a5 a6 a7 a8) : Keeps s0 (State.updateDense s a1 a2 a3 a4 a5 a6 a7 a8) := by
  unfold State.updateDense
  repeat' (first | with_reducible assumption | with_reducible apply State.updateBlock_keeps
                 | with_reducible apply State.noteSkip_keeps | with_reducible apply State.tierTraffic_keeps
                 | with_reducible apply State.copyCommitted_keeps | with_reducible apply State.modSet_keeps
                 | with_reducible apply State.projectSet_keeps | intro _ | with_reducible apply Keeps.foldlFst
                 | extract_lets | split)

theorem State.updateRow_keeps {s0 s : State} (h : Keeps s0 s) (a1 a2 a3 a4 a5 a6 a7) : Keeps s0 (State.updateRow s a1 a2 a3 a4 a5 a6 a7) := by
  unfold State.updateRow
  repeat' (first | with_reducible assumption | with_reducible apply State.wrNat_keeps
                 | with_reducible apply Keeps.each | with_reducible apply State.noteSkip_keeps
                 | with_reducible apply State.copyMem_keeps | intro _ | extract_lets | split)

theorem State.serveRow_keeps {s0 s : State} (h : Keeps s0 s) (a1 a2 a3 a4 a5 a6) : Keeps s0 (State.serveRow s a1 a2 a3 a4 a5 a6) := by
  unfold State.serveRow
  repeat' (first | with_reducible assumption | with_reducible apply Keeps.each
                 | with_reducible apply State.wrNat_keeps | intro _ | split)

theorem State.updateEmbedding_keeps {s0 s : State} (h : Keeps s0 s) (a1 a2 a3 a4 a5 a6 a7) : Keeps s0 (State.updateEmbedding s a1 a2 a3 a4 a5 a6 a7) := by
  unfold State.updateEmbedding
  repeat' (first | with_reducible assumption | with_reducible apply Keeps.each
                 | with_reducible apply State.updateRow_keeps | with_reducible apply State.serveRow_keeps
                 | with_reducible apply State.modSet_keeps | with_reducible apply State.tierTraffic_keeps | intro _
                 | extract_lets | split)

theorem State.setUpdate_keeps {s0 s : State} (h : Keeps s0 s) (a1) : Keeps s0 (State.setUpdate s a1) := by
  unfold State.setUpdate
  repeat' (first | with_reducible assumption | with_reducible apply State.showQueued_keeps
                 | with_reducible apply State.unsound_keeps | with_reducible apply State.updateDense_keeps
                 | with_reducible apply State.updateEmbedding_keeps | intro _ | with_reducible apply Keeps.ite
                 | exact le_rfl | extract_lets | split | with_reducible apply Keeps.mk')

theorem execSetUpdate_keeps {s t : State} (a0) (h : execSetUpdate a0 s = .next t) : Keeps s t := by
  unfold execSetUpdate at h
  refine perform_keeps h ?_
  have hs := Keeps.refl s
  repeat' (first | with_reducible assumption | with_reducible apply State.setUpdate_keeps)

theorem State.initDense_keeps {s0 s : State} (h : Keeps s0 s) (a1 a2 a3 a4 a5 a6) : Keeps s0 (State.initDense s a1 a2 a3 a4 a5 a6) := by
  unfold State.initDense
  repeat' (first | with_reducible assumption | with_reducible apply State.zeroMem_keeps
                 | with_reducible apply Keeps.each | with_reducible apply State.wrNat_keeps
                 | with_reducible apply State.projectSet_keeps | with_reducible apply State.modSet_keeps
                 | with_reducible apply State.millRec_keeps | intro _)

theorem State.initEmbedding_keeps {s0 s : State} (h : Keeps s0 s) (a1 a2 a3 a4 a5) : Keeps s0 (State.initEmbedding s a1 a2 a3 a4 a5) := by
  unfold State.initEmbedding
  repeat' (first | with_reducible assumption | with_reducible apply Keeps.each
                 | with_reducible apply State.wrNat_keeps | with_reducible apply State.serveRow_keeps
                 | with_reducible apply State.modSet_keeps | intro _)

theorem State.initSets_keeps {s0 s : State} (h : Keeps s0 s) (a1 a2 a3) : Keeps s0 (State.initSets s a1 a2 a3) := by
  unfold State.initSets
  repeat' (first | with_reducible assumption | with_reducible apply Keeps.each
                 | with_reducible apply State.initDense_keeps | with_reducible apply State.initEmbedding_keeps
                 | intro _ | extract_lets | split)

theorem State.putSection_keeps {s0 s : State} (h : Keeps s0 s) (a1 a2 a3 a4 a5) : Keeps s0 (State.putSection s a1 a2 a3 a4 a5) := by
  unfold State.putSection
  repeat' (first | with_reducible assumption | with_reducible apply State.copyMem_keeps
                 | with_reducible apply Keeps.on | with_reducible apply Keeps.each | intro _ | extract_lets | split)

theorem State.freezeImage_keeps {s0 s : State} (h : Keeps s0 s) (a1) : Keeps s0 (State.freezeImage s a1) := by
  unfold State.freezeImage
  repeat' (first | with_reducible assumption | with_reducible apply Keeps.wrBytes | with_reducible apply Keeps.each
                 | with_reducible apply State.putSection_keeps | with_reducible apply State.copyMem_keeps | intro _
                 | split)

theorem State.setCkpt_keeps {s0 s : State} (h : Keeps s0 s) (a1 a2 a3 a4) : Keeps s0 (State.setCkpt s a1 a2 a3 a4) := by
  unfold State.setCkpt
  repeat' (first | with_reducible assumption | with_reducible apply State.setFldB_keeps)

theorem State.showCkpt_keeps {s0 s : State} (h : Keeps s0 s) : Keeps s0 (State.showCkpt s) := by
  unfold State.showCkpt
  repeat' (first | with_reducible assumption | with_reducible apply State.setFld_keeps)

theorem State.startCkpt_keeps {s0 s : State} (h : Keeps s0 s) (a1 a2) : Keeps s0 (State.startCkpt s a1 a2) := by
  unfold State.startCkpt
  repeat' (first | with_reducible assumption | with_reducible apply State.raiseMil_keeps
                 | with_reducible apply State.millRec_keeps | with_reducible apply State.setCkpt_keeps
                 | with_reducible apply State.modJob_keeps | with_reducible apply State.freezeImage_keeps
                 | with_reducible apply State.showQueued_keeps | with_reducible apply State.showCkpt_keeps
                 | with_reducible apply State.tierTraffic_keeps | intro _ | with_reducible apply Keeps.ite
                 | exact le_rfl | extract_lets | with_reducible apply Keeps.mk')

theorem State.freezeDone_keeps {s0 s : State} (h : Keeps s0 s) (a1) : Keeps s0 (State.freezeDone s a1) := by
  unfold State.freezeDone
  repeat' (first | with_reducible assumption | with_reducible apply State.sendBlocks_keeps
                 | with_reducible apply State.showQueued_keeps | with_reducible apply State.showCkpt_keeps
                 | with_reducible apply State.setCkpt_keeps | intro _ | with_reducible apply Keeps.ite | exact le_rfl
                 | extract_lets y0 y1 | split | (guard_target =ₛ Keeps s0 y1; unfold y1)
                 | with_reducible apply Keeps.mk')

theorem execFreezeDone_keeps {s t : State} (a0) (h : execFreezeDone a0 s = .next t) : Keeps s t := by
  unfold execFreezeDone at h
  refine perform_keeps h ?_
  have hs := Keeps.refl s
  repeat' (first | with_reducible assumption | with_reducible apply State.freezeDone_keeps)

theorem State.ckptSent_keeps {s0 s : State} (h : Keeps s0 s) (a1) : Keeps s0 (State.ckptSent s a1) := by
  unfold State.ckptSent
  repeat' (first | with_reducible assumption | with_reducible apply State.wr64B_keeps
                 | with_reducible apply State.setCkpt_keeps | with_reducible apply State.modPeer_keeps
                 | with_reducible apply State.showCkpt_keeps | with_reducible apply State.raiseMil_keeps
                 | with_reducible apply State.millRec_keeps | exact le_rfl | extract_lets y0 y1 | split
                 | (guard_target =ₛ Keeps s0 y1; unfold y1) | with_reducible apply Keeps.mk')

theorem execCkptSendDone_keeps {s t : State} (a0) (h : execCkptSendDone a0 s = .next t) : Keeps s t := by
  unfold execCkptSendDone at h
  refine perform_keeps h ?_
  have hs := Keeps.refl s
  repeat' (first | with_reducible assumption | with_reducible apply State.ckptSent_keeps)

theorem State.stopSends_keeps {s0 s : State} (h : Keeps s0 s) : Keeps s0 (State.stopSends s) := by
  unfold State.stopSends
  repeat' (first | with_reducible assumption | with_reducible apply State.showCkpt_keeps
                 | with_reducible apply Keeps.each | with_reducible apply State.modJob_keeps | intro _ | exact le_rfl
                 | extract_lets | with_reducible apply Keeps.mk')

theorem State.rebuddied_keeps {s0 s : State} (h : Keeps s0 s) (a1 : State) : Keeps s0 (State.rebuddied s a1) := by
  unfold State.rebuddied
  repeat' (first | with_reducible assumption | with_reducible apply Keeps.on
                 | with_reducible apply State.stopSends_keeps)

theorem State.listImage_keeps {s0 s : State} (h : Keeps s0 s) (a1 a2 a3 a4) : Keeps s0 (State.listImage s a1 a2 a3 a4) := by
  unfold State.listImage
  repeat' (first | with_reducible assumption | with_reducible apply Keeps.each
                 | with_reducible apply State.giveList_keeps | intro _ | extract_lets | split)

theorem State.restoreSet_keeps {s0 s : State} (h : Keeps s0 s) (a1 a2 a3 a4 a5 a6) : Keeps s0 (State.restoreSet s a1 a2 a3 a4 a5 a6) := by
  unfold State.restoreSet
  repeat' (first | with_reducible assumption | with_reducible apply State.zeroMem_keeps
                 | with_reducible apply State.copyMem_keeps | with_reducible apply Keeps.on
                 | with_reducible apply State.modSet_keeps | with_reducible apply State.listImage_keeps
                 | with_reducible apply Keeps.each | with_reducible apply State.serveRow_keeps
                 | with_reducible apply State.wrNat_keeps | intro _ | extract_lets | split)

theorem State.restoreImage_keeps {s0 s : State} (h : Keeps s0 s) (a1 a2 a3) : Keeps s0 (State.restoreImage s a1 a2 a3) := by
  unfold State.restoreImage
  repeat' (first | with_reducible assumption | with_reducible apply Keeps.each
                 | with_reducible apply State.restoreSet_keeps | with_reducible apply State.millRec_keeps
                 | with_reducible apply State.tierTraffic_keeps | with_reducible apply State.modJob_keeps | intro _)

theorem State.jobRestart_keeps {s0 s : State} (h : Keeps s0 s) (a1) : Keeps s0 (State.jobRestart s a1) := by
  unfold State.jobRestart
  repeat' (first | with_reducible assumption | with_reducible apply State.record_keeps
                 | with_reducible apply State.setJobState_keeps | with_reducible apply State.dropWork_keeps
                 | with_reducible apply State.stageEvent_keeps | with_reducible apply State.count_keeps
                 | with_reducible apply State.sendMsg_keeps | intro _ | with_reducible apply Keeps.ite | exact le_rfl
                 | extract_lets | split | with_reducible apply Keeps.mk')

theorem execResync_keeps {s t : State} (a0 a1) (h : execResync a0 a1 s = .next t) : Keeps s t := by
  unfold execResync at h
  refine perform_keeps h ?_
  have hs := Keeps.refl s
  repeat' (first | with_reducible assumption | with_reducible apply State.setJob_keeps
                 | with_reducible apply State.millRec_keeps | with_reducible apply State.jobRestart_keeps | intro _
                 | with_reducible apply Keeps.ite | split)

theorem State.showRestoring_keeps {s0 s : State} (h : Keeps s0 s) : Keeps s0 (State.showRestoring s) := by
  unfold State.showRestoring
  repeat' (first | with_reducible assumption | with_reducible apply State.setFld_keeps)

theorem State.reportStarting_keeps {s0 s : State} (h : Keeps s0 s) : Keeps s0 (State.reportStarting s) := by
  unfold State.reportStarting
  repeat' (first | with_reducible assumption | with_reducible apply State.showRestoring_keeps
                 | with_reducible apply Keeps.each | with_reducible apply State.report_keeps
                 | with_reducible apply State.modJob_keeps | intro _)

end Sys2Proof.Machine
end

