-- ==== Sys2Proof/Laws/KeepsMemory.lean ====
section
/-!
SUPPORT. What the operations of Machine/Memory.lean keep (Laws/Keeps.lean).
-/

namespace Sys2Proof.Machine

theorem State.modTier_keeps {s0 s : State} (h : Keeps s0 s) (a1 a2) : Keeps s0 (State.modTier s a1 a2) := by
  unfold State.modTier
  repeat' (first | with_reducible assumption | intro _ | with_reducible apply Keeps.ite | exact le_rfl | extract_lets
                 | with_reducible apply Keeps.mk')

theorem State.modLayout_keeps {s0 s : State} (h : Keeps s0 s) (a1 a2 a3) : Keeps s0 (State.modLayout s a1 a2 a3) := by
  unfold State.modLayout
  repeat' (first | with_reducible assumption | with_reducible apply State.modClaim_keeps)

theorem State.wrTier_keeps {s0 s : State} (h : Keeps s0 s) (a1 a2 a3 a4) : Keeps s0 (State.wrTier s a1 a2 a3 a4) := by
  unfold State.wrTier
  repeat' (first | with_reducible assumption | with_reducible apply Keeps.each | with_reducible apply State.wr_keeps
                 | intro _)

theorem State.raiseTier_keeps {s0 s : State} (h : Keeps s0 s) (a1 a2) : Keeps s0 (State.raiseTier s a1 a2) := by
  unfold State.raiseTier
  repeat' (first | with_reducible assumption | with_reducible apply Keeps.each
                 | with_reducible apply State.raise_keeps | intro _)

theorem State.showMigration_keeps {s0 s : State} (h : Keeps s0 s) (a1) : Keeps s0 (State.showMigration s a1) := by
  unfold State.showMigration
  repeat' (first | with_reducible assumption | with_reducible apply State.wrTier_keeps)

theorem State.openMigration_keeps {s0 s : State} (h : Keeps s0 s) (a1 a2 a3 a4) : Keeps s0 (State.openMigration s a1 a2 a3 a4) := by
  unfold State.openMigration
  repeat' (first | with_reducible assumption | with_reducible apply State.modLayout_keeps
                 | with_reducible apply State.modTier_keeps | with_reducible apply State.record_keeps
                 | with_reducible apply State.showMigration_keeps | with_reducible apply Keeps.on
                 | with_reducible apply Keeps.each | with_reducible apply State.count_keeps | intro _)

theorem State.migrate_keeps {s0 s : State} (h : Keeps s0 s) (a1 a2 a3 a4) : Keeps s0 (State.migrate s a1 a2 a3 a4) := by
  unfold State.migrate
  repeat' (first | with_reducible assumption | with_reducible apply Keeps.on
                 | with_reducible apply State.modLayout_keeps | with_reducible apply State.openMigration_keeps
                 | with_reducible apply State.modTier_keeps | intro _ | with_reducible apply Keeps.ite)

theorem State.endMigration_keeps {s0 s : State} (h : Keeps s0 s) (a1 a2) : Keeps s0 (State.endMigration s a1 a2) := by
  unfold State.endMigration
  repeat' (first | with_reducible assumption | with_reducible apply State.modLayout_keeps
                 | with_reducible apply State.record_keeps | with_reducible apply State.modTier_keeps
                 | with_reducible apply State.wrTier_keeps | with_reducible apply State.raiseTier_keeps
                 | with_reducible apply State.showMigration_keeps | with_reducible apply State.openMigration_keeps
                 | extract_lets | split)

theorem State.moveStripe_keeps {s0 s : State} (h : Keeps s0 s) (a1 a2) : Keeps s0 (State.moveStripe s a1 a2) := by
  unfold State.moveStripe
  repeat' (first | with_reducible assumption | with_reducible apply State.modTier_keeps
                 | with_reducible apply State.modLayout_keeps | with_reducible apply State.drawn_keeps | intro _
                 | with_reducible apply Keeps.ite | extract_lets | split)

theorem execMigrateStripe_keeps {s t : State} (a0) (h : execMigrateStripe a0 s = .next t) : Keeps s t := by
  unfold execMigrateStripe at h
  refine perform_keeps h ?_
  have hs := Keeps.refl s
  repeat' (first | with_reducible assumption | with_reducible apply State.moveStripe_keeps
                 | with_reducible apply State.endMigration_keeps | with_reducible apply State.showMigration_keeps
                 | intro _ | with_reducible apply Keeps.ite | split)

theorem State.showWorst_keeps {s0 s : State} (h : Keeps s0 s) (a1 a2) : Keeps s0 (State.showWorst s a1 a2) := by
  unfold State.showWorst
  repeat' (first | with_reducible assumption | with_reducible apply Keeps.each | with_reducible apply State.wr_keeps
                 | intro _)

theorem execQueueWindow_keeps {s t : State} (a0 a1 a2) (h : execQueueWindow a0 a1 a2 s = .next t) : Keeps s t := by
  unfold execQueueWindow at h
  refine perform_keeps h ?_
  have hs := Keeps.refl s
  repeat' (first | with_reducible assumption | with_reducible apply State.modTier_keeps
                 | with_reducible apply State.wrTier_keeps | with_reducible apply State.showWorst_keeps
                 | with_reducible apply Keeps.on | with_reducible apply State.raiseTier_keeps | intro _ | extract_lets
                 | ((conv => arg 2; zeta); split))

theorem State.rekeyAtSeal_keeps {s0 s : State} (h : Keeps s0 s) (a1 a2) : Keeps s0 (State.rekeyAtSeal s a1 a2) := by
  unfold State.rekeyAtSeal
  repeat' (first | with_reducible assumption | with_reducible apply State.modTier_keeps
                 | with_reducible apply State.modLayout_keeps | with_reducible apply State.drawn_keeps
                 | with_reducible apply State.migrate_keeps | intro _ | with_reducible apply Keeps.ite | extract_lets
                 | split)

theorem State.writeWaits_keeps {s0 s : State} (h : Keeps s0 s) (a1 a2 a3) : Keeps s0 (State.writeWaits s a1 a2 a3) := by
  unfold State.writeWaits
  repeat' (first | with_reducible assumption | with_reducible apply State.setMark_keeps)

theorem State.unsoundIf_keeps {s0 s : State} (h : Keeps s0 s) (a1) : Keeps s0 (State.unsoundIf s a1) := by
  unfold State.unsoundIf
  repeat' (first | with_reducible assumption | with_reducible apply Keeps.on
                 | with_reducible apply State.unsound_keeps | intro _)

theorem State.settleBlock_keeps {s0 s : State} (h : Keeps s0 s) (a1 a2) : Keeps s0 (State.settleBlock s a1 a2) := by
  unfold State.settleBlock
  repeat' (first | with_reducible assumption | with_reducible apply Keeps.each
                 | with_reducible apply State.setMark_keeps | with_reducible apply Keeps.wrBytes | intro _)

theorem State.blockDamaged_keeps {s0 s : State} (h : Keeps s0 s) (a1 a2) : Keeps s0 (State.blockDamaged s a1 a2) := by
  unfold State.blockDamaged
  repeat' (first | with_reducible assumption | with_reducible apply State.damageBlock_keeps
                 | with_reducible apply State.modJob_keeps | with_reducible apply State.unsoundIf_keeps
                 | with_reducible apply State.settleBlock_keeps | with_reducible apply State.setMark_keeps
                 | with_reducible apply Keeps.on | with_reducible apply State.jobRestart_keeps
                 | with_reducible apply State.loseBlock_keeps | intro _ | extract_lets
                 | ((conv => arg 2; zeta); split))

theorem State.retireChannel_keeps {s0 s : State} (h : Keeps s0 s) (a1 a2 a3) : Keeps s0 (State.retireChannel s a1 a2 a3) := by
  unfold State.retireChannel
  repeat' (first | with_reducible assumption | with_reducible apply State.modTier_keeps
                 | with_reducible apply State.record_keeps | with_reducible apply State.raise_keeps
                 | with_reducible apply State.setFld_keeps | with_reducible apply Keeps.each
                 | with_reducible apply State.blockDamaged_keeps | with_reducible apply Keeps.on
                 | with_reducible apply State.unsoundIf_keeps | with_reducible apply State.modLayout_keeps
                 | with_reducible apply State.migrate_keeps | with_reducible apply State.showMigration_keeps
                 | with_reducible apply State.selfLost_keeps | with_reducible apply State.setFn_keeps | intro _
                 | with_reducible apply Keeps.ite)

theorem State.chanRetireAct_keeps {s0 s : State} (h : Keeps s0 s) (a1 a2 a3) : Keeps s0 (State.chanRetireAct s a1 a2 a3).1 := by
  unfold State.chanRetireAct
  repeat' (first | with_reducible assumption | with_reducible apply State.retireChannel_keeps | extract_lets | split)

theorem execChanRetire_keeps {s t : State} (a0 a1 a2) (h : execChanRetire a0 a1 a2 s = .next t) : Keeps s t := by
  unfold execChanRetire at h
  refine perform_keeps h ?_
  have hs := Keeps.refl s
  repeat' (first | with_reducible assumption | with_reducible apply State.guarded_keeps
                 | with_reducible apply State.chanRetireAct_keeps | intro _)

theorem execSlowStackRetire_keeps {s t : State} (a0 a1 a2) (h : execSlowStackRetire a0 a1 a2 s = .next t) : Keeps s t := by
  unfold execSlowStackRetire at h
  refine perform_keeps h ?_
  have hs := Keeps.refl s
  repeat' (first | with_reducible assumption | with_reducible apply State.guarded_keeps
                 | with_reducible apply State.chanRetireAct_keeps | intro _)

theorem State.countRead_keeps {s0 s : State} (h : Keeps s0 s) (a1 a2 a3) : Keeps s0 (State.countRead s a1 a2 a3) := by
  unfold State.countRead
  repeat' (first | with_reducible assumption | with_reducible apply State.count64_keeps)

theorem State.countWrite_keeps {s0 s : State} (h : Keeps s0 s) (a1 a2 a3) : Keeps s0 (State.countWrite s a1 a2 a3) := by
  unfold State.countWrite
  repeat' (first | with_reducible assumption | with_reducible apply State.count64_keeps)

theorem State.eccReport_keeps {s0 s : State} (h : Keeps s0 s) (a1 a2) : Keeps s0 (State.eccReport s a1 a2) := by
  unfold State.eccReport
  repeat' (first | with_reducible assumption | with_reducible apply State.drawn_keeps
                 | with_reducible apply State.count_keeps)

theorem State.readBlock_keeps {s0 s : State} (h : Keeps s0 s) (a1 a2 a3) : Keeps s0 (State.readBlock s a1 a2 a3) := by
  unfold State.readBlock
  repeat' (first | with_reducible assumption | with_reducible apply State.countRead_keeps
                 | with_reducible apply State.eccReport_keeps | with_reducible apply Keeps.on
                 | with_reducible apply State.count_keeps | with_reducible apply State.blockDamaged_keeps
                 | with_reducible apply State.modTier_keeps | with_reducible apply State.retireChannel_keeps | intro _
                 | with_reducible apply Keeps.ite)

theorem State.showScrub_keeps {s0 s : State} (h : Keeps s0 s) : Keeps s0 (State.showScrub s) := by
  unfold State.showScrub
  repeat' (first | with_reducible assumption | with_reducible apply State.wr_keeps)

theorem execScrubRead_keeps {s t : State} (a0 a1 a2) (h : execScrubRead a0 a1 a2 s = .next t) : Keeps s t := by
  unfold execScrubRead at h
  refine perform_keeps h ?_
  have hs := Keeps.refl s
  repeat' (first | with_reducible assumption | with_reducible apply State.showScrub_keeps
                 | with_reducible apply State.readBlock_keeps | with_reducible apply State.modTier_keeps | intro _
                 | with_reducible apply Keeps.ite)

theorem execScrubPassEnd_keeps {s t : State} (a0) (h : execScrubPassEnd a0 s = .next t) : Keeps s t := by
  unfold execScrubPassEnd at h
  refine perform_keeps h ?_
  have hs := Keeps.refl s
  repeat' (first | with_reducible assumption | with_reducible apply State.showScrub_keeps
                 | with_reducible apply State.modTier_keeps | with_reducible apply Keeps.each
                 | with_reducible apply State.setMark_keeps | with_reducible apply State.showLost_keeps
                 | with_reducible apply State.modClaim_keeps | intro _)

theorem execBlockArrival_keeps {s t : State} (a0 a1 a2 a3) (h : execBlockArrival a0 a1 a2 a3 s = .next t) : Keeps s t := by
  unfold execBlockArrival at h
  refine perform_keeps h ?_
  have hs := Keeps.refl s
  repeat' (first | with_reducible assumption | with_reducible apply Keeps.on | with_reducible apply State.count_keeps
                 | with_reducible apply State.record_keeps | with_reducible apply State.stopeFailure_keeps
                 | with_reducible apply State.unsoundIf_keeps | intro _ | with_reducible apply Keeps.ite)

end Sys2Proof.Machine
end

