-- ==== Sys2Proof/Laws/KeepsLoading.lean ====
section
/-!
SUPPORT. What the operations of Machine/Loading.lean keep (Laws/Keeps.lean).
-/

namespace Sys2Proof.Machine

theorem State.noteRange_keeps {s0 s : State} (h : Keeps s0 s) (a1 a2 a3) : Keeps s0 (State.noteRange s a1 a2 a3) := by
  unfold State.noteRange
  repeat' (first | with_reducible assumption | with_reducible apply State.record_keeps | intro _
                 | with_reducible apply Keeps.ite)

theorem State.stageRange_keeps {s0 s : State} (h : Keeps s0 s) (a1 a2 a3 a4) : Keeps s0 (State.stageRange s a1 a2 a3 a4) := by
  unfold State.stageRange
  repeat' (first | with_reducible assumption | with_reducible apply State.stageWord_keeps)

theorem State.changeRange_keeps {s0 s : State} (h : Keeps s0 s) (a1 a2 a3 a4 a5 a6 a7) : Keeps s0 (State.changeRange s a1 a2 a3 a4 a5 a6 a7) := by
  unfold State.changeRange
  repeat' (first | with_reducible assumption | with_reducible apply State.record_keeps
                 | with_reducible apply State.stageEvent_keeps | with_reducible apply State.stageRange_keeps | intro _
                 | with_reducible apply Keeps.ite)

theorem State.limitSeam_keeps {s0 s : State} (h : Keeps s0 s) (a1 a2 a3 a4) : Keeps s0 (State.limitSeam s a1 a2 a3 a4) := by
  unfold State.limitSeam
  repeat' (first | with_reducible assumption | with_reducible apply State.stageWord_keeps
                 | with_reducible apply Keeps.on | with_reducible apply State.stageEvent_keeps
                 | with_reducible apply Keeps.each | with_reducible apply State.record_keeps | intro _)

theorem State.applyHeadroom_keeps {s0 s : State} (h : Keeps s0 s) (a1 a2 a3 a4 a5) : Keeps s0 (State.applyHeadroom s a1 a2 a3 a4 a5) := by
  unfold State.applyHeadroom
  repeat' (first | with_reducible assumption | with_reducible apply Keeps.each
                 | with_reducible apply State.modArr_keeps | with_reducible apply State.changeRange_keeps
                 | with_reducible apply State.limitSeam_keeps | intro _ | with_reducible apply Keeps.ite)

theorem State.jobHeadroom_keeps {s0 s : State} (h : Keeps s0 s) (a1 a2 a3 a4) : Keeps s0 (State.jobHeadroom s a1 a2 a3 a4) := by
  unfold State.jobHeadroom
  repeat' (first | with_reducible assumption | with_reducible apply Keeps.each
                 | with_reducible apply State.applyHeadroom_keeps | intro _ | extract_lets | split)

end Sys2Proof.Machine
end

