-- ==== Sys2Proof/Laws/KeepsJobs.lean ====
section
/-!
SUPPORT. What the operations of Machine/Jobs.lean keep (Laws/Keeps.lean).
-/

namespace Sys2Proof.Machine

theorem State.jobCmd_keeps {s0 s : State} (h : Keeps s0 s) (a1 a2 a3) (h3 : ∀ x0, Keeps s0 x0 → Keeps s0 (a3 x0)) : Keeps s0 (State.jobCmd s a1 a2 a3) := by
  unfold State.jobCmd
  repeat' (first | with_reducible assumption | with_reducible apply State.written_keeps)

theorem State.findFaults_keeps {s0 s : State} (h : Keeps s0 s) (a1 a2) : Keeps s0 (State.findFaults s a1 a2).state := by
  unfold State.findFaults
  repeat' (first | with_reducible assumption | with_reducible apply State.noteRange_keeps
                 | with_reducible apply Keeps.each | with_reducible apply State.record_keeps
                 | with_reducible apply State.millRec_keeps | with_reducible apply Keeps.on | intro _ | extract_lets
                 | split | ((conv => arg 2; zeta); split))

theorem State.refuseJob_keeps {s0 s : State} (h : Keeps s0 s) (a1 a2) : Keeps s0 (State.refuseJob s a1 a2) := by
  unfold State.refuseJob
  repeat' (first | with_reducible assumption | with_reducible apply State.record_keeps)

theorem State.showPlacement_keeps {s0 s : State} (h : Keeps s0 s) (a1 a2) : Keeps s0 (State.showPlacement s a1 a2) := by
  unfold State.showPlacement
  repeat' (first | with_reducible assumption | with_reducible apply State.wrStock_keeps
                 | with_reducible apply State.wrB_keeps)

theorem State.writeMaps_keeps {s0 s : State} (h : Keeps s0 s) (a1 a2) : Keeps s0 (State.writeMaps s a1 a2) := by
  unfold State.writeMaps
  repeat' (first | with_reducible assumption | with_reducible apply Keeps.each
                 | with_reducible apply State.wrNat_keeps | intro _ | extract_lets | split)

theorem State.placeSeams_keeps {s0 s : State} (h : Keeps s0 s) (a1) : Keeps s0 (State.placeSeams s a1) := by
  unfold State.placeSeams
  repeat' (first | with_reducible assumption | with_reducible apply Keeps.each
                 | with_reducible apply State.stageWord_keeps | intro _ | with_reducible apply Keeps.ite
                 | extract_lets | split)

theorem State.joinJob_keeps {s0 s : State} (h : Keeps s0 s) (a1 a2) : Keeps s0 (State.joinJob s a1 a2) := by
  unfold State.joinJob
  repeat' (first | with_reducible assumption | with_reducible apply State.drawn_keeps
                 | with_reducible apply State.takeJobKey_keeps | with_reducible apply State.toMembers_keeps
                 | with_reducible apply State.sendMsg_keeps | with_reducible apply State.setFldB_keeps
                 | with_reducible apply State.modClaim_keeps | intro _ | with_reducible apply Keeps.ite | exact le_rfl
                 | extract_lets | split | with_reducible apply Keeps.mk')

theorem State.acceptJob_keeps {s0 s : State} (h : Keeps s0 s) (a1 a2) : Keeps s0 (State.acceptJob s a1 a2) := by
  unfold State.acceptJob
  repeat' (first | with_reducible assumption | with_reducible apply State.placeSeams_keeps
                 | with_reducible apply State.writeMaps_keeps | with_reducible apply State.joinJob_keeps
                 | with_reducible apply State.setJob_keeps | with_reducible apply State.jobHeadroom_keeps
                 | with_reducible apply State.setFld_keeps | with_reducible apply State.wrStock_keeps
                 | with_reducible apply State.setReason_keeps)

theorem State.load_keeps {s0 s : State} (h : Keeps s0 s) (a1 a2) : Keeps s0 (State.load s a1 a2) := by
  unfold State.load
  repeat' (first | with_reducible assumption | with_reducible apply State.ignoreCmd_keeps
                 | with_reducible apply State.wrStock_keeps | with_reducible apply State.setJobState_keeps
                 | with_reducible apply State.setReason_keeps | with_reducible apply State.refuseJob_keeps
                 | with_reducible apply State.findFaults_keeps | with_reducible apply State.showPlacement_keeps
                 | with_reducible apply State.acceptJob_keeps | intro _ | with_reducible apply Keeps.ite
                 | extract_lets | split)

theorem execLoad_keeps {s t : State} (a0) (h : execLoad a0 s = .next t) : Keeps s t := by
  unfold execLoad at h
  refine perform_keeps h ?_
  have hs := Keeps.refl s
  repeat' (first | with_reducible assumption | with_reducible apply State.jobCmd_keeps
                 | with_reducible apply State.load_keeps | intro _)

theorem State.rekeyAtStart_keeps {s0 s : State} (h : Keeps s0 s) (a1) : Keeps s0 (State.rekeyAtStart s a1) := by
  unfold State.rekeyAtStart
  repeat' (first | with_reducible assumption | with_reducible apply State.migrate_keeps
                 | with_reducible apply State.drawInterleave_keeps)

theorem State.coldStart_keeps {s0 s : State} (h : Keeps s0 s) (a1 a2) : Keeps s0 (State.coldStart s a1 a2) := by
  unfold State.coldStart
  repeat' (first | with_reducible assumption | with_reducible apply State.record_keeps
                 | with_reducible apply State.modJob_keeps)

theorem State.restoreNumerics_keeps {s0 s : State} (h : Keeps s0 s) (a1 a2 a3) : Keeps s0 (State.restoreNumerics s a1 a2 a3) := by
  unfold State.restoreNumerics
  repeat' (first | with_reducible assumption | with_reducible apply State.coldStart_keeps
                 | with_reducible apply State.modJob_keeps | intro _ | with_reducible apply Keeps.ite | split)

theorem State.listServed_keeps {s0 s : State} (h : Keeps s0 s) (a1 a2 a3) : Keeps s0 (State.listServed s a1 a2 a3) := by
  unfold State.listServed
  repeat' (first | with_reducible assumption | with_reducible apply Keeps.each
                 | with_reducible apply State.listImage_keeps | intro _)

theorem State.firstStart_keeps {s0 s : State} (h : Keeps s0 s) (a1 a2) : Keeps s0 (State.firstStart s a1 a2) := by
  unfold State.firstStart
  repeat' (first | with_reducible assumption | with_reducible apply State.listServed_keeps
                 | with_reducible apply State.initSets_keeps | with_reducible apply State.coldStart_keeps
                 | with_reducible apply State.wr64B_keeps | with_reducible apply State.setJobState_keeps
                 | with_reducible apply State.setReason_keeps | with_reducible apply State.millRec_keeps
                 | with_reducible apply State.restoreNumerics_keeps | with_reducible apply State.restoreImage_keeps
                 | intro _ | with_reducible apply Keeps.ite | extract_lets | split)

theorem State.startJob_keeps {s0 s : State} (h : Keeps s0 s) (a1 a2) : Keeps s0 (State.startJob s a1 a2) := by
  unfold State.startJob
  repeat' (first | with_reducible assumption | with_reducible apply State.ignoreCmd_keeps
                 | with_reducible apply State.modJob_keeps | with_reducible apply State.rekeyAtStart_keeps
                 | with_reducible apply State.setJobState_keeps | with_reducible apply State.reportStarting_keeps
                 | with_reducible apply State.firstStart_keeps | intro _ | with_reducible apply Keeps.ite
                 | extract_lets | split)

theorem execStart_keeps {s t : State} (a0) (h : execStart a0 s = .next t) : Keeps s t := by
  unfold execStart at h
  refine perform_keeps h ?_
  have hs := Keeps.refl s
  repeat' (first | with_reducible assumption | with_reducible apply State.jobCmd_keeps
                 | with_reducible apply State.startJob_keeps | intro _)

theorem execJobRunBegin_keeps {s t : State} (a0) (h : execJobRunBegin a0 s = .next t) : Keeps s t := by
  unfold execJobRunBegin at h
  refine perform_keeps h ?_
  have hs := Keeps.refl s
  repeat' (first | with_reducible assumption | with_reducible apply State.setJobState_keeps | intro _
                 | with_reducible apply Keeps.ite)

theorem execImageFetchDone_keeps {s t : State} (a0 a1) (h : execImageFetchDone a0 a1 s = .next t) : Keeps s t := by
  unfold execImageFetchDone at h
  refine perform_keeps h ?_
  have hs := Keeps.refl s
  repeat' (first | with_reducible assumption | with_reducible apply State.reportStarting_keeps
                 | with_reducible apply State.firstStart_keeps | with_reducible apply State.rekeyAtStart_keeps
                 | with_reducible apply State.setJobState_keeps | with_reducible apply State.setJob_keeps | intro _
                 | with_reducible apply Keeps.ite | exact le_rfl | extract_lets | split
                 | with_reducible apply Keeps.mk')

theorem State.countProbe_keeps {s0 s : State} (h : Keeps s0 s) (a1 a2 a3) : Keeps s0 (State.countProbe s a1 a2 a3) := by
  unfold State.countProbe
  repeat' (first | with_reducible assumption | with_reducible apply Keeps.each
                 | with_reducible apply State.countStp64_keeps | with_reducible apply Keeps.on
                 | with_reducible apply State.countStp_keeps | intro _ | with_reducible apply Keeps.ite | extract_lets
                 | split)

theorem Probe.layer_keeps {s0 : State} {p : Probe} (h : Keeps s0 p.state) (a1 a2) : Keeps s0 (Probe.layer p a1 a2).state := by
  unfold Probe.layer
  repeat' (first | with_reducible assumption | with_reducible apply Keeps.on | with_reducible apply State.record_keeps
                 | with_reducible apply State.countProbe_keeps | with_reducible apply State.modJob_keeps | intro _
                 | exact Nat.le_add_right _ _ | extract_lets | split | with_reducible apply Keeps.mk')


theorem execProbeStep_keeps {s t : State} (a0) (h : execProbeStep a0 s = .next t) : Keeps s t := by
  unfold execProbeStep at h
  refine perform_keeps h ?_
  have hs := Keeps.refl s
  have hf : ∀ l : List LayerD, Keeps s (l.foldl (fun (p : Probe) d => p.layer a0 d) ({ state := s, outs := [] } : Probe)).state :=
    fun l => Keeps.foldlOf (g := Probe.state) hs (fun p x hp => Probe.layer_keeps hp _ _)
  repeat' (first | with_reducible assumption | apply hf | with_reducible apply State.modJob_keeps | intro _
                 | with_reducible apply Keeps.ite | split)


theorem State.stopJob_keeps {s0 s : State} (h : Keeps s0 s) (a1 a2) : Keeps s0 (State.stopJob s a1 a2) := by
  unfold State.stopJob
  repeat' (first | with_reducible assumption | with_reducible apply State.ignoreCmd_keeps
                 | with_reducible apply State.setJobState_keeps | with_reducible apply State.modJob_keeps | intro _
                 | with_reducible apply Keeps.ite)

theorem execStop_keeps {s t : State} (a0) (h : execStop a0 s = .next t) : Keeps s t := by
  unfold execStop at h
  refine perform_keeps h ?_
  have hs := Keeps.refl s
  repeat' (first | with_reducible assumption | with_reducible apply State.jobCmd_keeps
                 | with_reducible apply State.stopJob_keeps | intro _)

theorem State.swapJob_keeps {s0 s : State} (h : Keeps s0 s) (a1 a2) : Keeps s0 (State.swapJob s a1 a2) := by
  unfold State.swapJob
  repeat' (first | with_reducible assumption | with_reducible apply State.ignoreCmd_keeps
                 | with_reducible apply State.refuseJob_keeps | with_reducible apply State.findFaults_keeps
                 | with_reducible apply State.setJob_keeps | intro _ | with_reducible apply Keeps.ite | extract_lets
                 | split)

theorem execSwap_keeps {s t : State} (a0) (h : execSwap a0 s = .next t) : Keeps s t := by
  unfold execSwap at h
  refine perform_keeps h ?_
  have hs := Keeps.refl s
  repeat' (first | with_reducible assumption | with_reducible apply State.jobCmd_keeps
                 | with_reducible apply State.swapJob_keeps | intro _)

theorem State.unloadJob_keeps {s0 s : State} (h : Keeps s0 s) (a1 a2) : Keeps s0 (State.unloadJob s a1 a2) := by
  unfold State.unloadJob
  repeat' (first | with_reducible assumption | with_reducible apply State.ignoreCmd_keeps
                 | with_reducible apply State.unload_keeps | intro _ | with_reducible apply Keeps.ite)

theorem execUnload_keeps {s t : State} (a0) (h : execUnload a0 s = .next t) : Keeps s t := by
  unfold execUnload at h
  refine perform_keeps h ?_
  have hs := Keeps.refl s
  repeat' (first | with_reducible assumption | with_reducible apply State.jobCmd_keeps
                 | with_reducible apply State.unloadJob_keeps | intro _)

theorem State.abortAct_keeps {s0 s : State} (h : Keeps s0 s) (a1 a2) : Keeps s0 (State.abortAct s a1 a2).1 := by
  unfold State.abortAct
  repeat' (first | with_reducible assumption | with_reducible apply State.abortJob_keeps | extract_lets | split)

theorem execAbort_keeps {s t : State} (a0 a1) (h : execAbort a0 a1 s = .next t) : Keeps s t := by
  unfold execAbort at h
  refine perform_keeps h ?_
  have hs := Keeps.refl s
  repeat' (first | with_reducible assumption | with_reducible apply State.guarded_keeps
                 | with_reducible apply State.abortAct_keeps | intro _)

theorem State.jobCmdAct_keeps {s0 s : State} (h : Keeps s0 s) (a1 a2) : Keeps s0 (State.jobCmdAct s a1 a2).1 := by
  unfold State.jobCmdAct
  repeat' (first | with_reducible assumption | with_reducible apply State.load_keeps
                 | with_reducible apply State.startJob_keeps | with_reducible apply State.stopJob_keeps
                 | with_reducible apply State.swapJob_keeps | with_reducible apply State.unloadJob_keeps
                 | extract_lets | split)

end Sys2Proof.Machine
end

