-- ==== Sys2Proof/Laws/KeepsGovTally.lean ====
section
/-!
SUPPORT. What the operations of Machine/GovTally.lean keep (Laws/Keeps.lean).
-/

namespace Sys2Proof.Machine

theorem State.clampWindow_keeps {s0 s : State} (h : Keeps s0 s) : Keeps s0 (State.clampWindow s) := by
  unfold State.clampWindow
  repeat' (first | with_reducible assumption | with_reducible apply Keeps.on | with_reducible apply Keeps.each
                 | with_reducible apply State.propose_keeps | with_reducible apply State.modStope_keeps | intro _
                 | exact le_rfl | extract_lets | with_reducible apply Keeps.mk')

theorem State.limitWindow_keeps {s0 s : State} (h : Keeps s0 s) (a1 a2) : Keeps s0 (State.limitWindow s a1 a2) := by
  unfold State.limitWindow
  repeat' (first | with_reducible assumption | with_reducible apply State.modPwr_keeps | with_reducible apply Keeps.on
                 | with_reducible apply State.clampOn_keeps | with_reducible apply State.clampOff_keeps | intro _)

theorem State.govWindow_keeps {s0 s : State} (h : Keeps s0 s) (a1) : Keeps s0 (State.govWindow s a1) := by
  unfold State.govWindow
  repeat' (first | with_reducible assumption | with_reducible apply Keeps.on | with_reducible apply State.drawn_keeps
                 | with_reducible apply State.wr_keeps | with_reducible apply State.raise_keeps
                 | with_reducible apply State.record_keeps | with_reducible apply State.clampWindow_keeps
                 | with_reducible apply State.limitWindow_keeps | intro _ | exact le_rfl | extract_lets | split
                 | with_reducible apply Keeps.mk')

theorem execGovWindow_keeps {s t : State} (a0 a1) (h : execGovWindow a0 a1 s = .next t) : Keeps s t := by
  unfold execGovWindow at h
  refine perform_keeps h ?_
  have hs := Keeps.refl s
  repeat' (first | with_reducible assumption | with_reducible apply State.govWindow_keeps)

theorem State.setRate_keeps {s0 s : State} (h : Keeps s0 s) (a1) : Keeps s0 (State.setRate s a1) := by
  unfold State.setRate
  repeat' (first | with_reducible assumption | with_reducible apply State.wr_keeps
                 | with_reducible apply State.setFld_keeps | exact le_rfl | extract_lets
                 | with_reducible apply Keeps.mk')

theorem State.slew_keeps {s0 s : State} (h : Keeps s0 s) : Keeps s0 (State.slew s) := by
  unfold State.slew
  repeat' (first | with_reducible assumption | with_reducible apply State.setRate_keeps
                 | with_reducible apply State.drawn_keeps)

theorem State.showOffset_keeps {s0 s : State} (h : Keeps s0 s) (a1) : Keeps s0 (State.showOffset s a1) := by
  unfold State.showOffset
  repeat' (first | with_reducible assumption | with_reducible apply State.wr_keeps)

theorem State.bring_keeps {s0 s : State} (h : Keeps s0 s) (a1) : Keeps s0 (State.bring s a1) := by
  unfold State.bring
  repeat' (first | with_reducible assumption | with_reducible apply State.slew_keeps | intro _
                 | with_reducible apply Keeps.ite | exact le_rfl | extract_lets | with_reducible apply Keeps.mk')

theorem State.followTo_keeps {s0 s : State} (h : Keeps s0 s) (a1) : Keeps s0 (State.followTo s a1) := by
  unfold State.followTo
  repeat' (first | with_reducible assumption | with_reducible apply State.slew_keeps | intro _
                 | with_reducible apply Keeps.ite | exact le_rfl | extract_lets | with_reducible apply Keeps.mk')

theorem State.sendMarker_keeps {s0 s : State} (h : Keeps s0 s) (a1 a2 a3 a4 a5) : Keeps s0 (State.sendMarker s a1 a2 a3 a4 a5) := by
  unfold State.sendMarker
  repeat' (first | with_reducible assumption | with_reducible apply State.count64_keeps
                 | with_reducible apply State.modPort_keeps)

theorem execMarkerSend_keeps {s t : State} (h : execMarkerSend s = .next t) : Keeps s t := by
  unfold execMarkerSend at h
  refine perform_keeps h ?_
  have hs := Keeps.refl s
  repeat' (first | with_reducible assumption | with_reducible apply Keeps.each
                 | with_reducible apply State.sendMarker_keeps | intro _ | with_reducible apply Keeps.ite)

theorem State.follow_keeps {s0 s : State} (h : Keeps s0 s) (a1 a2 a3 a4 a5 a6) : Keeps s0 (State.follow s a1 a2 a3 a4 a5 a6) := by
  unfold State.follow
  repeat' (first | with_reducible assumption | with_reducible apply State.wr_keeps
                 | with_reducible apply State.followTo_keeps | with_reducible apply State.showOffset_keeps
                 | with_reducible apply State.setSource_keeps | with_reducible apply Keeps.each
                 | with_reducible apply State.sendMarker_keeps | intro _ | exact le_rfl | extract_lets
                 | with_reducible apply Keeps.mk')

theorem State.markerArrives_keeps {s0 s : State} (h : Keeps s0 s) (a1 a2 a3 a4 a5 a6 a7) : Keeps s0 (State.markerArrives s a1 a2 a3 a4 a5 a6 a7) := by
  unfold State.markerArrives
  repeat' (first | with_reducible assumption | with_reducible apply State.wr_keeps
                 | with_reducible apply State.count64_keeps | with_reducible apply State.sendMarker_keeps
                 | with_reducible apply State.quarantine_keeps | with_reducible apply State.modPort_keeps
                 | with_reducible apply State.heardHead_keeps | with_reducible apply State.startJoin_keeps
                 | with_reducible apply State.follow_keeps | intro _ | with_reducible apply Keeps.ite)

theorem execTallyMarker_keeps {s t : State} (a0 a1 a2 a3 a4 a5 a6) (h : execTallyMarker a0 a1 a2 a3 a4 a5 a6 s = .next t) : Keeps s t := by
  unfold execTallyMarker at h
  refine perform_keeps h ?_
  have hs := Keeps.refl s
  repeat' (first | with_reducible assumption | with_reducible apply State.markerArrives_keeps)

theorem execMarkerLoss_keeps {s t : State} (h : execMarkerLoss s = .next t) : Keeps s t := by
  unfold execMarkerLoss at h
  refine perform_keeps h ?_
  have hs := Keeps.refl s
  repeat' (first | with_reducible assumption | with_reducible apply Keeps.each
                 | with_reducible apply State.modPort_keeps | with_reducible apply State.count_keeps
                 | with_reducible apply State.setSource_keeps | with_reducible apply State.wr_keeps | intro _
                 | with_reducible apply Keeps.ite | exact le_rfl | extract_lets | with_reducible apply Keeps.mk')

theorem State.loseRef_keeps {s0 s : State} (h : Keeps s0 s) (a1 a2) : Keeps s0 (State.loseRef s a1 a2) := by
  unfold State.loseRef
  repeat' (first | with_reducible assumption | with_reducible apply State.record_keeps
                 | with_reducible apply State.raise_keeps | with_reducible apply State.count_keeps
                 | with_reducible apply State.setSource_keeps | intro _ | with_reducible apply Keeps.ite
                 | exact le_rfl | extract_lets | with_reducible apply Keeps.mk')

theorem State.setCalendar_keeps {s0 s : State} (h : Keeps s0 s) (a1) : Keeps s0 (State.setCalendar s a1) := by
  unfold State.setCalendar
  repeat' (first | with_reducible assumption | with_reducible apply State.record_keeps
                 | with_reducible apply State.raise_keeps | with_reducible apply State.setFld_keeps | exact le_rfl
                 | extract_lets | with_reducible apply Keeps.mk')

theorem State.heldCalendar_keeps {s0 s : State} (h : Keeps s0 s) (a1) : Keeps s0 (State.heldCalendar s a1) := by
  unfold State.heldCalendar
  repeat' (first | with_reducible assumption | with_reducible apply State.record_keeps
                 | with_reducible apply State.raise_keeps | with_reducible apply State.setCalendar_keeps | intro _
                 | with_reducible apply Keeps.ite | exact le_rfl | extract_lets | with_reducible apply Keeps.mk')

theorem State.edgeAccepted_keeps {s0 s : State} (h : Keeps s0 s) : Keeps s0 (State.edgeAccepted s) := by
  unfold State.edgeAccepted
  repeat' (first | with_reducible assumption | with_reducible apply State.setFld_keeps
                 | with_reducible apply State.setSource_keeps | with_reducible apply State.heldCalendar_keeps
                 | with_reducible apply State.showOffset_keeps | with_reducible apply State.bring_keeps
                 | with_reducible apply State.wr64_keeps | intro _ | with_reducible apply Keeps.ite | exact le_rfl
                 | extract_lets | split | with_reducible apply Keeps.mk')

theorem execRefPpsEdge_keeps {s t : State} (a0) (h : execRefPpsEdge a0 s = .next t) : Keeps s t := by
  unfold execRefPpsEdge at h
  refine perform_keeps h ?_
  have hs := Keeps.refl s
  repeat' (first | with_reducible assumption | with_reducible apply State.edgeAccepted_keeps
                 | with_reducible apply State.setFld_keeps | with_reducible apply Keeps.on
                 | with_reducible apply State.loseRef_keeps | intro _ | with_reducible apply Keeps.ite | exact le_rfl
                 | extract_lets | with_reducible apply Keeps.mk')

theorem execPpsMissing_keeps {s t : State} (h : execPpsMissing s = .next t) : Keeps s t := by
  unfold execPpsMissing at h
  refine perform_keeps h ?_
  have hs := Keeps.refl s
  repeat' (first | with_reducible assumption | with_reducible apply State.loseRef_keeps
                 | with_reducible apply State.setFld_keeps | intro _ | with_reducible apply Keeps.ite)

theorem execRefClkReject_keeps {s t : State} (a0) (h : execRefClkReject a0 s = .next t) : Keeps s t := by
  unfold execRefClkReject at h
  refine perform_keeps h ?_
  have hs := Keeps.refl s
  repeat' (first | with_reducible assumption | with_reducible apply State.loseRef_keeps
                 | with_reducible apply State.setFld_keeps | intro _ | with_reducible apply Keeps.ite)

theorem State.tallySetAct_keeps {s0 s : State} (h : Keeps s0 s) (a1 a2) : Keeps s0 (State.tallySetAct s a1 a2).1 := by
  unfold State.tallySetAct
  repeat' (first | with_reducible assumption | with_reducible apply State.ignoreWrite_keeps
                 | with_reducible apply State.recordBy_keeps | with_reducible apply State.raise_keeps
                 | with_reducible apply State.setCalendar_keeps | exact le_rfl | extract_lets | split
                 | with_reducible apply Keeps.mk')

theorem execTallySet_keeps {s t : State} (a0 a1) (h : execTallySet a0 a1 s = .next t) : Keeps s t := by
  unfold execTallySet at h
  refine perform_keeps h ?_
  have hs := Keeps.refl s
  repeat' (first | with_reducible assumption | with_reducible apply State.guarded_keeps
                 | with_reducible apply State.tallySetAct_keeps | intro _)

theorem execTallyStore_keeps {s t : State} (h : execTallyStore s = .next t) : Keeps s t := by
  unfold execTallyStore at h
  refine perform_keeps h ?_
  have hs := Keeps.refl s
  repeat' (first | with_reducible assumption | exact le_rfl | extract_lets | with_reducible apply Keeps.mk')

theorem State.gridSetAct_keeps {s0 s : State} (h : Keeps s0 s) (a1 a2) : Keeps s0 (State.gridSetAct s a1 a2).1 := by
  unfold State.gridSetAct
  repeat' (first | with_reducible assumption | with_reducible apply State.ignoreWrite_keeps
                 | with_reducible apply State.recordBy_keeps | with_reducible apply State.toMembers_keeps
                 | exact le_rfl | extract_lets | split | with_reducible apply Keeps.mk')

theorem execGridSet_keeps {s t : State} (a0 a1) (h : execGridSet a0 a1 s = .next t) : Keeps s t := by
  unfold execGridSet at h
  refine perform_keeps h ?_
  have hs := Keeps.refl s
  repeat' (first | with_reducible assumption | with_reducible apply State.guarded_keeps
                 | with_reducible apply State.gridSetAct_keeps | intro _)

theorem execGridTakesEffect_keeps {s t : State} (h : execGridTakesEffect s = .next t) : Keeps s t := by
  unfold execGridTakesEffect at h
  refine perform_keeps h ?_
  have hs := Keeps.refl s
  repeat' (first | with_reducible assumption | with_reducible apply State.wr_keeps
                 | with_reducible apply State.wr64_keeps | exact le_rfl | extract_lets y0 y1 | split
                 | (guard_target =ₛ Keeps s y1; unfold y1) | with_reducible apply Keeps.mk')

end Sys2Proof.Machine
end

