-- ==== Sys2Proof/Laws/KeepsUpkeep.lean ====
section
/-!
SUPPORT. What the operations of Machine/Upkeep.lean keep (Laws/Keeps.lean).
-/

namespace Sys2Proof.Machine

theorem State.upkeepRec_keeps {s0 s : State} (h : Keeps s0 s) (a1 a2 a3 a4) : Keeps s0 (State.upkeepRec s a1 a2 a3 a4) := by
  unfold State.upkeepRec
  repeat' (first | with_reducible assumption | with_reducible apply State.record_keeps)

theorem State.setUnfit_keeps {s0 s : State} (h : Keeps s0 s) (a1 a2 a3 a4) : Keeps s0 (State.setUnfit s a1 a2 a3 a4) := by
  unfold State.setUnfit
  repeat' (first | with_reducible assumption | with_reducible apply State.modArr_keeps
                 | with_reducible apply State.setFld_keeps)

theorem State.degrade_keeps {s0 s : State} (h : Keeps s0 s) (a1 a2 a3) : Keeps s0 (State.degrade s a1 a2 a3) := by
  unfold State.degrade
  repeat' (first | with_reducible assumption | with_reducible apply State.upkeepRec_keeps
                 | with_reducible apply State.raise_keeps | with_reducible apply State.modArr_keeps | intro _
                 | with_reducible apply Keeps.ite)

theorem State.upkeepUnsound_keeps {s0 s : State} (h : Keeps s0 s) (a1 a2) : Keeps s0 (State.upkeepUnsound s a1 a2) := by
  unfold State.upkeepUnsound
  repeat' (first | with_reducible assumption | intro _ | with_reducible apply Keeps.ite | exact le_rfl | extract_lets
                 | with_reducible apply Keeps.mk')

theorem State.addUnfit_keeps {s0 s : State} (h : Keeps s0 s) (a1 a2 a3) : Keeps s0 (State.addUnfit s a1 a2 a3) := by
  unfold State.addUnfit
  repeat' (first | with_reducible assumption | with_reducible apply State.upkeepUnsound_keeps
                 | with_reducible apply State.raise_keeps | with_reducible apply State.setUnfit_keeps
                 | with_reducible apply Keeps.each | with_reducible apply State.upkeepRec_keeps
                 | with_reducible apply Keeps.on | with_reducible apply State.degrade_keeps | intro _
                 | with_reducible apply Keeps.ite)

theorem State.copyAgeing_keeps {s0 s : State} (h : Keeps s0 s) (a1) : Keeps s0 (State.copyAgeing s a1) := by
  unfold State.copyAgeing
  repeat' (first | with_reducible assumption | exact le_rfl | extract_lets | with_reducible apply Keeps.mk')

theorem State.makeReplan_keeps {s0 s : State} (h : Keeps s0 s) (a1 a2 a3 a4 a5 a6) : Keeps s0 (State.makeReplan s a1 a2 a3 a4 a5 a6) := by
  unfold State.makeReplan
  repeat' (first | with_reducible assumption | with_reducible apply State.modStope_keeps | intro _
                 | with_reducible apply Keeps.ite)

theorem State.takeReplan_keeps {s0 s : State} (h : Keeps s0 s) (a1 a2) : Keeps s0 (State.takeReplan s a1 a2) := by
  unfold State.takeReplan
  repeat' (first | with_reducible assumption | with_reducible apply Keeps.on
                 | with_reducible apply State.modStope_keeps | with_reducible apply State.propose_keeps
                 | with_reducible apply State.modArr_keeps | with_reducible apply State.copyAgeing_keeps
                 | with_reducible apply State.upkeepRec_keeps | with_reducible apply State.raise_keeps
                 | with_reducible apply State.count_keeps | intro _ | extract_lets | split)

theorem execAgeingCopy_keeps {s t : State} (h : execAgeingCopy s = .next t) : Keeps s t := by
  unfold execAgeingCopy at h
  refine perform_keeps h ?_
  have hs := Keeps.refl s
  repeat' (first | with_reducible assumption | with_reducible apply Keeps.each
                 | with_reducible apply State.copyAgeing_keeps | intro _)

theorem State.countWrites_keeps {s0 s : State} (h : Keeps s0 s) (a1 a2 a3) : Keeps s0 (State.countWrites s a1 a2 a3) := by
  unfold State.countWrites
  repeat' (first | with_reducible assumption | with_reducible apply State.modArr_keeps | with_reducible apply Keeps.on
                 | with_reducible apply State.upkeepRec_keeps | intro _ | with_reducible apply Keeps.ite)

theorem State.settleList_keeps {s0 s : State} (h : Keeps s0 s) (a1 a2) : Keeps s0 (State.settleList s a1 a2) := by
  unfold State.settleList
  repeat' (first | with_reducible assumption | with_reducible apply State.reportStarting_keeps
                 | with_reducible apply State.modStope_keeps | intro _ | with_reducible apply Keeps.ite | split)

theorem State.stubbornCells_keeps {s0 s : State} (h : Keeps s0 s) (a1 a2 a3 a4 a5) : Keeps s0 (State.stubbornCells s a1 a2 a3 a4 a5) := by
  unfold State.stubbornCells
  repeat' (first | with_reducible assumption | with_reducible apply State.modArr_keeps
                 | with_reducible apply Keeps.each | with_reducible apply State.upkeepRec_keeps
                 | with_reducible apply State.raise_keeps | with_reducible apply State.count_keeps
                 | with_reducible apply State.addUnfit_keeps | intro _)

theorem State.setSide_keeps {s0 s : State} (h : Keeps s0 s) (a1 a2 a3 a4) : Keeps s0 (State.setSide s a1 a2 a3 a4) := by
  unfold State.setSide
  repeat' (first | with_reducible assumption | with_reducible apply State.modArr_keeps)

theorem State.zeroSide_keeps {s0 s : State} (h : Keeps s0 s) (a1 a2 a3 a4) : Keeps s0 (State.zeroSide s a1 a2 a3 a4) := by
  unfold State.zeroSide
  repeat' (first | with_reducible assumption | with_reducible apply State.modArr_keeps)

theorem State.clearFails_keeps {s0 s : State} (h : Keeps s0 s) (a1 a2 a3 a4 a5) : Keeps s0 (State.clearFails s a1 a2 a3 a4 a5) := by
  unfold State.clearFails
  repeat' (first | with_reducible assumption | with_reducible apply State.record_keeps
                 | with_reducible apply State.modStope_keeps | intro _ | with_reducible apply Keeps.ite)

theorem State.rowSide_keeps {s0 s : State} (h : Keeps s0 s) (a1 a2 a3 a4 a5) : Keeps s0 (State.rowSide s a1 a2 a3 a4 a5) := by
  unfold State.rowSide
  repeat' (first | with_reducible assumption | with_reducible apply State.modStope_keeps
                 | with_reducible apply State.modArr_keeps | with_reducible apply State.zeroSide_keeps
                 | with_reducible apply State.setSide_keeps | with_reducible apply Keeps.on
                 | with_reducible apply State.countWrites_keeps | with_reducible apply State.clearFails_keeps
                 | with_reducible apply State.stubbornCells_keeps | with_reducible apply State.settleList_keeps
                 | intro _ | with_reducible apply Keeps.ite | extract_lets | split)

theorem execWriteRowSide_keeps {s t : State} (a0 a1 a2 a3 a4 a5 a6) (h : execWriteRowSide a0 a1 a2 a3 a4 a5 a6 s = .next t) : Keeps s t := by
  unfold execWriteRowSide at h
  refine perform_keeps h ?_
  have hs := Keeps.refl s
  repeat' (first | with_reducible assumption | with_reducible apply State.rowSide_keeps)

theorem State.listBlock_keeps {s0 s : State} (h : Keeps s0 s) (a1 a2) : Keeps s0 (State.listBlock s a1 a2) := by
  unfold State.listBlock
  repeat' (first | with_reducible assumption | with_reducible apply State.modStope_keeps
                 | with_reducible apply State.meshLand_keeps | with_reducible apply State.settleList_keeps | intro _
                 | with_reducible apply Keeps.ite | extract_lets | split)

theorem execWriteListBlock_keeps {s t : State} (a0 a1) (h : execWriteListBlock a0 a1 s = .next t) : Keeps s t := by
  unfold execWriteListBlock at h
  refine perform_keeps h ?_
  have hs := Keeps.refl s
  repeat' (first | with_reducible assumption | with_reducible apply State.listBlock_keeps)

theorem execSeamQuiet_keeps {s t : State} (a0 a1) (h : execSeamQuiet a0 a1 s = .next t) : Keeps s t := by
  unfold execSeamQuiet at h
  refine perform_keeps h ?_
  have hs := Keeps.refl s
  repeat' (first | with_reducible assumption | with_reducible apply State.settleList_keeps
                 | with_reducible apply State.modArr_keeps | intro _ | with_reducible apply Keeps.ite)

theorem State.planInterval_keeps {s0 s : State} (h : Keeps s0 s) (a1 a2) : Keeps s0 (State.planInterval s a1 a2) := by
  unfold State.planInterval
  repeat' (first | with_reducible assumption | with_reducible apply State.modArr_keeps
                 | with_reducible apply State.makeReplan_keeps | with_reducible apply State.drawn_keeps | intro _
                 | with_reducible apply Keeps.ite)

theorem State.probeGroup_keeps {s0 s : State} (h : Keeps s0 s) (a1 a2 a3 a4) : Keeps s0 (State.probeGroup s a1 a2 a3 a4) := by
  unfold State.probeGroup
  repeat' (first | with_reducible assumption | with_reducible apply State.modArr_keeps | with_reducible apply Keeps.on
                 | with_reducible apply State.count_keeps | with_reducible apply State.upkeepRec_keeps
                 | with_reducible apply State.planInterval_keeps | intro _ | with_reducible apply Keeps.ite)

theorem State.startRefresh_keeps {s0 s : State} (h : Keeps s0 s) (a1 a2) : Keeps s0 (State.startRefresh s a1 a2) := by
  unfold State.startRefresh
  repeat' (first | with_reducible assumption | with_reducible apply State.modStope_keeps | intro _
                 | with_reducible apply Keeps.ite)

theorem execDriftProbe_keeps {s t : State} (a0 a1 a2 a3) (h : execDriftProbe a0 a1 a2 a3 s = .next t) : Keeps s t := by
  unfold execDriftProbe at h
  refine perform_keeps h ?_
  have hs := Keeps.refl s
  repeat' (first | with_reducible assumption | with_reducible apply Keeps.on
                 | with_reducible apply State.probeGroup_keeps | with_reducible apply State.startRefresh_keeps
                 | intro _ | with_reducible apply Keeps.ite)

theorem execAssayDue_keeps {s t : State} (a0 a1) (h : execAssayDue a0 a1 s = .next t) : Keeps s t := by
  unfold execAssayDue at h
  refine perform_keeps h ?_
  have hs := Keeps.refl s
  repeat' (first | with_reducible assumption | with_reducible apply State.modStope_keeps)

theorem execAssayOverdue_keeps {s t : State} (a0) (h : execAssayOverdue a0 s = .next t) : Keeps s t := by
  unfold execAssayOverdue at h
  refine perform_keeps h ?_
  have hs := Keeps.refl s
  repeat' (first | with_reducible assumption | with_reducible apply State.upkeepRec_keeps
                 | with_reducible apply State.raise_keeps | with_reducible apply State.modStope_keeps | intro _
                 | with_reducible apply Keeps.ite)

theorem State.assayForceAct_keeps {s0 s : State} (h : Keeps s0 s) (a1 a2) : Keeps s0 (State.assayForceAct s a1 a2).1 := by
  unfold State.assayForceAct
  repeat' (first | with_reducible assumption | with_reducible apply State.ignoreWrite_keeps
                 | with_reducible apply State.modStope_keeps | extract_lets | split)

theorem execAssayForce_keeps {s t : State} (a0 a1) (h : execAssayForce a0 a1 s = .next t) : Keeps s t := by
  unfold execAssayForce at h
  refine perform_keeps h ?_
  have hs := Keeps.refl s
  repeat' (first | with_reducible assumption | with_reducible apply State.guarded_keeps
                 | with_reducible apply State.assayForceAct_keeps | intro _)

theorem execArrayAssay_keeps {s t : State} (a0 a1) (h : execArrayAssay a0 a1 s = .next t) : Keeps s t := by
  unfold execArrayAssay at h
  refine perform_keeps h ?_
  have hs := Keeps.refl s
  repeat' (first | with_reducible assumption | with_reducible apply Keeps.on | with_reducible apply State.modArr_keeps
                 | with_reducible apply State.modStope_keeps | intro _ | with_reducible apply Keeps.ite)

theorem State.markFits_keeps {s0 s : State} (h : Keeps s0 s) (a1 a2 a3 a4) : Keeps s0 (State.markFits s a1 a2 a3 a4) := by
  unfold State.markFits
  repeat' (first | with_reducible assumption | with_reducible apply State.setUnfit_keeps
                 | with_reducible apply Keeps.each | with_reducible apply State.upkeepRec_keeps
                 | with_reducible apply Keeps.on | with_reducible apply State.addUnfit_keeps
                 | with_reducible apply State.degrade_keeps | intro _)

theorem State.ageReadings_keeps {s0 s : State} (h : Keeps s0 s) (a1 a2 a3) : Keeps s0 (State.ageReadings s a1 a2 a3) := by
  unfold State.ageReadings
  repeat' (first | with_reducible assumption | with_reducible apply State.makeReplan_keeps
                 | with_reducible apply State.modStope_keeps)

theorem State.endRound_keeps {s0 s : State} (h : Keeps s0 s) (a1) : Keeps s0 (State.endRound s a1) := by
  unfold State.endRound
  repeat' (first | with_reducible assumption | with_reducible apply State.modStope_keeps
                 | with_reducible apply State.upkeepRec_keeps | with_reducible apply State.count_keeps | intro _
                 | with_reducible apply Keeps.ite)

theorem State.assayDone_keeps {s0 s : State} (h : Keeps s0 s) (a1 a2 a3) : Keeps s0 (State.assayDone s a1 a2 a3) := by
  unfold State.assayDone
  repeat' (first | with_reducible assumption | with_reducible apply State.modStope_keeps
                 | with_reducible apply State.markFits_keeps | with_reducible apply Keeps.each
                 | with_reducible apply State.probeGroup_keeps | with_reducible apply State.endRound_keeps
                 | with_reducible apply State.ageReadings_keeps | intro _ | with_reducible apply Keeps.ite)

theorem execArrayAssayDone_keeps {s t : State} (a0 a1 a2) (h : execArrayAssayDone a0 a1 a2 s = .next t) : Keeps s t := by
  unfold execArrayAssayDone at h
  refine perform_keeps h ?_
  have hs := Keeps.refl s
  repeat' (first | with_reducible assumption | with_reducible apply State.assayDone_keeps)

theorem execWriteEffortReplan_keeps {s t : State} (a0 a1) (h : execWriteEffortReplan a0 a1 s = .next t) : Keeps s t := by
  unfold execWriteEffortReplan at h
  refine perform_keeps h ?_
  have hs := Keeps.refl s
  repeat' (first | with_reducible assumption | with_reducible apply State.modArr_keeps
                 | with_reducible apply State.upkeepRec_keeps | with_reducible apply State.makeReplan_keeps | intro _
                 | with_reducible apply Keeps.ite)

theorem execAssaySlot_keeps {s t : State} (a0 a1) (h : execAssaySlot a0 a1 s = .next t) : Keeps s t := by
  unfold execAssaySlot at h
  refine perform_keeps h ?_
  have hs := Keeps.refl s
  repeat' (first | with_reducible assumption | with_reducible apply State.startRun_keeps
                 | with_reducible apply Keeps.each | with_reducible apply State.startRefresh_keeps
                 | with_reducible apply State.modStope_keeps | intro _ | with_reducible apply Keeps.foldl | split)

theorem execAssaySlotEnd_keeps {s t : State} (a0 a1) (h : execAssaySlotEnd a0 a1 s = .next t) : Keeps s t := by
  unfold execAssaySlotEnd at h
  refine perform_keeps h ?_
  have hs := Keeps.refl s
  repeat' (first | with_reducible assumption | with_reducible apply State.hoistDone_keeps
                 | with_reducible apply Keeps.each | with_reducible apply State.modStope_keeps | intro _
                 | with_reducible apply Keeps.ite | split)

theorem State.setSeamState_keeps {s0 s : State} (h : Keeps s0 s) (a1 a2 a3) : Keeps s0 (State.setSeamState s a1 a2 a3) := by
  unfold State.setSeamState
  repeat' (first | with_reducible assumption | with_reducible apply State.stageWord_keeps)

theorem execReliefCopyDone_keeps {s t : State} (a0 a1) (h : execReliefCopyDone a0 a1 s = .next t) : Keeps s t := by
  unfold execReliefCopyDone at h
  refine perform_keeps h ?_
  have hs := Keeps.refl s
  repeat' (first | with_reducible assumption | with_reducible apply State.setCycle_keeps
                 | with_reducible apply State.modStope_keeps | intro _ | with_reducible apply Keeps.ite)

theorem State.startCycle_keeps {s0 s : State} (h : Keeps s0 s) (a1 a2 a3) : Keeps s0 (State.startCycle s a1 a2 a3) := by
  unfold State.startCycle
  repeat' (first | with_reducible assumption | with_reducible apply State.modStope_keeps
                 | with_reducible apply State.countWrites_keeps | with_reducible apply State.setCycle_keeps)

theorem State.rotWait_keeps {s0 s : State} (h : Keeps s0 s) (a1 a2) : Keeps s0 (State.rotWait s a1 a2) := by
  unfold State.rotWait
  repeat' (first | with_reducible assumption | with_reducible apply Keeps.on | with_reducible apply State.count_keeps
                 | intro _)

theorem State.reliefStep_keeps {s0 s : State} (h : Keeps s0 s) (a1 a2) : Keeps s0 (State.reliefStep s a1 a2) := by
  unfold State.reliefStep
  repeat' (first | with_reducible assumption | with_reducible apply State.modStope_keeps
                 | with_reducible apply State.setCycle_keeps | with_reducible apply State.startCycle_keeps
                 | with_reducible apply Keeps.on | with_reducible apply State.modArr_keeps
                 | with_reducible apply State.rotWait_keeps | with_reducible apply State.setSeamState_keeps
                 | with_reducible apply State.count_keeps | with_reducible apply State.startRefresh_keeps
                 | with_reducible apply State.propose_keeps | intro _ | with_reducible apply Keeps.ite | extract_lets
                 | split)

theorem State.outStep_keeps {s0 s : State} (h : Keeps s0 s) (a1) : Keeps s0 (State.outStep s a1) := by
  unfold State.outStep
  repeat' (first | with_reducible assumption | with_reducible apply State.modStope_keeps
                 | with_reducible apply State.modArr_keeps | with_reducible apply State.startRefresh_keeps | intro _
                 | with_reducible apply Keeps.ite | extract_lets | ((conv => arg 2; zeta); split))

theorem State.easeStope_keeps {s0 s : State} (h : Keeps s0 s) (a1) : Keeps s0 (State.easeStope s a1) := by
  unfold State.easeStope
  repeat' (first | with_reducible assumption | with_reducible apply Keeps.each
                 | with_reducible apply State.modArr_keeps | intro _)

theorem State.keepCoefs_keeps {s0 s : State} (h : Keeps s0 s) (a1) : Keeps s0 (State.keepCoefs s a1) := by
  unfold State.keepCoefs
  repeat' (first | with_reducible assumption | with_reducible apply State.setJob_keeps | split)

theorem State.writeImages_keeps {s0 s : State} (h : Keeps s0 s) (a1) : Keeps s0 (State.writeImages s a1) := by
  unfold State.writeImages
  repeat' (first | with_reducible assumption | with_reducible apply State.keepCoefs_keeps
                 | with_reducible apply Keeps.each | with_reducible apply State.wrNat_keeps | intro _
                 | with_reducible apply Keeps.ite | extract_lets | split)

theorem State.planStep_keeps {s0 s : State} (h : Keeps s0 s) (a1) : Keeps s0 (State.planStep s a1) := by
  unfold State.planStep
  repeat' (first | with_reducible assumption | with_reducible apply Keeps.each | with_reducible apply Keeps.on
                 | with_reducible apply State.degrade_keeps | with_reducible apply State.upkeepRec_keeps
                 | with_reducible apply State.raise_keeps | with_reducible apply State.modArr_keeps
                 | with_reducible apply State.takeReplan_keeps | intro _ | with_reducible apply Keeps.ite
                 | extract_lets | split)

theorem State.planInForce_keeps {s0 s : State} (h : Keeps s0 s) (a1 a2) : Keeps s0 (State.planInForce s a1 a2) := by
  unfold State.planInForce
  repeat' (first | with_reducible assumption | with_reducible apply Keeps.each
                 | with_reducible apply State.takeReplan_keeps | with_reducible apply State.modArr_keeps | intro _
                 | with_reducible apply Keeps.ite)

theorem State.lateLists_keeps {s0 s : State} (h : Keeps s0 s) (a1) : Keeps s0 (State.lateLists s a1) := by
  unfold State.lateLists
  repeat' (first | with_reducible assumption | with_reducible apply Keeps.each
                 | with_reducible apply State.upkeepRec_keeps | with_reducible apply State.raise_keeps
                 | with_reducible apply State.count_keeps | intro _)

theorem State.showPlans_keeps {s0 s : State} (h : Keeps s0 s) (a1) : Keeps s0 (State.showPlans s a1) := by
  unfold State.showPlans
  repeat' (first | with_reducible assumption | with_reducible apply State.stageWord_keeps | intro _
                 | with_reducible apply Keeps.ite | extract_lets | split)

theorem State.commitStope_keeps {s0 s : State} (h : Keeps s0 s) (a1 a2 a3 a4) : Keeps s0 (State.commitStope s a1 a2 a3 a4) := by
  unfold State.commitStope
  repeat' (first | with_reducible assumption | with_reducible apply State.count_keeps | with_reducible apply Keeps.on
                 | with_reducible apply State.planInForce_keeps | with_reducible apply State.meshDrop_keeps
                 | with_reducible apply State.modStope_keeps | with_reducible apply Keeps.each
                 | with_reducible apply State.modArr_keeps | with_reducible apply State.outStep_keeps
                 | with_reducible apply State.reliefStep_keeps | with_reducible apply State.takeReplan_keeps
                 | with_reducible apply State.easeStope_keeps | with_reducible apply State.planStep_keeps | intro _
                 | with_reducible apply Keeps.ite)

end Sys2Proof.Machine
end

