-- ==== Sys2Proof/Laws/KeepsSeal.lean ====
section
/-!
SUPPORT. What the operations of Machine/Seal.lean keep (Laws/Keeps.lean).
-/

namespace Sys2Proof.Machine

theorem State.sealMargin_keeps {s0 s : State} (h : Keeps s0 s) (a1 a2 a3) : Keeps s0 (State.sealMargin s a1 a2 a3) := by
  unfold State.sealMargin
  repeat' (first | with_reducible assumption | with_reducible apply State.wrB_keeps)

theorem State.launchJob_keeps {s0 s : State} (h : Keeps s0 s) (a1) : Keeps s0 (State.launchJob s a1) := by
  unfold State.launchJob
  repeat' (first | with_reducible assumption | with_reducible apply State.unsound_keeps
                 | with_reducible apply Keeps.on | with_reducible apply State.dropWork_keeps
                 | with_reducible apply State.sealMargin_keeps | intro _ | with_reducible apply Keeps.ite
                 | extract_lets | split)

theorem execSealLaunch_keeps {s t : State} (h : execSealLaunch s = .next t) : Keeps s t := by
  unfold execSealLaunch at h
  refine perform_keeps h ?_
  have hs := Keeps.refl s
  repeat' (first | with_reducible assumption | with_reducible apply Keeps.each
                 | with_reducible apply State.launchJob_keeps | with_reducible apply State.lateLists_keeps | intro _
                 | with_reducible apply Keeps.ite | exact le_rfl | extract_lets | with_reducible apply Keeps.mk')

theorem State.lateChecks_keeps {s0 s : State} (h : Keeps s0 s) (a1) : Keeps s0 (State.lateChecks s a1) := by
  unfold State.lateChecks
  repeat' (first | with_reducible assumption | with_reducible apply Keeps.on
                 | with_reducible apply State.unsound_keeps | intro _ | split)

theorem State.sendVerdict_keeps {s0 s : State} (h : Keeps s0 s) (a1 a2) : Keeps s0 (State.sendVerdict s a1 a2) := by
  unfold State.sendVerdict
  repeat' (first | with_reducible assumption | with_reducible apply State.sendMsg_keeps | intro _
                 | with_reducible apply Keeps.ite)

theorem execVerdict_keeps {s t : State} (h : execVerdict s = .next t) : Keeps s t := by
  unfold execVerdict at h
  refine perform_keeps h ?_
  have hs := Keeps.refl s
  repeat' (first | with_reducible assumption | with_reducible apply Keeps.each
                 | with_reducible apply State.lateChecks_keeps | with_reducible apply State.sendVerdict_keeps
                 | intro _ | with_reducible apply Keeps.ite | exact le_rfl | extract_lets
                 | with_reducible apply Keeps.mk')

theorem execVerdictArrival_keeps {s t : State} (a0 a1) (h : execVerdictArrival a0 a1 s = .next t) : Keeps s t := by
  unfold execVerdictArrival at h
  refine perform_keeps h ?_
  have hs := Keeps.refl s
  repeat' (first | with_reducible assumption | with_reducible apply State.sendVerdict_keeps
                 | with_reducible apply State.modPeer_keeps | intro _ | with_reducible apply Keeps.ite | exact le_rfl
                 | extract_lets | with_reducible apply Keeps.mk')

theorem State.numRecords_keeps {s0 s : State} (h : Keeps s0 s) (a1 a2 a3 a4 a5 a6 a7) : Keeps s0 (State.numRecords s a1 a2 a3 a4 a5 a6 a7) := by
  unfold State.numRecords
  repeat' (first | with_reducible assumption | with_reducible apply State.record_keeps
                 | with_reducible apply Keeps.each | with_reducible apply Keeps.on | intro _
                 | with_reducible apply Keeps.ite | extract_lets | split)

theorem State.stageJob_keeps {s0 s : State} (h : Keeps s0 s) (a1 a2 a3) : Keeps s0 (State.stageJob s a1 a2 a3) := by
  unfold State.stageJob
  repeat' (first | with_reducible assumption | with_reducible apply Keeps.on
                 | with_reducible apply State.numRecords_keeps | with_reducible apply Keeps.wrBytes
                 | with_reducible apply State.modJob_keeps | intro _ | with_reducible apply Keeps.foldlFst
                 | with_reducible apply Keeps.ite | extract_lets | split)

theorem State.stageSeal_keeps {s0 s : State} (h : Keeps s0 s) : Keeps s0 (State.stageSeal s) := by
  unfold State.stageSeal
  repeat' (first | with_reducible assumption | with_reducible apply Keeps.each
                 | with_reducible apply State.stageJob_keeps | intro _ | with_reducible apply Keeps.ite | exact le_rfl
                 | extract_lets | split | with_reducible apply Keeps.mk')

theorem State.missVerdict_keeps {s0 s : State} (h : Keeps s0 s) (a1) : Keeps s0 (State.missVerdict s a1) := by
  unfold State.missVerdict
  repeat' (first | with_reducible assumption | with_reducible apply Keeps.on
                 | with_reducible apply State.unsound_keeps | with_reducible apply State.modPeer_keeps
                 | with_reducible apply State.declareMemberLost_keeps | intro _ | with_reducible apply Keeps.foldl
                 | extract_lets | split)

theorem State.broadcast_keeps {s0 s : State} (h : Keeps s0 s) : Keeps s0 (State.broadcast s) := by
  unfold State.broadcast
  repeat' (first | with_reducible assumption | with_reducible apply State.stageSeal_keeps
                 | with_reducible apply State.toMembers_keeps | exact le_rfl | extract_lets | split
                 | with_reducible apply Keeps.mk')

theorem execVerdictDeadline_keeps {s t : State} (h : execVerdictDeadline s = .next t) : Keeps s t := by
  unfold execVerdictDeadline at h
  refine perform_keeps h ?_
  have hs := Keeps.refl s
  repeat' (first | with_reducible assumption | with_reducible apply Keeps.each
                 | with_reducible apply State.missVerdict_keeps | with_reducible apply State.broadcast_keeps
                 | with_reducible apply State.sendMsg_keeps | intro _ | with_reducible apply Keeps.ite | exact le_rfl
                 | extract_lets | with_reducible apply Keeps.mk')

theorem execDecisionHold_keeps {s t : State} (a0 a1) (h : execDecisionHold a0 a1 s = .next t) : Keeps s t := by
  unfold execDecisionHold at h
  refine perform_keeps h ?_
  have hs := Keeps.refl s
  repeat' (first | with_reducible assumption | with_reducible apply State.sendMsg_keeps | intro _
                 | with_reducible apply Keeps.ite | exact le_rfl | extract_lets | with_reducible apply Keeps.mk')

theorem execDecisionAck_keeps {s t : State} (h : execDecisionAck s = .next t) : Keeps s t := by
  unfold execDecisionAck at h
  refine perform_keeps h ?_
  have hs := Keeps.refl s
  repeat' (first | with_reducible assumption | with_reducible apply State.broadcast_keeps | intro _
                 | with_reducible apply Keeps.ite)

theorem execDecisionReceive_keeps {s t : State} (a0 a1) (h : execDecisionReceive a0 a1 s = .next t) : Keeps s t := by
  unfold execDecisionReceive at h
  refine perform_keeps h ?_
  have hs := Keeps.refl s
  repeat' (first | with_reducible assumption | with_reducible apply State.stageSeal_keeps | intro _
                 | with_reducible apply Keeps.ite | exact le_rfl | extract_lets | with_reducible apply Keeps.mk')

theorem State.leaveCascade_keeps {s0 s : State} (h : Keeps s0 s) : Keeps s0 (State.leaveCascade s) := by
  unfold State.leaveCascade
  repeat' (first | with_reducible assumption | with_reducible apply State.meshDrop_keeps
                 | with_reducible apply Keeps.each | with_reducible apply State.modStope_keeps
                 | with_reducible apply Keeps.on | with_reducible apply State.startJoin_keeps | intro _)

theorem execDecisionDeadline_keeps {s t : State} (h : execDecisionDeadline s = .next t) : Keeps s t := by
  unfold execDecisionDeadline at h
  refine perform_keeps h ?_
  have hs := Keeps.refl s
  repeat' (first | with_reducible assumption | with_reducible apply Keeps.each | with_reducible apply Keeps.on
                 | with_reducible apply State.setJobState_keeps | with_reducible apply State.dropWork_keeps
                 | with_reducible apply State.record_keeps | with_reducible apply State.modJob_keeps
                 | with_reducible apply State.leaveCascade_keeps | with_reducible apply State.dropReports_keeps
                 | intro _ | with_reducible apply Keeps.ite | exact le_rfl | extract_lets
                 | with_reducible apply Keeps.mk')

theorem State.swapEffect_keeps {s0 s : State} (h : Keeps s0 s) (a1) : Keeps s0 (State.swapEffect s a1) := by
  unfold State.swapEffect
  repeat' (first | with_reducible assumption | with_reducible apply State.report_keeps
                 | with_reducible apply State.setFld_keeps | with_reducible apply State.setJob_keeps | extract_lets
                 | split)

theorem State.bumpSeq_keeps {s0 s : State} (h : Keeps s0 s) (a1) : Keeps s0 (State.bumpSeq s a1) := by
  unfold State.bumpSeq
  repeat' (first | with_reducible assumption | with_reducible apply State.wr_keeps)

theorem State.commitJob_keeps {s0 s : State} (h : Keeps s0 s) (a1) : Keeps s0 (State.commitJob s a1) := by
  unfold State.commitJob
  repeat' (first | with_reducible assumption | with_reducible apply Keeps.on | with_reducible apply State.setJob_keeps
                 | with_reducible apply State.wr64B_keeps | with_reducible apply State.swapEffect_keeps
                 | with_reducible apply State.startCkpt_keeps | intro _ | extract_lets | split)

theorem State.fence_keeps {s0 s : State} (h : Keeps s0 s) (a1) : Keeps s0 (State.fence s a1) := by
  unfold State.fence
  repeat' (first | with_reducible assumption | with_reducible apply Keeps.each | with_reducible apply Keeps.on
                 | with_reducible apply State.modStope_keeps | intro _)

theorem State.dropCounts_keeps {s0 s : State} (h : Keeps s0 s) (a1) : Keeps s0 (State.dropCounts s a1) := by
  unfold State.dropCounts
  repeat' (first | with_reducible assumption | with_reducible apply Keeps.each | with_reducible apply State.wrB_keeps
                 | intro _)

theorem State.discardJob_keeps {s0 s : State} (h : Keeps s0 s) (a1) : Keeps s0 (State.discardJob s a1) := by
  unfold State.discardJob
  repeat' (first | with_reducible assumption | with_reducible apply State.dropCounts_keeps
                 | with_reducible apply Keeps.on | with_reducible apply State.fence_keeps
                 | with_reducible apply State.raise_keeps | with_reducible apply State.countB_keeps
                 | with_reducible apply State.setJob_keeps | with_reducible apply State.record_keeps
                 | with_reducible apply State.modJob_keeps | with_reducible apply State.setJobState_keeps | intro _
                 | extract_lets | split)

theorem State.settleJob_keeps {s0 s : State} (h : Keeps s0 s) (a1) : Keeps s0 (State.settleJob s a1) := by
  unfold State.settleJob
  repeat' (first | with_reducible assumption | with_reducible apply State.wrB_keeps
                 | with_reducible apply State.showStock_keeps | with_reducible apply State.showQueued_keeps
                 | with_reducible apply Keeps.each | with_reducible apply State.raiseMil_keeps
                 | with_reducible apply State.modJob_keeps | with_reducible apply State.setJobState_keeps | intro _
                 | with_reducible apply Keeps.ite | exact le_rfl | extract_lets | split
                 | with_reducible apply Keeps.mk')

theorem State.sealJob_keeps {s0 s : State} (h : Keeps s0 s) (a1 a2) : Keeps s0 (State.sealJob s a1 a2) := by
  unfold State.sealJob
  repeat' (first | with_reducible assumption | with_reducible apply State.modJob_keeps
                 | with_reducible apply State.discardJob_keeps | with_reducible apply State.commitJob_keeps
                 | with_reducible apply State.settleJob_keeps | intro _ | with_reducible apply Keeps.ite | split)

theorem State.copySeam_keeps {s0 s : State} (h : Keeps s0 s) (a1 a2 a3 a4) : Keeps s0 (State.copySeam s a1 a2 a3 a4) := by
  unfold State.copySeam
  repeat' (first | with_reducible assumption | with_reducible apply State.modArr_keeps | intro _
                 | with_reducible apply Keeps.ite)

theorem State.retire_keeps {s0 s : State} (h : Keeps s0 s) (a1 a2) : Keeps s0 (State.retire s a1 a2) := by
  unfold State.retire
  repeat' (first | with_reducible assumption | with_reducible apply State.wr_keeps | with_reducible apply Keeps.on
                 | with_reducible apply State.bumpStates_keeps | with_reducible apply State.setFn_keeps
                 | with_reducible apply State.modStope_keeps | with_reducible apply State.record_keeps
                 | with_reducible apply State.bumpSeq_keeps | with_reducible apply State.stageEvent_keeps
                 | with_reducible apply Keeps.each | with_reducible apply State.clearStope_keeps
                 | with_reducible apply State.modArr_keeps | with_reducible apply State.removeRails_keeps | intro _)

theorem State.standIn_keeps {s0 s : State} (h : Keeps s0 s) (a1 a2 a3) : Keeps s0 (State.standIn s a1 a2 a3) := by
  unfold State.standIn
  repeat' (first | with_reducible assumption | with_reducible apply State.fenceTiles_keeps
                 | with_reducible apply State.wr_keeps | with_reducible apply State.bumpSeq_keeps
                 | with_reducible apply State.raise_keeps | with_reducible apply State.bumpStates_keeps
                 | with_reducible apply State.modStope_keeps | with_reducible apply State.meshDrop_keeps
                 | with_reducible apply State.retire_keeps | with_reducible apply Keeps.each
                 | with_reducible apply State.giveList_keeps | intro _)

theorem State.vacate_keeps {s0 s : State} (h : Keeps s0 s) (a1 a2) : Keeps s0 (State.vacate s a1 a2) := by
  unfold State.vacate
  repeat' (first | with_reducible assumption | with_reducible apply State.bumpSeq_keeps
                 | with_reducible apply State.raise_keeps | with_reducible apply State.wr_keeps
                 | with_reducible apply State.record_keeps | with_reducible apply State.retire_keeps)

theorem State.proposalStep_keeps {s0 s : State} (h : Keeps s0 s) (a1) : Keeps s0 (State.proposalStep s a1) := by
  unfold State.proposalStep
  repeat' (first | with_reducible assumption | with_reducible apply State.retire_keeps
                 | with_reducible apply State.standIn_keeps | with_reducible apply State.modStope_keeps
                 | with_reducible apply State.vacate_keeps | intro _ | with_reducible apply Keeps.ite | extract_lets
                 | split)

theorem State.stopMoved_keeps {s0 s : State} (h : Keeps s0 s) (a1) : Keeps s0 (State.stopMoved s a1) := by
  unfold State.stopMoved
  repeat' (first | with_reducible assumption | with_reducible apply Keeps.on
                 | with_reducible apply State.setJobState_keeps | with_reducible apply State.dropWork_keeps | intro _
                 | split)

theorem State.takeRole_keeps {s0 s : State} (h : Keeps s0 s) (a1) : Keeps s0 (State.takeRole s a1) := by
  unfold State.takeRole
  repeat' (first | with_reducible assumption | with_reducible apply Keeps.on
                 | with_reducible apply State.stopMoved_keeps | with_reducible apply State.becomeHead_keeps
                 | with_reducible apply State.showRoles_keeps | with_reducible apply State.rebuddied_keeps | intro _
                 | with_reducible apply Keeps.ite | exact le_rfl | extract_lets | with_reducible apply Keeps.mk')

theorem State.dueMoves_keeps {s0 s : State} (h : Keeps s0 s) : Keeps s0 (State.dueMoves s) := by
  unfold State.dueMoves
  repeat' (first | with_reducible assumption | with_reducible apply Keeps.each
                 | with_reducible apply State.takeRole_keeps | intro _ | exact le_rfl | extract_lets
                 | with_reducible apply Keeps.mk')

theorem State.nameBuddies_keeps {s0 s : State} (h : Keeps s0 s) (a1) : Keeps s0 (State.nameBuddies s a1) := by
  unfold State.nameBuddies
  repeat' (first | with_reducible assumption | with_reducible apply State.rebuddied_keeps | exact le_rfl
                 | extract_lets | with_reducible apply Keeps.mk')

theorem State.sendRestart_keeps {s0 s : State} (h : Keeps s0 s) (a1) : Keeps s0 (State.sendRestart s a1) := by
  unfold State.sendRestart
  repeat' (first | with_reducible assumption | with_reducible apply State.stageEvent_keeps
                 | with_reducible apply State.record_keeps | with_reducible apply Keeps.each
                 | with_reducible apply State.sendMsg_keeps | with_reducible apply Keeps.on
                 | with_reducible apply State.jobRestart_keeps | intro _ | extract_lets | split)

theorem State.moveJob_keeps {s0 s : State} (h : Keeps s0 s) (a1 a2) : Keeps s0 (State.moveJob s a1 a2) := by
  unfold State.moveJob
  repeat' (first | with_reducible assumption | with_reducible apply State.stageEvent_keeps
                 | with_reducible apply State.record_keeps | with_reducible apply State.stopMoved_keeps
                 | with_reducible apply State.drawn_keeps | with_reducible apply State.nameBuddies_keeps
                 | with_reducible apply State.sendRestart_keeps | with_reducible apply State.toMembers_keeps
                 | exact le_rfl | extract_lets | split | with_reducible apply Keeps.mk')

theorem State.actOnLosses_keeps {s0 s : State} (h : Keeps s0 s) : Keeps s0 (State.actOnLosses s) := by
  unfold State.actOnLosses
  repeat' (first | with_reducible assumption | with_reducible apply Keeps.each | with_reducible apply Keeps.on
                 | with_reducible apply State.quarantine_keeps | with_reducible apply State.declareMemberLost_keeps
                 | with_reducible apply State.moveJob_keeps | with_reducible apply State.stageEvent_keeps | intro _
                 | with_reducible apply Keeps.foldl | with_reducible apply Keeps.ite | exact le_rfl | extract_lets
                 | with_reducible apply Keeps.mk')

theorem State.tellMember_keeps {s0 s : State} (h : Keeps s0 s) (a1 : State) (a2) : Keeps s0 (State.tellMember s a1 a2) := by
  unfold State.tellMember
  repeat' (first | with_reducible assumption | with_reducible apply Keeps.on
                 | with_reducible apply State.reportMember_keeps | intro _)

theorem State.demoteStep_keeps {s0 s : State} (h : Keeps s0 s) (a1) : Keeps s0 (State.demoteStep s a1) := by
  unfold State.demoteStep
  repeat' (first | with_reducible assumption | with_reducible apply State.modPeer_keeps
                 | with_reducible apply State.stageEvent_keeps | with_reducible apply State.record_keeps
                 | with_reducible apply State.moveJob_keeps | with_reducible apply State.drawn_keeps | intro _
                 | with_reducible apply Keeps.foldl | with_reducible apply Keeps.ite)

theorem State.headMoveStep_keeps {s0 s : State} (h : Keeps s0 s) : Keeps s0 (State.headMoveStep s) := by
  unfold State.headMoveStep
  repeat' (first | with_reducible assumption | with_reducible apply State.toMembers_keeps
                 | with_reducible apply State.setCas_keeps | with_reducible apply State.nameHead_keeps | exact le_rfl
                 | extract_lets | split | with_reducible apply Keeps.mk')

theorem State.publish_keeps {s0 s : State} (h : Keeps s0 s) : Keeps s0 (State.publish s) := by
  unfold State.publish
  repeat' (first | with_reducible assumption | with_reducible apply Keeps.each | with_reducible apply Keeps.setReg
                 | with_reducible apply State.wrB_keeps | with_reducible apply State.noteLive_keeps
                 | with_reducible apply State.latch_keeps | with_reducible apply State.wr_keeps
                 | with_reducible apply State.bumpSeq_keeps | intro _ | with_reducible apply Keeps.ite | exact le_rfl
                 | extract_lets | with_reducible apply Keeps.mk')

theorem State.trainStep_keeps {s0 s : State} (h : Keeps s0 s) : Keeps s0 (State.trainStep s) := by
  unfold State.trainStep
  repeat' (first | with_reducible assumption | with_reducible apply State.modPros_keeps
                 | with_reducible apply State.bumpSeq_keeps | with_reducible apply State.drawn_keeps
                 | with_reducible apply State.wr_keeps | with_reducible apply State.count64_keeps | intro _
                 | with_reducible apply Keeps.ite)

theorem State.prospectorStep_keeps {s0 s : State} (h : Keeps s0 s) (a1 a2) : Keeps s0 (State.prospectorStep s a1 a2) := by
  unfold State.prospectorStep
  repeat' (first | with_reducible assumption | with_reducible apply Keeps.on
                 | with_reducible apply State.trainStep_keeps | with_reducible apply State.stopPro_keeps
                 | with_reducible apply State.setPro_keeps | with_reducible apply State.startPro_keeps
                 | with_reducible apply State.drainPro_keeps | intro _ | extract_lets | split)

theorem State.drainStep_keeps {s0 s : State} (h : Keeps s0 s) : Keeps s0 (State.drainStep s) := by
  unfold State.drainStep
  repeat' (first | with_reducible assumption | with_reducible apply Keeps.on
                 | with_reducible apply State.endDrain_keeps | intro _)

theorem State.claimsStep_keeps {s0 s : State} (h : Keeps s0 s) : Keeps s0 (State.claimsStep s) := by
  unfold State.claimsStep
  repeat' (first | with_reducible assumption | with_reducible apply Keeps.each
                 | with_reducible apply State.bumpSeq_keeps | with_reducible apply State.applyEffect_keeps
                 | with_reducible apply State.rekeyAtSeal_keeps | intro _)

theorem State.commitSeal_keeps {s0 s : State} (h : Keeps s0 s) (a1 a2) : Keeps s0 (State.commitSeal s a1 a2) := by
  unfold State.commitSeal
  repeat' (first | with_reducible assumption | with_reducible apply Keeps.each
                 | with_reducible apply State.modStope_keeps | with_reducible apply State.wr64_keeps
                 | with_reducible apply State.sealJob_keeps | with_reducible apply State.commitStope_keeps
                 | with_reducible apply State.copySeam_keeps | with_reducible apply Keeps.on
                 | with_reducible apply State.proposalStep_keeps | with_reducible apply State.settleJob_keeps
                 | with_reducible apply State.showPlans_keeps | with_reducible apply State.writeImages_keeps
                 | with_reducible apply State.jobHeadroom_keeps | with_reducible apply State.claimsStep_keeps
                 | with_reducible apply State.clearWaiting_keeps | with_reducible apply State.drainStep_keeps
                 | with_reducible apply State.prospectorStep_keeps | with_reducible apply State.actOnLosses_keeps
                 | with_reducible apply State.dueMoves_keeps | with_reducible apply State.tellMember_keeps
                 | with_reducible apply State.demoteStep_keeps | with_reducible apply State.publish_keeps
                 | with_reducible apply State.headMoveStep_keeps | with_reducible apply State.bumpSeq_keeps
                 | with_reducible apply State.showQueued_keeps | with_reducible apply State.reportStarting_keeps
                 | with_reducible apply State.dropReports_keeps | intro _ | with_reducible apply Keeps.ite
                 | exact le_rfl | extract_lets | split | with_reducible apply Keeps.mk')

theorem execSealCommit_keeps {s t : State} (h : execSealCommit s = .next t) : Keeps s t := by
  unfold execSealCommit at h
  refine perform_keeps h ?_
  have hs := Keeps.refl s
  repeat' (first | with_reducible assumption | with_reducible apply State.stageSeal_keeps
                 | with_reducible apply State.commitSeal_keeps | intro _ | with_reducible apply Keeps.ite
                 | extract_lets | split)

end Sys2Proof.Machine
end

