-- ==== Sys2Proof/Laws/KeepsIntegrity.lean ====
section
/-!
SUPPORT. What the operations of Machine/Integrity.lean keep (Laws/Keeps.lean).
-/

namespace Sys2Proof.Machine

theorem State.testRecord_keeps {s0 s : State} (h : Keeps s0 s) (a1 a2 a3 a4) : Keeps s0 (State.testRecord s a1 a2 a3 a4) := by
  unfold State.testRecord
  repeat' (first | with_reducible assumption | with_reducible apply State.record_keeps)

theorem State.testPassed_keeps {s0 s : State} (h : Keeps s0 s) (a1) : Keeps s0 (State.testPassed s a1) := by
  unfold State.testPassed
  repeat' (first | with_reducible assumption | with_reducible apply State.testRecord_keeps
                 | with_reducible apply State.count_keeps | with_reducible apply State.modStope_keeps)

theorem State.testFailed_keeps {s0 s : State} (h : Keeps s0 s) (a1 a2 a3) : Keeps s0 (State.testFailed s a1 a2 a3) := by
  unfold State.testFailed
  repeat' (first | with_reducible assumption | with_reducible apply State.stopeFailure_keeps
                 | with_reducible apply State.testRecord_keeps | with_reducible apply State.raise_keeps
                 | with_reducible apply State.count_keeps | with_reducible apply State.modStope_keeps)

theorem State.testEnd_keeps {s0 s : State} (h : Keeps s0 s) (a1 a2) : Keeps s0 (State.testEnd s a1 a2) := by
  unfold State.testEnd
  repeat' (first | with_reducible assumption | with_reducible apply State.testPassed_keeps
                 | with_reducible apply State.testFailed_keeps | split)

theorem execTestComplete_keeps {s t : State} (a0 a1) (h : execTestComplete a0 a1 s = .next t) : Keeps s t := by
  unfold execTestComplete at h
  refine perform_keeps h ?_
  have hs := Keeps.refl s
  repeat' (first | with_reducible assumption | with_reducible apply State.testEnd_keeps | intro _
                 | with_reducible apply Keeps.ite)

theorem execWatchWindowEnd_keeps {s t : State} (a0) (h : execWatchWindowEnd a0 s = .next t) : Keeps s t := by
  unfold execWatchWindowEnd at h
  refine perform_keeps h ?_
  have hs := Keeps.refl s
  repeat' (first | with_reducible assumption | with_reducible apply State.bumpStates_keeps
                 | with_reducible apply State.modStope_keeps | with_reducible apply State.record_keeps
                 | with_reducible apply Keeps.on | with_reducible apply State.setFn_keeps | intro _
                 | with_reducible apply Keeps.ite)

theorem execTestDue_keeps {s t : State} (a0) (h : execTestDue a0 s = .next t) : Keeps s t := by
  unfold execTestDue at h
  refine perform_keeps h ?_
  have hs := Keeps.refl s
  repeat' (first | with_reducible assumption | with_reducible apply State.modStope_keeps | intro _
                 | with_reducible apply Keeps.ite)

theorem execTestOverdue_keeps {s t : State} (a0) (h : execTestOverdue a0 s = .next t) : Keeps s t := by
  unfold execTestOverdue at h
  refine perform_keeps h ?_
  have hs := Keeps.refl s
  repeat' (first | with_reducible assumption | with_reducible apply State.record_keeps
                 | with_reducible apply State.raise_keeps | with_reducible apply State.modStope_keeps | intro _
                 | with_reducible apply Keeps.ite)

theorem State.stopeTestAct_keeps {s0 s : State} (h : Keeps s0 s) (a1 a2) : Keeps s0 (State.stopeTestAct s a1 a2).1 := by
  unfold State.stopeTestAct
  repeat' (first | with_reducible assumption | with_reducible apply State.ignoreWrite_keeps
                 | with_reducible apply State.modStope_keeps | extract_lets | split)

theorem execStopeTest_keeps {s t : State} (a0 a1) (h : execStopeTest a0 a1 s = .next t) : Keeps s t := by
  unfold execStopeTest at h
  refine perform_keeps h ?_
  have hs := Keeps.refl s
  repeat' (first | with_reducible assumption | with_reducible apply State.guarded_keeps
                 | with_reducible apply State.stopeTestAct_keeps | intro _)

theorem State.fullTestAct_keeps {s0 s : State} (h : Keeps s0 s) (a1 a2) : Keeps s0 (State.fullTestAct s a1 a2).1 := by
  unfold State.fullTestAct
  repeat' (first | with_reducible assumption | with_reducible apply State.ignoreWrite_keeps
                 | with_reducible apply Keeps.each | with_reducible apply Keeps.on
                 | with_reducible apply State.modStope_keeps | intro _ | split)

theorem execFullTest_keeps {s t : State} (a0 a1) (h : execFullTest a0 a1 s = .next t) : Keeps s t := by
  unfold execFullTest at h
  refine perform_keeps h ?_
  have hs := Keeps.refl s
  repeat' (first | with_reducible assumption | with_reducible apply State.guarded_keeps
                 | with_reducible apply State.fullTestAct_keeps | intro _)

theorem State.handOver_keeps {s0 s : State} (h : Keeps s0 s) (a1 a2) : Keeps s0 (State.handOver s a1 a2) := by
  unfold State.handOver
  repeat' (first | with_reducible assumption | with_reducible apply State.modStope_keeps
                 | with_reducible apply Keeps.each | with_reducible apply State.modArr_keeps | intro _)

theorem execTestSlot_keeps {s t : State} (a0 a1) (h : execTestSlot a0 a1 s = .next t) : Keeps s t := by
  unfold execTestSlot at h
  refine perform_keeps h ?_
  have hs := Keeps.refl s
  repeat' (first | with_reducible assumption | with_reducible apply State.startRun_keeps
                 | with_reducible apply Keeps.each | with_reducible apply State.handOver_keeps
                 | with_reducible apply State.modStope_keeps | with_reducible apply State.fenceTiles_keeps | intro _
                 | extract_lets | split)

theorem State.slotReturn_keeps {s0 s : State} (h : Keeps s0 s) (a1) : Keeps s0 (State.slotReturn s a1) := by
  unfold State.slotReturn
  repeat' (first | with_reducible assumption | with_reducible apply State.modStope_keeps
                 | with_reducible apply State.handOver_keeps | with_reducible apply State.fenceTiles_keeps | split)

theorem execTestSlotEnd_keeps {s t : State} (a0 a1 a2) (h : execTestSlotEnd a0 a1 a2 s = .next t) : Keeps s t := by
  unfold execTestSlotEnd at h
  refine perform_keeps h ?_
  have hs := Keeps.refl s
  repeat' (first | with_reducible assumption | with_reducible apply Keeps.each | with_reducible apply Keeps.on
                 | with_reducible apply State.slotReturn_keeps | with_reducible apply State.testEnd_keeps
                 | with_reducible apply State.hoistDone_keeps | intro _ | extract_lets | split)

theorem execReliefPrep_keeps {s t : State} (a0 a1 a2) (h : execReliefPrep a0 a1 a2 s = .next t) : Keeps s t := by
  unfold execReliefPrep at h
  refine perform_keeps h ?_
  have hs := Keeps.refl s
  repeat' (first | with_reducible assumption | with_reducible apply State.modStope_keeps
                 | with_reducible apply State.testFailed_keeps | with_reducible apply State.testPassed_keeps
                 | with_reducible apply Keeps.each | with_reducible apply State.copySeam_keeps | intro _
                 | with_reducible apply Keeps.ite | extract_lets | split)

theorem State.announcePlans_keeps {s0 s : State} (h : Keeps s0 s) (a1 a2 a3) : Keeps s0 (State.announcePlans s a1 a2 a3) := by
  unfold State.announcePlans
  repeat' (first | with_reducible assumption | with_reducible apply Keeps.each
                 | with_reducible apply State.upkeepRec_keeps | with_reducible apply State.modArr_keeps | intro _
                 | with_reducible apply Keeps.ite)

theorem execReliefPrepDone_keeps {s t : State} (a0) (h : execReliefPrepDone a0 s = .next t) : Keeps s t := by
  unfold execReliefPrepDone at h
  refine perform_keeps h ?_
  have hs := Keeps.refl s
  repeat' (first | with_reducible assumption | with_reducible apply State.modStope_keeps
                 | with_reducible apply Keeps.on | with_reducible apply State.announcePlans_keeps | intro _
                 | with_reducible apply Keeps.ite | extract_lets | split)

theorem State.stopeRetireAct_keeps {s0 s : State} (h : Keeps s0 s) (a1 a2) : Keeps s0 (State.stopeRetireAct s a1 a2).1 := by
  unfold State.stopeRetireAct
  repeat' (first | with_reducible assumption | with_reducible apply State.ignoreWrite_keeps
                 | with_reducible apply State.modStope_keeps | with_reducible apply State.propose_keeps | extract_lets
                 | split)

theorem execStopeRetire_keeps {s t : State} (a0 a1) (h : execStopeRetire a0 a1 s = .next t) : Keeps s t := by
  unfold execStopeRetire at h
  refine perform_keeps h ?_
  have hs := Keeps.refl s
  repeat' (first | with_reducible assumption | with_reducible apply State.guarded_keeps
                 | with_reducible apply State.stopeRetireAct_keeps | intro _)

theorem execHeartbeatLoss_keeps {s t : State} (a0) (h : execHeartbeatLoss a0 s = .next t) : Keeps s t := by
  unfold execHeartbeatLoss at h
  refine perform_keeps h ?_
  have hs := Keeps.refl s
  repeat' (first | with_reducible assumption | with_reducible apply State.propose_keeps
                 | with_reducible apply State.stopeFailure_keeps | with_reducible apply State.setFn_keeps
                 | with_reducible apply State.modStope_keeps | intro _ | with_reducible apply Keeps.ite)

theorem State.countTakeover_keeps {s0 s : State} (h : Keeps s0 s) (a1 a2) : Keeps s0 (State.countTakeover s a1 a2) := by
  unfold State.countTakeover
  repeat' (first | with_reducible assumption | with_reducible apply State.record_keeps
                 | with_reducible apply State.raise_keeps | with_reducible apply State.count_keeps)

theorem State.stopAllWork_keeps {s0 s : State} (h : Keeps s0 s) : Keeps s0 (State.stopAllWork s) := by
  unfold State.stopAllWork
  repeat' (first | with_reducible assumption | with_reducible apply Keeps.each | with_reducible apply Keeps.on
                 | with_reducible apply State.setJobState_keeps | with_reducible apply State.dropWork_keeps | intro _)

theorem execCoreTakeover_keeps {s t : State} (a0) (h : execCoreTakeover a0 s = .next t) : Keeps s t := by
  unfold execCoreTakeover at h
  refine perform_keeps h ?_
  have hs := Keeps.refl s
  repeat' (first | with_reducible assumption | with_reducible apply State.countTakeover_keeps
                 | with_reducible apply State.drawn_keeps | with_reducible apply State.takeover2_keeps
                 | with_reducible apply State.selfLost_keeps | with_reducible apply State.stopAllWork_keeps
                 | with_reducible apply State.setFld_keeps | with_reducible apply State.modFw_keeps
                 | with_reducible apply State.bootTimeout_keeps | intro _ | with_reducible apply Keeps.ite)

theorem execRouterTakeover_keeps {s t : State} (a0) (h : execRouterTakeover a0 s = .next t) : Keeps s t := by
  unfold execRouterTakeover at h
  refine perform_keeps h ?_
  have hs := Keeps.refl s
  repeat' (first | with_reducible assumption | with_reducible apply State.countTakeover_keeps
                 | with_reducible apply State.modStope_keeps | intro _ | with_reducible apply Keeps.ite)

theorem State.showPacks_keeps {s0 s : State} (h : Keeps s0 s) : Keeps s0 (State.showPacks s) := by
  unfold State.showPacks
  repeat' (first | with_reducible assumption | with_reducible apply State.wr_keeps)

theorem State.canaryCommitAct_keeps {s0 s : State} (h : Keeps s0 s) (a1 a2) : Keeps s0 (State.canaryCommitAct s a1 a2).1 := by
  unfold State.canaryCommitAct
  repeat' (first | with_reducible assumption | with_reducible apply State.ignoreWrite_keeps
                 | with_reducible apply State.recordBy_keeps | with_reducible apply State.raise_keeps
                 | with_reducible apply State.showPacks_keeps | exact le_rfl | extract_lets y0 y1 y2 y3 y4 y5 y6
                 | split | (guard_target =ₛ Keeps s0 y6; unfold y6) | with_reducible apply Keeps.mk')

theorem execCanaryCommit_keeps {s t : State} (a0 a1) (h : execCanaryCommit a0 a1 s = .next t) : Keeps s t := by
  unfold execCanaryCommit at h
  refine perform_keeps h ?_
  have hs := Keeps.refl s
  repeat' (first | with_reducible assumption | with_reducible apply State.guarded_keeps
                 | with_reducible apply State.canaryCommitAct_keeps | intro _)

theorem State.canaryRemoveAct_keeps {s0 s : State} (h : Keeps s0 s) (a1 a2) : Keeps s0 (State.canaryRemoveAct s a1 a2).1 := by
  unfold State.canaryRemoveAct
  repeat' (first | with_reducible assumption | with_reducible apply State.ignoreWrite_keeps
                 | with_reducible apply State.raise_keeps | with_reducible apply State.showPacks_keeps | exact le_rfl
                 | extract_lets | split | with_reducible apply Keeps.mk')

theorem execCanaryRemove_keeps {s t : State} (a0 a1) (h : execCanaryRemove a0 a1 s = .next t) : Keeps s t := by
  unfold execCanaryRemove at h
  refine perform_keeps h ?_
  have hs := Keeps.refl s
  repeat' (first | with_reducible assumption | with_reducible apply State.guarded_keeps
                 | with_reducible apply State.canaryRemoveAct_keeps | intro _)

theorem State.captureReleaseAct_keeps {s0 s : State} (h : Keeps s0 s) (a1 a2) : Keeps s0 (State.captureReleaseAct s a1 a2).1 := by
  unfold State.captureReleaseAct
  repeat' (first | with_reducible assumption | with_reducible apply State.ignoreWrite_keeps
                 | with_reducible apply State.enqueue_keeps | extract_lets | split)

theorem execCaptureRelease_keeps {s t : State} (a0 a1) (h : execCaptureRelease a0 a1 s = .next t) : Keeps s t := by
  unfold execCaptureRelease at h
  refine perform_keeps h ?_
  have hs := Keeps.refl s
  repeat' (first | with_reducible assumption | with_reducible apply State.guarded_keeps
                 | with_reducible apply State.captureReleaseAct_keeps | intro _)

end Sys2Proof.Machine
end

