-- ==== Sys2Proof/Laws/KeepsStreams.lean ====
section
/-!
SUPPORT. What the operations of Machine/Streams.lean keep (Laws/Keeps.lean).
-/

namespace Sys2Proof.Machine

theorem State.strmRefuse_keeps {s0 s : State} (h : Keeps s0 s) (a1 a2 a3) : Keeps s0 (State.strmRefuse s a1 a2 a3) := by
  unfold State.strmRefuse
  repeat' (first | with_reducible assumption | with_reducible apply State.strmError_keeps
                 | with_reducible apply State.strmShow_keeps)

theorem State.strmStart_keeps {s0 s : State} (h : Keeps s0 s) (a1 a2 a3) : Keeps s0 (State.strmStart s a1 a2 a3) := by
  unfold State.strmStart
  repeat' (first | with_reducible assumption | with_reducible apply State.strmRefuse_keeps
                 | with_reducible apply State.setStream_keeps | with_reducible apply State.strmShow_keeps
                 | with_reducible apply State.wrB_keeps | with_reducible apply State.strmEnd_keeps | intro _
                 | with_reducible apply Keeps.ite)

theorem State.strmAbandon_keeps {s0 s : State} (h : Keeps s0 s) (a1 a2) : Keeps s0 (State.strmAbandon s a1 a2) := by
  unfold State.strmAbandon
  repeat' (first | with_reducible assumption | with_reducible apply State.strmEnd_keeps
                 | with_reducible apply Keeps.on | with_reducible apply State.endRecords_keeps)

theorem State.strmCtl_keeps {s0 s : State} (h : Keeps s0 s) (a1 a2 a3) : Keeps s0 (State.strmCtl s a1 a2 a3) := by
  unfold State.strmCtl
  repeat' (first | with_reducible assumption | with_reducible apply State.strmAbandon_keeps
                 | with_reducible apply State.strmStart_keeps | intro _ | with_reducible apply Keeps.ite)

theorem State.strmFail_keeps {s0 s : State} (h : Keeps s0 s) (a1 a2 a3) : Keeps s0 (State.strmFail s a1 a2 a3) := by
  unfold State.strmFail
  repeat' (first | with_reducible assumption | with_reducible apply State.strmRefuse_keeps
                 | with_reducible apply Keeps.on | with_reducible apply State.strmEnd_keeps
                 | with_reducible apply State.endRecords_keeps | intro _ | with_reducible apply Keeps.ite)

theorem State.strmDone_keeps {s0 s : State} (h : Keeps s0 s) (a1 a2) : Keeps s0 (State.strmDone s a1 a2) := by
  unfold State.strmDone
  repeat' (first | with_reducible assumption | with_reducible apply State.strmShow_keeps
                 | with_reducible apply State.setStream_keeps | with_reducible apply State.strmSettle_keeps
                 | with_reducible apply State.raiseFor_keeps | with_reducible apply Keeps.on
                 | with_reducible apply State.endRecords_keeps)

theorem State.refuseAddr_keeps {s0 s : State} (h : Keeps s0 s) (a1 a2 a3 a4) : Keeps s0 (State.refuseAddr s a1 a2 a3 a4) := by
  unfold State.refuseAddr
  repeat' (first | with_reducible assumption | with_reducible apply State.recordBy_keeps)

theorem State.commitBlock_keeps {s0 s : State} (h : Keeps s0 s) (a1 a2 a3 a4) : Keeps s0 (State.commitBlock s a1 a2 a3 a4).1 := by
  unfold State.commitBlock
  repeat' (first | with_reducible assumption | with_reducible apply State.refuseAddr_keeps
                 | with_reducible apply State.writeWaits_keeps | with_reducible apply Keeps.wrBytes
                 | with_reducible apply State.countWrite_keeps | with_reducible apply Keeps.on
                 | with_reducible apply State.clearLost_keeps | with_reducible apply State.count64_keeps | intro _
                 | with_reducible apply Keeps.ite | extract_lets | split)

theorem State.commitBytes_keeps {s0 s : State} (h : Keeps s0 s) (a0 a1 a2 a3 a4) : Keeps s0 (State.commitBytes a0 a1 a2 a3 a4 s).1 := by
  induction a2 generalizing s a0 a1 a3 a4 with
  | zero => unfold State.commitBytes; repeat' (with_reducible assumption)
  | succ n ih => unfold State.commitBytes; repeat' (first | with_reducible assumption
                                                          | with_reducible apply State.commitBlock_keeps
                                                          | with_reducible apply ih | extract_lets | split)

theorem State.commitStm_keeps {s0 s : State} (h : Keeps s0 s) (a1 a2 a3 a4) : Keeps s0 (State.commitStm s a1 a2 a3 a4).1 := by
  unfold State.commitStm
  repeat' (first | with_reducible assumption | with_reducible apply State.commitBytes_keeps
                 | with_reducible apply State.setStream_keeps)

theorem State.commitSeries_keeps {s0 s : State} (h : Keeps s0 s) (a1) : Keeps s0 (State.commitSeries s a1) := by
  unfold State.commitSeries
  repeat' (first | with_reducible assumption | with_reducible apply Keeps.each
                 | with_reducible apply State.takeRecord_keeps | intro _)

theorem State.commitLap_keeps {s0 s : State} (h : Keeps s0 s) (a1 a2 a3 a4) : Keeps s0 (State.commitLap s a1 a2 a3 a4).1 := by
  unfold State.commitLap
  repeat' (first | with_reducible assumption | with_reducible apply State.commitStm_keeps
                 | with_reducible apply State.commitSeries_keeps | with_reducible apply State.wr_keeps
                 | with_reducible apply State.setStream_keeps | exact le_rfl | extract_lets | split
                 | with_reducible apply Keeps.mk')

theorem State.lapWritten_keeps {s0 s : State} (h : Keeps s0 s) (a1 a2) : Keeps s0 (State.lapWritten s a1 a2) := by
  unfold State.lapWritten
  repeat' (first | with_reducible assumption | with_reducible apply State.wrB_keeps
                 | with_reducible apply State.commitLap_keeps | with_reducible apply State.strmFail_keeps
                 | with_reducible apply State.setStream_keeps | with_reducible apply State.strmDone_keeps | intro _
                 | with_reducible apply Keeps.ite)

theorem State.winWrite_keeps {s0 s : State} (h : Keeps s0 s) (a1 a2 a3 a4 a5) : Keeps s0 (State.winWrite s a1 a2 a3 a4 a5) := by
  unfold State.winWrite
  repeat' (first | with_reducible assumption | with_reducible apply State.strmFail_keeps
                 | with_reducible apply State.setStream_keeps | with_reducible apply State.lapWritten_keeps | intro _
                 | with_reducible apply Keeps.ite)

theorem State.giveWord_keeps {s0 s : State} (h : Keeps s0 s) (a1 a2 a3 a4) : Keeps s0 (State.giveWord s a1 a2 a3 a4) := by
  unfold State.giveWord
  repeat' (first | with_reducible assumption | with_reducible apply Keeps.on
                 | with_reducible apply State.count64_keeps | with_reducible apply State.respond_keeps
                 | with_reducible apply State.setStream_keeps | with_reducible apply State.wrB_keeps
                 | with_reducible apply State.strmDone_keeps | intro _ | with_reducible apply Keeps.ite)

theorem State.fetchEffects_keeps {s0 s : State} (h : Keeps s0 s) (a1 a2 a3 a4) : Keeps s0 (State.fetchEffects s a1 a2 a3 a4) := by
  unfold State.fetchEffects
  repeat' (first | with_reducible assumption | with_reducible apply State.eccReport_keeps
                 | with_reducible apply State.countRead_keeps | with_reducible apply State.meetDamaged_keeps
                 | with_reducible apply Keeps.on | with_reducible apply State.drawn_keeps | extract_lets | split)

theorem State.winRead_keeps {s0 s : State} (h : Keeps s0 s) (a1 a2 a3) : Keeps s0 (State.winRead s a1 a2 a3) := by
  unfold State.winRead
  repeat' (first | with_reducible assumption | with_reducible apply State.respond_keeps
                 | with_reducible apply State.strmFail_keeps | with_reducible apply State.giveWord_keeps
                 | with_reducible apply State.setStream_keeps | with_reducible apply State.fetchEffects_keeps
                 | with_reducible apply Keeps.on | with_reducible apply State.refuseAddr_keeps
                 | with_reducible apply State.completerAbort_keeps | intro _ | with_reducible apply Keeps.ite
                 | exact le_rfl | extract_lets | split | with_reducible apply Keeps.mk')

theorem State.retryReads_keeps {s0 s : State} (h : Keeps s0 s) : Keeps s0 (State.retryReads s) := by
  unfold State.retryReads
  repeat' (first | with_reducible assumption | with_reducible apply Keeps.each | with_reducible apply Keeps.on
                 | with_reducible apply State.winRead_keeps | intro _)

theorem State.modeWrite_keeps {s0 s : State} (h : Keeps s0 s) (a1 a2 a3) : Keeps s0 (State.modeWrite s a1 a2 a3) := by
  unfold State.modeWrite
  repeat' (first | with_reducible assumption | with_reducible apply State.written_keeps
                 | with_reducible apply State.strmCtl_keeps | intro _ | with_reducible apply Keeps.ite)

theorem execStreamWriteStart_keeps {s t : State} (a0 a1) (h : execStreamWriteStart a0 a1 s = .next t) : Keeps s t := by
  unfold execStreamWriteStart at h
  refine perform_keeps h ?_
  have hs := Keeps.refl s
  repeat' (first | with_reducible assumption | with_reducible apply State.modeWrite_keeps)

theorem execStreamReadStart_keeps {s t : State} (a0 a1) (h : execStreamReadStart a0 a1 s = .next t) : Keeps s t := by
  unfold execStreamReadStart at h
  refine perform_keeps h ?_
  have hs := Keeps.refl s
  repeat' (first | with_reducible assumption | with_reducible apply State.modeWrite_keeps)

theorem execStreamAbandon_keeps {s t : State} (a0 a1) (h : execStreamAbandon a0 a1 s = .next t) : Keeps s t := by
  unfold execStreamAbandon at h
  refine perform_keeps h ?_
  have hs := Keeps.refl s
  repeat' (first | with_reducible assumption | with_reducible apply State.modeWrite_keeps)

theorem State.windowWrite_keeps {s0 s : State} (h : Keeps s0 s) (a1 a2 a3 a4 a5) : Keeps s0 (State.windowWrite s a1 a2 a3 a4 a5) := by
  unfold State.windowWrite
  repeat' (first | with_reducible assumption | with_reducible apply State.touch_keeps
                 | with_reducible apply State.respond_keeps | with_reducible apply State.forbid_keeps
                 | with_reducible apply State.winWrite_keeps | with_reducible apply State.breakPair_keeps | intro _
                 | with_reducible apply Keeps.ite)

theorem State.windowRead_keeps {s0 s : State} (h : Keeps s0 s) (a1 a2 a3) : Keeps s0 (State.windowRead s a1 a2 a3) := by
  unfold State.windowRead
  repeat' (first | with_reducible assumption | with_reducible apply State.touch_keeps
                 | with_reducible apply State.respond_keeps | with_reducible apply State.forbid_keeps
                 | with_reducible apply State.winRead_keeps | intro _ | with_reducible apply Keeps.ite)

theorem execStreamReadTimeout_keeps {s t : State} (a0 a1) (h : execStreamReadTimeout a0 a1 s = .next t) : Keeps s t := by
  unfold execStreamReadTimeout at h
  refine perform_keeps h ?_
  have hs := Keeps.refl s
  repeat' (first | with_reducible assumption | with_reducible apply State.completerAbort_keeps
                 | with_reducible apply State.strmEnd_keeps | intro _ | with_reducible apply Keeps.ite)

end Sys2Proof.Machine
end

