-- ==== Sys2Proof/Laws/KeepsBus.lean ====
section
/-!
SUPPORT. What the operations of Machine/Bus.lean keep (Laws/Keeps.lean).
-/

namespace Sys2Proof.Machine

theorem State.finishDrain_keeps {s0 s : State} (h : Keeps s0 s) (a1) : Keeps s0 (State.finishDrain s a1) := by
  unfold State.finishDrain
  repeat' (first | with_reducible assumption | with_reducible apply State.endDrain_keeps
                 | with_reducible apply Keeps.on | with_reducible apply State.dropPort_keeps | intro _
                 | with_reducible apply Keeps.ite)

theorem State.beginDrain_keeps {s0 s : State} (h : Keeps s0 s) (a1 a2) : Keeps s0 (State.beginDrain s a1 a2) := by
  unfold State.beginDrain
  repeat' (first | with_reducible assumption | with_reducible apply State.setFn_keeps
                 | with_reducible apply Keeps.each | with_reducible apply State.stopJob_keeps
                 | with_reducible apply State.drainPro_keeps | with_reducible apply State.routesChanged_keeps
                 | with_reducible apply State.finishDrain_keeps | intro _ | extract_lets | split)

theorem State.controlAct_keeps {s0 s : State} (h : Keeps s0 s) (a1 a2 a3) : Keeps s0 (State.controlAct s a1 a2 a3).1 := by
  unfold State.controlAct
  repeat' (first | with_reducible assumption | with_reducible apply State.ignoreWrite_keeps
                 | with_reducible apply State.wr_keeps | with_reducible apply State.setFn_keeps
                 | with_reducible apply State.beginDrain_keeps | intro _ | with_reducible apply Keeps.ite
                 | extract_lets | split)

theorem State.enableAct_keeps {s0 s : State} (h : Keeps s0 s) (a1 a2 a3) : Keeps s0 (State.enableAct s a1 a2 a3).1 := by
  unfold State.enableAct
  repeat' (first | with_reducible assumption | with_reducible apply State.wrB_keeps | with_reducible apply Keeps.on
                 | with_reducible apply State.sendMsi_keeps | intro _)

theorem State.clearAct_keeps {s0 s : State} (h : Keeps s0 s) (a1 a2 a3 a4) : Keeps s0 (State.clearAct s a1 a2 a3 a4).1 := by
  unfold State.clearAct
  repeat' (first | with_reducible assumption | with_reducible apply State.wrB_keeps)

theorem State.setBaud_keeps {s0 s : State} (h : Keeps s0 s) (a1 a2) : Keeps s0 (State.setBaud s a1 a2) := by
  unfold State.setBaud
  repeat' (first | with_reducible assumption | with_reducible apply State.record_keeps
                 | with_reducible apply State.raise_keeps | with_reducible apply State.wr_keeps | intro _
                 | with_reducible apply Keeps.ite)

theorem State.baudAct_keeps {s0 s : State} (h : Keeps s0 s) (a1 a2) : Keeps s0 (State.baudAct s a1 a2).1 := by
  unfold State.baudAct
  repeat' (first | with_reducible assumption | with_reducible apply State.setBaud_keeps | exact le_rfl | extract_lets
                 | split | with_reducible apply Keeps.mk')

theorem State.takeBaud_keeps {s0 s : State} (h : Keeps s0 s) : Keeps s0 (State.takeBaud s) := by
  unfold State.takeBaud
  repeat' (first | with_reducible assumption | with_reducible apply State.setBaud_keeps | exact le_rfl | extract_lets
                 | split | with_reducible apply Keeps.mk')

theorem State.wordAct_keeps {s0 s : State} (h : Keeps s0 s) (a1 a2 a3 a4) : Keeps s0 (State.wordAct s a1 a2 a3 a4).1 := by
  unfold State.wordAct
  repeat' (first | with_reducible assumption | with_reducible apply State.wrB_keeps
                 | with_reducible apply State.clearAct_keeps | with_reducible apply State.controlAct_keeps
                 | with_reducible apply State.enableAct_keeps | with_reducible apply State.strmCtl_keeps
                 | with_reducible apply State.jobCmdAct_keeps | with_reducible apply State.fcCmdAct_keeps
                 | with_reducible apply State.sessReqAct_keeps | with_reducible apply State.sessProveAct_keeps
                 | with_reducible apply State.sessEndAct_keeps | with_reducible apply State.attestReqAct_keeps
                 | with_reducible apply State.stageCmdAct_keeps | with_reducible apply State.baudAct_keeps
                 | extract_lets | split)

theorem State.pairAct_keeps {s0 s : State} (h : Keeps s0 s) (a1 a2 a3 a4) : Keeps s0 (State.pairAct s a1 a2 a3 a4).1 := by
  unfold State.pairAct
  repeat' (first | with_reducible assumption | with_reducible apply State.deviceResetAct_keeps
                 | with_reducible apply State.prospectClearAct_keeps | with_reducible apply State.tallySetAct_keeps
                 | with_reducible apply State.bindSetAct_keeps | with_reducible apply State.instEnrolAct_keeps
                 | with_reducible apply State.makerGateAct_keeps | with_reducible apply State.diagOpenAct_keeps
                 | with_reducible apply State.ideCommitAct_keeps | with_reducible apply State.ideRequireAct_keeps
                 | with_reducible apply State.chanRetireAct_keeps | with_reducible apply State.portDisableAct_keeps
                 | with_reducible apply State.laneRetireAct_keeps | with_reducible apply State.rosterCommitAct_keeps
                 | with_reducible apply State.headMoveAct_keeps | with_reducible apply State.memberEvictAct_keeps
                 | with_reducible apply State.abortAct_keeps | with_reducible apply State.gridSetAct_keeps
                 | with_reducible apply State.stopeRetireAct_keeps | with_reducible apply State.stopeTestAct_keeps
                 | with_reducible apply State.fullTestAct_keeps | with_reducible apply State.canaryCommitAct_keeps
                 | with_reducible apply State.canaryRemoveAct_keeps
                 | with_reducible apply State.captureReleaseAct_keeps | with_reducible apply State.assayForceAct_keeps
                 | with_reducible apply State.recompute_keeps | with_reducible apply State.wr_keeps
                 | with_reducible apply State.convRetireAct_keeps | with_reducible apply State.phaseRetireAct_keeps
                 | with_reducible apply State.tripClearAct_keeps | with_reducible apply State.fwCommitAct_keeps
                 | with_reducible apply State.fwRevertAct_keeps | with_reducible apply State.fuseBurnAct_keeps
                 | with_reducible apply State.applyAct_keeps | with_reducible apply State.bindAct_keeps
                 | with_reducible apply State.claimCmdAct_keeps | with_reducible apply State.volatileAct_keeps
                 | extract_lets | split)

theorem State.writeWord_keeps {s0 s : State} (h : Keeps s0 s) (a1 a2 a3 a4) : Keeps s0 (State.writeWord s a1 a2 a3 a4).1 := by
  unfold State.writeWord
  repeat' (first | with_reducible assumption | with_reducible apply State.forbid_keeps
                 | with_reducible apply State.tryWritten_keeps | with_reducible apply State.wordAct_keeps | intro _
                 | exact le_rfl | split | with_reducible apply Keeps.mk')

theorem State.writeBit_keeps {s0 s : State} (h : Keeps s0 s) (a1 a2 a3 a4 a5) : Keeps s0 (State.writeBit s a1 a2 a3 a4 a5).1 := by
  unfold State.writeBit
  repeat' (first | with_reducible assumption | with_reducible apply State.forbid_keeps
                 | with_reducible apply State.tryWritten_keeps | with_reducible apply State.wordAct_keeps | intro _
                 | extract_lets | split)

theorem State.writeAlone_keeps {s0 s : State} (h : Keeps s0 s) (a1 a2 a3 a4 a5) : Keeps s0 (State.writeAlone s a1 a2 a3 a4 a5).1 := by
  unfold State.writeAlone
  repeat' (first | with_reducible assumption | with_reducible apply State.windowWrite_keeps
                 | with_reducible apply State.accessRec_keeps | with_reducible apply State.guardFail_keeps
                 | with_reducible apply State.writeWord_keeps | with_reducible apply State.writeBit_keeps | split)

theorem State.forbidHalf_keeps {s0 s : State} (h : Keeps s0 s) (a1 a2 a3) : Keeps s0 (State.forbidHalf s a1 a2 a3).1 := by
  unfold State.forbidHalf
  repeat' (first | with_reducible assumption | with_reducible apply State.forbid_keeps | split)

theorem State.writeAt_keeps {s0 s : State} (h : Keeps s0 s) (a1 a2 a3 a4 a5) : Keeps s0 (State.writeAt s a1 a2 a3 a4 a5).1 := by
  unfold State.writeAt
  repeat' (first | with_reducible assumption | with_reducible apply State.forbidHalf_keeps
                 | with_reducible apply State.writeAlone_keeps | with_reducible apply State.dropPair_keeps
                 | with_reducible apply State.tryGuarded_keeps | with_reducible apply State.pairAct_keeps
                 | with_reducible apply State.guardFail_keeps | intro _ | extract_lets | split)

theorem State.tryWrite_keeps {s0 s : State} (h : Keeps s0 s) (a1 a2 a3 a4) : Keeps s0 (State.tryWrite s a1 a2 a3 a4).1 := by
  unfold State.tryWrite
  repeat' (first | with_reducible assumption | with_reducible apply State.touch_keeps
                 | with_reducible apply State.respond_keeps | with_reducible apply State.writeAt_keeps | extract_lets
                 | split)

theorem State.busWrite_keeps {s0 s : State} (h : Keeps s0 s) (a1 a2 a3 a4) : Keeps s0 (State.busWrite s a1 a2 a3 a4) := by
  unfold State.busWrite
  repeat' (first | with_reducible assumption | with_reducible apply State.tryWrite_keeps)

theorem State.capture_keeps {s0 s : State} (h : Keeps s0 s) (a1 a2 a3) : Keeps s0 (State.capture s a1 a2 a3) := by
  unfold State.capture
  repeat' (first | with_reducible assumption | intro _ | with_reducible apply Keeps.ite | exact le_rfl | extract_lets
                 | with_reducible apply Keeps.mk')

theorem State.readAt_keeps {s0 s : State} (h : Keeps s0 s) (a1 a2 a3) : Keeps s0 (State.readAt s a1 a2 a3).1 := by
  unfold State.readAt
  repeat' (first | with_reducible assumption | with_reducible apply Keeps.on
                 | with_reducible apply State.capture_keeps | with_reducible apply State.drawn_keeps | split)

theorem State.tryRead_keeps {s0 s : State} (h : Keeps s0 s) (a1 a2) : Keeps s0 (State.tryRead s a1 a2).1 := by
  unfold State.tryRead
  repeat' (first | with_reducible assumption | with_reducible apply State.forbid_keeps
                 | with_reducible apply State.readAt_keeps | extract_lets | split)

theorem State.busRead_keeps {s0 s : State} (h : Keeps s0 s) (a1 a2) : Keeps s0 (State.busRead s a1 a2) := by
  unfold State.busRead
  repeat' (first | with_reducible assumption | with_reducible apply State.respond_keeps
                 | with_reducible apply State.touch_keeps | with_reducible apply State.windowRead_keeps
                 | with_reducible apply State.tryRead_keeps | intro _ | with_reducible apply Keeps.ite | extract_lets
                 | split)

theorem execRegisterWrite_keeps {s t : State} (a0 a1 a2 a3) (h : execRegisterWrite a0 a1 a2 a3 s = .next t) : Keeps s t := by
  unfold execRegisterWrite at h
  refine perform_keeps h ?_
  have hs := Keeps.refl s
  repeat' (first | with_reducible assumption | with_reducible apply State.busWrite_keeps)

theorem execGuardPairOpen_keeps {s t : State} (a0 a1 a2) (h : execGuardPairOpen a0 a1 a2 s = .next t) : Keeps s t := by
  unfold execGuardPairOpen at h
  refine perform_keeps h ?_
  have hs := Keeps.refl s
  repeat' (first | with_reducible assumption | with_reducible apply State.busWrite_keeps)

theorem execGuardPairTimeout_keeps {s t : State} (a0 a1) (h : execGuardPairTimeout a0 a1 s = .next t) : Keeps s t := by
  unfold execGuardPairTimeout at h
  refine perform_keeps h ?_
  have hs := Keeps.refl s
  repeat' (first | with_reducible assumption | with_reducible apply State.guardFail_keeps
                 | with_reducible apply State.dropPair_keeps | extract_lets | split)

theorem execComplementWrite_keeps {s t : State} (a0 a1 a2) (h : execComplementWrite a0 a1 a2 s = .next t) : Keeps s t := by
  unfold execComplementWrite at h
  refine perform_keeps h ?_
  have hs := Keeps.refl s
  repeat' (first | with_reducible assumption | with_reducible apply State.busWrite_keeps)

theorem execEnableClear_keeps {s t : State} (a0 a1) (h : execEnableClear a0 a1 s = .next t) : Keeps s t := by
  unfold execEnableClear at h
  refine perform_keeps h ?_
  have hs := Keeps.refl s
  repeat' (first | with_reducible assumption | with_reducible apply State.written_keeps
                 | with_reducible apply State.controlAct_keeps | intro _)

theorem execEnableSet_keeps {s t : State} (a0 a1) (h : execEnableSet a0 a1 s = .next t) : Keeps s t := by
  unfold execEnableSet at h
  refine perform_keeps h ?_
  have hs := Keeps.refl s
  repeat' (first | with_reducible assumption | with_reducible apply State.written_keeps
                 | with_reducible apply State.controlAct_keeps | intro _)

theorem execDrainComplete_keeps {s t : State} (a0) (h : execDrainComplete a0 s = .next t) : Keeps s t := by
  unfold execDrainComplete at h
  refine perform_keeps h ?_
  have hs := Keeps.refl s
  repeat' (first | with_reducible assumption | with_reducible apply State.finishDrain_keeps)

theorem execEvtFlagClear_keeps {s t : State} (a0 a1 a2) (h : execEvtFlagClear a0 a1 a2 s = .next t) : Keeps s t := by
  unfold execEvtFlagClear at h
  refine perform_keeps h ?_
  have hs := Keeps.refl s
  repeat' (first | with_reducible assumption | with_reducible apply State.written_keeps
                 | with_reducible apply State.clearAct_keeps | intro _)

theorem execCaptureRead_keeps {s t : State} (a0 a1) (h : execCaptureRead a0 a1 s = .next t) : Keeps s t := by
  unfold execCaptureRead at h
  refine perform_keeps h ?_
  have hs := Keeps.refl s
  repeat' (first | with_reducible assumption | with_reducible apply State.busRead_keeps)

theorem execBitAliasWrite_keeps {s t : State} (a0 a1 a2) (h : execBitAliasWrite a0 a1 a2 s = .next t) : Keeps s t := by
  unfold execBitAliasWrite at h
  refine perform_keeps h ?_
  have hs := Keeps.refl s
  repeat' (first | with_reducible assumption | with_reducible apply State.busWrite_keeps)

theorem execStreamWindowWrite_keeps {s t : State} (a0 a1 a2 a3 a4) (h : execStreamWindowWrite a0 a1 a2 a3 a4 s = .next t) : Keeps s t := by
  unfold execStreamWindowWrite at h
  refine perform_keeps h ?_
  have hs := Keeps.refl s
  repeat' (first | with_reducible assumption | with_reducible apply State.windowWrite_keeps
                 | with_reducible apply State.busWrite_keeps | intro _ | with_reducible apply Keeps.ite)

theorem execStreamWindowRead_keeps {s t : State} (a0 a1 a2) (h : execStreamWindowRead a0 a1 a2 s = .next t) : Keeps s t := by
  unfold execStreamWindowRead at h
  refine perform_keeps h ?_
  have hs := Keeps.refl s
  repeat' (first | with_reducible assumption | with_reducible apply State.windowRead_keeps
                 | with_reducible apply State.busRead_keeps | intro _ | with_reducible apply Keeps.ite)

end Sys2Proof.Machine
end

