-- ==== Sys2Proof/Laws/KeepsNotices.lean ====
section
/-!
SUPPORT. What the operations of Machine/Notices.lean keep (Laws/Keeps.lean).
-/

namespace Sys2Proof.Machine

theorem State.notice_keeps {s0 s : State} (h : Keeps s0 s) (a1 a2) : Keeps s0 (State.notice s a1 a2) := by
  unfold State.notice
  repeat' (first | with_reducible assumption | with_reducible apply State.landHeld_keeps
                 | with_reducible apply State.meshDrop_keeps | with_reducible apply Keeps.each
                 | with_reducible apply State.setMark_keeps | intro _)

theorem State.soundNotice_keeps {s0 s : State} (h : Keeps s0 s) (a1) : Keeps s0 (State.soundNotice s a1) := by
  unfold State.soundNotice
  repeat' (first | with_reducible assumption | with_reducible apply State.retryReads_keeps
                 | with_reducible apply State.tryRecvs_keeps | with_reducible apply State.notice_keeps | intro _
                 | with_reducible apply Keeps.ite)

theorem State.unsoundArrives_keeps {s0 s : State} (h : Keeps s0 s) (a1) : Keeps s0 (State.unsoundArrives s a1) := by
  unfold State.unsoundArrives
  repeat' (first | with_reducible assumption | with_reducible apply State.modJob_keeps
                 | with_reducible apply State.notice_keeps | intro _ | with_reducible apply Keeps.ite)

theorem execNoticeSound_keeps {s t : State} (a0) (h : execNoticeSound a0 s = .next t) : Keeps s t := by
  unfold execNoticeSound at h
  refine perform_keeps h ?_
  have hs := Keeps.refl s
  repeat' (first | with_reducible assumption | with_reducible apply State.soundNotice_keeps)

theorem execNoticeUnsound_keeps {s t : State} (a0) (h : execNoticeUnsound a0 s = .next t) : Keeps s t := by
  unfold execNoticeUnsound at h
  refine perform_keeps h ?_
  have hs := Keeps.refl s
  repeat' (first | with_reducible assumption | with_reducible apply State.unsoundArrives_keeps)

theorem State.abortHeld_keeps {s0 s : State} (h : Keeps s0 s) (a1) : Keeps s0 (State.abortHeld s a1) := by
  unfold State.abortHeld
  repeat' (first | with_reducible assumption | with_reducible apply State.completerAbort_keeps
                 | with_reducible apply State.strmEnd_keeps | with_reducible apply State.recordBy_keeps | intro _
                 | with_reducible apply Keeps.ite)

theorem execPendingReadAbort_keeps {s t : State} (a0) (h : execPendingReadAbort a0 s = .next t) : Keeps s t := by
  unfold execPendingReadAbort at h
  refine perform_keeps h ?_
  have hs := Keeps.refl s
  repeat' (first | with_reducible assumption | with_reducible apply State.abortHeld_keeps)

theorem State.rebuilt_keeps {s0 s : State} (h : Keeps s0 s) (a1 a2) : Keeps s0 (State.rebuilt s a1 a2) := by
  unfold State.rebuilt
  repeat' (first | with_reducible assumption | with_reducible apply State.count_keeps
                 | with_reducible apply State.settleBlock_keeps | with_reducible apply State.retryReads_keeps
                 | with_reducible apply State.record_keeps | intro _ | with_reducible apply Keeps.ite)

theorem execRebuildDone_keeps {s t : State} (a0 a1) (h : execRebuildDone a0 a1 s = .next t) : Keeps s t := by
  unfold execRebuildDone at h
  refine perform_keeps h ?_
  have hs := Keeps.refl s
  repeat' (first | with_reducible assumption | with_reducible apply State.rebuilt_keeps)

end Sys2Proof.Machine
end

