-- ==== Sys2Proof/Laws/KeepsMonitor.lean ====
section
/-!
SUPPORT. What the operations of Machine/Monitor.lean keep (Laws/Keeps.lean).
-/

namespace Sys2Proof.Machine

theorem State.print_keeps {s0 s : State} (h : Keeps s0 s) (a1) : Keeps s0 (State.print s a1) := by
  unfold State.print
  repeat' (first | with_reducible assumption | exact le_rfl | extract_lets | with_reducible apply Keeps.mk')

theorem State.reply_keeps {s0 s : State} (h : Keeps s0 s) (a1 a2) : Keeps s0 (State.reply s a1 a2) := by
  unfold State.reply
  repeat' (first | with_reducible assumption | with_reducible apply State.takeBaud_keeps
                 | with_reducible apply Keeps.on | with_reducible apply State.count_keeps | intro _ | exact le_rfl
                 | extract_lets | with_reducible apply Keeps.mk')

theorem State.replyErr_keeps {s0 s : State} (h : Keeps s0 s) (a1) : Keeps s0 (State.replyErr s a1) := by
  unfold State.replyErr
  repeat' (first | with_reducible assumption | with_reducible apply State.reply_keeps)

theorem State.line_keeps {s0 s : State} (h : Keeps s0 s) (a1 a2 a3) : Keeps s0 (State.line s a1 a2 a3) := by
  unfold State.line
  repeat' (first | with_reducible assumption | with_reducible apply State.count_keeps | with_reducible apply Keeps.on
                 | with_reducible apply State.replyErr_keeps | with_reducible apply State.record_keeps
                 | with_reducible apply State.raise_keeps | intro _ | with_reducible apply Keeps.ite)

theorem execCommandLine_keeps {s t : State} (a0 a1 a2) (h : execCommandLine a0 a1 a2 s = .next t) : Keeps s t := by
  unfold execCommandLine at h
  refine perform_keeps h ?_
  have hs := Keeps.refl s
  repeat' (first | with_reducible assumption | with_reducible apply State.line_keeps)

theorem State.monWord_keeps {s0 s : State} (h : Keeps s0 s) (a1) : Keeps s0 (State.monWord s a1).1 := by
  unfold State.monWord
  repeat' (first | with_reducible assumption | with_reducible apply State.windowRead_keeps
                 | with_reducible apply State.tryRead_keeps | with_reducible apply State.touch_keeps | extract_lets
                 | split)

theorem State.monWords_keeps {s0 s : State} (h : Keeps s0 s) (a0) : Keeps s0 (State.monWords a0 s).1 := by
  induction a0 generalizing s with
  | nil => unfold State.monWords; repeat' (with_reducible assumption)
  | cons x l ih => unfold State.monWords; repeat' (first | with_reducible assumption
                                                         | with_reducible apply State.monWord_keeps
                                                         | with_reducible apply ih)

theorem State.replyWords_keeps {s0 s : State} (h : Keeps s0 s) (a1) : Keeps s0 (State.replyWords s a1) := by
  unfold State.replyWords
  repeat' (first | with_reducible assumption | with_reducible apply State.monWords_keeps
                 | with_reducible apply State.reply_keeps)

theorem State.monPair_keeps {s0 s : State} (h : Keeps s0 s) (a1 a2 a3) : Keeps s0 (State.monPair s a1 a2 a3).1 := by
  unfold State.monPair
  repeat' (first | with_reducible assumption | with_reducible apply State.tryWrite_keeps | extract_lets | split)

theorem State.monSelect_keeps {s0 s : State} (h : Keeps s0 s) (a1 a2 a3) : Keeps s0 (State.monSelect s a1 a2 a3) := by
  unfold State.monSelect
  repeat' (first | with_reducible assumption | with_reducible apply State.tryWrite_keeps)

theorem State.service_keeps {s0 s : State} (h : Keeps s0 s) (a1) (h1 : ∀ x0, Keeps s0 x0 → Keeps s0 (a1 x0)) : Keeps s0 (State.service s a1) := by
  unfold State.service
  repeat' (first | with_reducible assumption | with_reducible apply h1 | with_reducible apply State.replyErr_keeps
                 | intro _ | with_reducible apply Keeps.ite)

theorem State.typed_keeps {s0 s : State} (h : Keeps s0 s) (a1 a2) (h2 : ∀ x0, Keeps s0 x0 → Keeps s0 (a2 x0)) : Keeps s0 (State.typed s a1 a2) := by
  unfold State.typed
  repeat' (first | with_reducible assumption | with_reducible apply h2 | with_reducible apply State.replyErr_keeps
                 | with_reducible apply State.drawn_keeps | intro _ | with_reducible apply Keeps.ite)

theorem State.action_keeps {s0 s : State} (h : Keeps s0 s) (a1 a2 a3 a4) : Keeps s0 (State.action s a1 a2 a3 a4) := by
  unfold State.action
  repeat' (first | with_reducible assumption | with_reducible apply State.service_keeps
                 | with_reducible apply State.typed_keeps | with_reducible apply State.monPair_keeps
                 | with_reducible apply State.replyErr_keeps | intro _)

theorem execHelp_keeps {s t : State} (a0) (h : execHelp a0 s = .next t) : Keeps s t := by
  unfold execHelp at h
  refine perform_keeps h ?_
  have hs := Keeps.refl s
  repeat' (first | with_reducible assumption | with_reducible apply State.reply_keeps | intro _
                 | with_reducible apply Keeps.ite)

theorem State.monReport_keeps {s0 s : State} (h : Keeps s0 s) : Keeps s0 (State.monReport s) := by
  unfold State.monReport
  repeat' (first | with_reducible assumption | with_reducible apply State.wrB_keeps
                 | with_reducible apply State.drawn_keeps | with_reducible apply State.attestSign_keeps
                 | with_reducible apply State.attestReqAct_keeps | exact le_rfl | extract_lets
                 | with_reducible apply Keeps.mk')

theorem execVer_keeps {s t : State} (h : execVer s = .next t) : Keeps s t := by
  unfold execVer at h
  refine perform_keeps h ?_
  have hs := Keeps.refl s
  repeat' (first | with_reducible assumption | with_reducible apply State.monReport_keeps
                 | with_reducible apply State.touch_keeps | with_reducible apply State.reply_keeps)

theorem execWho_keeps {s t : State} (h : execWho s = .next t) : Keeps s t := by
  unfold execWho at h
  refine perform_keeps h ?_
  have hs := Keeps.refl s
  repeat' (first | with_reducible assumption | with_reducible apply State.replyWords_keeps)

theorem State.loginAs_keeps {s0 s : State} (h : Keeps s0 s) (a1 a2 a3) : Keeps s0 (State.loginAs s a1 a2 a3) := by
  unfold State.loginAs
  repeat' (first | with_reducible assumption | with_reducible apply State.replyErr_keeps
                 | with_reducible apply State.tryWrite_keeps | with_reducible apply State.setStream_keeps
                 | with_reducible apply State.print_keeps | intro _ | with_reducible apply Keeps.ite | exact le_rfl
                 | extract_lets | split | with_reducible apply Keeps.mk')

theorem execLogin_keeps {s t : State} (a0 a1 a2) (h : execLogin a0 a1 a2 s = .next t) : Keeps s t := by
  unfold execLogin at h
  refine perform_keeps h ?_
  have hs := Keeps.refl s
  repeat' (first | with_reducible assumption | with_reducible apply State.typed_keeps
                 | with_reducible apply State.loginAs_keeps | intro _)

theorem State.signature_keeps {s0 s : State} (h : Keeps s0 s) (a1) : Keeps s0 (State.signature s a1) := by
  unfold State.signature
  repeat' (first | with_reducible assumption | with_reducible apply State.setStream_keeps
                 | with_reducible apply State.tryWrite_keeps | with_reducible apply State.replyErr_keeps | intro _
                 | with_reducible apply Keeps.ite | exact le_rfl | extract_lets | with_reducible apply Keeps.mk')

theorem execLoginSignature_keeps {s t : State} (a0) (h : execLoginSignature a0 s = .next t) : Keeps s t := by
  unfold execLoginSignature at h
  refine perform_keeps h ?_
  have hs := Keeps.refl s
  repeat' (first | with_reducible assumption | with_reducible apply State.signature_keeps)

theorem execLoginTimeout_keeps {s t : State} (h : execLoginTimeout s = .next t) : Keeps s t := by
  unfold execLoginTimeout at h
  refine perform_keeps h ?_
  have hs := Keeps.refl s
  repeat' (first | with_reducible assumption | with_reducible apply State.replyErr_keeps | intro _
                 | with_reducible apply Keeps.ite | exact le_rfl | extract_lets | with_reducible apply Keeps.mk')

theorem execLoginEnd_keeps {s t : State} (h : execLoginEnd s = .next t) : Keeps s t := by
  unfold execLoginEnd at h
  refine perform_keeps h ?_
  have hs := Keeps.refl s
  repeat' (first | with_reducible assumption | with_reducible apply State.tryWrite_keeps
                 | with_reducible apply State.replyErr_keeps)

theorem State.replyBeyond_keeps {s0 s : State} (h : Keeps s0 s) (a1) : Keeps s0 (State.replyBeyond s a1) := by
  unfold State.replyBeyond
  repeat' (first | with_reducible assumption | with_reducible apply State.monWords_keeps
                 | with_reducible apply State.reply_keeps | with_reducible apply State.drawn_keeps)

theorem execPeek_keeps {s t : State} (a0 a1) (h : execPeek a0 a1 s = .next t) : Keeps s t := by
  unfold execPeek at h
  refine perform_keeps h ?_
  have hs := Keeps.refl s
  repeat' (first | with_reducible assumption | with_reducible apply State.typed_keeps
                 | with_reducible apply State.replyWords_keeps | with_reducible apply State.replyBeyond_keeps
                 | intro _ | with_reducible apply Keeps.ite)

theorem State.pokeWord_keeps {s0 s : State} (h : Keeps s0 s) (a1 a2 a3) : Keeps s0 (State.pokeWord s a1 a2 a3) := by
  unfold State.pokeWord
  repeat' (first | with_reducible assumption | with_reducible apply State.replyErr_keeps
                 | with_reducible apply State.monPair_keeps | with_reducible apply State.tryWrite_keeps | intro _
                 | with_reducible apply Keeps.ite | extract_lets | split)

theorem execPoke_keeps {s t : State} (a0 a1 a2) (h : execPoke a0 a1 a2 s = .next t) : Keeps s t := by
  unfold execPoke at h
  refine perform_keeps h ?_
  have hs := Keeps.refl s
  repeat' (first | with_reducible assumption | with_reducible apply State.replyErr_keeps
                 | with_reducible apply State.typed_keeps | with_reducible apply State.pokeWord_keeps | intro _
                 | with_reducible apply Keeps.ite)

theorem execLog_keeps {s t : State} (a0 a1 a2) (h : execLog a0 a1 a2 s = .next t) : Keeps s t := by
  unfold execLog at h
  refine perform_keeps h ?_
  have hs := Keeps.refl s
  repeat' (first | with_reducible assumption | with_reducible apply State.service_keeps
                 | with_reducible apply State.typed_keeps | with_reducible apply State.reply_keeps
                 | with_reducible apply Keeps.each | with_reducible apply State.meetDamaged_keeps | intro _)

theorem execTally_keeps {s t : State} (h : execTally s = .next t) : Keeps s t := by
  unfold execTally at h
  refine perform_keeps h ?_
  have hs := Keeps.refl s
  repeat' (first | with_reducible assumption | with_reducible apply State.service_keeps
                 | with_reducible apply State.replyWords_keeps | intro _)

theorem execAssay_keeps {s t : State} (a0 a1) (h : execAssay a0 a1 s = .next t) : Keeps s t := by
  unfold execAssay at h
  refine perform_keeps h ?_
  have hs := Keeps.refl s
  repeat' (first | with_reducible assumption | with_reducible apply State.service_keeps
                 | with_reducible apply State.typed_keeps | with_reducible apply State.replyWords_keeps
                 | with_reducible apply State.monSelect_keeps | intro _)

theorem execMonAssayForce_keeps {s t : State} (a0) (h : execMonAssayForce a0 s = .next t) : Keeps s t := by
  unfold execMonAssayForce at h
  refine perform_keeps h ?_
  have hs := Keeps.refl s
  repeat' (first | with_reducible assumption | with_reducible apply State.action_keeps)

theorem State.listPacks_keeps {s0 s : State} (h : Keeps s0 s) (a0) : Keeps s0 (State.listPacks a0 s).1 := by
  induction a0 generalizing s with
  | nil => unfold State.listPacks; repeat' (first | with_reducible assumption
                                                  | with_reducible apply State.monWords_keeps)
  | cons x l ih => unfold State.listPacks; repeat' (first | with_reducible assumption
                                                          | with_reducible apply State.monWords_keeps
                                                          | with_reducible apply State.monSelect_keeps
                                                          | with_reducible apply ih)

theorem execCanary_keeps {s t : State} (h : execCanary s = .next t) : Keeps s t := by
  unfold execCanary at h
  refine perform_keeps h ?_
  have hs := Keeps.refl s
  repeat' (first | with_reducible assumption | with_reducible apply State.service_keeps
                 | with_reducible apply State.listPacks_keeps | with_reducible apply State.reply_keeps | intro _)

theorem execMonCanaryTest_keeps {s t : State} (a0) (h : execMonCanaryTest a0 s = .next t) : Keeps s t := by
  unfold execMonCanaryTest at h
  refine perform_keeps h ?_
  have hs := Keeps.refl s
  repeat' (first | with_reducible assumption | with_reducible apply State.action_keeps)

theorem execStope_keeps {s t : State} (a0) (h : execStope a0 s = .next t) : Keeps s t := by
  unfold execStope at h
  refine perform_keeps h ?_
  have hs := Keeps.refl s
  repeat' (first | with_reducible assumption | with_reducible apply State.service_keeps
                 | with_reducible apply State.typed_keeps | with_reducible apply Keeps.on
                 | with_reducible apply State.monSelect_keeps | with_reducible apply State.replyWords_keeps | intro _)

theorem execMonStopeRetire_keeps {s t : State} (a0) (h : execMonStopeRetire a0 s = .next t) : Keeps s t := by
  unfold execMonStopeRetire at h
  refine perform_keeps h ?_
  have hs := Keeps.refl s
  repeat' (first | with_reducible assumption | with_reducible apply State.action_keeps)

theorem execDrift_keeps {s t : State} (a0) (h : execDrift a0 s = .next t) : Keeps s t := by
  unfold execDrift at h
  refine perform_keeps h ?_
  have hs := Keeps.refl s
  repeat' (first | with_reducible assumption | with_reducible apply State.service_keeps
                 | with_reducible apply State.typed_keeps | with_reducible apply State.replyWords_keeps | intro _)

theorem execMonDriftDisable_keeps {s t : State} (a0) (h : execMonDriftDisable a0 s = .next t) : Keeps s t := by
  unfold execMonDriftDisable at h
  refine perform_keeps h ?_
  have hs := Keeps.refl s
  repeat' (first | with_reducible assumption | with_reducible apply State.action_keeps)

theorem execMonDriftEnable_keeps {s t : State} (a0) (h : execMonDriftEnable a0 s = .next t) : Keeps s t := by
  unfold execMonDriftEnable at h
  refine perform_keeps h ?_
  have hs := Keeps.refl s
  repeat' (first | with_reducible assumption | with_reducible apply State.action_keeps)

theorem execPower_keeps {s t : State} (h : execPower s = .next t) : Keeps s t := by
  unfold execPower at h
  refine perform_keeps h ?_
  have hs := Keeps.refl s
  repeat' (first | with_reducible assumption | with_reducible apply State.service_keeps
                 | with_reducible apply State.replyWords_keeps | intro _)

theorem execMonPowerBudget_keeps {s t : State} (a0) (h : execMonPowerBudget a0 s = .next t) : Keeps s t := by
  unfold execMonPowerBudget at h
  refine perform_keeps h ?_
  have hs := Keeps.refl s
  repeat' (first | with_reducible assumption | with_reducible apply State.action_keeps)

theorem execBreakCond_keeps {s t : State} (h : execBreakCond s = .next t) : Keeps s t := by
  unfold execBreakCond at h
  refine perform_keeps h ?_
  have hs := Keeps.refl s
  repeat' (first | with_reducible assumption | with_reducible apply State.setBaud_keeps
                 | with_reducible apply State.endSession_keeps | with_reducible apply State.print_keeps
                 | with_reducible apply State.record_keeps | with_reducible apply State.raise_keeps | exact le_rfl
                 | extract_lets | with_reducible apply Keeps.mk')

theorem execBaud_keeps {s t : State} (a0 a1) (h : execBaud a0 a1 s = .next t) : Keeps s t := by
  unfold execBaud at h
  refine perform_keeps h ?_
  have hs := Keeps.refl s
  repeat' (first | with_reducible assumption | with_reducible apply State.written_keeps
                 | with_reducible apply State.baudAct_keeps | with_reducible apply Keeps.on
                 | with_reducible apply State.takeBaud_keeps | intro _)

theorem State.announcePage_keeps {s0 s : State} (h : Keeps s0 s) (a1) : Keeps s0 (State.announcePage s a1) := by
  unfold State.announcePage
  repeat' (first | with_reducible assumption | with_reducible apply Keeps.on | with_reducible apply State.print_keeps
                 | intro _ | exact le_rfl | extract_lets | with_reducible apply Keeps.mk')

theorem execAlert_keeps {s t : State} (a0) (h : execAlert a0 s = .next t) : Keeps s t := by
  unfold execAlert at h
  refine perform_keeps h ?_
  have hs := Keeps.refl s
  repeat' (first | with_reducible assumption | with_reducible apply State.announcePage_keeps | intro _
                 | with_reducible apply Keeps.ite)

end Sys2Proof.Machine
end

