-- ==== Sys2Proof/Tests/Slice0.lean ====
section
/-!
SUPPORT. Tests of the model: ill-formed commands are refused, the spec's worked examples come out as it gives them, and every
clause of a statement that has hypotheses has a state and operands that meet all of them (`witness_<statement>_<clause>`), at a
boundary of its range where it has one.
-/

namespace Sys2Proof.Tests

open Sys2Proof.Machine

set_option Elab.async false

/-! ### States to start from -/

/-- A source's session: role 1 operator of claim c, 2 installer, 3 maker. -/
def wSess (s : State) (src : Source) (role claim : Nat) : State :=
  s.wr (Page.ROL src.num) Reg.ROL.SESS_STATE (2 + 16 * role + 256 * claim)
/-- An installer session of port A right after reset. -/
def wI : State := wSess State.reset .portA 2 0
/-- A maker session of port A. -/
def wM : State := wSess State.reset .portA 3 0
/-- Claim 1 in use, with an operator session of port A. -/
def wO : State := (wSess State.reset .portA 1 1).setFld (Page.CLM 1) Reg.CLM.CLAIM_STATE 2 0 2
/-- An installer session of the monitor. -/
def wS : State := wSess State.reset .monitor 2 0
/-- Drift port n in a state. -/
def wPort (s : State) (n st : Nat) : State := s.setFld (Page.DRF n) Reg.DRF.PORT_STATE 3 0 st
/-- The member's cascade state. -/
def wCas (s : State) (st : Nat) : State := s.setFld Page.CAS Reg.CAS.STATE 2 0 st
/-- A roster of one member with identity 7. -/
def wRoster (version : Nat) : List Byte :=
  leBytes 4 1 ++ leBytes 4 1 ++ leBytes 8 version ++ leBytes 48 0 ++ leBytes 48 7 ++ leBytes 2 3 ++ leBytes 14 0
/-- The enrolled module with that roster in force. -/
def wRost : State :=
  { State.reset with casc := { State.reset.casc with roster := wRoster 1 } }.setFld (Page.ROL 3) Reg.ROL3.ENROL_STATE 0 0 1
def wCand (m : Nat) (ref : Bool) : Cand := { member := m, ref := ref, pref := 1, epoch := 0 }
def wHeld (n : Nat) (r : Rec) : Held := { seq := n, opsec := 0, pwrcyc := 0, supp := 0, bind := 0, len := 2 ^ 22, body := r }
def wRec (code : Nat) : Rec :=
  { code := code, unit := 0, role := 0, source := 3, claim := some 0, tai := 0, items := [], hidden := [], maker := [] }
def wRecorded (s : State) (r : Recorder → Recorder) : State := { s with recorder := r s.recorder }
def wStream (s : State) (page : Nat) (o : List Byte) : State := s.setStream .portA page { Stream.idle with object := o }

/-! ### A job of one layer with 64 inputs and 64 outputs, in claim 1, on logical stope 0 -/

def wEntry (action a b result layer mb : Nat) : HoistE :=
  { launch := 0, action := action, tkind := 1, ref := false, ideal := false, serve := false, recompute := false, notify := false
    target := 2 ^ 32, a := a, b := b, result := result, layer := layer, mb := mb }
def wTensor (addr bytes d0 d1 fmt : Nat) : TensorD :=
  { addr := addr, bytes := bytes, dim0 := d0, dim1 := d1, fmt := fmt, orient := false, e := 0, stride := 0 }
def wLayer : LayerD :=
  { layer := 0, act := 0, bias := false, stashIn := true, maxPool := false, inputs := 64, outputs := 64, pool := 0, outFmt := 2
    dwPolicy := 0, p0 := 0, p1 := 0, inT := 0, outT := 1, codesT := 2, coefT := 3, gainT := 4, biasT := 5, gzT := 6, dwT := 7
    reuse := 0, seamMapT := 9 }
def wTensors : List TensorD :=
  [wTensor 0x0 4096 1 64 0, wTensor 0x1000 4096 1 64 2, wTensor 0x10000 163840 512 512 7, wTensor 0x40000 4096 1 512 7,
   wTensor 0x41000 4096 1 64 4, wTensor 0x42000 4096 1 64 4, wTensor 0x43000 4096 1 64 2, wTensor 0x44000 8192 64 64 2,
   wTensor 0x46000 4096 1 64 2, wTensor 0x47000 4096 1 1 7]
def wSet : SetD :=
  { id := 0, kind := 0, opt := 0, layer := 0, rows := 64, dim := 64, bank := 0x100000, serveT := 0, initT := 0, gradScale := 0
    beta1 := 0, beta2 := 0, eps := 0, lambda := 0, a0 := 0, knots := [] }
def wJob (es : List HoistE) : Job :=
  { desc := { train := true, placement := 0x200000, hoist := 0x201000, fixed := es.length, free := 0, seed := 5, zgLimit := 0
              offsetUnit := 0, tableLayers := 1, tableBase := 0, ckptK := 0, micro := 1, startStep := 0, ckptBase := 0 }
    entries := es
    head := { layers := 1, tensors := 10, vectors := 1, layerBase := 0, tensorBase := 0, stockBase := 0, stockFast := 64
              stockSpill := 0, spillBase := 0, stockHigh := 0, bufResident := 0 }
    layers := [wLayer], tensors := wTensors, maps := [[0]], sets := [wSet], sstate := [SetS.fresh 0], num := [], numNext := []
    stat := [], runs := [], swap := none, role := 0, number := 1, first := false, stopDue := false, abortDue := false
    probe := false, probeDone := false, cause := 0, reporter := 0xFFF, streak := 0, trainSteps := 0, stashes := [], marks := []
    spillOcc := 0, partials := [], acts := [], roots := [], landed := [], envelope := [], serveFmt := [], ords := [0]
    lostHit := false, lostRun := 0, regen := [], forms := [], recomp := none, lastWork := 0, forceCkpt := false, restoring := false
    swapped := [] }
/-- A claim's job in a job state, with logical stope 0 owned by the claim. -/
def wLoad (s : State) (j : Job) (st : Nat) : State :=
  ((s.setJob 1 j).setFldB (claimBank 1) Page.HOI Reg.HOI.JOB_STATE 3 0 st).setFld (Page.STP 0) Reg.HDR.PAGE_CLAIM 5 0 1
/-- That job running. -/
def wRun (j : Job) : State := wLoad State.reset j 4
/-- The run of an entry that has started with work left. -/
def wBegun (j : Job) (e left : Nat) : Job := j.setRun e { HoistRun.idle with started := true, left := left }
/-- A job descriptor (Table 5.2) with placement 0x200000, hoist table 0x201000, `fixed` fixed hoists and SEED 5. -/
def wDesc (fixed : Nat) : List Byte :=
  let body := leBytes 4 1 ++ leBytes 4 1 ++ leBytes 8 0x200000 ++ leBytes 8 0x201000 ++ leBytes 4 fixed ++ leBytes 4 0 ++ leBytes 16 5 ++
    leBytes 2 0 ++ leBytes 2 0 ++ leBytes 2 1 ++ leBytes 2 0 ++ leBytes 8 0 ++ leBytes 4 0 ++ leBytes 4 1 ++ leBytes 180 0
  body ++ leBytes 4 (crc32c body)
def wFw (s : State) (st : Nat) (f : Fw → Fw) : State := { s.setFw st with fw := f s.fw }
def wImg : Image := { ver := 2, digest := 0, hash := 0, romMin := 1, handover := 65537, bytes := 256 }
def wSealing (s : State) (phase : Nat) (d : Option (BitVec 64 × Nat)) : State :=
  { s with sealing := { s.sealing with phase := phase, decision := d } }

/-- A placement of one layer with 64 inputs and 64 outputs and no tensors (Tables 6.2 and 6.3): header at 0x200000, layer at 0x200080,
64 blocks of stockpile at 0. -/
def wPlace : List Byte :=
  let head := leBytes 4 1 ++ leBytes 4 1 ++ leBytes 4 0 ++ leBytes 4 1 ++ leBytes 8 0x200080 ++ leBytes 16 0 ++ leBytes 4 64 ++ leBytes 80 0
  head ++ leBytes 4 (crc32c head) ++ leBytes 4 0 ++ leBytes 4 64 ++ leBytes 4 64 ++ leBytes 4 1 ++ leBytes 4 0 ++ leBytes 40 (2 ^ 320 - 1)
/-- Claim 1 with that placement and a hoist table of one SEAL at 0x201000, and the job that the descriptor wDesc 1 loads. -/
def wPlacedJob : Job := { wJob [] with desc := descOf (wDesc 1), sets := [] }
def wPlaced (st : Nat) : State :=
  (((((wStream (wLoad wO wPlacedJob st) Page.HOI (wDesc 1)).wrNat 1 0x201000 32 (249864000 + 1033 * 2 ^ 32)).wrBytes 1 0x200000 wPlace).wr
    (Page.CLM 1) Reg.CLM.HOIST_SHARE 1).wr (Page.CLM 1) Reg.CLM.FAST_GRANT_LO 1024).wr (Page.CLM 1) Reg.CLM.SLOW_GRANT_LO 1024

/-! ### Units that the module does not have (WellFormed.lean): one ill-formed term for each check -/

theorem test_ill_formed_stopes : wellFormed (.idle 64 0) = false ∧ wellFormed (.tileStart 1056) = false ∧
    wellFormed (.vectorRead 0 17) = false ∧ wellFormed (.writeListBlock 1024 0) = false ∧
    wellFormed (.writeRowSide 0 0 512 false [] [] []) = false ∧ wellFormed (.driftProbe 0 0 16 0) = false ∧
    wellFormed (.reliefPrep 0 1056 true) = false ∧ wellFormed (.testSlotEnd 0 0 [(1056, none)]) = false ∧
    wellFormed (.sensorValid 0 8) = false := by decide +kernel

theorem test_ill_formed_units : wellFormed (.chanRetire .portA 8 0) = false ∧ wellFormed (.slowStackRetire .portA 4 0) = false ∧
    wellFormed (.portDown 12) = false ∧ wellFormed (.laneFail 0 5 .lockLost) = false ∧ wellFormed (.verdictArrival 4096 0) = false ∧
    wellFormed (.perst 2) = false ∧ wellFormed (.msiHoldoffEnd 0 64) = false ∧ wellFormed (.ideFail 0 3) = false ∧
    wellFormed (.convFail 12 .busLow) = false ∧ wellFormed (.phaseFail 102 .busLow) = false ∧
    wellFormed (.thermalWarn 8 0 0) = false ∧ wellFormed (.thermalWarn 0 1056 0) = false ∧ wellFormed (.blockArrival ⟨0, 1056, 0, false⟩ 1 0 0) = false := by
  decide +kernel

theorem test_ill_formed_pages : wellFormed (.enableSet .portA 4096) = false ∧ wellFormed (.streamWindowRead .portA 4096 0) = false ∧
    wellFormed (.captureRead .portA 0x3FFFFFF) = true := by decide +kernel

/-- Data that names nothing ends no run: an address beyond BAR0, byte enables past the word, a typed number with no unit. -/
theorem test_data_runs : ([.registerWrite .portA 0x4000000 0 15, .registerWrite .portA 0 0 16, .captureRead .portA (2 ^ 40),
    .peek 0x4000000 1, .poke 0x4000000 0 none, .assay 1056 17, .stope 1056, .drift (some 12)] : List Instr).all wellFormed = true := by
  decide +kernel

/-! ### The spec's worked examples -/

/-- What a command answers where it answers a state. -/
def nextOf (o : Out) : State := match o with | .next t => t | .fault _ => State.reset | .refused _ => State.reset

/-- 02_seams.md, Table 2.8: corrected codes of column 37 and their weighted sum. -/
theorem test_column_37_planes :
    ([(6, 2), (2, 8), (1, 3), (0, 10)] : List (Nat × Int)).foldl (fun a x => a + corrected x.2 (0x8000, 528, 0) * 2 ^ x.1) 0 = 1680 := by
  decide +kernel

/-- 02_seams.md: the head collar's value 2,363 × 2^−13 of column 37, its A8 byte and its G16E5 code (a tie to even). -/
theorem test_column_37_output : collarValue ⟨55050240, -19⟩ (-7) 0x3D400000 0x3E800000 = 0x3E93B000 ∧
    toA8 (-8) 0x3E93B000 = (0x4A, false) ∧ (toG16 5 10 0 0x3E93B000).code = 0x349E := by decide +kernel

/-- 02_seams.md, Table 2.9: witness predictions. -/
theorem test_witness_predictions : ([6, 2, 1, 0].map (fun p => (List.range 4).map (fun k => witPredict [0x05, 0x83, 0x40] 0 3 k p))) =
    [[0, 0, 3, 0], [3, 0, 0, 0], [0, -3, 0, 0], [3, -3, 0, 0]] := by decide +kernel

/-- 03_hewers.md: shadow levels of the worked examples. -/
theorem test_shadow_levels : shadow 0x7C00 40 (-7) = -6984 ∧ shadow 0x7C00 40 15 = 14920 ∧ shadow 0x8400 (-24) 3 = 3144 ∧
    shadow 0x8400 (-24) 0 = 0 := by decide +kernel

/-- 03_hewers.md, Table 3.3: leaf forms. -/
theorem test_leaf_forms : leafForm [⟨3, -7⟩, ⟨-1, -6⟩] = (-20, [24576, -16384]) ∧ leafForm [⟨9, -8⟩, ⟨1, -4⟩] = (-18, [9216, 16384]) ∧
    leafForm [⟨-6984, -10⟩, ⟨3144, -10⟩] = (-12, [-27936, 12576]) ∧ leafForm [⟨14920, -10⟩, ⟨0, -10⟩] = (-11, [29840, 0]) := by
  decide +kernel

/-- 04_numerics.md: gradients of layer 12 in G16E5 and G16E8 under β = −23, with the underflow. -/
theorem test_gradient_codes : (toG16 5 10 (-23) 0x3B727BB3).code = 0x7794 ∧ toG16 5 10 (-23) 0x2C400000 = ⟨0x0180, false, true⟩ ∧
    toG16 8 7 (-23) 0x2C400000 = ⟨0x37C0, false, false⟩ := by decide +kernel

/-- 07_mill.md: the first AdamW update of row 5, with its per-set values and moment blocks. -/
theorem test_adamw_row_5 :
    let d : SetD := { wSet with opt := 1, beta1 := 0x3F600000, beta2 := 0x3F700000, eps := 0x35800000, lambda := 0x3D800000 }
    let a := adamOf d (SetS.fresh 0)
    let r := adamBlock d a 0x3C800000 [0xBD800000] [0x3EB0000000] [0] [0]
    (a.p1, a.c1, a.p2, a.c2) = (0x3F600000, 0x3E000000, 0x3F700000, 0x3D800000) ∧ r.th = [0x3EB7D3F800] ∧
      (r.mom.e, signed 16 (nth 0 r.mom.ms 0)) = (121, -16384) ∧ (r.sec.e, nth 0 r.sec.ms 0) = (115, 32768) := by decide +kernel

/-- 08_assay_and_upkeep.md: the refit of column 37. -/
theorem test_refit_column_37 : convFit 1952 5824 = some (32497, 528) ∧
    cellFit (fun i => if i < 120 then 11 else if i < 160 then 12 else if i < 310 then 4 else 0) false 0x8000 0 4096
      ((List.range 310).map (fun i => (i, if i < 40 then 88 else if i < 160 then 87 else if i < 194 then 32 else 31))) =
      .fit 31651 (512 + 41) ∧ shadow 0x7BA3 41 15 = 14877 := by decide +kernel

/-- 12_register_pages.md: one address, three aliases. -/
theorem test_three_aliases : landPage (addrPage 0x00AB638C) = 0x00D ∧ viewAt 0x00D (addrOff 0x00AB638C) = .bitOf Reg.HDR.EVT_ENABLE 3 ∧
    (nextOf (exec (.bitAliasWrite .portA 0x00AB638C 1) wI)).rdB 0 0x00D Reg.HDR.EVT_ENABLE = 8 ∧
    (Sparse.get Resp.none (nextOf (exec (.captureRead .portA 0x00AB4000) wI)).resp 0).data = 0x0500500D := by decide +kernel

/-- 12_register_pages.md, Table 12.12: port A's pair on FTC 5.CHAN_RETIRE completes; and it is discarded where port A writes
EVT_ENABLE in between. -/
theorem test_channel_retired :
    let s := { wI with osc := 420, pairs := [(0x00D, { off := Reg.FTC.CHAN_RETIRE, val := 0x109, opened := 0 })] }
    (nextOf (exec (.complementWrite .portA 0x00034500 0xFFFFFEF6) s)).pairs = [] ∧
      bit ((nextOf (exec (.complementWrite .portA 0x00034500 0xFFFFFEF6) s)).rdB 0 0x00D Reg.HDR.EVT_FLAG) 31 = false ∧
      (nextOf (exec (.complementWrite .portA 0x00034500 0xFFFFFEF6) s)).fast.retired ≠ [] ∧
      (nextOf (exec (.registerWrite .portA (wordAddr 0x00D Reg.HDR.EVT_ENABLE) 1 15) s)).pairs = [] ∧
      bit ((nextOf (exec (.registerWrite .portA (wordAddr 0x00D Reg.HDR.EVT_ENABLE) 1 15) s)).rdB 0 0x00D Reg.HDR.EVT_FLAG) 31 = true := by
  decide +kernel

/-- 15_power_and_sensing.md: p_est of 2,718 W at one window, and the ceiling 2,459 W with nine converters. -/
theorem test_budget_example :
    let s := State.reset.modPwr (fun x =>
      { x with pCyc := 2650000, eta1 := 966, busMw := 2559900, wins := [[10000000, 2650000, 2559900, 1500000, 1630435]] })
    s.estimate 1560 = 2718 ∧
      ((s.wr Page.PWR Reg.PWR.CONV_MAP (putBits (s.rd Page.PWR Reg.PWR.CONV_MAP) 23 12 0x1FF)).recompute).rd Page.PWR
        Reg.PWR.BUDGET_IN_FORCE = 2459 := by decide +kernel

/-- 16_bringup_and_prospector.md, one series: a record 768 slots before the newest is refused, one in a filled slot is not. -/
theorem test_series_example :
    let q := 900000000000 * 2000
    let s := { State.reset with tally := q + 2000000000000, pros := { State.reset.pros with series := [(0x12D687, (2001, []))] } }
    s.recordCause ⟨q + 600000000000, 0x12D687, 0x40500000⟩ = 0 ∧ s.recordCause ⟨q - 767 * 900000000000, 0x12D687, 0⟩ = 4 := by
  decide +kernel

/-- 17_bobel_monitor.md: the budget lowered from the console; a third token that is no complement changes nothing. -/
theorem test_poke_budget :
    (nextOf (exec (.poke 0x00094100 0x9C4 (some 0xFFFFF63B)) wS)).rd Page.PWR Reg.PWR.BUDGET_IN_FORCE = 2500 ∧
      ((nextOf (exec (.poke 0x00094100 0x9C4 (some 0xFFFFF63C)) wS)).mon.out.map (·.err)) = [3] ∧
      (nextOf (exec (.poke 0x00094100 0x9C4 (some 0xFFFFF63C)) wS)).rd Page.PWR Reg.PWR.GOV_BUDGET = 2700 := by decide +kernel

/-! ### The queue -/

theorem test_front_first :
    (nextOf (step { State.reset with pending := [.inputStateChange 50000, .ver] })).pending = [.ver] ∧
      (nextOf (step { State.reset with pending := [.inputStateChange 50000, .ver] })).fld Page.PWR Reg.PWR.INPUT_STATE 2 0 = 1 ∧
      (nextOf (step State.reset)).osc = 1 := by decide +kernel

/-- The opcode table gives no row any bits. -/
theorem test_no_words : decodeTableWord 32 7 = none ∧ State.reset.withFetchWord 32 7 = State.reset := by decide +kernel

/-- R511: a page that reads FAULT asserts ALERT_N, a trip THERM_TRIP_N too. -/
theorem test_alert_pins : State.reset.alertPin = false ∧ (State.reset.setFn (Page.DRF 3) 4).alertPin = true ∧
    (State.reset.modPwr (fun x => { x with tripped := true })).thermTrip = true := by decide +kernel

/-- R507: a stope clamped in 40 of the 64 windows of the 64 slots before is proposed for retirement at the next window. -/
theorem test_clamped_stope_proposed :
    let s := ({ State.reset with gov := { ovf := 0, slots := (List.range 64).map (fun n => (n, 1)) }, tally := 64 * 250000000 }).modStope
      5 (fun x => { x with clamped := true, clampSlots := (List.range 40).map (fun n => (n, 1)) })
    s.slotNo = 64 ∧ (s.clampWindow.stope 5).proposed = true ∧ (s.clampWindow.clampWindow.stope 5).clampSlots.length = 41 := by
  decide +kernel

/-! ### What meets the hypotheses of the statements -/

theorem witness_InputComplete_1 : ∃ (mv : Nat) (new : Nat) (s : State),
    (ready (.inputStateChange mv) s) ∧
    (inputStateOf mv = some new) ∧
    let old := s.fld Page.PWR Reg.PWR.INPUT_STATE 2 0
    (old ≠ new) ∧
    (old ≠ 3) :=
  ⟨50000,
   1,
   State.reset, by decide +kernel⟩

theorem witness_InputComplete_2 : ∃ (mv : Nat) (draw : Nat) (s : State),
    (ready (.powerFail mv draw) s) ∧
    (s.pwr.failed = false) :=
  ⟨50000,
   900,
   State.reset, by decide +kernel⟩

theorem witness_InputComplete_3 : ∃ (mv : Nat) (s : State),
    (ready (.inputOver mv) s) :=
  ⟨85000,
   State.reset, by decide +kernel⟩

theorem witness_InputComplete_4 : ∃ (s : State),
    (s.pwr.stage1Off = true) :=
  ⟨{ State.reset with pwr := { State.reset.pwr with stage1Off := true } }, by decide +kernel⟩

theorem witness_InputComplete_5 : ∃ (s : State),
    (s.powered = false) :=
  ⟨{ State.reset with powered := false }, by decide +kernel⟩

theorem witness_InputComplete_6 : ∃ (r : MainsReading) (s : State),
    (ready (.mainsWindow r) s) :=
  ⟨⟨72000, 10, 48000, 15, 14, 0, 0, 100, 5, 20000000⟩,
   State.reset, by decide +kernel⟩

theorem witness_StagesComplete_1 : ∃ (k : Nat) (cause : StageCause) (s : State),
    (ready (.convFail k cause) s) ∧
    let m := s.rd Page.PWR Reg.PWR.CONV_MAP
    let sp := bits m 27 24
    (bit m k = false) ∧
    (bit m (12 + k) = true) ∧
    (sp < 12) :=
  ⟨0,
   .overCurrent,
   State.reset, by decide +kernel⟩

theorem witness_StagesComplete_2 : ∃ (src : Source) (v : Word) (s : State),
    (ready (.convRetire src v) s) ∧
    (guardOpen s src Page.PWR Reg.PWR.CONV_RETIRE v.toNat) ∧
    (bit v.toNat 8 = true) ∧
    (bits v.toNat 3 0 ≤ 11) :=
  ⟨.portA,
   0x10B,
   wI, by decide +kernel⟩

theorem witness_StagesComplete_3 : ∃ (k : Nat) (low : Bool) (s : State),
    (ready (.spareRotate k low) s) ∧
    let m := s.rd Page.PWR Reg.PWR.CONV_MAP
    let sp := bits m 27 24
    (bit m k = false) ∧
    (bit m (12 + k) = true) ∧
    (11 ≤ s.working) ∧
    (sp ≤ 11) ∧
    ((low = true ∨ s.mostHours k = true)) :=
  ⟨3,
   true,
   State.reset, by decide +kernel⟩

theorem witness_StagesComplete_4 : ∃ (k : Nat) (cause : StageCause) (s : State),
    (ready (.phaseFail k cause) s) ∧
    (s.phase k ≠ 1000) :=
  ⟨101,
   .busLow,
   State.reset, by decide +kernel⟩

theorem witness_StagesComplete_5 : ∃ (src : Source) (v : Word) (s : State),
    (ready (.phaseRetire src v) s) ∧
    (guardOpen s src Page.PWR Reg.PWR.PHASE_RETIRE v.toNat) ∧
    (bit v.toNat 8 = true) ∧
    (bits v.toNat 6 0 ≤ 101) :=
  ⟨.portA,
   0x165,
   wI, by decide +kernel⟩

theorem witness_ThermalComplete_1 : ∃ (p : Nat) (ch : Nat) (s : State),
    (ready (.sensorInvalid p ch) s) ∧
    (bit (s.stope p).invalid ch = false) ∧
    (bits ((s.stope p).invalid + 2 ^ ch) 1 0 ≠ 3) :=
  ⟨1055,
   0,
   State.reset, by decide +kernel⟩

theorem witness_ThermalComplete_2 : ∃ (p : Nat) (ch : Nat) (s : State),
    (ready (.sensorValid p ch) s) ∧
    (bit (s.stope p).invalid ch = true) :=
  ⟨7,
   0,
   State.reset.modStope 7 (fun x => { x with invalid := 1 }), by decide +kernel⟩

theorem witness_ThermalComplete_3 : ∃ (cls : Nat) (inst : Nat) (temp : Int) (s : State),
    (ready (.thermalWarn cls inst temp) s) ∧
    ((s.sensor cls inst).2.1 = 0) ∧
    (s.warnAt cls < temp) :=
  ⟨0,
   5,
   1521,
   State.reset, by decide +kernel⟩

theorem witness_ThermalComplete_4 : ∃ (cls : Nat) (inst : Nat) (c : Nat) (temp : Int) (s : State),
    (ready (.thermalClamp cls inst temp) s) ∧
    ((thresholds cls).2.1 = some c) ∧
    ((s.sensor cls inst).2.1 < 2) ∧
    ((c : Int) * 16 < temp) :=
  ⟨0,
   5,
   105,
   1681,
   State.reset, by decide +kernel⟩

theorem witness_ThermalComplete_5 : ∃ (inst : Nat) (temp : Int) (s : State),
    (ready (.thermalClampEnd 0 inst temp) s) ∧
    ((s.sensor 0 inst).2.1 = 2) ∧
    (temp ≤ s.warnAt 0 - 80) ∧
    (temp ≤ 105 * 16 - 80) ∧
    (bits (s.stope inst).invalid 1 0 ≠ 3) :=
  ⟨5,
   1440,
   State.reset.setSensor 0 5 1700 2 0, by decide +kernel⟩

theorem witness_ThermalComplete_6 : ∃ (cls : Nat) (inst : Nat) (temp : Int) (s : State),
    (ready (.thermalTrip cls inst temp) s) ∧
    (cls < 6) :=
  ⟨1,
   7,
   1690,
   State.reset, by decide +kernel⟩

theorem witness_ThermalComplete_7 : ∃ (src : Source) (v : Word) (s : State),
    (ready (.tripClear src v) s) ∧
    (guardOpen s src Page.PWR Reg.PWR.TRIP_CLEAR v.toNat) ∧
    let b := ruleSees s src Page.PWR
    (bit v.toNat 0 = true) ∧
    (bit (b.rd Page.PWR Reg.PWR.INPUT_STATE) 12 = true) ∧
    ((∀ e ∈ b.pwr.sensors, e.2.1 ≤ b.warnAt (e.1 / 2048) - 160)) :=
  ⟨.portA,
   1,
   wI.setFld Page.PWR Reg.PWR.INPUT_STATE 12 12 1, by decide +kernel⟩

theorem witness_ThermalComplete_8 : ∃ (src : Source) (v : Word) (s : State),
    (ready (.govBudget src v) s) ∧
    (guardOpen s src Page.PWR Reg.PWR.GOV_BUDGET v.toNat) :=
  ⟨.portA,
   500,
   wI, by decide +kernel⟩

theorem witness_ThermalComplete_9 : ∃ (src : Source) (v : Word) (s : State),
    (ready (.inputLimit src v) s) ∧
    (guardOpen s src Page.PWR Reg.PWR.INPUT_LIMIT v.toNat) :=
  ⟨.portA,
   3000,
   wI, by decide +kernel⟩

theorem witness_LanesComplete_1 : ∃ (n : Nat) (lane : Nat) (sp : Nat) (rest : List Nat) (cause : LaneCause) (s : State),
    (ready (.laneFail n lane cause) s) ∧
    (s.laneFailed n lane = false) ∧
    (lane < 5) ∧
    (((s.laneOrder n).take (s.activeLanes n)).contains lane = true) ∧
    (s.spareLanes n = sp :: rest) ∧
    (s.portState n ≠ 0) ∧
    (s.portState n ≠ 6) :=
  ⟨11,
   0,
   4,
   [],
   .lockLost,
   (wPort State.reset 11 3), by decide +kernel⟩

theorem witness_LanesComplete_2 : ∃ (n : Nat) (lane : Nat) (eye : Nat) (sp : Nat) (rest : List Nat) (s : State),
    (ready (.eyeMeasure n lane eye) s) ∧
    (s.laneFailed n lane = false) ∧
    (((s.laneOrder n).take (s.activeLanes n)).contains lane = true) ∧
    (s.spareLanes n = sp :: rest) ∧
    (2560 ≤ eye * 100) ∧
    (eye * 100 < 8960) :=
  ⟨0,
   0,
   26,
   4,
   [],
   State.reset, by decide +kernel⟩

theorem witness_LanesComplete_3 : ∃ (n : Nat) (lane : Nat) (eye : Nat) (held : Nat) (s : State),
    (ready (.laneRetrain n lane eye held) s) ∧
    (s.laneFailed n lane = true) ∧
    (8960 ≤ eye * 100) ∧
    (60 ≤ held) ∧
    (4 ≤ s.activeLanes n) ∧
    (s.portState n ≠ 0) ∧
    (s.portState n ≠ 6) :=
  ⟨0,
   4,
   90,
   60,
   (wPort State.reset 0 3).setFld (Page.DRF 0) Reg.DRF.LANE_MAP 20 20 1, by decide +kernel⟩

theorem witness_LanesComplete_4 : ∃ (src : Source) (n : Nat) (v : Word) (s : State),
    (ready (.laneRetire src n v) s) ∧
    (guardOpen s src (Page.DRF n) Reg.DRF.LANE_RETIRE v.toNat) ∧
    (bit v.toNat 8 = true) ∧
    (bits v.toNat 2 0 < 5) :=
  ⟨.portA,
   0,
   0x104,
   wI, by decide +kernel⟩

theorem witness_TubsComplete_1 : ∃ (n : Nat) (t : Tub) (s : State),
    (ready (.tubReceive n t) s) ∧
    (s.portState n = 3 ∨ s.portState n = 4) ∧
    (crc8 (tubBytes t) = t.hcrc) ∧
    (3 ≤ t.cls) ∧
    (t.cls < 9) ∧
    let a := s.acknowledge n t.lack
    let b := a.takeCredits n t.vc t.cred
    (t.lseq = (b.port n).rxNext) ∧
    let d := (b.modPort n (fun p => { p with rxNext := (p.rxNext + 1) % 65536, wanted := 0 })).count64
      (Page.DRF n) Reg.DRF.RX_TUBS_LO 4 1
    (t.dest = d.memberNo) :=
  ⟨0,
   { cls := 4, fin := true, detour := false, dateline := false, key := 0, lseq := 0, lack := 0, cred := 0, vc := 1, dest := 0xFFF, src := 2, msg := 0, index := 0, hcrc := crc8 (tubBytes { cls := 4, fin := true, detour := false, dateline := false, key := 0, lseq := 0, lack := 0, cred := 0, vc := 1, dest := 0xFFF, src := 2, msg := 0, index := 0, hcrc := 0 }) },
   (wPort State.reset 0 3), by decide +kernel⟩

theorem witness_TubsComplete_2 : ∃ (n : Nat) (lseq : Nat) (s : State),
    (ready (.retry n lseq) s) ∧
    let again := (s.port n).unacked.filter (fun q => serialLe lseq q)
    (again ≠ []) :=
  ⟨0,
   5,
   State.reset.modPort 0 (fun p => { p with unacked := [4, 5, 6] }), by decide +kernel⟩

theorem witness_TubsComplete_3 : ∃ (n : Nat) (s : State),
    (ready (.ackTimeout n) s) ∧
    ((s.port n).unacked ≠ []) :=
  ⟨0,
   State.reset.modPort 0 (fun p => { p with unacked := [4, 5, 6] }), by decide +kernel⟩

theorem witness_PortsComplete_1 : ∃ (n : Nat) (s : State),
    (ready (.portDown n) s) ∧
    (s.portState n ≠ 0) ∧
    (s.portState n ≠ 6) ∧
    let recent := (s.port n).downs.filter (fun t => decide (s.osc < t + 10000000000)) ++ [s.osc]
    (recent.length < 4) :=
  ⟨0,
   (wPort State.reset 0 3), by decide +kernel⟩

theorem witness_PortsComplete_2 : ∃ (n : Nat) (count : Nat) (s : State),
    (ready (.uncorrWindow n count) s) ∧
    (16 < count) ∧
    ((s.goodLanes n).length = 5) ∧
    ((s.port n).uncorr < 9) :=
  ⟨0,
   17,
   State.reset, by decide +kernel⟩

theorem witness_PortsComplete_3 : ∃ (src : Source) (n : Nat) (v : Word) (s : State),
    (ready (.portDisable src n v) s) ∧
    (guardOpen s src (Page.DRF n) Reg.DRF.PORT_DISABLE v.toNat) :=
  ⟨.portA,
   0,
   1,
   wI, by decide +kernel⟩

theorem witness_PortsComplete_4 : ∃ (n : Nat) (lanes : Nat) (s : State),
    (ready (.linkTrained n lanes) s) ∧
    (s.portState n = 0) ∧
    (2 ≤ lanes) ∧
    (s.fn (Page.DRF n) ≠ 0) :=
  ⟨0,
   2,
   State.reset.setFn (Page.DRF 0) 2, by decide +kernel⟩

theorem witness_PortsComplete_5 : ∃ (n : Nat) (s : State),
    (ready (.authTimeout n) s) ∧
    (s.portState n = 2) :=
  ⟨0,
   (wPort State.reset 0 2), by decide +kernel⟩

theorem witness_PortsComplete_6 : ∃ (n : Nat) (s : State),
    (ready (.quarantineRetry n) s) ∧
    (s.portState n = 5) :=
  ⟨0,
   (wPort State.reset 0 5), by decide +kernel⟩

theorem witness_RostersComplete_1 : ∃ (src : Source) (v : Word) (s : State),
    (ready (.rosterCommit src v) s) ∧
    (guardOpen s src Page.CAS Reg.CAS.ROSTER_COMMIT v.toNat) ∧
    (bit v.toNat 0 = true) ∧
    let b := ruleSees s src Page.CAS
    let r := b.staged src Page.CAS
    (b.isHead = true) ∧
    (rosterVersion b.casc.roster < rosterVersion r) :=
  ⟨.portA,
   1,
   wStream (wCas wI 0) Page.CAS (wRoster 2), by decide +kernel⟩

theorem witness_RostersComplete_2 : ∃ (n : Nat) (r : List Byte) (s : State),
    (ready (.rosterReceive n r) s) ∧
    (s.enrolled = true) ∧
    (rosterVersion s.casc.roster < rosterVersion r) :=
  ⟨0,
   wRoster 2,
   wRost, by decide +kernel⟩

theorem witness_RostersComplete_3 : ∃ (n : Nat) (h : Hello) (s : State),
    (ready (.hello n h) s) ∧
    (s.portState n = 2) ∧
    (h.chainOk = true) ∧
    (h.sigOk = true) ∧
    (s.listed h.member h.identity.toNat = true) :=
  ⟨0,
   ⟨3, 1, 7, 1, [], true, true⟩,
   wPort wRost 0 2, by decide +kernel⟩

theorem witness_HeadframeComplete_1 : ∃ (k : Cand) (s : State),
    (ready (.candidate k) s) :=
  ⟨wCand 5 true,
   State.reset, by decide +kernel⟩

theorem witness_HeadframeComplete_2 : ∃ (s : State),
    (ready .headframeElect s) ∧
    (s.fld Page.CAS Reg.CAS.STATE 2 0 = 1) :=
  ⟨wCas State.reset 1, by decide +kernel⟩

theorem witness_HeadframeComplete_3 : ∃ (answers : Nat) (s : State),
    (ready (.standbyTakeover answers) s) ∧
    (s.fld Page.CAS Reg.CAS.STATE 2 0 = 5) ∧
    (s.rosterActive < 2 * answers) ∧
    (s.sealing.phase = 0) :=
  ⟨1,
   wCas State.reset 5, by decide +kernel⟩

theorem witness_HeadframeComplete_4 : ∃ (src : Source) (v : Word) (s : State),
    (ready (.headMove src v) s) ∧
    (guardOpen s src Page.CAS Reg.CAS.HEAD_MOVE v.toNat) ∧
    let b := ruleSees s src Page.CAS
    let m := bits v.toNat 11 0
    (b.isHead = true) ∧
    (bit v.toNat 16 = true) ∧
    (m = b.fld Page.CAS Reg.CAS.HEADFRAME 27 16) ∧
    (m ≠ 0xFFF) ∧
    (b.casc.cands.any (fun k => k.member == m && k.ref == (b.fld Page.TAL Reg.TAL.STATUS 2 0 == 1)) = true) :=
  ⟨.portA,
   0x10005,
   { ((wCas wI 4).setFld Page.CAS Reg.CAS.HEADFRAME 27 16 5).setFld Page.TAL Reg.TAL.STATUS 2 0 1 with casc := { State.reset.casc with cands := [wCand 5 true] } }, by decide +kernel⟩

theorem witness_JoiningComplete_1 : ∃ (m : Nat) (ident : Hash) (x : JoinContent) (s : State),
    (ready (.join m ident x) s) ∧
    (s.fld Page.CAS Reg.CAS.STATE 2 0 = 4) ∧
    (s.joinReason m ident.toNat x.adjacent = 0) :=
  ⟨3,
   7,
   ⟨[], []⟩,
   ((wCas wRost 4).wr Page.CAS Reg.CAS.TOPO (8 + 2 * 2 ^ 8)).setFld Page.CAS Reg.CAS.MEMBERS 12 0 1, by decide +kernel⟩

theorem witness_JoiningComplete_2 : ∃ (m : Nat) (ident : Hash) (x : JoinContent) (s : State),
    (ready (.join m ident x) s) ∧
    (s.fld Page.CAS Reg.CAS.STATE 2 0 = 4) ∧
    (s.joinReason m ident.toNat x.adjacent ≠ 0) :=
  ⟨4095,
   7,
   ⟨[], []⟩,
   wCas wRost 4, by decide +kernel⟩

theorem witness_JoiningComplete_3 : ∃ (m : Nat) (cascade : Nat) (epoch : Nat) (now : Nat) (se : Nat) (roles : RoleTable) (routes : List (Nat × Nat × Nat)) (period : Nat) (origin : Nat) (w : Nat) (s : State),
    (ready (.admitMember m cascade epoch now se roles routes period origin w) s) ∧
    (s.fld Page.CAS Reg.CAS.STATE 2 0 = 2) :=
  ⟨3,
   1,
   1,
   0,
   0,
   ⟨[], []⟩,
   [],
   1000000,
   0,
   4500,
   wCas wRost 2, by decide +kernel⟩

theorem witness_JoiningComplete_4 : ∃ (reason : Nat) (s : State),
    (ready (.refuse reason) s) ∧
    (s.fld Page.CAS Reg.CAS.STATE 2 0 = 2) :=
  ⟨1,
   wCas wRost 2, by decide +kernel⟩

theorem witness_JoiningComplete_5 : ∃ (s : State),
    (ready .joinRetry s) ∧
    (s.fld Page.CAS Reg.CAS.STATE 2 0 = 6) :=
  ⟨wCas wRost 6, by decide +kernel⟩

theorem witness_RolesComplete_1 : ∃ (version : Nat) (routes : List (Nat × Nat × Nat)) (s : State),
    (ready (.routeTable version routes) s) ∧
    (s.casc.routeVer < version) ∧
    (s.fld Page.CAS Reg.CAS.STATE 2 0 ≠ 4) :=
  ⟨1,
   [],
   wCas State.reset 3, by decide +kernel⟩

theorem witness_RolesComplete_2 : ∃ (roles : RoleTable) (tally : Nat) (s : State),
    (ready (.roleUpdate roles tally) s) :=
  ⟨⟨[⟨20, 1, 1⟩], []⟩,
   5,
   State.reset, by decide +kernel⟩

theorem witness_RolesComplete_3 : ∃ (src : Source) (v : Word) (s : State),
    (ready (.memberEvict src v) s) ∧
    (guardOpen s src Page.CAS Reg.CAS.MEMBER_EVICT v.toNat) ∧
    (bit v.toNat 16 = true) ∧
    let b := ruleSees s src Page.CAS
    let m := bits v.toNat 11 0
    (b.isHead = true) ∧
    (b.live m = true) :=
  ⟨.portA,
   0x10005,
   (wCas wI 4).modPeer 5 (fun p => { p with info := 4 }), by decide +kernel⟩

theorem witness_ProspectorComplete_1 : ∃ (r : SeriesRec) (s : State),
    (ready (.seriesRecord r) s) ∧
    (s.proState = 1 ∨ s.proState = 2) ∧
    (s.recordCause r = 0) ∧
    (s.pros.refused = 0) :=
  ⟨⟨0, 67108863, 0⟩,
   State.reset.setFld Page.PRO Reg.PRO.PRO_STATE 2 0 2, by decide +kernel⟩

theorem witness_ProspectorComplete_2 : ∃ (src : Source) (v : Word) (s : State),
    (ready (.fcCmd src v) s) ∧
    (writeOpen s src Page.PRO Reg.PRO.FC_CMD v.toNat) ∧
    let b := ruleSees s src Page.PRO
    let n := b.fld Page.PRO Reg.PRO.FC_COUNT 16 0
    (bit v.toNat 0 = true) ∧
    (b.fld Page.PRO Reg.PRO.FC_STATE 1 0 ≠ 1) ∧
    (0 < n) ∧
    (n ≤ 65536) ∧
    (b.proState ≠ 0) ∧
    (b.proState ≠ 4) :=
  ⟨.portA,
   1,
   (State.reset.setFld Page.PRO Reg.PRO.PRO_STATE 2 0 2).setFld Page.PRO Reg.PRO.FC_COUNT 16 0 65536, by decide +kernel⟩

theorem witness_ProspectorComplete_3 : ∃ (values : List (List Word)) (first : Nat) (n : Nat) (origin : Nat) (s : State),
    (ready (.forecastDone values) s) ∧
    (s.pros.request = some (first, n, origin)) :=
  ⟨[[0]],
   0,
   1,
   0,
   { State.reset with pros := { State.reset.pros with request := some (0, 1, 0) } }, by decide +kernel⟩

theorem witness_ProspectorComplete_4 : ∃ (src : Source) (v : Word) (s : State),
    (ready (.prospectClear src v) s) ∧
    (guardOpen s src Page.DEV Reg.DEV.PROSPECT_CLEAR v.toNat) ∧
    (bit v.toNat 0 = true) ∧
    ((ruleSees s src Page.DEV).proState = 0 ∨ (ruleSees s src Page.DEV).proState = 4) :=
  ⟨.portA,
   1,
   wI, by decide +kernel⟩

theorem witness_BringupComplete_1 : ∃ (ms : Nat) (ok : Bool) (s : State),
    (ready (.bringupStep ms ok) s) ∧
    let n := s.fld Page.DEV Reg.DEV.BRINGUP 3 0 + 1
    (n ≤ 9) ∧
    ((n = 2 → ok = true ∧ s.fw.flashOk = true)) ∧
    (s.boot.recovery = false) ∧
    (bit (s.rd Page.DEV Reg.DEV.BRINGUP) 6 = false) ∧
    (s.pwr.failed = false) ∧
    ((s.pwr.tripped = true → n ≤ 2)) :=
  ⟨5,
   true,
   State.reset.setFld Page.DEV Reg.DEV.BRINGUP 3 0 8, by decide +kernel⟩

theorem witness_BringupComplete_2 : ∃ (unit : Nat) (p : Nat) (s : State),
    (ready (.bringupStepLate unit) s) ∧
    let n := s.fld Page.DEV Reg.DEV.BRINGUP 3 0 + 1
    (3 ≤ n) ∧
    (n ≤ 9) ∧
    (n ≠ 5) ∧
    (s.boot.recovery = false) ∧
    (bit (s.rd Page.DEV Reg.DEV.BRINGUP) 6 = false) ∧
    (unitPage unit = some p) ∧
    (unit / 0x1000 ≠ 6) :=
  ⟨0x5001,
   Page.HP 1,
   State.reset.setFld Page.DEV Reg.DEV.BRINGUP 3 0 8, by decide +kernel⟩

theorem witness_BringupComplete_3 : ∃ (n : Nat) (s : State),
    (ready .recoveryAsk s) ∧
    (s.boot.recovery = true) ∧
    (s.upPorts.find? (fun m => decide (s.boot.askPort ≤ m)) = some n) :=
  ⟨11,
   { wPort State.reset 11 4 with boot := { State.reset.boot with recovery := true } }, by decide +kernel⟩

theorem witness_BringupComplete_4 : ∃ (image : List Byte) (s : State),
    (ready (.recoveryImage image) s) ∧
    (s.boot.recovery = true) :=
  ⟨[],
   { State.reset with boot := { State.reset.boot with recovery := true } }, by decide +kernel⟩

theorem witness_BringupComplete_5 : ∃ (src : Source) (v : Word) (s : State),
    (ready (.deviceReset src v) s) ∧
    (guardOpen s src Page.DEV Reg.DEV.RESET v.toNat) ∧
    let b := ruleSees s src Page.DEV
    (bit v.toNat 0 = true) ∧
    ((∀ c ∈ claimNos, b.jobState c = 0 ∨ b.jobState c = 6)) :=
  ⟨.portA,
   1,
   wI, by decide +kernel⟩

theorem witness_HostLinksComplete_1 : ∃ (n : Nat) (s : State),
    (ready (.perst n) s) :=
  ⟨1,
   State.reset, by decide +kernel⟩

theorem witness_HostLinksComplete_2 : ∃ (n : Nat) (s : State),
    (ready (.hotReset n) s) :=
  ⟨1,
   State.reset, by decide +kernel⟩

theorem witness_HostLinksComplete_3 : ∃ (n : Nat) (s : State),
    (ready (.functionLevelReset n) s) :=
  ⟨1,
   State.reset, by decide +kernel⟩

theorem witness_HostLinksComplete_4 : ∃ (n : Nat) (s : State),
    (ready (.linkDown n) s) :=
  ⟨1,
   State.reset, by decide +kernel⟩

theorem witness_HostLinksComplete_5 : ∃ (n : Nat) (s : State),
    (ready (.perstRelease n) s) :=
  ⟨1,
   State.reset, by decide +kernel⟩

theorem witness_HostLinksComplete_6 : ∃ (n : Nat) (speed : Nat) (width : Nat) (flit : Bool) (s : State),
    (ready (.linkUp n speed width flit) s) ∧
    let page := Page.HP n
    let w := s.rd page Reg.HP.LINK_STATE
    (bit w 18 = false) ∧
    (speed = 5) ∧
    (16 ≤ width) :=
  ⟨1,
   5,
   16,
   true,
   State.reset, by decide +kernel⟩

theorem witness_HostLinksComplete_7 : ∃ (n : Nat) (s : State),
    (ready (.hostLost n) s) ∧
    (s.fld (Page.HP n) Reg.HP.LINK_STATE 1 0 ≠ 2) :=
  ⟨1,
   State.reset, by decide +kernel⟩

theorem witness_HostPortsComplete_1 : ∃ (n : Nat) (s : State),
    (ready (.d3hotEntry n) s) :=
  ⟨1,
   State.reset, by decide +kernel⟩

theorem witness_HostPortsComplete_2 : ∃ (n : Nat) (s : State),
    (ready (.d0Return n) s) :=
  ⟨1,
   State.reset, by decide +kernel⟩

theorem witness_HostPortsComplete_3 : ∃ (n : Nat) (kind : OtherRequest) (addr : Nat) (s : State),
    (ready (.unsupportedRequest n kind addr) s) :=
  ⟨1,
   .io,
   0,
   State.reset, by decide +kernel⟩

theorem witness_HostPortsComplete_4 : ∃ (n : Nat) (vec : Nat) (s : State),
    (ready (.msiHoldoffEnd n vec) s) ∧
    ((s.msiOf n vec).waits = true) ∧
    (vec = 63 ∨ s.groupPending n vec = true) ∧
    (s.msiOpen n = true) :=
  ⟨1,
   63,
   { State.reset with msi := [(127, { sent := 1, last := 0, waits := true })] }.wr (Page.HP 1) Reg.HP.LINK_STATE (2 + 2 ^ 15 + 2 ^ 16), by decide +kernel⟩

theorem witness_HostPortsComplete_5 : ∃ (src : Source) (n : Nat) (v : Word) (s : State),
    (ready (.bindSet src n v) s) ∧
    (guardOpen s src (Page.HP n) Reg.HP.BIND_SET v.toNat) ∧
    (bit v.toNat 16 = true) ∧
    (bits v.toNat 5 0 < 32) ∧
    (bits v.toNat 8 8 = 1) :=
  ⟨.portA,
   1,
   0x1011F,
   wI, by decide +kernel⟩

theorem witness_HostPortsComplete_6 : ∃ (n : Nat) (sub : Nat) (s : State),
    (ready (.ideFail n sub) s) :=
  ⟨1,
   2,
   State.reset, by decide +kernel⟩

theorem witness_RecorderComplete_1 : ∃ (r : Rec) (rest : List Rec) (s : State),
    (ready .recordAdmit s) ∧
    (s.recorder.queue = r :: rest) ∧
    (rateOf r.code = none) :=
  ⟨wRec 0x0201,
   [],
   wRecorded State.reset (fun r => { r with queue := [wRec 0x0201] }), by decide +kernel⟩

theorem witness_RecorderComplete_2 : ∃ (r : Rec) (rest : List Rec) (rate : Nat) (burst : Nat) (s : State),
    (ready .recordAdmit s) ∧
    (s.recorder.queue = r :: rest) ∧
    (rateOf r.code = some (rate, burst)) ∧
    let u := ({ s with recorder := { s.recorder with queue := rest } }).setFld Page.REC Reg.REC.QUEUE 12 0 (min 8191 rest.length)
    (u.bucket r.code rate burst < 1000000) :=
  ⟨wRec 0x1001,
   [],
   20,
   256,
   wRecorded State.reset (fun r => { r with queue := [wRec 0x1001], buckets := [(0x1001, (999999, 0))] }), by decide +kernel⟩

theorem witness_RecorderComplete_3 : ∃ (s : State),
    (ready .archiveSegment s) ∧
    (3 * 2 ^ 20 < storeBytes s.recorder.region) ∧
    (s.recorder.archive.length < 2048) :=
  ⟨wRecorded State.reset (fun r => { r with region := [wHeld 1 (wRec 0x8001)] }), by decide +kernel⟩

theorem witness_NoticesComplete_1 : ∃ (n : Notice) (s : State),
    (ready (.noticeSound n) s) ∧
    (s.noticed n ≠ []) :=
  ⟨{ gen := 0, claim := 1, tensor := 1, inst := 0, first := 0, count := 1, stope := 0, member := 0, epoch := State.reset.epoch },
   (wRun (wJob [])).setMark 1 0x1000 { Mark.none with pending := some 0 }, by decide +kernel⟩

theorem witness_NoticesComplete_2 : ∃ (n : Notice) (s : State),
    (ready (.noticeUnsound n) s) ∧
    (s.noticed n ≠ []) :=
  ⟨{ gen := 0, claim := 1, tensor := 1, inst := 0, first := 0, count := 1, stope := 0, member := 0, epoch := State.reset.epoch },
   (wRun (wJob [])).setMark 1 0x1000 { Mark.none with pending := some 0 }, by decide +kernel⟩

theorem witness_NoticesComplete_3 : ∃ (src : Source) (s : State),
    (ready (.pendingReadAbort src) s) ∧
    ((Sparse.get Resp.none s.resp src.num).status = 4) :=
  ⟨.portA,
   { State.reset with resp := [(0, { status := 4, data := 0, addr := 0 })] }, by decide +kernel⟩

theorem witness_NoticesComplete_4 : ∃ (c : Nat) (addr : Nat) (s : State),
    (ready (.rebuildDone c addr) s) ∧
    let b := addr / 4096 * 4096
    ((s.mark c b).damaged = true) ∧
    ((s.mark c b).rebuild = true) :=
  ⟨1,
   0x1FFF,
   State.reset.setMark 1 0x1000 { Mark.none with damaged := true, rebuild := true }, by decide +kernel⟩

theorem witness_WideComplete_1 : ∃ (c : Nat) (e : Nat) (j : Job) (h : HoistE) (s : State),
    (ready (.idle c e) s) ∧
    (s.hoistFor c e 0 = some (j, h)) :=
  ⟨1,
   0,
   wJob [wEntry 0 0 0 0 0 0],
   wEntry 0 0 0 0 0 0,
   wRun (wJob [wEntry 0 0 0 0 0 0]), by decide +kernel⟩

theorem witness_WideComplete_2 : ∃ (c : Nat) (e : Nat) (j : Job) (h : HoistE) (s : State),
    (ready (.idleEnd c e) s) ∧
    (s.job? c = some j) ∧
    (j.entries[e]? = some h) ∧
    (h.action = 0) ∧
    ((j.run e).started = true) ∧
    ((j.run e).complete = false) ∧
    ((j.run e).left ≤ 1) :=
  ⟨1,
   0,
   wBegun (wJob [wEntry 0 0 0 0 0 0]) 0 1,
   wEntry 0 0 0 0 0 0,
   wRun (wBegun (wJob [wEntry 0 0 0 0 0 0]) 0 1), by decide +kernel⟩

theorem witness_WideComplete_3 : ∃ (c : Nat) (e : Nat) (prog : WideProg) (j : Job) (h : HoistE) (s : State),
    (ready (.wideOp c e prog true) s) ∧
    (s.hoistFor c e 4 = some (j, h)) ∧
    (s.operandReady c j e h h.a h.mb = true) ∧
    (s.computeFree (s.wideStope c h) = true) ∧
    (s.wideTurn c e (s.wideStope c h) = true) ∧
    let u := ((s.readsTensor c e h.a h.mb h.serve).startRun c e h 1).beginStash c h.layer h.mb
    let ys := wideRun prog (s.elements (j.view c h.a h.mb))
    ((∀ y ∈ ys, isNan32 y = false)) :=
  ⟨1,
   0,
   ⟨[], []⟩,
   wJob [wEntry 4 0 0 1 0 0],
   wEntry 4 0 0 1 0 0,
   wRun (wJob [wEntry 4 0 0 1 0 0]), by decide +kernel⟩

theorem witness_TransfersComplete_1 : ∃ (c : Nat) (e : Nat) (j : Job) (h : HoistE) (r : RoleEntry) (s : State),
    (ready (.send c e) s) ∧
    (s.hoistFor c e 5 = some (j, h)) ∧
    (s.operandReady c j e h h.a h.mb = true) ∧
    (s.roleEntry h.b = some r) :=
  ⟨1,
   0,
   wJob [wEntry 5 0 20 1 0 0],
   wEntry 5 0 20 1 0 0,
   ⟨20, 1, 1⟩,
   { wRun (wJob [wEntry 5 0 20 1 0 0]) with casc := { State.reset.casc with roles := [⟨20, 1, 1⟩] } }, by decide +kernel⟩

theorem witness_TransfersComplete_2 : ∃ (c : Nat) (e : Nat) (j : Job) (h : HoistE) (s : State),
    (ready (.recv c e) s) ∧
    (s.hoistFor c e 6 = some (j, h)) ∧
    ((s.recvReady c j e h).2 = true) :=
  ⟨1,
   0,
   { wJob [wEntry 6 0 20 0 0 0] with landed := [(0, 0)] },
   wEntry 6 0 20 0 0 0,
   wRun ({ wJob [wEntry 6 0 20 0 0 0] with landed := [(0, 0)] }), by decide +kernel⟩

theorem witness_TransfersComplete_3 : ∃ (c : Nat) (e : Nat) (words : List Nat) (j : Job) (h : HoistE) (d : LayerD) (t : TensorD) (res : TensorD) (r : RoleEntry) (s : State),
    (ready (.reduce c e words) s) ∧
    (s.hoistFor c e 7 = some (j, h)) ∧
    (j.layer? h.layer = some d) ∧
    (j.tensor? h.a = some t) ∧
    (j.tensor? h.result = some res) ∧
    (s.operandReady c j e h h.a 0 = true) ∧
    (s.roleEntry h.b = some r) ∧
    (h.root = false) ∧
    let g := s.gather c j h d t
    ((if g.pos % 2 = 0 then g.pos + 1 else g.pos - 1) < g.count) ∧
    (words.length = g.nodes.length) :=
  ⟨1,
   0,
   [0],
   { wJob [wEntry 7 10 20 11 0 64] with tensors := wTensors ++ [wTensor 0x48000 8 1 1 7, wTensor 0x49000 8 1 1 7], desc := { (wJob [wEntry 7 10 20 11 0 64]).desc with micro := 2 } },
   wEntry 7 10 20 11 0 64,
   wLayer,
   wTensor 0x48000 8 1 1 7,
   wTensor 0x49000 8 1 1 7,
   ⟨20, 1, 1⟩,
   { wRun ({ wJob [wEntry 7 10 20 11 0 64] with tensors := wTensors ++ [wTensor 0x48000 8 1 1 7, wTensor 0x49000 8 1 1 7], desc := { (wJob [wEntry 7 10 20 11 0 64]).desc with micro := 2 } }) with casc := { State.reset.casc with roles := [⟨20, 1, 1⟩] } }, by decide +kernel⟩

theorem witness_MessagesComplete_1 : ∃ (n : Nat) (m : Message) (s : State),
    (ready (.messageReceive n m) s) ∧
    ((s.peer m.src).dropped = false) ∧
    (4 ≤ m.cls) ∧
    (m.cls ≤ 8) ∧
    (m.cls ≠ 5) ∧
    (m.tagOk = true) ∧
    let key := m.key * 4096 + m.src
    let seen := Sparse.get [] s.casc.gotSeq key
    let top := seen.foldl max 0
    (top < m.mseq + 64) ∧
    (seen.contains m.mseq = false) ∧
    (m.epoch = s.epoch) ∧
    (m.checksOk = true) ∧
    let u := { s with casc := { s.casc with
      gotSeq := Sparse.set [] s.casc.gotSeq key ((seen ++ [m.mseq]).filter (fun q => decide (max top m.mseq < q + 64))) } }
    (u.holdsRole m.destRole m.destEpoch = true) :=
  ⟨0,
   { cls := 4, key := 0, src := 2, mseq := 1, destRole := 17, destEpoch := 0, srcRole := 33, tag := 0, epoch := State.reset.epoch, headEpoch := 0, first := 0, blocks := [], checksOk := true, content := [], tagOk := true },
   State.reset.setFld Page.CAS Reg.CAS.STATE 27 16 1, by decide +kernel⟩

theorem witness_MessagesComplete_2 : ∃ (n : Nat) (mseq : Nat) (c : Nat) (e : Nat) (r : RoleEntry) (m : OutMsg) (j : Job) (s : State),
    (ready (.staleRoleReply n r mseq) s) ∧
    (s.casc.sent.find? (fun x => x.destRole == r.role && x.mseq == mseq) = some m) ∧
    (m.origin = some (c, e)) ∧
    (s.job? c = some j) ∧
    ((j.run e).complete = false) ∧
    (s.casc.resent.contains mseq = false) :=
  ⟨0,
   3,
   1,
   0,
   ⟨20, 2, 1⟩,
   { cls := 4, dest := 2, destRole := 20, destEpoch := 0, srcRole := 0, key := 0, mseq := 3, tag := 0, epoch := 0, first := 0, blocks := [], content := [], detour := false, origin := some (1, 0) },
   wJob [wEntry 5 0 20 1 0 0],
   { wRun (wJob [wEntry 5 0 20 1 0 0]) with casc := { State.reset.casc with sent := [{ cls := 4, dest := 2, destRole := 20, destEpoch := 0, srcRole := 0, key := 0, mseq := 3, tag := 0, epoch := 0, first := 0, blocks := [], content := [], detour := false, origin := some (1, 0) }] } }, by decide +kernel⟩

theorem witness_MessagesComplete_3 : ∃ (c : Nat) (addr : Nat) (fails : Nat) (s : State),
    (ready (.bridgeBlock c addr fails) s) ∧
    (fails < 4) :=
  ⟨1,
   0,
   3,
   State.reset, by decide +kernel⟩

theorem witness_SessionsComplete_1 : ∃ (src : Source) (v : Word) (s : State),
    (ready (.sessReq src v) s) ∧
    (writeOpen s src (Page.ROL src.num) Reg.ROL.SESS_REQ v.toNat) ∧
    let b := ruleSees s src (Page.ROL src.num)
    (b.fld (Page.ROL src.num) Reg.ROL.SESS_STATE 1 0 ≠ 3) :=
  ⟨.portA,
   2,
   State.reset, by decide +kernel⟩

theorem witness_SessionsComplete_2 : ∃ (src : Source) (v : Word) (s : State),
    (ready (.sessProve src v) s) ∧
    (writeOpen s src (Page.ROL src.num) Reg.ROL.SESS_PROVE v.toNat) ∧
    (bit v.toNat 0 = true) ∧
    let b := ruleSees s src (Page.ROL src.num)
    (b.fld (Page.ROL src.num) Reg.ROL.SESS_STATE 1 0 = 1) :=
  ⟨.portA,
   1,
   State.reset.setFld (Page.ROL 0) Reg.ROL.SESS_STATE 1 0 1, by decide +kernel⟩

theorem witness_SessionsComplete_3 : ∃ (src : Source) (v : Word) (s : State),
    (ready (.sessEnd src v) s) ∧
    (writeOpen s src (Page.ROL src.num) Reg.ROL.SESS_END v.toNat) ∧
    (bit v.toNat 0 = true) :=
  ⟨.portA,
   1,
   wI, by decide +kernel⟩

theorem witness_SessionsComplete_4 : ∃ (src : Source) (s : State),
    (ready (.sessionIdle src) s) ∧
    (s.fld (Page.ROL 3) Reg.ROL3.SESS_IDLE 15 0 ≠ 0) ∧
    (s.roleOf src = 1 ∨ s.roleOf src = 2) ∧
    (s.strmPages src = []) :=
  ⟨.portA,
   wI.setFld (Page.ROL 3) Reg.ROL3.SESS_IDLE 15 0 60, by decide +kernel⟩

theorem witness_SessionsComplete_5 : ∃ (src : Source) (s : State),
    (ready (.blockedEnd src) s) ∧
    (s.fld (Page.ROL src.num) Reg.ROL.SESS_STATE 1 0 = 3) :=
  ⟨.portA,
   State.reset.setFld (Page.ROL 0) Reg.ROL.SESS_STATE 1 0 3, by decide +kernel⟩

theorem witness_EnrolmentComplete_1 : ∃ (src : Source) (v : Word) (s : State),
    (ready (.instEnrol src v) s) ∧
    (guardOpen s src (Page.ROL 3) Reg.ROL3.INST_ENROL v.toNat) ∧
    (v.toNat = 1) :=
  ⟨.portA,
   1,
   State.reset, by decide +kernel⟩

theorem witness_EnrolmentComplete_2 : ∃ (src : Source) (v : Word) (s : State),
    (ready (.instWithdraw src v) s) ∧
    (guardOpen s src (Page.ROL 3) Reg.ROL3.INST_ENROL v.toNat) ∧
    (v.toNat = 2) ∧
    let b := ruleSees s src (Page.ROL 3)
    let old := b.vault.installer
    (b.noOperatorClaim = true) ∧
    (old ≠ []) :=
  ⟨.portA,
   2,
   { wM with vault := { wM.vault with installer := [4] } }, by decide +kernel⟩

theorem witness_EnrolmentComplete_3 : ∃ (src : Source) (v : Word) (s : State),
    (ready (.attestReq src v) s) ∧
    (writeOpen s src (Page.ROL 3) Reg.ROL3.ATTEST_REQ v.toNat) ∧
    (bit v.toNat 0 = true) :=
  ⟨.portA,
   1,
   State.reset, by decide +kernel⟩

theorem witness_EnrolmentComplete_4 : ∃ (src : Source) (s : State),
    (ready (.attestReady src) s) ∧
    ((src.num, []) ∈ s.vault.reports) :=
  ⟨.portA,
   { State.reset with vault := { State.reset.vault with reports := [(0, [])] } }, by decide +kernel⟩

theorem witness_RolesOfDeviceComplete_1 : ∃ (src : Source) (v : Word) (s : State),
    (ready (.makerGate src v) s) ∧
    (guardOpen s src (Page.ROL 3) Reg.ROL3.MAKER_GATE v.toNat) :=
  ⟨.portA,
   1,
   wI, by decide +kernel⟩

theorem witness_RolesOfDeviceComplete_2 : ∃ (src : Source) (v : Word) (s : State),
    (ready (.diagOpen src v) s) ∧
    (guardOpen s src (Page.ROL 3) Reg.ROL3.DIAG_OPEN v.toNat) :=
  ⟨.portA,
   3,
   wM, by decide +kernel⟩

theorem witness_RolesOfDeviceComplete_3 : ∃ (c : Nat) (s : State),
    (ready (.consentExpiry c) s) :=
  ⟨63,
   State.reset, by decide +kernel⟩

theorem witness_RolesOfDeviceComplete_4 : ∃ (src : Source) (v : Word) (s : State),
    (ready (.ideKeyCommit src v) s) ∧
    (guardOpen s src (Page.ROL 3) Reg.ROL3.IDE_KEY_COMMIT v.toNat) ∧
    (bit v.toNat 0 = true) ∧
    let b := ruleSees s src (Page.ROL 3)
    (((b.stagedKind src 2).take 40).length = 40) :=
  ⟨.portA,
   1,
   { wI with vault := { wI.vault with stagedObj := [(2, List.replicate 40 1)] } }, by decide +kernel⟩

theorem witness_RolesOfDeviceComplete_5 : ∃ (src : Source) (v : Word) (s : State),
    (ready (.ideRequire src v) s) ∧
    (guardOpen s src (Page.ROL 3) Reg.ROL3.IDE_REQUIRE v.toNat) :=
  ⟨.portA,
   3,
   wI, by decide +kernel⟩

theorem witness_ClaimsComplete_1 : ∃ (src : Source) (n : Nat) (v : Word) (s : State),
    (ready (.apply src n v) s) ∧
    (guardOpen s src (Page.CLM n) Reg.CLM.APPLY v.toNat) ∧
    (bit v.toNat 0 = true) ∧
    let b := ruleSees s src (Page.CLM n)
    (b.applyRefusal n = 0) ∧
    (b.claimState n ≠ 0) :=
  ⟨.portA,
   63,
   1,
   wI.setFld (Page.CLM 63) Reg.CLM.CLAIM_STATE 2 0 1, by decide +kernel⟩

theorem witness_ClaimsComplete_2 : ∃ (n : Nat) (s : State),
    (ready (.stripeFillDone n) s) :=
  ⟨63,
   State.reset, by decide +kernel⟩

theorem witness_ClaimsComplete_3 : ∃ (src : Source) (n : Nat) (v : Word) (s : State),
    (ready (.bind src n v) s) ∧
    (guardOpen s src (Page.CLM n) Reg.CLM.BIND v.toNat) ∧
    (bit v.toNat 0 = true) ∧
    let b := ruleSees s src (Page.CLM n)
    let k := (b.staged src (Page.CLM n)).take 97
    (b.claimState n = 1) :=
  ⟨.portA,
   1,
   1,
   (wStream wI (Page.CLM 1) (List.replicate 97 4)).setFld (Page.CLM 1) Reg.CLM.CLAIM_STATE 2 0 1, by decide +kernel⟩

theorem witness_ClaimsComplete_4 : ∃ (src : Source) (n : Nat) (v : Word) (s : State),
    (ready (.volatile src n v) s) ∧
    (guardOpen s src (Page.CLM n) Reg.CLM.VOLATILE v.toNat) :=
  ⟨.portA,
   1,
   1,
   wO, by decide +kernel⟩

theorem witness_ClaimsComplete_5 : ∃ (src : Source) (n : Nat) (v : Word) (s : State),
    (ready (.destroy src n v) s) ∧
    (bits v.toNat 3 0 = 1) ∧
    (guardOpen s src (Page.CLM n) Reg.CLM.CLAIM_CMD v.toNat) ∧
    let b := ruleSees s src (Page.CLM n)
    (b.claimState n ≠ 0) ∧
    (b.claimState n ≠ 4) ∧
    (b.fld (Page.CLM n) Reg.CLM.CLAIM_STATE 4 4 = 0) :=
  ⟨.portA,
   1,
   1,
   wO, by decide +kernel⟩

theorem witness_ClaimsComplete_6 : ∃ (src : Source) (n : Nat) (v : Word) (s : State),
    (ready (.unbind src n v) s) ∧
    (bits v.toNat 3 0 = 2) ∧
    (guardOpen s src (Page.CLM n) Reg.CLM.CLAIM_CMD v.toNat) ∧
    let b := ruleSees s src (Page.CLM n)
    (b.claimState n = 2 ∨ b.claimState n = 3) ∧
    (b.fld (Page.CLM n) Reg.CLM.CLAIM_STATE 4 4 = 0) :=
  ⟨.portA,
   1,
   2,
   wI.setFld (Page.CLM 1) Reg.CLM.CLAIM_STATE 2 0 2, by decide +kernel⟩

theorem witness_ClaimsComplete_7 : ∃ (src : Source) (n : Nat) (v : Word) (s : State),
    (ready (.wipe src n v) s) ∧
    (bits v.toNat 3 0 = 3) ∧
    (guardOpen s src (Page.CLM n) Reg.CLM.CLAIM_CMD v.toNat) ∧
    let b := ruleSees s src (Page.CLM n)
    (b.claimState n = 2 ∨ b.claimState n = 3) ∧
    (b.fld (Page.CLM n) Reg.CLM.CLAIM_STATE 4 4 = 0) :=
  ⟨.portA,
   1,
   3,
   wO, by decide +kernel⟩

theorem witness_ClaimsComplete_8 : ∃ (n : Nat) (s : State),
    (ready (.clearDone n) s) ∧
    (s.claimState n = 4) :=
  ⟨1,
   wO.setFld (Page.CLM 1) Reg.CLM.CLAIM_STATE 2 0 4, by decide +kernel⟩

theorem witness_StagingComplete_1 : ∃ (src : Source) (v : Word) (s : State),
    (ready (.stageBegin src v) s) ∧
    (writeOpen s src Page.DEP Reg.DEP.STAGE_CMD v.toNat) ∧
    (bits v.toNat 1 0 = 1) ∧
    let b := ruleSees s src Page.DEP
    (b.stagingFree = true) :=
  ⟨.portA,
   1,
   wI, by decide +kernel⟩

theorem witness_StagingComplete_2 : ∃ (src : Source) (v : Word) (s : State),
    (ready (.stageDiscard src v) s) ∧
    (writeOpen s src Page.DEP Reg.DEP.STAGE_CMD v.toNat) ∧
    (bits v.toNat 1 0 = 2) ∧
    let b := ruleSees s src Page.DEP
    (b.stagingFree = true) :=
  ⟨.portA,
   2,
   wI, by decide +kernel⟩

theorem witness_StagingComplete_3 : ∃ (s : State),
    (ready .fwVerify s) ∧
    (s.fw.staging = true) ∧
    ((imageOf s.fw.store).bytes ≤ s.fw.store.length) ∧
    (256 ≤ s.fw.store.length) ∧
    (s.boot.recovery = false) ∧
    (s.fw.flashOk = true ∨ (imageOf s.fw.store).digest ≠ s.fw.running.digest) :=
  ⟨{ State.reset with fw := { State.reset.fw with staging := true, store := List.replicate 256 0 } }, by decide +kernel⟩

theorem witness_FirmwareComplete_1 : ∃ (src : Source) (v : Word) (im : Image) (s : State),
    (ready (.fwCommit src v) s) ∧
    (guardOpen s src Page.DEP Reg.DEP.FW_COMMIT v.toNat) ∧
    (bit v.toNat 0 = true) ∧
    let b := ruleSees s src Page.DEP
    (b.fw.staged = some im) ∧
    (b.fwState = 2) :=
  ⟨.portA,
   1,
   wImg,
   wFw wI 2 (fun f => { f with staged := some wImg }), by decide +kernel⟩

theorem witness_FirmwareComplete_2 : ∃ (im : Image) (s : State),
    (ready .standbyBooted s) ∧
    (s.fwState = 4) ∧
    (s.fw.phase = 1) ∧
    (s.fw.reverting = false) ∧
    (s.fw.staged = some im) :=
  ⟨wImg,
   wFw State.reset 4 (fun f => { f with staged := some wImg, phase := 1 }), by decide +kernel⟩

theorem witness_FirmwareComplete_3 : ∃ (s : State),
    (ready .standbyBootTimeout s) ∧
    (s.fwState = 4) ∧
    (s.fw.phase = 1) :=
  ⟨wFw State.reset 4 (fun f => { f with phase := 1 }), by decide +kernel⟩

theorem witness_FirmwareComplete_4 : ∃ (old : Image) (s : State),
    (ready .pairCurrent s) ∧
    (s.fwState = 4) ∧
    (s.fw.phase = 2) ∧
    (s.fw.reverting = false) ∧
    (s.fw.old = some old) :=
  ⟨wImg,
   wFw State.reset 4 (fun f => { f with old := some wImg, phase := 2 }), by decide +kernel⟩

theorem witness_FirmwareComplete_5 : ∃ (s : State),
    (ready .probationEnd s) ∧
    (s.fwState = 5) :=
  ⟨wFw State.reset 5 id, by decide +kernel⟩

theorem witness_FirmwareComplete_6 : ∃ (retries : Nat) (s : State),
    (ready (.flashWriteDone retries) s) ∧
    (s.fwState = 6) ∧
    (retries ≤ 3) :=
  ⟨3,
   wFw State.reset 6 id, by decide +kernel⟩

theorem witness_FirmwareComplete_7 : ∃ (src : Source) (v : Word) (old : Image) (s : State),
    (ready (.fwRevert src v) s) ∧
    (guardOpen s src Page.DEP Reg.DEP.FW_REVERT v.toNat) ∧
    (bit v.toNat 0 = true) ∧
    let b := ruleSees s src Page.DEP
    (b.fw.old = some old) ∧
    (b.fwState = 5) :=
  ⟨.portA,
   1,
   wImg,
   wFw wI 5 (fun f => { f with old := some wImg }), by decide +kernel⟩

theorem witness_FirmwareComplete_8 : ∃ (src : Source) (v : Word) (s : State),
    (ready (.fuseBurn src v) s) ∧
    (guardOpen s src Page.DEP Reg.DEP.FUSE_BURN v.toNat) ∧
    (bit v.toNat 0 = true) ∧
    let b := ruleSees s src Page.DEP
    (b.fwState ≠ 4) ∧
    (b.fwState ≠ 5) :=
  ⟨.portA,
   1,
   wI, by decide +kernel⟩

theorem witness_TestsComplete_1 : ∃ (p : Nat) (s : State),
    (ready (.testComplete p none) s) ∧
    ((s.stope p).integ ≠ 2) ∧
    ((s.stope p).slotted = false) ∧
    ((s.logicalOf p = none ∨ s.jobActive (s.claimServed p) = false ∨ (s.stope p).testing = true)) :=
  ⟨1055,
   State.reset, by decide +kernel⟩

theorem witness_TestsComplete_2 : ∃ (p : Nat) (s : State),
    (ready (.watchWindowEnd p) s) ∧
    ((s.stope p).integ = 1) ∧
    ((s.stope p).proposed = false) ∧
    ((s.stope p).windowAt + s.fld Page.INT Reg.INT.WATCH_WINDOW 23 0 * 1000000000 ≤ s.osc) ∧
    ((s.stope p).fails < 2) ∧
    ((s.stope p).testOk = true) :=
  ⟨1055,
   { State.reset.modStope 1055 (fun x => { x with integ := 1, testOk := true }) with osc := 3000000000000000 }, by decide +kernel⟩

theorem witness_TestsComplete_3 : ∃ (p : Nat) (s : State),
    (ready (.testDue p) s) ∧
    ((s.stope p).integ ≠ 2) ∧
    ((s.stope p).testAt + s.testInterval p ≤ s.osc) :=
  ⟨1055,
   { State.reset with osc := 3000000000000000 }, by decide +kernel⟩

theorem witness_TestsComplete_4 : ∃ (p : Nat) (s : State),
    (ready (.testOverdue p) s) ∧
    ((s.stope p).integ ≠ 2) ∧
    ((s.stope p).overTest = false) ∧
    ((s.stope p).testAt + 2 * s.testInterval p < s.osc) :=
  ⟨1055,
   { State.reset with osc := 3000000000000000 }, by decide +kernel⟩

theorem witness_TestsComplete_5 : ∃ (src : Source) (v : Word) (s : State),
    (ready (.stopeTest src v) s) ∧
    (guardOpen s src Page.INT Reg.INT.STOPE_TEST v.toNat) ∧
    (bit v.toNat 16 = true) ∧
    (bits v.toNat 10 0 < 1056) ∧
    let b := ruleSees s src Page.INT
    ((b.stope (bits v.toNat 10 0)).integ ≠ 2) :=
  ⟨.portA,
   0x1041F,
   wI, by decide +kernel⟩

theorem witness_TestsComplete_6 : ∃ (src : Source) (v : Word) (s : State),
    (ready (.fullTest src v) s) ∧
    (guardOpen s src Page.INT Reg.INT.FULL_TEST v.toNat) ∧
    (bit v.toNat 0 = true) ∧
    let b := ruleSees s src Page.INT
    ((∀ c < 64, b.jobActive c = false)) :=
  ⟨.portA,
   1,
   wI, by decide +kernel⟩

theorem witness_TestSlotsComplete_1 : ∃ (c : Nat) (e : Nat) (j : Job) (h : HoistE) (s : State),
    (ready (.testSlot c e) s) ∧
    (s.hoistFor c e 11 = some (j, h)) :=
  ⟨1,
   0,
   wJob [wEntry 11 0 0 0 0 0],
   wEntry 11 0 0 0 0 0,
   wRun (wJob [wEntry 11 0 0 0 0 0]), by decide +kernel⟩

theorem witness_TestSlotsComplete_2 : ∃ (c : Nat) (e : Nat) (ends : List (Nat × Option (Nat × Nat))) (j : Job) (h : HoistE) (s : State),
    (ready (.testSlotEnd c e ends) s) ∧
    (s.job? c = some j) ∧
    (j.entries[e]? = some h) ∧
    (h.action = 11) ∧
    ((j.run e).started = true) ∧
    ((j.run e).complete = false) :=
  ⟨1,
   0,
   [],
   wBegun (wJob [wEntry 11 0 0 0 0 0]) 0 1,
   wEntry 11 0 0 0 0 0,
   wRun (wBegun (wJob [wEntry 11 0 0 0 0 0]) 0 1), by decide +kernel⟩

theorem witness_TestSlotsComplete_3 : ∃ (p : Nat) (target : Nat) (lp : Nat) (s : State),
    (ready (.reliefPrep p target true) s) ∧
    (s.idleRelief p = true) ∧
    ((s.stope p).integ ≠ 2) ∧
    ((s.stope p).prep = none) ∧
    (s.prepTarget p = some target) ∧
    let u := (s.testPassed p).modStope p (fun y =>
      { (List.range 17).foldl (fun w a => w.setArr a { w.arr a with assayed := false }) y with
        prep := some target, prepared := false, selfTest := true, due := true })
    (u.logicalOf target = some lp) :=
  ⟨32,
   0,
   0,
   State.reset.modStope 0 (fun x => { x with testDue := true }), by decide +kernel⟩

theorem witness_TestSlotsComplete_4 : ∃ (p : Nat) (target : Nat) (s : State),
    (ready (.reliefPrepDone p) s) ∧
    ((s.stope p).prep = some target) ∧
    ((s.stope p).selfTest = true) ∧
    ((s.stope p).prepared = false) ∧
    ((s.stope p).due = false) ∧
    ((s.stope target).proposed = false) :=
  ⟨32,
   0,
   State.reset.modStope 32 (fun x => { x with prep := some 0, selfTest := true }), by decide +kernel⟩

theorem witness_RetirementComplete_1 : ∃ (src : Source) (v : Word) (s : State),
    (ready (.stopeRetire src v) s) ∧
    (guardOpen s src Page.INT Reg.INT.STOPE_RETIRE v.toNat) ∧
    (bit v.toNat 16 = true) ∧
    (bits v.toNat 10 0 < 1056) ∧
    let b := ruleSees s src Page.INT
    ((b.stope (bits v.toNat 10 0)).integ ≠ 2) :=
  ⟨.portA,
   0x1041F,
   wI, by decide +kernel⟩

theorem witness_RetirementComplete_2 : ∃ (p : Nat) (s : State),
    (ready (.heartbeatLoss p) s) ∧
    ((s.stope p).integ ≠ 2) :=
  ⟨1055,
   State.reset, by decide +kernel⟩

theorem witness_RetirementComplete_3 : ∃ (lockstep : Bool) (s : State),
    (ready (.coreTakeover lockstep) s) ∧
    (s.fwState ≠ 4) ∧
    (s.fw.lost = 0) :=
  ⟨true,
   State.reset, by decide +kernel⟩

theorem witness_RetirementComplete_4 : ∃ (p : Nat) (s : State),
    (ready (.routerTakeover p) s) ∧
    ((s.stope p).routerAlone = false) :=
  ⟨1055,
   State.reset, by decide +kernel⟩

theorem witness_RetirementComplete_5 : ∃ (src : Source) (v : Word) (s : State),
    (ready (.canaryCommit src v) s) ∧
    (guardOpen s src Page.INT Reg.INT.CANARY_COMMIT v.toNat) ∧
    (bit v.toNat 0 = true) ∧
    let b := ruleSees s src Page.INT
    let x := packOf (b.staged src Page.INT)
    (b.packs = []) :=
  ⟨.portA,
   1,
   wI, by decide +kernel⟩

theorem witness_RetirementComplete_6 : ∃ (src : Source) (v : Word) (s : State),
    (ready (.canaryRemove src v) s) ∧
    (guardOpen s src Page.INT Reg.INT.CANARY_REMOVE v.toNat) ∧
    (bit v.toNat 8 = true) ∧
    let b := ruleSees s src Page.INT
    let k := bits v.toNat 3 0
    (k ≠ 0) ∧
    (b.packs.any (fun e => e.1 == k) = true) :=
  ⟨.portA,
   0x101,
   { wI with packs := [(1, { id := 1, ver := 1, bytes := 0, minFw := 0, time := 0, digest := 0 })] }, by decide +kernel⟩

theorem witness_RetirementComplete_7 : ∃ (src : Source) (v : Word) (h : Held) (s : State),
    (ready (.captureRelease src v) s) ∧
    (guardOpen s src Page.INT Reg.INT.CAPTURE_RELEASE v.toNat) ∧
    let b := ruleSees s src Page.INT
    let c := b.sessClaim src
    (b.capturedRec c v.toNat = some h) :=
  ⟨.portA,
   9,
   (wHeld 9 { wRec 0x1001 with claim := some 1, hidden := [it 0 1] }),
   wRecorded wO (fun r => { r with region := [(wHeld 9 { wRec 0x1001 with claim := some 1, hidden := [it 0 1] })] }), by decide +kernel⟩

theorem witness_WritesComplete_1 : ∃ (p : Nat) (k : Nat) (row : Nat) (rank : Nat) (neg : Bool) (before : List (Nat × Int)) (after : List (Nat × Int)) (more : List (List (Nat × Int))) (s : State),
    (ready (.writeRowSide p k row neg before after more) s) ∧
    (s.sideRank p k row neg = some rank) ∧
    (rank ≠ 0) ∧
    (rank ≠ 1) ∧
    (k < 16) ∧
    (s.holdAll = false) ∧
    (s.arrLocked p k = false) ∧
    ((s.arr p k).vec = none) ∧
    (s.channelTakes p k rank = true) ∧
    let off := before.filter offTarget
    let done := pulseLoop 4 off (after :: more)
    (off ≠ []) ∧
    ((∀ x ∈ done.2, x.2.natAbs ≤ 512)) :=
  ⟨5,
   3,
   511,
   4,
   true,
   [(0, 512), (1, -1000)],
   [(0, 0), (1, 512)],
   [],
   State.reset.modStope 5 (fun x => { x with sides := [{ arr := 3, row := 511, neg := true, purpose := 4, again := false }], outOf := 3 }), by decide +kernel⟩

theorem witness_WritesComplete_2 : ∃ (lp : Nat) (k : Nat) (q : Packet) (s : State),
    (ready (.writeListBlock lp k) s) ∧
    (s.serving lp < 1056) ∧
    (s.holdAll = false) ∧
    (s.seamsLocked (s.serving lp) = false) ∧
    let p := s.serving lp
    (s.mesh.find? (fun y => y.kind == 2 && y.dst == p && y.tag.headD 31 == k) = some q) ∧
    (s.mayArrive q = true) :=
  ⟨0,
   0,
   { plane := 0, src := 0, dst := 0, claim := 1, entry := 0, kind := 2, tag := [0, 1, 0], blocks := 1, phase := 1 },
   { (State.reset.modStope 0 (fun x => { x with lists := [{ claim := 1, step := 0, seam := 0, full := false, arrived := 0, applied := false, entries := [(0, 0, 1)] }] })) with mesh := [{ plane := 0, src := 0, dst := 0, claim := 1, entry := 0, kind := 2, tag := [0, 1, 0], blocks := 1, phase := 1 }] }, by decide +kernel⟩

theorem witness_WritesComplete_3 : ∃ (lp : Nat) (k : Nat) (s : State),
    (ready (.seamQuiet lp k) s) ∧
    (s.serving lp < 1056) ∧
    (s.passesDone lp k = true) ∧
    (s.receiver (s.serving lp) k = k) :=
  ⟨0,
   0,
   State.reset, by decide +kernel⟩

theorem witness_WritesComplete_4 : ∃ (p : Nat) (window : Nat) (s : State),
    (ready (.reliefCopyDone p window) s) ∧
    (s.cycle p = 1) ∧
    ((s.stope p).copyFit = true) ∧
    (s.holdsTarget p 16 = true) ∧
    ((∀ q ∈ (s.stope p).sides, q.arr ≠ 16)) :=
  ⟨0,
   0,
   ((State.reset.setFld (Page.STX 0) Reg.STX.RELIEF_SEAM 9 8 1)).modStope 0 (fun x => { x with copyFit := true }), by decide +kernel⟩

theorem witness_WritesComplete_5 : ∃ (s : State),
    (ready .ageingCopy s) :=
  ⟨State.reset, by decide +kernel⟩

theorem witness_AssayComplete_1 : ∃ (p : Nat) (k : Nat) (g : Nat) (sum : Int) (s : State),
    (ready (.driftProbe p k g sum) s) ∧
    (s.arrLocked p k = false) ∧
    (g < 15) ∧
    ((s.arr p k).pulsed.contains g = false) ∧
    ((s.arr p k).refresh.contains g = false) :=
  ⟨0,
   15,
   14,
   1600,
   State.reset, by decide +kernel⟩

theorem witness_AssayComplete_2 : ∃ (p : Nat) (temp : Int) (s : State),
    (ready (.assayDue p temp) s) :=
  ⟨0,
   800,
   State.reset, by decide +kernel⟩

theorem witness_AssayComplete_3 : ∃ (p : Nat) (s : State),
    (ready (.assayOverdue p) s) ∧
    ((s.stope p).overdue = false) ∧
    let since := (s.osc - (s.stope p).lastAt) / 1000000000
    (s.fld Page.ASY Reg.ASY.MAX_INTERVAL 9 0 + 60 ≤ since) :=
  ⟨0,
   { State.reset with osc := 3000000000000000 }, by decide +kernel⟩

theorem witness_AssayComplete_4 : ∃ (src : Source) (v : Word) (s : State),
    (ready (.assayForce src v) s) ∧
    (guardOpen s src Page.ASY Reg.ASY.ASSAY_FORCE v.toNat) ∧
    (bit v.toNat 16 = true) ∧
    (bits v.toNat 10 0 < 1056) :=
  ⟨.portA,
   0x1041F,
   wI, by decide +kernel⟩

theorem witness_AssayComplete_5 : ∃ (p : Nat) (k : Nat) (s : State),
    (ready (.arrayAssay p k) s) ∧
    (s.assayOpen p k = true) ∧
    (s.roundDue p = false) :=
  ⟨0,
   3,
   State.reset.modStope 0 (fun x => x.setArr 3 { x.arr 3 with fitDue := true }), by decide +kernel⟩

theorem witness_AssayComplete_6 : ∃ (p : Nat) (k : Nat) (m : AssayMeas) (s : State),
    (ready (.arrayAssayDone p k m) s) ∧
    ((s.arr p k).assaying = true) :=
  ⟨0,
   3,
   ⟨[], [], [], 0, 0⟩,
   State.reset.modStope 0 (fun x => x.setArr 3 { x.arr 3 with assaying := true }), by decide +kernel⟩

theorem witness_AssayComplete_7 : ∃ (p : Nat) (k : Nat) (s : State),
    (ready (.writeEffortReplan p k) s) ∧
    (65536 ≤ (s.arr p k).effort.1) ∧
    (0 < (s.arr p k).effort.2.2) ∧
    (5 * (s.arr p k).effort.2.2 < 2 * (s.arr p k).effort.2.1) ∧
    ((s.arr p k).amp < 15) :=
  ⟨0,
   3,
   State.reset.modStope 0 (fun x => x.setArr 3 { x.arr 3 with effort := (65536, 3, 1) }), by decide +kernel⟩

theorem witness_AssayComplete_8 : ∃ (c : Nat) (e : Nat) (j : Job) (h : HoistE) (s : State),
    (ready (.assaySlot c e) s) ∧
    (s.hoistFor c e 10 = some (j, h)) :=
  ⟨1,
   0,
   wJob [wEntry 10 0 0 0 0 0],
   wEntry 10 0 0 0 0 0,
   wRun (wJob [wEntry 10 0 0 0 0 0]), by decide +kernel⟩

theorem witness_AssayComplete_9 : ∃ (c : Nat) (e : Nat) (j : Job) (h : HoistE) (s : State),
    (ready (.assaySlotEnd c e) s) ∧
    (s.job? c = some j) ∧
    (j.entries[e]? = some h) ∧
    (h.action = 10) ∧
    ((j.run e).started = true) ∧
    ((j.run e).complete = false) :=
  ⟨1,
   0,
   wBegun (wJob [wEntry 10 0 0 0 0 0]) 0 1,
   wEntry 10 0 0 0 0 0,
   wRun (wBegun (wJob [wEntry 10 0 0 0 0 0]) 0 1), by decide +kernel⟩

theorem witness_TiersComplete_1 : ∃ (slow : Bool) (c : Nat) (cause : Nat) (s : State),
    (ready (.migrateStripe slow) s) ∧
    ((s.tier slow).active = some (c, cause)) :=
  ⟨true,
   0,
   0,
   State.reset.modTier true (fun t => { t with active := some (0, 0) }), by decide +kernel⟩

theorem witness_TiersComplete_2 : ∃ (slow : Bool) (depths : List Nat) (busiest : Nat) (s : State),
    (ready (.queueWindow slow depths busiest) s) ∧
    let l := s.channels slow
    let d := l.zip (depths ++ List.replicate (l.length - depths.length) 0)
    let sum := d.foldl (fun a x => a + x.2) 0
    let n := max 1 l.length
    ((∀ x ∈ d, x.2 * n ≤ 2 * sum ∨ sum < 16 * n)) :=
  ⟨true,
   [],
   0,
   State.reset, by decide +kernel⟩

theorem witness_TiersComplete_3 : ∃ (src : Source) (stack : Nat) (v : Word) (s : State),
    (ready (.chanRetire src stack v) s) ∧
    (guardOpen s src (Page.FTC stack) Reg.FTC.CHAN_RETIRE v.toNat) ∧
    (bit v.toNat 8 = true) :=
  ⟨.portA,
   7,
   0x11F,
   wI, by decide +kernel⟩

theorem witness_TiersComplete_4 : ∃ (src : Source) (page : Nat) (v : Word) (s : State),
    (ready (.slowStackRetire src page v) s) ∧
    (guardOpen s src (Page.MIL page) Reg.MIL.CHAN_RETIRE v.toNat) ∧
    (bit v.toNat 8 = true) ∧
    (bits v.toNat 2 0 < 6) :=
  ⟨.portA,
   3,
   0x105,
   wI, by decide +kernel⟩

theorem witness_BlocksComplete_1 : ∃ (c : Nat) (addr : Nat) (fails : Nat) (s : State),
    (ready (.scrubRead c addr fails) s) ∧
    (s.addrOk c (addr / 4096 * 4096) 4096 = true) :=
  ⟨0,
   0,
   3,
   State.reset, by decide +kernel⟩

theorem witness_BlocksComplete_2 : ∃ (slow : Bool) (s : State),
    (ready (.scrubPassEnd slow) s) ∧
    ((∀ c < 64, (s.claim c).lostMore = false)) :=
  ⟨true,
   State.reset, by decide +kernel⟩

theorem witness_BlocksComplete_3 : ∃ (way : MeshHop) (c : Nat) (addr : Nat) (fails : Nat) (s : State),
    (ready (.blockArrival way c addr fails) s) :=
  ⟨⟨0, 1055, 1, false⟩,
   0,
   0,
   4,
   State.reset, by decide +kernel⟩

theorem witness_BlocksComplete_4 : ∃ (c : Nat) (layer : Nat) (mb : Nat) (e : Nat) (j : Job) (x : Stash) (s : State),
    (ready (.stashWrite c layer mb) s) ∧
    (s.job? c = some j) ∧
    (j.stash? layer mb = some x) ∧
    (j.passOf layer mb = some e) ∧
    (x.tier = tierForming) ∧
    ((j.run e).left ≤ 1) ∧
    (j.occupancy + x.held ≤ j.usable) :=
  ⟨1,
   0,
   0,
   0,
   { wBegun (wJob [wEntry 1 0 0 1 0 0]) 0 1 with stashes := [{ layer := 0, mb := 0, inBlk := 1, outBlk := 1, posBlk := 0, inHeld := true, outHeld := true, posHeld := true, tier := 3, begun := false, reserve := false, e := 0, inData := [], outData := [], posData := [] }] },
   { layer := 0, mb := 0, inBlk := 1, outBlk := 1, posBlk := 0, inHeld := true, outHeld := true, posHeld := true, tier := 3, begun := false, reserve := false, e := 0, inData := [], outData := [], posData := [] },
   wRun ({ wBegun (wJob [wEntry 1 0 0 1 0 0]) 0 1 with stashes := [{ layer := 0, mb := 0, inBlk := 1, outBlk := 1, posBlk := 0, inHeld := true, outHeld := true, posHeld := true, tier := 3, begun := false, reserve := false, e := 0, inData := [], outData := [], posData := [] }] }), by decide +kernel⟩

theorem witness_BlocksComplete_5 : ∃ (c : Nat) (layer : Nat) (mb : Nat) (j : Job) (x : Stash) (s : State),
    (ready (.spillComplete c layer mb) s) ∧
    (s.job? c = some j) ∧
    (j.stash? layer mb = some x) ∧
    (x.tier = tierSpilling) :=
  ⟨1,
   0,
   0,
   { wJob [] with stashes := [{ layer := 0, mb := 0, inBlk := 1, outBlk := 1, posBlk := 0, inHeld := true, outHeld := true, posHeld := true, tier := 1, begun := false, reserve := false, e := 0, inData := [], outData := [], posData := [] }] },
   { layer := 0, mb := 0, inBlk := 1, outBlk := 1, posBlk := 0, inHeld := true, outHeld := true, posHeld := true, tier := 1, begun := false, reserve := false, e := 0, inData := [], outData := [], posData := [] },
   wRun ({ wJob [] with stashes := [{ layer := 0, mb := 0, inBlk := 1, outBlk := 1, posBlk := 0, inHeld := true, outHeld := true, posHeld := true, tier := 1, begun := false, reserve := false, e := 0, inData := [], outData := [], posData := [] }] }), by decide +kernel⟩

theorem witness_BlocksComplete_6 : ∃ (c : Nat) (mb : Nat) (top : Nat) (rest : List Nat) (j : Job) (s : State),
    (ready (.recomputeRun c mb) s) ∧
    (s.job? c = some j) ∧
    (s.jobActive c = true) ∧
    (s.sealing.phase = 0) ∧
    (j.runsFreed mb = true) ∧
    (j.recomp = none) ∧
    (j.targets mb = top :: rest) :=
  ⟨1,
   0,
   0,
   [],
   { wJob [] with marks := [(0, 0)] },
   wRun ({ wJob [] with marks := [(0, 0)] }), by decide +kernel⟩

theorem witness_JobStartComplete_1 : ∃ (src : Source) (s : State),
    (ready (.load src) s) ∧
    (writeOpen s src Page.HOI Reg.HOI.JOB_CMD 1) ∧
    let b := ruleSees s src Page.HOI
    let c := b.jobClaim src
    (b.jobState c = 0 ∨ b.jobState c = 6) ∧
    (b.hoiOpen = true) ∧
    (b.claimState c = 2) ∧
    let u := (((b.wrStock c Reg.FTC.SPILLS 0).wrStock c Reg.FTC.RECOMPUTES 0).wrStock c Reg.FTC.STOCK_PEAK 0).setJobState c 1 1
    (descOk (b.staged src Page.HOI) = true) :=
  ⟨.portA,
   wPlaced 0, by decide +kernel⟩

theorem witness_JobStartComplete_2 : ∃ (src : Source) (j : Job) (s : State),
    (ready (.start src) s) ∧
    (writeOpen s src Page.HOI Reg.HOI.JOB_CMD 2) ∧
    let b := ruleSees s src Page.HOI
    let c := b.jobClaim src
    (b.job? c = some j) ∧
    (b.jobState c = 2) ∧
    (b.hoiOpen = true) ∧
    (b.claimState c = 2) ∧
    (j.first = false) :=
  ⟨.portA,
   wJob [],
   wLoad wO (wJob []) 2, by decide +kernel⟩

theorem witness_JobStartComplete_3 : ∃ (c : Nat) (j : Job) (s : State),
    (ready (.jobRunBegin c) s) ∧
    (s.job? c = some j) ∧
    (s.jobState c = 3) ∧
    (s.listsApplied c = true) ∧
    (s.allReady j.number s.slotOrigin = true) :=
  ⟨1,
   wJob [],
   { (wLoad State.reset (wJob []) 3) with casc := { State.reset.casc with ready := [⟨1, State.reset.memberNo, 0⟩] } }, by decide +kernel⟩

theorem witness_JobStartComplete_4 : ∃ (c : Nat) (base : Nat) (j : Job) (s : State),
    (ready (.imageFetchDone c base) s) ∧
    (s.job? c = some j) ∧
    (s.jobState c = 2) ∧
    (s.hoiOpen = true) :=
  ⟨1,
   0x300000,
   wJob [],
   wLoad State.reset (wJob []) 2, by decide +kernel⟩

theorem witness_JobEndComplete_1 : ∃ (c : Nat) (j : Job) (s : State),
    (ready (.probeStep c) s) ∧
    (s.job? c = some j) ∧
    (j.probe = true) ∧
    (j.probeDone = false) ∧
    (s.jobState c = 4) ∧
    (s.sealing.phase = 0) :=
  ⟨1,
   { wJob [] with probe := true },
   wRun ({ wJob [] with probe := true }), by decide +kernel⟩

theorem witness_JobEndComplete_2 : ∃ (src : Source) (s : State),
    (ready (.stop src) s) ∧
    (writeOpen s src Page.HOI Reg.HOI.JOB_CMD 3) ∧
    let b := ruleSees s src Page.HOI
    let c := b.jobClaim src
    (b.jobState c = 4) :=
  ⟨.portA,
   wLoad wO (wJob []) 4, by decide +kernel⟩

theorem witness_JobEndComplete_3 : ∃ (src : Source) (j : Job) (s : State),
    (ready (.swap src) s) ∧
    (writeOpen s src Page.HOI Reg.HOI.JOB_CMD 4) ∧
    let b := ruleSees s src Page.HOI
    let c := b.jobClaim src
    (b.job? c = some j) ∧
    (b.jobState c = 4) ∧
    (b.hoiOpen = true) ∧
    (b.claimState c = 2) ∧
    (descOk (b.staged src Page.HOI) = true) ∧
    let d := descOf (b.staged src Page.HOI)
    let f := b.findFaults c d
    (f.why = []) ∧
    (swapFields j.desc d = true) ∧
    (f.job.sets.length = j.sets.length) ∧
    ((∀ x ∈ j.sets, (f.job.sets.map (·.id)).contains x.id = true)) ∧
    ((b.sealW : Int) ≤ b.toSeal) :=
  ⟨.portA,
   wPlacedJob,
   wPlaced 4, by decide +kernel⟩

theorem witness_JobEndComplete_4 : ∃ (src : Source) (s : State),
    (ready (.unload src) s) ∧
    (writeOpen s src Page.HOI Reg.HOI.JOB_CMD 5) ∧
    let b := ruleSees s src Page.HOI
    let c := b.jobClaim src
    (b.jobState c = 2 ∨ b.jobState c = 6) :=
  ⟨.portA,
   wLoad wO (wJob []) 2, by decide +kernel⟩

theorem witness_JobEndComplete_5 : ∃ (src : Source) (v : Word) (s : State),
    (ready (.abort src v) s) ∧
    (guardOpen s src Page.HOI Reg.HOI.ABORT v.toNat) ∧
    (bit v.toNat 0 = true) ∧
    let b := ruleSees s src Page.HOI
    let c := b.jobClaim src
    (b.jobActive c = true) :=
  ⟨.portA,
   1,
   wLoad wO (wJob []) 4, by decide +kernel⟩

theorem witness_VerdictComplete_1 : ∃ (s : State),
    (ready .sealLaunch s) ∧
    (s.sealing.phase = 0) ∧
    (s.holdAll = false) :=
  ⟨State.reset, by decide +kernel⟩

theorem witness_VerdictComplete_2 : ∃ (s : State),
    (ready .verdict s) ∧
    (s.sealing.phase = 1) :=
  ⟨wSealing State.reset 1 none, by decide +kernel⟩

theorem witness_VerdictComplete_3 : ∃ (m : Nat) (mask : BitVec 64) (s : State),
    (ready (.verdictArrival m mask) s) ∧
    (0 < s.sealing.phase) ∧
    (s.sealing.phase < 3) :=
  ⟨5,
   0,
   wSealing State.reset 2 none, by decide +kernel⟩

theorem witness_VerdictComplete_4 : ∃ (s : State),
    (ready .verdictDeadline s) ∧
    (s.sealing.phase = 2) ∧
    (s.isHead = true) ∧
    (s.silent = []) ∧
    (s.casc.losses = []) ∧
    (s.fld Page.CAS Reg.CAS.HEADFRAME 27 16 = 0xFFF) :=
  ⟨wSealing State.reset 2 none, by decide +kernel⟩

theorem witness_DecisionComplete_1 : ∃ (mask : BitVec 64) (after : SealNumbers) (s : State),
    (ready (.decisionHold mask after) s) ∧
    (s.fld Page.CAS Reg.CAS.STATE 2 0 = 5) ∧
    (s.sealing.phase ≠ 0) :=
  ⟨0,
   ⟨1, [(1, 8)]⟩,
   wSealing (wCas State.reset 5) 2 none, by decide +kernel⟩

theorem witness_DecisionComplete_2 : ∃ (mask : BitVec 64) (epoch : Nat) (s : State),
    (ready .decisionAck s) ∧
    (s.sealing.phase = 3) ∧
    (s.isHead = true) ∧
    (s.sealing.decision = some (mask, epoch)) :=
  ⟨0,
   1,
   wSealing State.reset 3 (some (0, 1)), by decide +kernel⟩

theorem witness_DecisionComplete_3 : ∃ (mask : BitVec 64) (after : SealNumbers) (s : State),
    (ready (.decisionReceive mask after) s) ∧
    (s.sealing.phase ≠ 0) ∧
    (s.sealing.phase ≠ 4) ∧
    (s.sealing.staged = false) :=
  ⟨0,
   ⟨1, [(1, 8)]⟩,
   wSealing State.reset 2 none, by decide +kernel⟩

theorem witness_DecisionComplete_4 : ∃ (s : State),
    (ready .decisionDeadline s) ∧
    (s.sealing.phase ≠ 0) ∧
    (s.sealing.decision = none) ∧
    (s.jobs = []) :=
  ⟨wSealing State.reset 2 none, by decide +kernel⟩

theorem witness_DecisionComplete_5 : ∃ (mask : BitVec 64) (epoch : Nat) (s : State),
    (ready .sealCommit s) ∧
    (s.sealing.phase = 4) ∧
    (s.sealing.decision = some (mask, epoch)) :=
  ⟨0,
   1,
   wSealing State.reset 4 (some (0, 1)), by decide +kernel⟩

theorem witness_MillComplete_1 : ∃ (c : Nat) (e : Nat) (ix : Nat) (j : Job) (h : HoistE) (s : State),
    (ready (.millPush c e) s) ∧
    (s.hoistFor c e 8 = some (j, h)) ∧
    (j.setIx h.result = some ix) ∧
    (j.pushedBy e h.result = false) :=
  ⟨1,
   0,
   0,
   wJob [wEntry 8 7 0 0 0 0],
   wEntry 8 7 0 0 0 0,
   wRun (wJob [wEntry 8 7 0 0 0 0]), by decide +kernel⟩

theorem witness_MillComplete_2 : ∃ (c : Nat) (e : Nat) (ix : Nat) (j : Job) (h : HoistE) (d : SetD) (x : SetS) (l : LayerD) (w : Nat × Nat × Nat) (s : State),
    (ready (.pushAccept c ix) s) ∧
    (s.job? c = some j) ∧
    (s.mill.waiting.find? (fun w => w.1 == c && w.2.2 == ix) = some w) ∧
    (w.2.1 = e) ∧
    (j.entries[e]? = some h) ∧
    (j.sets[ix]? = some d) ∧
    (j.sstate[ix]? = some x) ∧
    (j.setLayer d = some l) ∧
    (d.kind = 0) ∧
    (j.gathers l h.a = false) ∧
    (s.operandReady c j e h h.a h.mb = true) ∧
    (s.sealing.phase = 0) ∧
    (s.jobStep c = x.next) ∧
    (x.resync = false) :=
  ⟨1,
   0,
   0,
   wJob [wEntry 8 7 0 0 0 0],
   wEntry 8 7 0 0 0 0,
   wSet,
   SetS.fresh 0,
   wLayer,
   (1, 0, 0),
   { (wRun (wJob [wEntry 8 7 0 0 0 0])) with mill := { State.reset.mill with waiting := [(1, 0, 0)] } }, by decide +kernel⟩

theorem witness_MillComplete_3 : ∃ (c : Nat) (e : Nat) (ix : Nat) (n : Nat) (rest : List (Nat × Nat × Nat × Nat)) (j : Job) (h : HoistE) (d : SetD) (x : SetS) (l : LayerD) (s : State),
    (ready (.setUpdate true) s) ∧
    (s.mill.queue = (c, e, ix, n) :: rest) ∧
    (s.sealing.phase = 0) ∧
    (s.frozenOut = false) ∧
    (s.job? c = some j) ∧
    (j.entries[e]? = some h) ∧
    (j.sets[ix]? = some d) ∧
    (j.sstate[ix]? = some x) ∧
    (j.setLayer d = some l) :=
  ⟨1,
   0,
   0,
   0,
   [],
   wJob [wEntry 8 7 0 0 0 0],
   wEntry 8 7 0 0 0 0,
   wSet,
   SetS.fresh 0,
   wLayer,
   { (wRun (wJob [wEntry 8 7 0 0 0 0])) with mill := { State.reset.mill with queue := [(1, 0, 0, 0)] } }, by decide +kernel⟩

theorem witness_MillComplete_4 : ∃ (c : Nat) (step : Nat) (j : Job) (s : State),
    (ready (.resync c step) s) ∧
    (s.job? c = some j) ∧
    ((∀ x ∈ j.sstate, x.next = step)) :=
  ⟨1,
   0,
   wJob [],
   wRun (wJob []), by decide +kernel⟩

theorem witness_MillComplete_5 : ∃ (c : Nat) (n : Nat) (j : Job) (s : State),
    (ready (.freezeDone c) s) ∧
    (s.mill.freezing.find? (fun e => e.1 == c) = some (c, n)) ∧
    (s.job? c = some j) ∧
    let u := { s with mill := { s.mill with freezing := s.mill.freezing.filter (fun e => e.1 != c) } }
    (u.buddy = 0xFFF) :=
  ⟨1,
   3,
   wJob [],
   { wRun (wJob []) with mill := { State.reset.mill with freezing := [(1, 3)] } }, by decide +kernel⟩

theorem witness_MillComplete_6 : ∃ (c : Nat) (n : Nat) (j : Job) (s : State),
    (ready (.ckptSendDone c) s) ∧
    (s.mill.sending.find? (fun e => e.1 == c) = some (c, n)) ∧
    (s.job? c = some j) :=
  ⟨1,
   3,
   wJob [],
   { wRun (wJob []) with mill := { State.reset.mill with sending := [(1, 3)] } }, by decide +kernel⟩

theorem witness_TallyComplete_1 : ∃ (vcore : List Nat) (icore : List Nat) (s : State),
    (ready (.govWindow vcore icore) s) ∧
    let est := s.estimate (s.corePower vcore icore)
    (0 < s.lossRatio.1 * s.lossRatio.2) ∧
    (s.rd Page.PWR Reg.PWR.BUDGET_IN_FORCE < est) ∧
    (s.seamGives = bit (s.rd Page.HOI Reg.HOI.GOV_STATE) 16) ∧
    let g := s.rd Page.HOI Reg.HOI.GOV_STATE
    let lead := if s.seamGives then bits g 14 8 else bits g 6 0
    (s.fld Page.HOI Reg.HOI.GOV_FLOOR 5 0 + 4 ≤ lead) :=
  ⟨[1000000],
   [100000000],
   State.reset, by decide +kernel⟩

theorem witness_TallyComplete_2 : ∃ (s : State),
    (ready .markerSend s) ∧
    (s.isHead = true) :=
  ⟨State.reset, by decide +kernel⟩

theorem witness_TallyComplete_3 : ∃ (n : Nat) (value : Nat) (epoch : Nat) (hops : Nat) (delay : Nat) (ref : Bool) (s : State),
    (ready (.tallyMarker n value epoch hops ref delay true) s) ∧
    (s.portUp n = true) ∧
    let u := (((s.count64 (Page.DRF n) Reg.DRF.RX_TUBS_LO 4 1).wr (Page.DRF n) Reg.DRF.LINK_DELAY (delay / 2)).sendMarker n
      value epoch hops true)
    ((u.port n).follow = true) ∧
    (u.rd Page.CAS Reg.CAS.HEAD_EPOCH ≤ epoch) ∧
    let w := (u.heardHead epoch).modPort n (fun p => { p with hops := min 255 hops })
    (w.fld Page.CAS Reg.CAS.STATE 2 0 = 3) ∧
    (w.upstream = some n) :=
  ⟨11,
   1000,
   1,
   3,
   800,
   true,
   wCas (wPort State.reset 11 4) 3, by decide +kernel⟩

theorem witness_TallyComplete_4 : ∃ (s : State),
    (ready .markerLoss s) ∧
    ((s.fld Page.TAL Reg.TAL.STATUS 2 0 = 2 ∨ s.fld Page.TAL Reg.TAL.STATUS 2 0 = 3)) :=
  ⟨State.reset.setFld Page.TAL Reg.TAL.STATUS 2 0 2, by decide +kernel⟩

theorem witness_ReferenceComplete_1 : ∃ (err : Int) (s : State),
    (ready (.refPpsEdge err) s) ∧
    (s.isHead = true) :=
  ⟨0,
   State.reset, by decide +kernel⟩

theorem witness_ReferenceComplete_2 : ∃ (s : State),
    (ready .ppsMissing s) ∧
    (s.isHead = true) ∧
    let u := s.setFld Page.TAL Reg.TAL.STATUS 5 5 0
    let src := u.fld Page.TAL Reg.TAL.STATUS 2 0
    ((src = 1 ∨ src = 4)) :=
  ⟨State.reset.setFld Page.TAL Reg.TAL.STATUS 2 0 4, by decide +kernel⟩

theorem witness_ReferenceComplete_3 : ∃ (ppm : Int) (s : State),
    (ready (.refClkReject ppm) s) ∧
    (s.isHead = true) ∧
    (50 < ppm.natAbs) ∧
    let u := s.setFld Page.TAL Reg.TAL.STATUS 4 4 0
    let src := u.fld Page.TAL Reg.TAL.STATUS 2 0
    ((src = 1 ∨ src = 4)) :=
  ⟨51,
   State.reset.setFld Page.TAL Reg.TAL.STATUS 2 0 1, by decide +kernel⟩

theorem witness_ReferenceComplete_4 : ∃ (src : Source) (v : Word) (s : State),
    (ready (.tallySet src v) s) ∧
    (guardOpen s src Page.TAL Reg.TAL.TALLY_SET v.toNat) ∧
    let b := ruleSees s src Page.TAL
    let second := b.rd64 Page.TAL Reg.TAL.SET_SECOND_LO
    let from' := b.fld Page.TAL Reg.TAL.STATUS 2 0
    (bit v.toNat 0 = true) ∧
    (b.isHead = true) ∧
    (b.jobsRun = false) :=
  ⟨.portA,
   1,
   wI, by decide +kernel⟩

theorem witness_ReferenceComplete_5 : ∃ (s : State),
    (ready .tallyStore s) :=
  ⟨State.reset, by decide +kernel⟩

theorem witness_ReferenceComplete_6 : ∃ (src : Source) (v : Word) (s : State),
    (ready (.gridSet src v) s) ∧
    (guardOpen s src Page.HOI Reg.HOI.GRID_SET v.toNat) ∧
    let b := ruleSees s src Page.HOI
    let p := b.rd64 Page.HOI Reg.HOI.GRID_PERIOD_LO
    let o := b.rd64 Page.HOI Reg.HOI.GRID_ORIGIN_LO
    let w := b.rd Page.HOI Reg.HOI.GRID_SEAL_W
    (bit v.toNat 0 = true) ∧
    (b.isHead = true) ∧
    (b.jobsLoaded = false) ∧
    (b.tally + 1000000000 ≤ o) ∧
    (100000 ≤ p) ∧
    (p ≤ 60000000000) ∧
    (4000 + 500 * b.fld Page.CAS Reg.CAS.DIAMETER 7 0 ≤ w) ∧
    (2 * w ≤ p) :=
  ⟨.portA,
   1,
   ((wI.wr Page.HOI Reg.HOI.GRID_PERIOD_LO 1000000).wr Page.HOI Reg.HOI.GRID_ORIGIN_LO 2000000000).wr Page.HOI Reg.HOI.GRID_SEAL_W 5000, by decide +kernel⟩

theorem witness_ReferenceComplete_7 : ∃ (o : Nat) (p : Nat) (w : Nat) (s : State),
    (ready .gridTakesEffect s) ∧
    (s.clock.grid = some (o, p, w)) :=
  ⟨2000000000,
   1000000,
   5000,
   { State.reset with clock := { State.reset.clock with grid := some (2000000000, 1000000, 5000) } }, by decide +kernel⟩

theorem witness_HewersComplete_1 : ∃ (c : Nat) (e : Nat) (j : Job) (h : HoistE) (d : LayerD) (g : Geo) (s : State),
    (ready (.hewDx c e) s) ∧
    (s.hoistFor c e 2 = some (j, h)) ∧
    (j.layer? h.layer = some d) ∧
    (j.geo h = some g) ∧
    (s.operandsReady c j e h d = true) :=
  ⟨1,
   0,
   wJob [wEntry 2 6 0 8 0 0],
   wEntry 2 6 0 8 0 0,
   wLayer,
   { kind := 1, rows := 1, cols := 64, len := 64 },
   wRun (wJob [wEntry 2 6 0 8 0 0]), by decide +kernel⟩

theorem witness_HewersComplete_2 : ∃ (c : Nat) (e : Nat) (j : Job) (h : HoistE) (d : LayerD) (g : Geo) (s : State),
    (ready (.hewDw c e) s) ∧
    (s.hoistFor c e 3 = some (j, h)) ∧
    (j.layer? h.layer = some d) ∧
    (j.geo h = some g) ∧
    (s.operandsReady c j e h d = true) :=
  ⟨1,
   0,
   { wJob [wEntry 3 0 6 7 0 0] with stashes := [{ layer := 0, mb := 0, inBlk := 1, outBlk := 1, posBlk := 0, inHeld := true, outHeld := true, posHeld := true, tier := 0, begun := false, reserve := false, e := 0, inData := [], outData := [], posData := [] }] },
   wEntry 3 0 6 7 0 0,
   wLayer,
   { kind := 2, rows := 64, cols := 64, len := 1 },
   wRun ({ wJob [wEntry 3 0 6 7 0 0] with stashes := [{ layer := 0, mb := 0, inBlk := 1, outBlk := 1, posBlk := 0, inHeld := true, outHeld := true, posHeld := true, tier := 0, begun := false, reserve := false, e := 0, inData := [], outData := [], posData := [] }] }), by decide +kernel⟩

theorem witness_HewersComplete_3 : ∃ (p : Nat) (w : WorkUnit) (j : Job) (h : HoistE) (d : LayerD) (g : Geo) (s : State),
    (ready (.tileStart p) s) ∧
    (s.hewerFree p = true) ∧
    (s.nextUnit p = some w) ∧
    (s.unitWork w = some (j, h, d, g)) ∧
    ((h.free = true → -(65536 * 256) ≤ (s.stope p).allow)) :=
  ⟨0,
   ⟨1, 0, 0, false⟩,
   { wBegun (wJob [wEntry 2 6 0 8 0 0]) 0 1 with lastWork := 0 },
   wEntry 2 6 0 8 0 0,
   wLayer,
   { kind := 1, rows := 1, cols := 64, len := 64 },
   (wRun ({ wBegun (wJob [wEntry 2 6 0 8 0 0]) 0 1 with lastWork := 0 })).modStope 0 (fun x => { x with queue := [⟨1, 0, 0, false⟩] }), by decide +kernel⟩

theorem witness_HewersComplete_4 : ∃ (p : Nat) (dev : List (Nat × Nat × Int)) (t : Tile) (j : Job) (h : HoistE) (d : LayerD) (g : Geo) (s : State),
    (ready (.leafEnd p dev true) s) ∧
    ((s.stope p).tile = some t) ∧
    (s.unitWork t.unit = some (j, h, d, g)) ∧
    (t.next < t.leaves) :=
  ⟨0,
   [],
   { unit := ⟨1, 0, 0, false⟩, kind := 1, row := 0, col := 0, first := 0, leaves := 1, next := 0, issued := 0, stack := [], failed := false, inst := 0 },
   { wBegun (wJob [wEntry 2 6 0 8 0 0]) 0 1 with lastWork := 0 },
   wEntry 2 6 0 8 0 0,
   wLayer,
   { kind := 1, rows := 1, cols := 64, len := 64 },
   (wRun ({ wBegun (wJob [wEntry 2 6 0 8 0 0]) 0 1 with lastWork := 0 })).modStope 0 (fun x => { x with tile := some { unit := ⟨1, 0, 0, false⟩, kind := 1, row := 0, col := 0, first := 0, leaves := 1, next := 0, issued := 0, stack := [], failed := false, inst := 0 } }), by decide +kernel⟩

theorem witness_HewersComplete_5 : ∃ (c : Nat) (e : Nat) (part : PartArrival) (q : Packet) (s : State),
    (ready (.partRootArrival c e part) s) ∧
    (s.meshFind c e 1 [part.unit] = some q) ∧
    (s.mayArrive q = true) :=
  ⟨1,
   0,
   ⟨1, true⟩,
   { plane := 0, src := 1, dst := 0, claim := 1, entry := 0, kind := 1, tag := [1], blocks := 1, phase := 1 },
   { wRun ({ wBegun (wJob [wEntry 2 6 0 8 0 0]) 0 1 with lastWork := 0, roots := [{ entry := 0, unit := 1, here := false, nodes := [], again := false }] }) with mesh := [{ plane := 0, src := 1, dst := 0, claim := 1, entry := 0, kind := 1, tag := [1], blocks := 1, phase := 1 }] }, by decide +kernel⟩

theorem witness_HewersComplete_6 : ∃ (p : Nat) (t : Tile) (rest : List Tile) (j : Job) (h : HoistE) (d : LayerD) (g : Geo) (s : State),
    (ready (.tileDrain p true) s) ∧
    ((s.stope p).drains = t :: rest) ∧
    (s.unitWork t.unit = some (j, h, d, g)) ∧
    ((j.run t.unit.entry).split = 0) :=
  ⟨0,
   { unit := ⟨1, 0, 0, false⟩, kind := 1, row := 0, col := 0, first := 0, leaves := 1, next := 1, issued := 0, stack := [], failed := false, inst := 0 },
   [],
   { wBegun (wJob [wEntry 2 6 0 8 0 0]) 0 1 with lastWork := 0 },
   wEntry 2 6 0 8 0 0,
   wLayer,
   { kind := 1, rows := 1, cols := 64, len := 64 },
   (wRun ({ wBegun (wJob [wEntry 2 6 0 8 0 0]) 0 1 with lastWork := 0 })).modStope 0 (fun x => { x with drains := [{ unit := ⟨1, 0, 0, false⟩, kind := 1, row := 0, col := 0, first := 0, leaves := 1, next := 1, issued := 0, stack := [], failed := false, inst := 0 }] }), by decide +kernel⟩

theorem witness_HewersComplete_7 : ∃ (p : Nat) (t : Tile) (rest : List Tile) (j : Job) (h : HoistE) (d : LayerD) (g : Geo) (s : State),
    (ready (.tileDrain p true) s) ∧
    ((s.stope p).drains = t :: rest) ∧
    (s.unitWork t.unit = some (j, h, d, g)) ∧
    ((j.run t.unit.entry).split ≠ 0) ∧
    (s.homeOf (j.run t.unit.entry) t.unit.unit = p) ∧
    (t.unit.unit % 2 ^ (j.run t.unit.entry).split = 0) :=
  ⟨0,
   { unit := ⟨1, 0, 0, false⟩, kind := 1, row := 0, col := 0, first := 0, leaves := 1, next := 1, issued := 0, stack := [], failed := false, inst := 0 },
   [],
   { (wBegun (wJob [wEntry 2 6 0 8 0 0]) 0 1).setRun 0 { HoistRun.idle with started := true, left := 1, split := 1, homes := [0, 1] } with lastWork := 0 },
   wEntry 2 6 0 8 0 0,
   wLayer,
   { kind := 1, rows := 1, cols := 64, len := 64 },
   (wRun ({ (wBegun (wJob [wEntry 2 6 0 8 0 0]) 0 1).setRun 0 { HoistRun.idle with started := true, left := 1, split := 1, homes := [0, 1] } with lastWork := 0 })).modStope 0 (fun x => { x with drains := [{ unit := ⟨1, 0, 0, false⟩, kind := 1, row := 0, col := 0, first := 0, leaves := 1, next := 1, issued := 0, stack := [], failed := false, inst := 0 }] }), by decide +kernel⟩

theorem witness_SeamsComplete_1 : ∃ (c : Nat) (e : Nat) (j : Job) (h : HoistE) (d : LayerD) (s : State),
    (ready (.seamPass c e) s) ∧
    (s.hoistFor c e 1 = some (j, h)) ∧
    (j.layer? h.layer = some d) ∧
    (h.recompute = false) ∧
    (h.ref = false) ∧
    (j.hewerOnly h.layer = false) ∧
    (s.operandReady c j e h h.a h.mb = true) ∧
    ((d.pool = 0 ∨ j.dim0 h.a % d.pool = 0)) ∧
    ((∀ x ∈ j.covered h d, ∀ q, j.seamAt d.layer x.1 x.2 = some q → s.seamRefused c q.1 q.2 = false)) :=
  ⟨1,
   0,
   wJob [wEntry 1 0 0 1 0 0],
   wEntry 1 0 0 1 0 0,
   wLayer,
   wRun (wJob [wEntry 1 0 0 1 0 0]), by decide +kernel⟩

theorem witness_SeamsComplete_2 : ∃ (p : Nat) (k : Nat) (w : SeamJob) (h : HoistE) (d : LayerD) (j : Job) (bytes : List Nat) (s : State),
    (ready (.vectorRead p k) s) ∧
    (s.vectorAt p k = some (w, h, d, j, bytes)) ∧
    (planesOf bytes 0 512 ≠ []) ∧
    ((h.free = true → -(65536 * 256) ≤ (s.arr p k).allow)) ∧
    let lp := (s.worksFor p).getD 0
    let seam := (s.seamOf p k).getD 0
    (s.seamBusy lp seam = false) :=
  ⟨0,
   0,
   { claim := 1, entry := 0, layer := 0, cb := 0, rb := 0, next := 0, upto := 1, again := false },
   wEntry 1 0 0 1 0 0,
   wLayer,
   { wBegun (wJob [wEntry 1 0 0 1 0 0]) 0 1 with lastWork := 0 },
   [5] ++ List.replicate 511 0,
   ((wRun ({ wBegun (wJob [wEntry 1 0 0 1 0 0]) 0 1 with lastWork := 0 })).modStope 0 (fun x => x.setArr 0 { x.arr 0 with job := [{ claim := 1, entry := 0, layer := 0, cb := 0, rb := 0, next := 0, upto := 1, again := false }] })).wrByte 1 0 5, by decide +kernel⟩

theorem witness_SeamsComplete_3 : ∃ (p : Nat) (k : Nat) (codes : List (List Int)) (v : VecRead) (h : HoistE) (d : LayerD) (s : State),
    (ready (.vectorReadDone p k codes) s) ∧
    ((s.arr p k).vec = some v) ∧
    (v.parts = [(0, 512)]) ∧
    (v.split = false) ∧
    ((s.job? v.job.claim).bind (fun j => j.work v.job.entry) = some h) ∧
    ((s.job? v.job.claim).bind (fun j => j.layer? v.job.layer) = some d) ∧
    let planes := planesOf v.bytes 0 512
    let reads := planes.zip (codes.map (fun l => l.map clipCode))
    ((∀ r ∈ reads, witCheck v 0 512 (s.fld (Page.STX p) Reg.STX.WIT_TOL 5 0) r.1 r.2 = none ∧ planeSaturated v r.2 = false)) :=
  ⟨0,
   0,
   [[]],
   { job := { claim := 1, entry := 0, layer := 0, cb := 0, rb := 0, next := 0, upto := 1, again := false }, vec := 0, bytes := [1], parts := [(0, 512)], split := false, deepest := 0, acc := [], band := [], coefs := [], digital := [], inst := 0, lp := 0, seam := 0 },
   wEntry 1 0 0 1 0 0,
   wLayer,
   (wRun ({ wBegun (wJob [wEntry 1 0 0 1 0 0]) 0 1 with lastWork := 0 })).modStope 0 (fun x => x.setArr 0 { x.arr 0 with vec := some { job := { claim := 1, entry := 0, layer := 0, cb := 0, rb := 0, next := 0, upto := 1, again := false }, vec := 0, bytes := [1], parts := [(0, 512)], split := false, deepest := 0, acc := [], band := [], coefs := [], digital := [], inst := 0, lp := 0, seam := 0 } }), by decide +kernel⟩

theorem witness_SeamsComplete_4 : ∃ (p : Nat) (k : Nat) (first : Nat) (n : Nat) (rest : List (Nat × Nat)) (codes : List (List Int)) (v : VecRead) (h : HoistE) (d : LayerD) (s : State),
    (ready (.splitPartRead p k codes) s) ∧
    ((s.arr p k).vec = some v) ∧
    (v.parts = (first, n) :: rest) ∧
    (v.split = true) ∧
    ((s.job? v.job.claim).bind (fun j => j.work v.job.entry) = some h) ∧
    ((s.job? v.job.claim).bind (fun j => j.layer? v.job.layer) = some d) ∧
    let planes := planesOf v.bytes first n
    let reads := planes.zip (codes.map (fun l => l.map clipCode))
    ((∀ r ∈ reads, witCheck v first n (s.fld (Page.STX p) Reg.STX.WIT_TOL 5 0) r.1 r.2 = none ∧ planeSaturated v r.2 = false)) :=
  ⟨0,
   0,
   0,
   256,
   [(256, 256)],
   [[]],
   { job := { claim := 1, entry := 0, layer := 0, cb := 0, rb := 0, next := 0, upto := 1, again := false }, vec := 0, bytes := [1], parts := [(0, 256), (256, 256)], split := true, deepest := 0, acc := [], band := [], coefs := [], digital := [], inst := 0, lp := 0, seam := 0 },
   wEntry 1 0 0 1 0 0,
   wLayer,
   (wRun ({ wBegun (wJob [wEntry 1 0 0 1 0 0]) 0 1 with lastWork := 0 })).modStope 0 (fun x => x.setArr 0 { x.arr 0 with vec := some { job := { claim := 1, entry := 0, layer := 0, cb := 0, rb := 0, next := 0, upto := 1, again := false }, vec := 0, bytes := [1], parts := [(0, 256), (256, 256)], split := true, deepest := 0, acc := [], band := [], coefs := [], digital := [], inst := 0, lp := 0, seam := 0 } }), by decide +kernel⟩

theorem witness_SeamsComplete_5 : ∃ (p : Nat) (k : Nat) (w : SeamJob) (h : HoistE) (d : LayerD) (j : Job) (bytes : List Nat) (s : State),
    (ready (.zeroVector p k) s) ∧
    (s.vectorAt p k = some (w, h, d, j, bytes)) ∧
    (planesOf bytes 0 512 = []) :=
  ⟨0,
   0,
   { claim := 1, entry := 0, layer := 0, cb := 0, rb := 0, next := 0, upto := 1, again := false },
   wEntry 1 0 0 1 0 0,
   wLayer,
   { wBegun (wJob [wEntry 1 0 0 1 0 0]) 0 1 with lastWork := 0 },
   List.replicate 512 0,
   (wRun ({ wBegun (wJob [wEntry 1 0 0 1 0 0]) 0 1 with lastWork := 0 })).modStope 0 (fun x => x.setArr 0 { x.arr 0 with job := [{ claim := 1, entry := 0, layer := 0, cb := 0, rb := 0, next := 0, upto := 1, again := false }] }), by decide +kernel⟩

theorem witness_CollarsComplete_1 : ∃ (c : Nat) (layer : Nat) (cb : Nat) (rb : Nat) (vec : Nat) (j : Job) (x : Partial) (s : State),
    (ready (.chainPartial c layer cb rb vec) s) ∧
    (s.job? c = some j) ∧
    (j.partials.find? (fun y => y.layer == layer && y.cb == cb && y.rb == rb && y.vec == vec && !y.here) = some x) ∧
    ((∀ q ∈ s.mesh, q.kind ≠ 0 ∨ q.tag ≠ [cb, vec, rb])) :=
  ⟨1,
   0,
   0,
   0,
   0,
   { wBegun (wJob [wEntry 1 0 0 1 0 0]) 0 1 with lastWork := 0, partials := [{ entry := 0, layer := 0, cb := 0, rb := 0, vec := 0, here := false, failed := false, vals := [], band := [], again := false, inst := 0 }] },
   { entry := 0, layer := 0, cb := 0, rb := 0, vec := 0, here := false, failed := false, vals := [], band := [], again := false, inst := 0 },
   wRun ({ wBegun (wJob [wEntry 1 0 0 1 0 0]) 0 1 with lastWork := 0, partials := [{ entry := 0, layer := 0, cb := 0, rb := 0, vec := 0, here := false, failed := false, vals := [], band := [], again := false, inst := 0 }] }), by decide +kernel⟩

theorem witness_CollarsComplete_2 : ∃ (c : Nat) (layer : Nat) (cb : Nat) (rb : Nat) (vec : Nat) (j : Job) (x : Partial) (q : Packet) (s : State),
    (ready (.chainPartial c layer cb rb vec) s) ∧
    (s.job? c = some j) ∧
    (j.partials.find? (fun y => y.layer == layer && y.cb == cb && y.rb == rb && y.vec == vec && !y.here) = some x) ∧
    (s.meshFind c x.entry 0 [cb, vec, rb] = some q) ∧
    (s.mayArrive q = true) :=
  ⟨1,
   0,
   0,
   0,
   0,
   { wBegun (wJob [wEntry 1 0 0 1 0 0]) 0 1 with lastWork := 0, partials := [{ entry := 0, layer := 0, cb := 0, rb := 0, vec := 0, here := false, failed := false, vals := [], band := [], again := false, inst := 0 }] },
   { entry := 0, layer := 0, cb := 0, rb := 0, vec := 0, here := false, failed := false, vals := [], band := [], again := false, inst := 0 },
   { plane := 0, src := 1, dst := 0, claim := 1, entry := 0, kind := 0, tag := [0, 0, 0], blocks := 1, phase := 1 },
   { wRun ({ wBegun (wJob [wEntry 1 0 0 1 0 0]) 0 1 with lastWork := 0, partials := [{ entry := 0, layer := 0, cb := 0, rb := 0, vec := 0, here := false, failed := false, vals := [], band := [], again := false, inst := 0 }] }) with mesh := [{ plane := 0, src := 1, dst := 0, claim := 1, entry := 0, kind := 0, tag := [0, 0, 0], blocks := 1, phase := 1 }] }, by decide +kernel⟩

theorem witness_CollarsComplete_3 : ∃ (c : Nat) (layer : Nat) (cb : Nat) (rb : Nat) (vec : Nat) (e : Nat) (j : Job) (d : LayerD) (q : Nat × Nat) (h : HoistE) (s : State),
    (ready (.hewerReliefTile c layer cb rb vec) s) ∧
    (s.job? c = some j) ∧
    (j.wants layer cb rb vec = some e) ∧
    (j.layer? layer = some d) ∧
    (j.seamAt layer cb rb = some q) ∧
    (j.entries[e]? = some h) ∧
    (s.seamClosed q.1 q.2 = true) ∧
    (s.hewers c ≠ []) ∧
    ((s.sealing.phase = 0 ∨ h.serve = true)) ∧
    (s.holdAll = false) ∧
    (s.clampActs = false) ∧
    (s.reservedIn c (j.codesBase d (j.cur layer) (cb * d.rowBlocks + rb)) (min 512 (d.inputs - rb * 512))
      (min 512 (d.outputs - cb * 512)) = none) :=
  ⟨1,
   0,
   0,
   0,
   0,
   0,
   { wBegun (wJob [wEntry 1 0 0 1 0 0]) 0 1 with lastWork := 0 },
   wLayer,
   (0, 0),
   wEntry 1 0 0 1 0 0,
   (wRun ({ wBegun (wJob [wEntry 1 0 0 1 0 0]) 0 1 with lastWork := 0 })).modStope 0 (fun x => x.setArr 0 { x.arr 0 with closed := true }), by decide +kernel⟩

theorem witness_CollarsComplete_4 : ∃ (c : Nat) (layer : Nat) (cb : Nat) (vec : Nat) (e : Nat) (j : Job) (d : LayerD) (l : List Partial) (h : HoistE) (x0 : Partial) (s : State),
    (ready (.headCollarOutput c layer cb vec true) s) ∧
    (s.job? c = some j) ∧
    (j.layer? layer = some d) ∧
    (j.complete d cb vec = some (e, l)) ∧
    (j.entries[e]? = some h) ∧
    (l.find? (fun x => x.rb == 0) = some x0) :=
  ⟨1,
   0,
   0,
   0,
   0,
   { wBegun (wJob [wEntry 1 0 0 1 0 0]) 0 1 with lastWork := 0, partials := [{ entry := 0, layer := 0, cb := 0, rb := 0, vec := 0, here := true, failed := false, vals := [], band := [], again := false, inst := 0 }] },
   wLayer,
   [{ entry := 0, layer := 0, cb := 0, rb := 0, vec := 0, here := true, failed := false, vals := [], band := [], again := false, inst := 0 }],
   wEntry 1 0 0 1 0 0,
   { entry := 0, layer := 0, cb := 0, rb := 0, vec := 0, here := true, failed := false, vals := [], band := [], again := false, inst := 0 },
   wRun ({ wBegun (wJob [wEntry 1 0 0 1 0 0]) 0 1 with lastWork := 0, partials := [{ entry := 0, layer := 0, cb := 0, rb := 0, vec := 0, here := true, failed := false, vals := [], band := [], again := false, inst := 0 }] }), by decide +kernel⟩

theorem witness_CollarsComplete_5 : ∃ (c : Nat) (layer : Nat) (cb : Nat) (vec : Nat) (j : Job) (d : LayerD) (row : ActRow) (h : HoistE) (s : State),
    (ready (.rangeRecheck c layer cb vec) s) ∧
    (s.job? c = some j) ∧
    (j.layer? layer = some d) ∧
    (j.acts.find? (fun a => a.layer == layer && a.cb == 8 * cb && a.vec == vec && a.wait != []) = some row) ∧
    (j.entries[row.entry]? = some h) ∧
    let l := j.partials.filter (fun x => x.entry == row.entry && x.cb == cb && x.vec == vec)
    let p := ((j.seamAt layer cb 0).bind (fun q => s.actor q.1)).getD 0x7FF
    let inst := match l.find? (fun x => x.rb == 0) with | some x => x.inst | none => 0
    let noted := s.each (List.range d.rowBlocks) (fun u rb =>
      u.noteColumns c row.entry p j d cb rb (row.wait.map (fun col => col % 512)))
    let seen := row.wait.map (fun col => (col, chainSum l (col % 512), s.exactChain c j h d vec col,
      l.foldl (fun a x => a + nth 0 x.band (col % 512)) 0))
    ((∀ x ∈ seen, (x.2.1 - x.2.2.1).natAbs * 2 ^ 45 ≤ x.2.2.2)) :=
  ⟨1,
   0,
   0,
   0,
   { wBegun (wJob [wEntry 1 0 0 1 0 0]) 0 1 with lastWork := 0, partials := [{ entry := 0, layer := 0, cb := 0, rb := 0, vec := 0, here := true, failed := false, vals := [], band := [], again := false, inst := 0 }], acts := [{ entry := 0, layer := 0, cb := 0, vec := 0, vals := [], wait := [3] }] },
   wLayer,
   { entry := 0, layer := 0, cb := 0, vec := 0, vals := [], wait := [3] },
   wEntry 1 0 0 1 0 0,
   wRun ({ wBegun (wJob [wEntry 1 0 0 1 0 0]) 0 1 with lastWork := 0, partials := [{ entry := 0, layer := 0, cb := 0, rb := 0, vec := 0, here := true, failed := false, vals := [], band := [], again := false, inst := 0 }], acts := [{ entry := 0, layer := 0, cb := 0, vec := 0, vals := [], wait := [3] }] }), by decide +kernel⟩

theorem witness_WordsComplete_1 : ∃ (src : Source) (addr : Nat) (off : Nat) (v : Word) (s : State),
    (ready (.registerWrite src addr v 15) s) ∧
    (beyondBar0 addr = false) ∧
    (viewAt (addrPage addr) (addrOff addr) = .word off) ∧
    (accOf (addrPage addr) off = .rw) ∧
    (0x40 ≤ off) ∧
    ([PType.hoi, .pro, .rol, .rol3, .dep, .mon].contains (pageType (addrPage addr)) = false) ∧
    (s.openPair src (addrPage addr) = none) ∧
    (writeOpen s src (addrPage addr) off v.toNat) :=
  ⟨.portA,
   wordAddr Page.ASY Reg.ASY.DTEMP,
   Reg.ASY.DTEMP,
   320,
   wI, by decide +kernel⟩

theorem witness_WordsComplete_2 : ∃ (src : Source) (addr : Nat) (off : Nat) (i : Nat) (v : Word) (s : State),
    (ready (.bitAliasWrite src addr v) s) ∧
    (beyondBar0 addr = false) ∧
    (viewAt (addrPage addr) (addrOff addr) = .bitOf off i) ∧
    (accOf (addrPage addr) off = .rw) ∧
    (0x40 ≤ off) ∧
    ([PType.hoi, .pro, .rol, .rol3, .dep, .mon].contains (pageType (addrPage addr)) = false) ∧
    (bit (writeMask (addrPage addr) off) i = true) ∧
    let b := s.touch src
    let k := b.bankFor src (addrPage addr) off
    let m := writeMask (addrPage addr) off
    let w := b.rdB k (keptOn (addrPage addr) off) off
    let x := putBits w i i (v.toNat % 2)
    (s.openPair src (addrPage addr) = none) ∧
    (writeOpen s src (addrPage addr) off x) ∧
    (b.mayWrite src (addrPage addr) off (b.rdB k (addrPage addr) off) = true) :=
  ⟨.portA,
   Page.ASY * 16384 + 0x2000 + Reg.ASY.DTEMP * 32 + 4 * 3,
   Reg.ASY.DTEMP,
   3,
   1,
   wI, by decide +kernel⟩

theorem witness_WordsComplete_3 : ∃ (src : Source) (addr : Nat) (off : Nat) (s : State),
    (ready (.captureRead src addr) s) ∧
    (beyondBar0 addr = false) ∧
    (viewAt (addrPage addr) (addrOff addr) = .word off) ∧
    (accOf (addrPage addr) off = .ro) ∧
    (accOf (addrPage addr) (off + 4) = .rl) ∧
    let b := s.touch src
    (b.answers src = true) ∧
    (b.mayRead src (addrPage addr) off = true) :=
  ⟨.portA,
   wordAddr Page.TAL 0x40,
   0x40,
   State.reset, by decide +kernel⟩

theorem witness_WordsComplete_4 : ∃ (src : Source) (page : Nat) (v : Word) (s : State),
    (ready (.evtFlagClear src page v) s) ∧
    (writeOpen s src (landPage page) Reg.HDR.EVT_FLAG v.toNat) :=
  ⟨.portA,
   Page.DEV,
   1,
   wI, by decide +kernel⟩

theorem witness_PairsComplete_1 : ∃ (src : Source) (addr : Nat) (off : Nat) (v : Word) (s : State),
    (ready (.guardPairOpen src addr v) s) ∧
    (beyondBar0 addr = false) ∧
    (viewAt (addrPage addr) (addrOff addr) = .word off) ∧
    (accOf (addrPage addr) off = .rwg) ∧
    let b := s.touch src
    (b.answers src = true) ∧
    (b.mayGuard src (addrPage addr) off v.toNat = true) ∧
    (s.openPair src (addrPage addr) = none) :=
  ⟨.portA,
   wordAddr Page.PWR Reg.PWR.GOV_BUDGET,
   Reg.PWR.GOV_BUDGET,
   500,
   wI, by decide +kernel⟩

theorem witness_PairsComplete_2 : ∃ (src : Source) (addr : Nat) (opened : Nat) (v : Word) (off : Nat) (s : State),
    (ready (.complementWrite src addr (~~~v)) s) ∧
    (beyondBar0 addr = false) ∧
    (viewAt (addrPage addr) (addrOff addr) = .comp off) ∧
    (accOf (addrPage addr) off = .rwg) ∧
    (s.openPair src (addrPage addr) = some { off := off, val := v, opened := opened }) ∧
    (s.osc ≤ opened + 1000) ∧
    (guardOpen s src (addrPage addr) off v.toNat) :=
  ⟨.portA,
   wordAddr Page.PWR (0x400 + Reg.PWR.GOV_BUDGET),
   0,
   500,
   Reg.PWR.GOV_BUDGET,
   { wI with osc := 1000, pairs := [(Page.PWR, { off := Reg.PWR.GOV_BUDGET, val := 500, opened := 0 })] }, by decide +kernel⟩

theorem witness_PairsComplete_3 : ∃ (src : Source) (page : Nat) (p : Pair) (s : State),
    (ready (.guardPairTimeout src page) s) ∧
    (s.openPair src (landPage page) = some p) :=
  ⟨.portA,
   Page.PWR,
   { off := Reg.PWR.GOV_BUDGET, val := 500, opened := 0 },
   { wI with osc := 1001, pairs := [(Page.PWR, { off := Reg.PWR.GOV_BUDGET, val := 500, opened := 0 })] }, by decide +kernel⟩

theorem witness_PairsComplete_4 : ∃ (src : Source) (page : Nat) (s : State),
    (ready (.enableSet src page) s) ∧
    (writeOpen s src (landPage page) Reg.HDR.CONTROL 1) ∧
    (bit (pageType (landPage page)).caps 1 = true) ∧
    let b := ruleSees s src (landPage page)
    (b.fn (landPage page) = 0) :=
  ⟨.portA,
   Page.DRF 0,
   wI.setFld (Page.DRF 0) Reg.HDR.STATUS 31 28 0, by decide +kernel⟩

theorem witness_PairsComplete_5 : ∃ (src : Source) (page : Nat) (s : State),
    (ready (.enableClear src page) s) ∧
    (writeOpen s src (landPage page) Reg.HDR.CONTROL 0) ∧
    (bit (pageType (landPage page)).caps 1 = true) ∧
    let b := ruleSees s src (landPage page)
    (b.fn (landPage page) = 2) :=
  ⟨.portA,
   Page.DRF 0,
   wI.setFld (Page.DRF 0) Reg.HDR.STATUS 31 28 2, by decide +kernel⟩

theorem witness_PairsComplete_6 : ∃ (page : Nat) (s : State),
    (ready (.drainComplete page) s) ∧
    (s.fn (landPage page) = 3) ∧
    (s.drained (landPage page) = true) :=
  ⟨Page.DRF 0,
   State.reset.setFld (Page.DRF 0) Reg.HDR.STATUS 31 28 3, by decide +kernel⟩

theorem witness_StreamsComplete_1 : ∃ (src : Source) (page : Nat) (s : State),
    (ready (.streamWriteStart src page) s) ∧
    (streamPage (landPage page) = true) ∧
    (writeOpen s src (landPage page) Reg.HDR.STREAM_CTL 1) ∧
    let p := landPage page
    let b := ruleSees s src p
    ((b.stream src p).mode = 0) ∧
    ((pageType p = .stm → b.fn p ≠ 0 ∧ b.fn p ≠ 3)) ∧
    let x : Stream := { mode := 1, addr := b.strmAddr src p, len := b.strmLen src p, passed := 0, seen := [], lap := []
                        object := if b.strmAddr src p = 0 ∨ pageType p = .stm then [] else (b.stream src p).object }
    let u := ((b.setStream src p x).wrB src.num p Reg.HDR.STREAM_CHECK 0).strmShow src p 1 0 false
    (u.startErr src p 1 = 0) :=
  ⟨.portA,
   Page.CLM 1,
   (wI.wrB 0 (Page.CLM 1) Reg.HDR.STREAM_LEN 100), by decide +kernel⟩

theorem witness_StreamsComplete_2 : ∃ (src : Source) (page : Nat) (s : State),
    (ready (.streamReadStart src page) s) ∧
    (streamPage (landPage page) = true) ∧
    (writeOpen s src (landPage page) Reg.HDR.STREAM_CTL 2) ∧
    let p := landPage page
    let b := ruleSees s src p
    ((b.stream src p).mode = 0) ∧
    ((pageType p = .stm → b.fn p ≠ 0 ∧ b.fn p ≠ 3)) ∧
    let x : Stream := { mode := 2, addr := b.strmAddr src p, len := b.strmLen src p, passed := 0, seen := [], lap := []
                        object := if pageType p = .stm ∨ pageType p = .recorder then [] else (b.stream src p).object }
    let u := ((b.setStream src p x).wrB src.num p Reg.HDR.STREAM_CHECK 0).strmShow src p 2 0 false
    (u.startErr src p 2 = 0) :=
  ⟨.portA,
   Page.REC,
   (wI.wrB 0 Page.REC Reg.HDR.STREAM_LEN 4), by decide +kernel⟩

theorem witness_StreamsComplete_3 : ∃ (src : Source) (page : Nat) (s : State),
    (ready (.streamAbandon src page) s) ∧
    (streamPage (landPage page) = true) ∧
    (landPage page ≠ Page.PRO) ∧
    (writeOpen s src (landPage page) Reg.HDR.STREAM_CTL 0) :=
  ⟨.portA,
   Page.CLM 1,
   wI, by decide +kernel⟩

theorem witness_StreamsComplete_4 : ∃ (src : Source) (page : Nat) (x : Nat) (v : Word) (s : State),
    (ready (.streamWindowWrite src page x v 15) s) ∧
    (streamPage (landPage page) = true) ∧
    let p := landPage page
    let place := x % 4096 / 4 * 4
    ((s.touch src).answers src = true) ∧
    ((s.touch src).mayStream src p = true) ∧
    let b := ruleSees s src p
    let t := b.stream src p
    (t.mode = 1) ∧
    (place + 4 ≤ t.lapLen) ∧
    (t.seen.contains place = false) :=
  ⟨.portA,
   Page.CLM 1,
   96,
   7,
   wI.setStream .portA (Page.CLM 1) ({ Stream.idle with mode := 1, len := 100 }), by decide +kernel⟩

theorem witness_StreamsComplete_5 : ∃ (src : Source) (page : Nat) (x : Nat) (l : List (Nat × Word)) (s : State),
    (ready (.streamWindowRead src page x) s) ∧
    (streamPage (landPage page) = true) ∧
    let p := landPage page
    let place := x % 4096 / 4 * 4
    let b := s.touch src
    (b.answers src = true) ∧
    (b.mayStream src p = true) ∧
    let t := b.stream src p
    (t.mode = 2) ∧
    (place + 4 ≤ t.lapLen) ∧
    (t.lap.find? (fun e => e.1 == place) = none) ∧
    (b.fetch src p t place = .words l) :=
  ⟨.portA,
   Page.ROL 3,
   96,
   [(96, 0)],
   State.reset.setStream .portA (Page.ROL 3) ({ Stream.idle with mode := 2, len := 100 }), by decide +kernel⟩

theorem witness_StreamsComplete_6 : ∃ (src : Source) (page : Nat) (s : State),
    (ready (.streamReadTimeout src page) s) ∧
    ((s.stream src (landPage page)).mode = 2) :=
  ⟨.portA,
   Page.ROL 3,
   State.reset.setStream .portA (Page.ROL 3) ({ Stream.idle with mode := 2, len := 100 }), by decide +kernel⟩

theorem witness_ConsoleComplete_1 : ∃ (chars : Nat) (s : State),
    (ready (.commandLine chars false false) s) ∧
    (chars ≤ 200) :=
  ⟨200,
   State.reset, by decide +kernel⟩

theorem witness_ConsoleComplete_2 : ∃ (k : Nat) (s : State),
    (ready (.help k) s) ∧
    (k ≤ 13) :=
  ⟨13,
   State.reset, by decide +kernel⟩

theorem witness_ConsoleComplete_3 : ∃ (s : State),
    (ready .ver s) :=
  ⟨State.reset, by decide +kernel⟩

theorem witness_ConsoleComplete_4 : ∃ (s : State),
    (ready .who s) :=
  ⟨State.reset, by decide +kernel⟩

theorem witness_ConsoleComplete_5 : ∃ (s : State),
    (ready .breakCond s) :=
  ⟨State.reset, by decide +kernel⟩

theorem witness_ConsoleComplete_6 : ∃ (src : Source) (v : Word) (s : State),
    (ready (.baud src v) s) ∧
    (writeOpen s src Page.MON Reg.MON.BAUD v.toNat) ∧
    (src ≠ .monitor) ∧
    (s.mon.login = none) :=
  ⟨.portA,
   9600,
   wI, by decide +kernel⟩

theorem witness_ConsoleComplete_7 : ∃ (page : Nat) (s : State),
    (ready (.alert page) s) ∧
    (s.mon.login = none) ∧
    (bit (s.rd Page.MON Reg.MON.CONFIG) 1 = true) ∧
    let p := landPage page
    let flag := s.rdB 2 p Reg.HDR.EVT_FLAG
    (flag &&& s.rdB 2 p Reg.HDR.EVT_ENABLE ≠ 0) ∧
    (s.mon.alerts.find? (fun e => e.1 == p) = none) ∧
    (s.fn p ≠ 4) :=
  ⟨Page.PWR,
   ((State.reset.setFld Page.MON Reg.MON.CONFIG 1 1 1).wrB 2 Page.PWR Reg.HDR.EVT_FLAG 1).wrB 2 Page.PWR Reg.HDR.EVT_ENABLE 1, by decide +kernel⟩

theorem witness_LoginComplete_1 : ∃ (role : Role) (claim : Nat) (chain : List Byte) (s : State),
    (ready (.login role claim chain) s) ∧
    (role ≠ .none) ∧
    ((role = .operator → claim < 64)) ∧
    let r := s.tryWrite .monitor (wordAddr (Page.ROL 2) Reg.ROL.SESS_REQ)
      (BitVec.ofNat 32 (role.code + (if role = .operator then claim * 256 else 0))) 15
    (r.2 = 0) :=
  ⟨.installer,
   0,
   [],
   State.reset, by decide +kernel⟩

theorem witness_LoginComplete_2 : ∃ (sig : List Byte) (s : State),
    (ready (.loginSignature sig) s) ∧
    (s.mon.login ≠ none) ∧
    (96 ≤ sig.length) :=
  ⟨List.replicate 96 0,
   { State.reset with mon := { State.reset.mon with login := some (2, 0, 0) } }, by decide +kernel⟩

theorem witness_LoginComplete_3 : ∃ (s : State),
    (ready .loginTimeout s) ∧
    (s.mon.login ≠ none) :=
  ⟨{ State.reset with mon := { State.reset.mon with login := some (2, 0, 0) } }, by decide +kernel⟩

theorem witness_LoginComplete_4 : ∃ (s : State),
    (ready .loginEnd s) ∧
    let r := s.tryWrite .monitor (wordAddr (Page.ROL 2) Reg.ROL.SESS_END) 1 15
    (r.2 = 0) :=
  ⟨wS, by decide +kernel⟩

theorem witness_LoginComplete_5 : ∃ (addr : Nat) (n : Nat) (s : State),
    (ready (.peek addr n) s) ∧
    (1 ≤ n) ∧
    (n ≤ 64) ∧
    (addr / 4 * 4 + 4 * n ≤ 0x4000000) :=
  ⟨0,
   64,
   State.reset, by decide +kernel⟩

theorem witness_LoginComplete_6 : ∃ (addr : Nat) (off : Nat) (v : Word) (s : State),
    (ready (.poke addr v none) s) ∧
    (s.roleOf .monitor ≠ 1) ∧
    (addr < 0x4000000) ∧
    (viewAt (addrPage addr) (addrOff addr) = .word off) ∧
    (accOf (addrPage addr) off ≠ .rwg) ∧
    let r := s.tryWrite .monitor addr v 15
    (r.2 = 0) :=
  ⟨wordAddr Page.ASY Reg.ASY.DTEMP,
   Reg.ASY.DTEMP,
   320,
   wS, by decide +kernel⟩

theorem witness_LoginComplete_7 : ∃ (addr : Nat) (off : Nat) (v : Word) (s : State),
    (ready (.poke addr v (some (~~~v))) s) ∧
    (s.roleOf .monitor ≠ 1) ∧
    (addr < 0x4000000) ∧
    (viewAt (addrPage addr) (addrOff addr) = .word off) ∧
    (accOf (addrPage addr) off = .rwg) ∧
    let r := s.monPair (addrPage addr) off v.toNat
    (r.2 = 0) :=
  ⟨wordAddr Page.PWR Reg.PWR.GOV_BUDGET,
   Reg.PWR.GOV_BUDGET,
   500,
   wS, by decide +kernel⟩

theorem witness_LoginComplete_8 : ∃ (seq : Option Nat) (n : Nat) (sec : Bool) (s : State),
    (ready (.log seq n sec) s) ∧
    (s.monService = true) ∧
    (1 ≤ n) ∧
    (n ≤ 64) ∧
    (seq.getD 0 < 2 ^ 32) :=
  ⟨none,
   64,
   false,
   wS, by decide +kernel⟩

theorem witness_InspectionComplete_1 : ∃ (s : State),
    (ready .tally s) ∧
    (s.monService = true) :=
  ⟨wS, by decide +kernel⟩

theorem witness_InspectionComplete_2 : ∃ (p : Nat) (k : Nat) (s : State),
    (ready (.assay p k) s) ∧
    (s.monService = true) ∧
    (p < 1056) ∧
    (k < 17) :=
  ⟨1055,
   16,
   wS, by decide +kernel⟩

theorem witness_InspectionComplete_3 : ∃ (s : State),
    (ready .canary s) ∧
    (s.monService = true) :=
  ⟨wS, by decide +kernel⟩

theorem witness_InspectionComplete_4 : ∃ (p : Nat) (s : State),
    (ready (.stope p) s) ∧
    (s.monService = true) ∧
    (p < 1056) :=
  ⟨1055,
   wS, by decide +kernel⟩

theorem witness_InspectionComplete_5 : ∃ (port : Option Nat) (s : State),
    (ready (.drift port) s) ∧
    (s.monService = true) ∧
    (port.getD 0 < 12) :=
  ⟨some 11,
   wS, by decide +kernel⟩

theorem witness_InspectionComplete_6 : ∃ (s : State),
    (ready .power s) ∧
    (s.monService = true) :=
  ⟨wS, by decide +kernel⟩

theorem witness_ActionsComplete_1 : ∃ (p : Nat) (s : State),
    (ready (.monAssayForce p) s) ∧
    (s.monService = true) ∧
    (s.openPair .monitor Page.ASY = none) ∧
    (p < 1056) ∧
    (guardOpen s .monitor Page.ASY Reg.ASY.ASSAY_FORCE (p + 65536)) :=
  ⟨1055,
   wS, by decide +kernel⟩

theorem witness_ActionsComplete_2 : ∃ (p : Nat) (s : State),
    (ready (.monCanaryTest p) s) ∧
    (s.monService = true) ∧
    (s.openPair .monitor Page.INT = none) ∧
    (p < 1056) ∧
    (guardOpen s .monitor Page.INT Reg.INT.STOPE_TEST (p + 65536)) ∧
    ((s.stope p).integ ≠ 2) :=
  ⟨1055,
   wS, by decide +kernel⟩

theorem witness_ActionsComplete_3 : ∃ (p : Nat) (s : State),
    (ready (.monStopeRetire p) s) ∧
    (s.monService = true) ∧
    (s.openPair .monitor Page.INT = none) ∧
    (p < 1056) ∧
    (guardOpen s .monitor Page.INT Reg.INT.STOPE_RETIRE (p + 65536)) ∧
    ((s.stope p).integ ≠ 2) :=
  ⟨1055,
   wS, by decide +kernel⟩

theorem witness_ActionsComplete_4 : ∃ (n : Nat) (s : State),
    (ready (.monDriftDisable n) s) ∧
    (n < 12) ∧
    (s.monService = true) ∧
    (s.openPair .monitor (Page.DRF n) = none) ∧
    (guardOpen s .monitor (Page.DRF n) Reg.DRF.PORT_DISABLE 1) :=
  ⟨11,
   wS, by decide +kernel⟩

theorem witness_ActionsComplete_5 : ∃ (n : Nat) (s : State),
    (ready (.monDriftEnable n) s) ∧
    (n < 12) ∧
    (s.monService = true) ∧
    (s.openPair .monitor (Page.DRF n) = none) ∧
    (guardOpen s .monitor (Page.DRF n) Reg.DRF.PORT_DISABLE 0) :=
  ⟨11,
   wS, by decide +kernel⟩

theorem witness_ActionsComplete_6 : ∃ (w : Nat) (s : State),
    (ready (.monPowerBudget w) s) ∧
    (s.monService = true) ∧
    (s.openPair .monitor Page.PWR = none) ∧
    (w < 2 ^ 32) ∧
    (guardOpen s .monitor Page.PWR Reg.PWR.GOV_BUDGET w) :=
  ⟨500,
   wS, by decide +kernel⟩

theorem witness_StepRunsCommand_1 : ∃ (c : Instr) (rest : List Instr) (s : State),
    (s.pending = c :: rest) :=
  ⟨.ver,
   [],
   { State.reset with pending := [.ver] }, by decide +kernel⟩

theorem witness_StepRunsCommand_2 : ∃ (s : State),
    (s.pending = []) :=
  ⟨State.reset, by decide +kernel⟩

theorem witness_ResetState_2 : ∃ (p : Nat) (o : Nat) (r : RegRow),
    (p < 4096) ∧
    (o < 1024) ∧
    (resetSpecial p o = none) ∧
    (findRow (pageType p) o = some r) ∧
    (r.reset < 2 ^ 32) :=
  ⟨Page.ASY,
   Reg.ASY.DTEMP,
   ⟨Reg.ASY.DTEMP, Reg.ASY.DTEMP, .rw, 48, 0x3FF, false⟩, by decide +kernel⟩

theorem witness_NothingWithoutInput_1 : ∃ (c : Instr) (s : State),
    (wellFormed c = false) :=
  ⟨.idle 64 0,
   State.reset, by decide +kernel⟩

theorem witness_NothingWithoutInput_2 : ∃ (c : Instr) (s : State),
    (s.powered = false) ∧
    (c ≠ .powerOn) ∧
    (c ≠ .inputOverEnd) ∧
    (wellFormed c = true) :=
  ⟨.ver,
   { State.reset with powered := false }, by decide +kernel⟩

theorem witness_NothingWithoutInput_3 : ∃ (c : Instr) (s : State),
    (wellFormed c = true) :=
  ⟨.ver,
   State.reset, by decide +kernel⟩

theorem witness_PageRegions_1 : ∃ (page : Nat) (off : Nat),
    (off < 0x400) ∧
    (off % 4 = 0) :=
  ⟨0xFFF,
   0x3FC, by decide +kernel⟩

theorem witness_PageRegions_2 : ∃ (page : Nat) (off : Nat),
    (0x400 ≤ off) ∧
    (off < 0x800) ∧
    (off % 4 = 0) :=
  ⟨0xFFF,
   0x7FC, by decide +kernel⟩

theorem witness_PageRegions_3 : ∃ (page : Nat) (off : Nat),
    (0x800 ≤ off) ∧
    (off < 0x1000) :=
  ⟨0xFFF,
   0xFFF, by decide +kernel⟩

theorem witness_PageRegions_4 : ∃ (page : Nat) (off : Nat),
    (0x1000 ≤ off) ∧
    (off < 0x2000) ∧
    (streamPage page = true) :=
  ⟨Page.HOI,
   0x1FFF, by decide +kernel⟩

theorem witness_PageRegions_5 : ∃ (page : Nat) (off : Nat),
    (0x1000 ≤ off) ∧
    (off < 0x2000) ∧
    (streamPage page = false) :=
  ⟨Page.DEV,
   0x1FFF, by decide +kernel⟩

theorem witness_PageRegions_6 : ∃ (page : Nat) (o : Nat) (b : Nat),
    (o < 0x100) ∧
    (o % 4 = 0) ∧
    (b < 32) :=
  ⟨0xFFF,
   0xFC,
   31, by decide +kernel⟩

theorem witness_PageRegions_7 : ∃ (page : Nat) (o : Nat),
    (accOf page o = .rwg) :=
  ⟨Page.PWR,
   Reg.PWR.GOV_BUDGET, by decide +kernel⟩

theorem witness_PageRegions_8 : ∃ (page : Nat) (off : Nat) (o : Nat) (b : Nat),
    (off < 0x4000) ∧
    (viewAt page off = .bitOf o b) :=
  ⟨0xFFF,
   0x3FFF,
   0xFC,
   31, by decide +kernel⟩

theorem witness_BitAliasReads_1 : ∃ (src : Source) (addr : Nat) (o : Nat) (b : Nat) (s : State),
    (ready (.captureRead src addr) s) ∧
    (beyondBar0 addr = false) ∧
    (viewAt (addrPage addr) (addrOff addr) = .bitOf o b) ∧
    ((s.touch src).answers src = true) ∧
    ((s.touch src).mayRead src (addrPage addr) o = true) :=
  ⟨.portA,
   Page.ASY * 16384 + 0x2000 + Reg.ASY.DTEMP * 32 + 4 * 31,
   Reg.ASY.DTEMP,
   31,
   wI, by decide +kernel⟩

theorem witness_ComplementAccesses_1 : ∃ (src : Source) (addr : Nat) (addr' : Nat) (o : Nat) (s : State),
    (ready (.captureRead src addr) s) ∧
    (ready (.captureRead src addr') s) ∧
    (beyondBar0 addr = false) ∧
    (beyondBar0 addr' = false) ∧
    (viewAt (addrPage addr) (addrOff addr) = .comp o) ∧
    (addrPage addr' = addrPage addr) ∧
    (viewAt (addrPage addr') (addrOff addr') = .word o) ∧
    ((s.touch src).answers src = true) ∧
    ((s.touch src).mayRead src (addrPage addr) o = true) :=
  ⟨.portA,
   wordAddr Page.ASY (0x400 + Reg.ASY.DTEMP),
   wordAddr Page.ASY Reg.ASY.DTEMP,
   Reg.ASY.DTEMP,
   wI, by decide +kernel⟩

theorem witness_ComplementAccesses_2 : ∃ (src : Source) (addr : Nat) (o : Nat) (v : Word) (s : State),
    (ready (.complementWrite src addr v) s) ∧
    (beyondBar0 addr = false) ∧
    (viewAt (addrPage addr) (addrOff addr) = .comp o) ∧
    (accOf (addrPage addr) o ≠ .rwg) ∧
    ((s.touch src).answers src = true) ∧
    (s.openPair src (addrPage addr) = none) :=
  ⟨.portA,
   wordAddr Page.ASY (0x400 + Reg.ASY.DTEMP),
   Reg.ASY.DTEMP,
   0,
   wI, by decide +kernel⟩

theorem witness_RolesComplete_4 : ∃ (job step : Nat) (s : State) (c : Nat) (r : RoleEntry),
    ready (.restart job step) s ∧
    let b := s.count Page.CAS Reg.CAS.RESTARTS 2 1
    let u := { b with casc := { b.casc with restarts := b.casc.restarts.filter (fun (e : Nat × Nat) => e.1 != job) ++ [(job, step)] } }
    u.claimOfJob job = some c ∧
    let w := u.on (u.jobActive c) (fun x => (x.dropWork c 3 (fun _ => false)).setJobState c jsReady 0)
    w.casc.roles.find? (fun (x : RoleEntry) => x.role == w.memberNo * 16 + 4) = some r :=
  ⟨1, 8, { wRun (wJob []) with casc := { State.reset.casc with roles := [⟨0xFFF * 16 + 4, 2, 1⟩] } }, 1, ⟨0xFFF * 16 + 4, 2, 1⟩,
   by decide +kernel⟩

theorem witness_StepKeepsCanonical_1 : ∃ s t : State, s.Canonical ∧ step s = .next t :=
  ⟨State.reset, State.reset.tick, by decide +kernel, rfl⟩

theorem witness_ExecLeavesQueue_1 : ∃ (c : Instr) (s t : State), exec c s = .next t :=
  ⟨.ver, { State.reset with powered := false }, _, rfl⟩

theorem witness_ExecLeavesQueue_2 : ∃ (c : Instr) (s : State), wellFormed c = true ∧ s.pending ≠ [] :=
  ⟨.drift (some 12), { State.reset with pending := [.ver] }, by decide +kernel⟩

theorem witness_NothingWithoutInput_4 : ∃ s t : State, s.powered = false ∧ s.pending = [] ∧ step s = .next t :=
  ⟨{ State.reset with powered := false }, _, rfl, rfl, rfl⟩

theorem witness_ForbiddenWrites_1 : ∃ (src : Source) (addr : Nat) (v : Word) (be : Nat) (s : State),
    ready (.registerWrite src addr v be) s ∧ beyondBar0 addr = false ∧ (s.touch src).answers src = true ∧
    (s.touch src).halfAllowed src (addrPage addr) (viewAt (addrPage addr) (addrOff addr)) v = false :=
  ⟨.portA, wordAddr Page.ASY Reg.ASY.DTEMP, 80, 15, State.reset, by decide +kernel⟩

theorem witness_StreamStores_1 : ∃ (src : Source) (page x : Nat) (v : Word) (be : Nat) (s t : State) (c a : Nat),
    exec (.streamWindowWrite src page x v be) s = .next t ∧ streamPage (landPage page) = true ∧ c < 64 ∧ a < 2 ^ 48 ∧
    let p := landPage page
    let w := s.stream src p
    let first := w.addr + w.passed - w.object.length
    (pageType p ≠ .stm ∨ c ≠ (p - Page.STM 0) % 64 ∨ a < first ∨ first + w.object.length + w.lapLen ≤ a) :=
  ⟨.portA, Page.STM 1, 0, 7, 15, wO.setStream .portA (Page.STM 1) { Stream.idle with mode := 1, len := 8 }, _, 1, 8, rfl, by decide +kernel⟩

theorem witness_LeafChecks_1 : ∃ (l : List Dy) (n : Nat) (d : Dy) (k : Int), l[n]? = some d ∧ (leafForm l).2[n]? = some k ∧
    (leafForm l).1 ≤ d.e :=
  ⟨[⟨32767, 3⟩, ⟨1, 0⟩], 0, ⟨32767, 3⟩, 32767, by decide +kernel⟩

theorem witness_LeafChecks_2 : ∃ (x : Leaf) (i q : Nat) (dev : Int), x.rows.length = 64 ∧ x.cols.length = 64 ∧
    (∀ o ∈ x.rows ++ x.cols, o.ms.length = 64 ∧ ∀ m ∈ o.ms, m.natAbs ≤ 32767) ∧ i ≤ 64 ∧ q ≤ 64 ∧ dev ≠ 0 ∧
    (accum x [(i, q, dev)]).2 = [] :=
  let o : Operand := { e := 0, ms := List.replicate 64 32767, nonfin := false }
  ⟨{ rows := List.replicate 64 o, cols := List.replicate 64 o }, 64, 64, -1, by decide +kernel⟩

theorem witness_LeafChecks_1_rounds : ∃ (l : List Dy) (n : Nat) (d : Dy) (k : Int), l[n]? = some d ∧ (leafForm l).2[n]? = some k ∧
    d.e < (leafForm l).1 :=
  ⟨[⟨2 ^ 20, 0⟩, ⟨3, 0⟩], 1, ⟨3, 0⟩, 0, by decide +kernel⟩

end Sys2Proof.Tests
end

section
/-!
The state right after reset (R12): what its registers read, and that nothing is open, loaded or waiting.
-/

namespace Sys2Proof.Machine

/-- A word of the tables that resets to no special value resets to the value of its row, in every bank (R12). -/
theorem resetWord_regKey_of_findRow {p o : Nat} {r : RegRow} (b : Nat) (hp : p < 4096) (ho : o < 1024)
    (hs : resetSpecial p o = none) (hr : findRow (pageType p) o = some r) :
    resetWord (regKey b p o) = BitVec.ofNat 32 r.reset := by
  have hoff : regKey b p o % 1024 = o := by unfold regKey; omega
  have hpage : regKey b p o / 1024 % 4096 = p := by unfold regKey; omega
  simp only [resetWord, hoff, hpage, hs, hr]

@[simp] theorem State.reg_reset (k : Nat) : State.reset.reg k = resetWord k := rfl

@[simp] theorem State.rdB_reset (b p o : Nat) : State.reset.rdB b p o = (resetWord (regKey b p o)).toNat :=
  congrArg BitVec.toNat (State.reg_reset _)

@[simp] theorem State.rdByte_reset (c a : Nat) : State.reset.rdByte c a = 0 := rfl

@[simp] theorem State.job_reset (c : Nat) : State.reset.job? c = none := rfl

@[simp] theorem State.openPair_reset (src : Source) (p : Nat) : State.reset.openPair src p = none := rfl

/-- A visible word reads the reset value of its row. -/
theorem State.rd_reset_of_findRow {p o : Nat} {r : RegRow} (hp : p < 4096) (ho : o < 1024) (hs : resetSpecial p o = none)
    (hr : findRow (pageType p) o = some r) (hlt : r.reset < 2 ^ 32) : State.reset.rd p o = r.reset := by
  rw [← State.rdB_zero, State.rdB_reset, resetWord_regKey_of_findRow 0 hp ho hs hr, BitVec.toNat_ofNat, Nat.mod_eq_of_lt hlt]

/-- SESS_STATE of every source reads 0, the code of a source without a session. -/
theorem State.rd_sessState_reset (src : Source) : State.reset.rd (Page.ROL src.num) Reg.ROL.SESS_STATE = 0 := by
  have hpage : Page.ROL src.num < 4096 := by cases src <;> decide
  have hspecial : resetSpecial (Page.ROL src.num) Reg.ROL.SESS_STATE = none := by cases src <;> decide
  have htype : pageType (Page.ROL src.num) = .rol := by cases src <;> rfl
  have hrow : ∃ r, findRow .rol Reg.ROL.SESS_STATE = some r ∧ r.reset = 0 := ⟨_, rfl, rfl⟩
  obtain ⟨r, hfind, hzero⟩ := hrow
  rw [State.rd_reset_of_findRow hpage (by decide) hspecial (htype ▸ hfind) (by simp [hzero]), hzero]

/-- No source holds a session. -/
@[simp] theorem State.roleOf_reset (src : Source) : State.reset.roleOf src = 0 := by
  have hnot : (bits 0 1 0 == 2) = false := by decide
  simp [State.roleOf, State.rd_sessState_reset, hnot]

/-- Memory and the register file list nothing, which is the canonical form of their reset values. -/
theorem State.canonical_reset : State.reset.Canonical := ⟨rfl, rfl⟩

/-- Settles O51: the register file, memory, the jobs, the pairs and the queue list nothing at reset, so each read gives its
unlisted value; for a register word that is `resetWord`, hence its row of the tables. -/
theorem resetState : Obligations.ResetState := by
  unfold Obligations.ResetState
  have hrows (p o : Nat) (r : RegRow) (hp : p < 4096) (ho : o < 1024) (hs : resetSpecial p o = none)
      (hr : findRow (pageType p) o = some r) (hlt : r.reset < 2 ^ 32) : State.reset.rd p o = r.reset :=
    State.rd_reset_of_findRow hp ho hs hr hlt
  exact ⟨State.rdB_reset, hrows, State.rdByte_reset, State.roleOf_reset, State.job_reset, State.openPair_reset, rfl, rfl,
    State.canonical_reset⟩

end Sys2Proof.Machine
end

section
/-!
Every command: which outcomes it can have, what it keeps when it completes, and what is left of it while the input is absent (R15).
-/

namespace Sys2Proof.Machine

/-! ### The outcomes of the two wrappers -/

theorem performAlways_notWf {i : Instr} {t : State} (h : wellFormed i = false) : performAlways i t = .fault .noSuchUnit := by
  simp [performAlways, h]

theorem perform_unpowered {i : Instr} {s t : State} (h : wellFormed i = true) (p : s.powered = false) : perform i s t = .next s := by
  simp [perform_wf h, p]

/-! ### The outcomes of a command -/

/-- Every command is the effect of a powered module, but for the two by which the input returns (R15). -/
theorem exec_eq_perform {c : Instr} (s : State) (hon : c ≠ .powerOn) (hover : c ≠ .inputOverEnd) :
    ∃ t, exec c s = perform c s t := by
  cases c with
  | powerOn => exact absurd rfl hon
  | inputOverEnd => exact absurd rfl hover
  | _ => exact ⟨_, rfl⟩

/-- The two commands by which the input returns act without power too. -/
theorem exec_eq_performAlways {c : Instr} (s : State) (h : c = .powerOn ∨ c = .inputOverEnd) :
    ∃ t, exec c s = performAlways c t := by
  obtain rfl | rfl := h
  · exact ⟨_, rfl⟩
  · exact ⟨_, rfl⟩

/-- The one inversion of `exec` that the laws on outcomes rest on. -/
theorem exec_eq_wrapper (c : Instr) (s : State) : (∃ t, exec c s = perform c s t) ∨ ∃ t, exec c s = performAlways c t := by
  by_cases hin : c = .powerOn ∨ c = .inputOverEnd
  · exact .inr (exec_eq_performAlways s hin)
  · obtain ⟨hon, hover⟩ := not_or.mp hin
    exact .inl (exec_eq_perform s hon hover)

theorem exec_wf {c : Instr} (s : State) (h : wellFormed c = true) : ∃ t, exec c s = .next t := by
  obtain ⟨t, e⟩ | ⟨t, e⟩ := exec_eq_wrapper c s
  · exact ⟨_, e.trans (perform_wf h)⟩
  · exact ⟨_, e.trans (performAlways_wf h)⟩

theorem exec_notWf {c : Instr} (s : State) (h : wellFormed c = false) : exec c s = .fault .noSuchUnit := by
  obtain ⟨t, e⟩ | ⟨t, e⟩ := exec_eq_wrapper c s
  · exact e.trans (perform_notWf h)
  · exact e.trans (performAlways_notWf h)

theorem exec_ne_refused (c : Instr) (s : State) (r : Refusal) : exec c s ≠ .refused r := by
  cases hwf : wellFormed c with
  | true =>
    obtain ⟨t, e⟩ := exec_wf s hwf
    simp [e]
  | false => simp [exec_notWf s hwf]

/-- Without power a command that is not the input's return has no effect. -/
theorem exec_unpowered {c : Instr} {s : State} (p : s.powered = false) (hon : c ≠ .powerOn) (hover : c ≠ .inputOverEnd)
    (h : wellFormed c = true) : exec c s = .next s := by
  obtain ⟨t, e⟩ := exec_eq_perform s hon hover
  exact e.trans (perform_unpowered h p)

/-- Without power a nanosecond advances the oscillator alone. -/
theorem State.tick_unpowered {s : State} (p : s.powered = false) : s.tick = { s with osc := s.osc + 1 } := by
  simp [State.tick, p]

theorem step_of_pending_nil {s : State} (h : s.pending = []) : step s = .next s.tick := by
  simp [step, h]

/-! ### What a command keeps -/

/-- A command that completes keeps what its own effect keeps (the lemma `exec<Name>_keeps` of its arm). -/
theorem exec_keeps {s t : State} : ∀ {c : Instr}, exec c s = .next t → Keeps s t
  | .idle c e, hrun => execIdle_keeps c e hrun
  | .idleEnd c e, hrun => execIdleEnd_keeps c e hrun
  | .seamPass c e, hrun => execSeamPass_keeps c e hrun
  | .vectorRead p k, hrun => execVectorRead_keeps p k hrun
  | .vectorReadDone p k codes, hrun => execVectorReadDone_keeps p k codes hrun
  | .splitPartRead p k codes, hrun => execSplitPartRead_keeps p k codes hrun
  | .chainPartial c layer cb rb vec, hrun => execChainPartial_keeps c layer cb rb vec hrun
  | .headCollarOutput c layer cb vec dupOk, hrun => execHeadCollarOutput_keeps c layer cb vec dupOk hrun
  | .rangeRecheck c layer cb vec, hrun => execRangeRecheck_keeps c layer cb vec hrun
  | .zeroVector p k, hrun => execZeroVector_keeps p k hrun
  | .stashWrite c layer mb, hrun => execStashWrite_keeps c layer mb hrun
  | .spillComplete c layer mb, hrun => execSpillComplete_keeps c layer mb hrun
  | .recomputeRun c mb, hrun => execRecomputeRun_keeps c mb hrun
  | .hewDx c e, hrun => execHewDx_keeps c e hrun
  | .hewDw c e, hrun => execHewDw_keeps c e hrun
  | .tileStart p, hrun => execTileStart_keeps p hrun
  | .leafEnd p dev dupOk, hrun => execLeafEnd_keeps p dev dupOk hrun
  | .partRootArrival c e part, hrun => execPartRootArrival_keeps c e part hrun
  | .tileDrain p dupOk, hrun => execTileDrain_keeps p dupOk hrun
  | .hewerReliefTile c layer cb rb vec, hrun => execHewerReliefTile_keeps c layer cb rb vec hrun
  | .wideOp c e prog checkOk, hrun => execWideOp_keeps c e prog checkOk hrun
  | .send c e, hrun => execSend_keeps c e hrun
  | .recv c e, hrun => execRecv_keeps c e hrun
  | .reduce c e words, hrun => execReduce_keeps c e words hrun
  | .millPush c e, hrun => execMillPush_keeps c e hrun
  | .pushAccept c set, hrun => execPushAccept_keeps c set hrun
  | .setUpdate agree, hrun => execSetUpdate_keeps agree hrun
  | .bridgeBlock c addr fails, hrun => execBridgeBlock_keeps c addr fails hrun
  | .verdictArrival member mask, hrun => execVerdictArrival_keeps member mask hrun
  | .decisionHold mask after, hrun => execDecisionHold_keeps mask after hrun
  | .decisionReceive mask after, hrun => execDecisionReceive_keeps mask after hrun
  | .assaySlot c e, hrun => execAssaySlot_keeps c e hrun
  | .assaySlotEnd c e, hrun => execAssaySlotEnd_keeps c e hrun
  | .testSlot c e, hrun => execTestSlot_keeps c e hrun
  | .testSlotEnd c e ends, hrun => execTestSlotEnd_keeps c e ends hrun
  | .probeStep c, hrun => execProbeStep_keeps c hrun
  | .load src, hrun => execLoad_keeps src hrun
  | .start src, hrun => execStart_keeps src hrun
  | .jobRunBegin c, hrun => execJobRunBegin_keeps c hrun
  | .stop src, hrun => execStop_keeps src hrun
  | .swap src, hrun => execSwap_keeps src hrun
  | .unload src, hrun => execUnload_keeps src hrun
  | .abort src v, hrun => execAbort_keeps src v hrun
  | .govWindow vcore icore, hrun => execGovWindow_keeps vcore icore hrun
  | .tallyMarker port value epoch hops refSource delay tagOk, hrun => execTallyMarker_keeps port value epoch hops refSource delay tagOk hrun
  | .refPpsEdge err, hrun => execRefPpsEdge_keeps err hrun
  | .refClkReject ppm, hrun => execRefClkReject_keeps ppm hrun
  | .tallySet src v, hrun => execTallySet_keeps src v hrun
  | .gridSet src v, hrun => execGridSet_keeps src v hrun
  | .queueWindow slow depths busiest, hrun => execQueueWindow_keeps slow depths busiest hrun
  | .migrateStripe slow, hrun => execMigrateStripe_keeps slow hrun
  | .chanRetire src stack v, hrun => execChanRetire_keeps src stack v hrun
  | .slowStackRetire src page v, hrun => execSlowStackRetire_keeps src page v hrun
  | .blockArrival way c addr fails, hrun => execBlockArrival_keeps way c addr fails hrun
  | .scrubRead c addr fails, hrun => execScrubRead_keeps c addr fails hrun
  | .rebuildDone c addr, hrun => execRebuildDone_keeps c addr hrun
  | .scrubPassEnd slow, hrun => execScrubPassEnd_keeps slow hrun
  | .resync c step, hrun => execResync_keeps c step hrun
  | .freezeDone c, hrun => execFreezeDone_keeps c hrun
  | .ckptSendDone c, hrun => execCkptSendDone_keeps c hrun
  | .writeListBlock lp k, hrun => execWriteListBlock_keeps lp k hrun
  | .seamQuiet lp k, hrun => execSeamQuiet_keeps lp k hrun
  | .writeRowSide p k row neg before after more, hrun => execWriteRowSide_keeps p k row neg before after more hrun
  | .reliefCopyDone p window, hrun => execReliefCopyDone_keeps p window hrun
  | .driftProbe p k group sum, hrun => execDriftProbe_keeps p k group sum hrun
  | .assayDue p temp, hrun => execAssayDue_keeps p temp hrun
  | .assayOverdue p, hrun => execAssayOverdue_keeps p hrun
  | .assayForce src v, hrun => execAssayForce_keeps src v hrun
  | .arrayAssay p k, hrun => execArrayAssay_keeps p k hrun
  | .arrayAssayDone p k meas, hrun => execArrayAssayDone_keeps p k meas hrun
  | .writeEffortReplan p k, hrun => execWriteEffortReplan_keeps p k hrun
  | .laneFail port lane cause, hrun => execLaneFail_keeps port lane cause hrun
  | .eyeMeasure port lane eye, hrun => execEyeMeasure_keeps port lane eye hrun
  | .laneRetrain port lane eye held, hrun => execLaneRetrain_keeps port lane eye held hrun
  | .laneRetire src port v, hrun => execLaneRetire_keeps src port v hrun
  | .tubReceive port tub, hrun => execTubReceive_keeps port tub hrun
  | .retry port lseq, hrun => execRetry_keeps port lseq hrun
  | .ackTimeout port, hrun => execAckTimeout_keeps port hrun
  | .messageReceive port m, hrun => execMessageReceive_keeps port m hrun
  | .staleRoleReply port r mseq, hrun => execStaleRoleReply_keeps port r mseq hrun
  | .noticeSound n, hrun => execNoticeSound_keeps n hrun
  | .noticeUnsound n, hrun => execNoticeUnsound_keeps n hrun
  | .rosterCommit src v, hrun => execRosterCommit_keeps src v hrun
  | .rosterReceive port bytes, hrun => execRosterReceive_keeps port bytes hrun
  | .linkTrained port lanes, hrun => execLinkTrained_keeps port lanes hrun
  | .hello port h, hrun => execHello_keeps port h hrun
  | .authTimeout port, hrun => execAuthTimeout_keeps port hrun
  | .quarantineRetry port, hrun => execQuarantineRetry_keeps port hrun
  | .candidate k, hrun => execCandidate_keeps k hrun
  | .join member identity content, hrun => execJoin_keeps member identity content hrun
  | .admitMember member cascade epoch tallyNow stateEpoch roles routes period origin sealW, hrun =>
    execAdmitMember_keeps member cascade epoch tallyNow stateEpoch roles routes period origin sealW hrun
  | .refuse reason, hrun => execRefuse_keeps reason hrun
  | .standbyTakeover answers, hrun => execStandbyTakeover_keeps answers hrun
  | .headMove src v, hrun => execHeadMove_keeps src v hrun
  | .routeTable version routes, hrun => execRouteTable_keeps version routes hrun
  | .roleUpdate roles atTally, hrun => execRoleUpdate_keeps roles atTally hrun
  | .portDown port, hrun => execPortDown_keeps port hrun
  | .uncorrWindow port count, hrun => execUncorrWindow_keeps port count hrun
  | .portDisable src port v, hrun => execPortDisable_keeps src port v hrun
  | .memberEvict src v, hrun => execMemberEvict_keeps src v hrun
  | .restart job step, hrun => execRestart_keeps job step hrun
  | .imageFetchDone c base, hrun => execImageFetchDone_keeps c base hrun
  | .pendingReadAbort src, hrun => execPendingReadAbort_keeps src hrun
  | .watchWindowEnd p, hrun => execWatchWindowEnd_keeps p hrun
  | .testDue p, hrun => execTestDue_keeps p hrun
  | .testOverdue p, hrun => execTestOverdue_keeps p hrun
  | .reliefPrep p target testOk, hrun => execReliefPrep_keeps p target testOk hrun
  | .reliefPrepDone p, hrun => execReliefPrepDone_keeps p hrun
  | .stopeRetire src v, hrun => execStopeRetire_keeps src v hrun
  | .stopeTest src v, hrun => execStopeTest_keeps src v hrun
  | .fullTest src v, hrun => execFullTest_keeps src v hrun
  | .canaryCommit src v, hrun => execCanaryCommit_keeps src v hrun
  | .canaryRemove src v, hrun => execCanaryRemove_keeps src v hrun
  | .captureRelease src v, hrun => execCaptureRelease_keeps src v hrun
  | .heartbeatLoss p, hrun => execHeartbeatLoss_keeps p hrun
  | .coreTakeover lockstep, hrun => execCoreTakeover_keeps lockstep hrun
  | .routerTakeover p, hrun => execRouterTakeover_keeps p hrun
  | .apply src n v, hrun => execApply_keeps src n v hrun
  | .stripeFillDone n, hrun => execStripeFillDone_keeps n hrun
  | .bind src n v, hrun => execBind_keeps src n v hrun
  | .destroy src n v, hrun => execDestroy_keeps src n v hrun
  | .unbind src n v, hrun => execUnbind_keeps src n v hrun
  | .wipe src n v, hrun => execWipe_keeps src n v hrun
  | .clearDone n, hrun => execClearDone_keeps n hrun
  | .volatile src n v, hrun => execVolatile_keeps src n v hrun
  | .sessReq src v, hrun => execSessReq_keeps src v hrun
  | .sessProve src v, hrun => execSessProve_keeps src v hrun
  | .sessEnd src v, hrun => execSessEnd_keeps src v hrun
  | .sessionIdle src, hrun => execSessionIdle_keeps src hrun
  | .blockedEnd src, hrun => execBlockedEnd_keeps src hrun
  | .instEnrol src v, hrun => execInstEnrol_keeps src v hrun
  | .instWithdraw src v, hrun => execInstWithdraw_keeps src v hrun
  | .attestReq src v, hrun => execAttestReq_keeps src v hrun
  | .attestReady src, hrun => execAttestReady_keeps src hrun
  | .makerGate src v, hrun => execMakerGate_keeps src v hrun
  | .diagOpen src v, hrun => execDiagOpen_keeps src v hrun
  | .consentExpiry claim, hrun => execConsentExpiry_keeps claim hrun
  | .ideKeyCommit src v, hrun => execIdeKeyCommit_keeps src v hrun
  | .ideRequire src v, hrun => execIdeRequire_keeps src v hrun
  | .stageBegin src v, hrun => execStageBegin_keeps src v hrun
  | .stageDiscard src v, hrun => execStageDiscard_keeps src v hrun
  | .fwCommit src v, hrun => execFwCommit_keeps src v hrun
  | .flashWriteDone retries, hrun => execFlashWriteDone_keeps retries hrun
  | .fwRevert src v, hrun => execFwRevert_keeps src v hrun
  | .fuseBurn src v, hrun => execFuseBurn_keeps src v hrun
  | .registerWrite src addr v be, hrun => execRegisterWrite_keeps src addr v be hrun
  | .guardPairOpen src addr v, hrun => execGuardPairOpen_keeps src addr v hrun
  | .guardPairTimeout src page, hrun => execGuardPairTimeout_keeps src page hrun
  | .complementWrite src addr v, hrun => execComplementWrite_keeps src addr v hrun
  | .enableClear src page, hrun => execEnableClear_keeps src page hrun
  | .enableSet src page, hrun => execEnableSet_keeps src page hrun
  | .drainComplete page, hrun => execDrainComplete_keeps page hrun
  | .evtFlagClear src page v, hrun => execEvtFlagClear_keeps src page v hrun
  | .captureRead src addr, hrun => execCaptureRead_keeps src addr hrun
  | .bitAliasWrite src addr v, hrun => execBitAliasWrite_keeps src addr v hrun
  | .streamWriteStart src page, hrun => execStreamWriteStart_keeps src page hrun
  | .streamReadStart src page, hrun => execStreamReadStart_keeps src page hrun
  | .streamAbandon src page, hrun => execStreamAbandon_keeps src page hrun
  | .streamWindowWrite src page x v be, hrun => execStreamWindowWrite_keeps src page x v be hrun
  | .streamWindowRead src page x, hrun => execStreamWindowRead_keeps src page x hrun
  | .streamReadTimeout src page, hrun => execStreamReadTimeout_keeps src page hrun
  | .perst port, hrun => execPerst_keeps port hrun
  | .hotReset port, hrun => execHotReset_keeps port hrun
  | .functionLevelReset port, hrun => execFunctionLevelReset_keeps port hrun
  | .linkUp port speed width flit, hrun => execLinkUp_keeps port speed width flit hrun
  | .hostLost port, hrun => execHostLost_keeps port hrun
  | .d3hotEntry port, hrun => execD3hotEntry_keeps port hrun
  | .d0Return port, hrun => execD0Return_keeps port hrun
  | .unsupportedRequest port kind addr, hrun => execUnsupportedRequest_keeps port kind addr hrun
  | .msiHoldoffEnd port vec, hrun => execMsiHoldoffEnd_keeps port vec hrun
  | .bindSet src port v, hrun => execBindSet_keeps src port v hrun
  | .ideFail port sub, hrun => execIdeFail_keeps port sub hrun
  | .inputStateChange mv, hrun => execInputStateChange_keeps mv hrun
  | .inputOver mv, hrun => execInputOver_keeps mv hrun
  | .powerFail mv draw, hrun => execPowerFail_keeps mv draw hrun
  | .convFail k cause, hrun => execConvFail_keeps k cause hrun
  | .convRetire src v, hrun => execConvRetire_keeps src v hrun
  | .spareRotate k lowEfficiency, hrun => execSpareRotate_keeps k lowEfficiency hrun
  | .phaseFail k cause, hrun => execPhaseFail_keeps k cause hrun
  | .phaseRetire src v, hrun => execPhaseRetire_keeps src v hrun
  | .sensorInvalid p ch, hrun => execSensorInvalid_keeps p ch hrun
  | .sensorValid p ch, hrun => execSensorValid_keeps p ch hrun
  | .mainsWindow r, hrun => execMainsWindow_keeps r hrun
  | .thermalWarn cls inst temp, hrun => execThermalWarn_keeps cls inst temp hrun
  | .thermalClamp cls inst temp, hrun => execThermalClamp_keeps cls inst temp hrun
  | .thermalTrip cls inst temp, hrun => execThermalTrip_keeps cls inst temp hrun
  | .tripClear src v, hrun => execTripClear_keeps src v hrun
  | .govBudget src v, hrun => execGovBudget_keeps src v hrun
  | .inputLimit src v, hrun => execInputLimit_keeps src v hrun
  | .bringupStep ms imageOk, hrun => execBringupStep_keeps ms imageOk hrun
  | .recoveryImage image, hrun => execRecoveryImage_keeps image hrun
  | .deviceReset src v, hrun => execDeviceReset_keeps src v hrun
  | .prospectClear src v, hrun => execProspectClear_keeps src v hrun
  | .seriesRecord r, hrun => execSeriesRecord_keeps r hrun
  | .fcCmd src v, hrun => execFcCmd_keeps src v hrun
  | .forecastDone values, hrun => execForecastDone_keeps values hrun
  | .commandLine chars overrun framing, hrun => execCommandLine_keeps chars overrun framing hrun
  | .help command, hrun => execHelp_keeps command hrun
  | .login role claim chain, hrun => execLogin_keeps role claim chain hrun
  | .loginSignature sig, hrun => execLoginSignature_keeps sig hrun
  | .peek addr n, hrun => execPeek_keeps addr n hrun
  | .poke addr v complement, hrun => execPoke_keeps addr v complement hrun
  | .log seq n sec, hrun => execLog_keeps seq n sec hrun
  | .assay p k, hrun => execAssay_keeps p k hrun
  | .monAssayForce p, hrun => execMonAssayForce_keeps p hrun
  | .monCanaryTest p, hrun => execMonCanaryTest_keeps p hrun
  | .stope p, hrun => execStope_keeps p hrun
  | .monStopeRetire p, hrun => execMonStopeRetire_keeps p hrun
  | .drift port, hrun => execDrift_keeps port hrun
  | .monDriftDisable port, hrun => execMonDriftDisable_keeps port hrun
  | .monDriftEnable port, hrun => execMonDriftEnable_keeps port hrun
  | .monPowerBudget w, hrun => execMonPowerBudget_keeps w hrun
  | .baud src v, hrun => execBaud_keeps src v hrun
  | .alert page, hrun => execAlert_keeps page hrun
  | .testComplete p failed, hrun => execTestComplete_keeps p failed hrun
  | .linkDown port, hrun => execLinkDown_keeps port hrun
  | .perstRelease port, hrun => execPerstRelease_keeps port hrun
  | .thermalClampEnd cls inst temp, hrun => execThermalClampEnd_keeps cls inst temp hrun
  | .bringupStepLate unit, hrun => execBringupStepLate_keeps unit hrun
  | .sealLaunch, hrun => execSealLaunch_keeps hrun
  | .verdict, hrun => execVerdict_keeps hrun
  | .verdictDeadline, hrun => execVerdictDeadline_keeps hrun
  | .decisionAck, hrun => execDecisionAck_keeps hrun
  | .decisionDeadline, hrun => execDecisionDeadline_keeps hrun
  | .sealCommit, hrun => execSealCommit_keeps hrun
  | .markerSend, hrun => execMarkerSend_keeps hrun
  | .markerLoss, hrun => execMarkerLoss_keeps hrun
  | .ppsMissing, hrun => execPpsMissing_keeps hrun
  | .tallyStore, hrun => execTallyStore_keeps hrun
  | .gridTakesEffect, hrun => execGridTakesEffect_keeps hrun
  | .ageingCopy, hrun => execAgeingCopy_keeps hrun
  | .headframeElect, hrun => execHeadframeElect_keeps hrun
  | .joinRetry, hrun => execJoinRetry_keeps hrun
  | .fwVerify, hrun => execFwVerify_keeps hrun
  | .standbyBooted, hrun => execStandbyBooted_keeps hrun
  | .standbyBootTimeout, hrun => execStandbyBootTimeout_keeps hrun
  | .pairCurrent, hrun => execPairCurrent_keeps hrun
  | .probationEnd, hrun => execProbationEnd_keeps hrun
  | .recordAdmit, hrun => execRecordAdmit_keeps hrun
  | .archiveSegment, hrun => execArchiveSegment_keeps hrun
  | .powerOn, hrun => execPowerOn_keeps hrun
  | .recoveryAsk, hrun => execRecoveryAsk_keeps hrun
  | .ver, hrun => execVer_keeps hrun
  | .who, hrun => execWho_keeps hrun
  | .loginTimeout, hrun => execLoginTimeout_keeps hrun
  | .loginEnd, hrun => execLoginEnd_keeps hrun
  | .tally, hrun => execTally_keeps hrun
  | .canary, hrun => execCanary_keeps hrun
  | .power, hrun => execPower_keeps hrun
  | .breakCond, hrun => execBreakCond_keeps hrun
  | .inputOverEnd, hrun => execInputOverEnd_keeps hrun

/-- The part of `Keeps` about the queue, the oscillator and the free values. -/
theorem Keeps.queue {s t : State} (k : Keeps s t) : t.pending = s.pending ∧ t.osc = s.osc ∧ s.fresh ≤ t.fresh := k.2

/-! ### The obligations -/

/-- Settles O53: a well-formed command completes because each arm of `exec` is one of the two wrappers, and what it leaves alone
is the frame that the arm's own lemma gives. -/
theorem execLeavesQueue : Obligations.ExecLeavesQueue := by
  unfold Obligations.ExecLeavesQueue
  refine ⟨fun c s t h => (exec_keeps h).queue, fun c s hwf => ?_, exec_ne_refused⟩
  obtain ⟨t, h⟩ := exec_wf s hwf
  exact ⟨t, h, (exec_keeps h).queue⟩

/-- Settles O54: without power `perform` gives the state back, and a tick moves nothing but the oscillator. -/
theorem nothingWithoutInput : Obligations.NothingWithoutInput := by
  unfold Obligations.NothingWithoutInput
  refine ⟨fun c s => exec_notWf s, fun c s p => exec_unpowered p, fun c s => exec_wf s, fun s t p hnil h => ?_⟩
  rw [step_of_pending_nil hnil, State.tick_unpowered p] at h
  injection h with h
  subst h
  exact ⟨rfl, rfl, rfl⟩

end Sys2Proof.Machine
end

section
/-!
Partial blocks on their way to the head collar, and what the head collar does with a complete vector (R56, R57, R283, R346, R347).
-/

namespace Sys2Proof.Machine

/-- A command that the state is ready for has its effect. -/
theorem perform_ready {i : Instr} {s t : State} (h : ready i s) : perform i s t = .next t := perform_powered h.2 h.1

/-! ### Arrival of a partial block (R56) -/

/-- No packet of a partial block where every packet is of another kind or has another tag. -/
theorem State.mesh_any_eq_false {s : State} {c e : Nat} {tag : List Nat} (h : ∀ q ∈ s.mesh, q.kind ≠ 0 ∨ q.tag ≠ tag) :
    s.mesh.any (fun q => q.claim == c && q.entry == e && q.kind == 0 && q.tag == tag) = false := by
  rw [List.any_eq_false]
  intro q hq hall
  simp only [Bool.and_eq_true, beq_iff_eq] at hall
  obtain ⟨⟨-, hkind⟩, htag⟩ := hall
  exact (h q hq).elim (· hkind) (· htag)

/-- A packet that is under way is one of the packets of its kind and tag. -/
theorem State.mesh_any_of_meshFind {s : State} {c e k : Nat} {tag : List Nat} {q : Packet} (h : s.meshFind c e k tag = some q) :
    s.mesh.any (fun q => q.claim == c && q.entry == e && q.kind == k && q.tag == tag) = true := by
  have hq := List.find?_some h
  rw [Bool.and_eq_true] at hq
  exact List.any_eq_true.mpr ⟨q, List.mem_of_find?_eq_some h, hq.1⟩

section
variable {c layer cb rb vec : Nat} {j : Job} {x : Partial} {s : State}

/-- A partial block of the head's own stope, on a collar link, is taken at once. -/
theorem State.partialArrives_link (hj : s.job? c = some j)
    (hx : j.partials.find? (fun y => y.layer == layer && y.cb == cb && y.rb == rb && y.vec == vec && !y.here) = some x)
    (hmesh : ∀ q ∈ s.mesh, q.kind ≠ 0 ∨ q.tag ≠ [cb, vec, rb]) :
    s.partialArrives c layer cb rb vec = s.modJob c (fun i => { i with
      partials := i.partials.map (fun y => if y == x then { y with here := true } else y) }) := by
  simp only [State.partialArrives, hj, Option.bind_some, hx, State.mesh_any_eq_false hmesh, Bool.false_eq_true, if_false]

/-- A partial block on the mesh lands in the order of R23. -/
theorem State.partialArrives_mesh {q : Packet} (hj : s.job? c = some j)
    (hx : j.partials.find? (fun y => y.layer == layer && y.cb == cb && y.rb == rb && y.vec == vec && !y.here) = some x)
    (hq : s.meshFind c x.entry 0 [cb, vec, rb] = some q) (hmay : s.mayArrive q = true) :
    s.partialArrives c layer cb rb vec = (s.meshLand q).modJob c (fun i => { i with
      partials := i.partials.map (fun y => if y == x then { y with here := true } else y) }) := by
  simp only [State.partialArrives, hj, Option.bind_some, hx, State.mesh_any_of_meshFind hq, if_true, hq, hmay]

end

/-! ### The relief tile's conditions (R283) -/

/-- None of what holds a relief tile back: an open seam, no hewer, a seal that the pass waits for, a hold, a clamp. -/
theorem State.not_reliefHeld {s : State} {q : Nat × Nat} {h : HoistE} {hs : List Nat} (hclosed : s.seamClosed q.1 q.2 = true)
    (hne : hs ≠ []) (hseal : s.sealing.phase = 0 ∨ h.serve = true) (hhold : s.holdAll = false) (hclamp : s.clampActs = false) :
    ¬ (s.seamClosed q.1 q.2 = false ∨ hs = [] ∨ (s.sealing.phase ≠ 0 ∧ h.serve = false) ∨ s.holdAll ∨ s.clampActs) := by
  have hserve : ¬ (s.sealing.phase ≠ 0 ∧ h.serve = false) := by
    rintro ⟨hphase, hnot⟩
    exact hseal.elim hphase (by simp [hnot])
  simp [hclosed, hne, hserve, hhold, hclamp]

/-! ### The recheck (R347) -/

/-- Columns that are all within their bands leave none outside. -/
theorem filter_outsideBand_eq_nil {seen : List (Nat × Int × Int × Nat)}
    (h : ∀ x ∈ seen, (x.2.1 - x.2.2.1).natAbs * 2 ^ 45 ≤ x.2.2.2) :
    seen.filter (fun x => decide (x.2.2.2 < (x.2.1 - x.2.2.1).natAbs * 2 ^ 45)) = [] := by
  rw [List.filter_eq_nil_iff]
  intro x hx
  simpa using h x hx

/-! ### The obligation -/

/-- Settles O42: under each clause's premises one path through the command's branches is left, and its state is the one that the
clause writes. A block without a packet came on a collar link, one whose packet may arrive lands; no condition holds the relief
tile back; with every column within its band the recheck finds none outside. -/
theorem collarsComplete : Obligations.CollarsComplete := by
  unfold Obligations.CollarsComplete
  refine ⟨?link, ?mesh, ?relief, ?output, ?recheck⟩
  case link =>
    intro c layer cb rb vec j x s hready hj hx hmesh
    exact (perform_ready hready).trans (congrArg _ (State.partialArrives_link hj hx hmesh))
  case mesh =>
    intro c layer cb rb vec j x q s hready hj hx hq hmay
    exact (perform_ready hready).trans (congrArg _ (State.partialArrives_mesh hj hx hq hmay))
  case relief =>
    intro c layer cb rb vec e j d q h s hready hj he hd hq hh hclosed hne hseal hhold hclamp hcodes
    have hheld := State.not_reliefHeld hclosed hne hseal hhold hclamp
    refine (perform_ready hready).trans ?_
    simp only [hj, he, hd, hq, hh, hcodes, if_neg hheld]
  case output =>
    intro c layer cb vec e j d l h x0 s hready hj hd hl hh hx0
    refine (perform_ready hready).trans ?_
    simp only [State.headOutput, hj, hd, hl, hh, hx0, Bool.not_true, Bool.false_eq_true, if_false]
  case recheck =>
    intro c layer cb vec j d row h s hready hj hd hrow hh l p inst noted seen hband
    have hnone := filter_outsideBand_eq_nil hband
    refine (perform_ready hready).trans ?_
    simp only [seen, l] at hnone
    simp only [State.rangeRecheck, hj, hd, hrow, hh, hnone]
    rfl

end Sys2Proof.Machine
end

section
/-!
Rounding a dyadic number to the nearest multiple of a power of 2, and leaf form (R79).
-/

namespace Sys2Proof.Machine

/-! ### Rounding to a multiple of 2^u -/

/-- Rounding takes the quotient where the remainder is half a unit at most, and one more where it is half a unit at least. -/
theorem rneShift_cases (m : Int) (sh : Nat) :
    (rneShift m sh = m / 2 ^ sh ∧ 2 * (m % 2 ^ sh) ≤ 2 ^ sh) ∨ (rneShift m sh = m / 2 ^ sh + 1 ∧ 2 ^ sh ≤ 2 * (m % 2 ^ sh)) := by
  have hrem : m - m / 2 ^ sh * 2 ^ sh = m % 2 ^ sh := by rw [Int.emod_def, mul_comm]
  simp only [rneShift, Nat.cast_pow, Nat.cast_ofNat, hrem]
  split_ifs <;> omega

/-- Rounding to the nearest multiple of 2^sh errs by half of it at most. -/
theorem rneShift_nearest (m : Int) (sh : Nat) : 2 * (m - rneShift m sh * 2 ^ sh).natAbs ≤ 2 ^ sh := by
  have hpos : (0 : Int) < 2 ^ sh := by positivity
  have hlow := Int.emod_nonneg m hpos.ne'
  have hhigh := Int.emod_lt_of_pos m hpos
  have hm := Int.emod_add_ediv_mul m (2 ^ sh)
  zify
  obtain ⟨hk, hr⟩ | ⟨hk, hr⟩ := rneShift_cases m sh
  · rw [hk, show m - m / 2 ^ sh * 2 ^ sh = m % 2 ^ sh by omega, abs_of_nonneg hlow]
    exact hr
  · rw [hk, show m - (m / 2 ^ sh + 1) * 2 ^ sh = m % 2 ^ sh - 2 ^ sh by rw [add_mul, one_mul]; omega, abs_of_neg (by omega)]
    omega

/-- A number below 2^(n + sh) rounds to at most 2^n multiples of 2^sh. -/
theorem natAbs_rneShift_le {m : Int} {n sh : Nat} (h : m.natAbs < 2 ^ (n + sh)) : (rneShift m sh).natAbs ≤ 2 ^ n := by
  have herr := rneShift_nearest m sh
  have hpos : 0 < 2 ^ sh := by positivity
  by_contra hbig
  have hmul : (2 ^ n + 1) * 2 ^ sh ≤ (rneShift m sh * 2 ^ sh).natAbs := by
    rw [Int.natAbs_mul, Int.natAbs_pow]
    exact Nat.mul_le_mul_right _ (by omega)
  rw [add_mul, one_mul, ← pow_add] at hmul
  omega

theorem Dy.rne_of_le {a : Dy} {u : Int} (h : u ≤ a.e) : a.rne u = a.m * 2 ^ (a.e - u).toNat := by
  simp [Dy.rne, h, pow2]

theorem Dy.rne_of_lt {a : Dy} {u : Int} (h : a.e < u) : a.rne u = rneShift a.m (u - a.e).toNat := by
  simp [Dy.rne, not_le.mpr h]

theorem Dy.rne_of_zero {a : Dy} (h : a.m = 0) (u : Int) : a.rne u = 0 := by
  have hpos : (0 : Int) < 2 ^ (u - a.e).toNat := by positivity
  simp [Dy.rne, rneShift, h, hpos]

/-- A number below 2^(n + e) has a mantissa of n bits. -/
theorem Dy.natAbs_lt_two_pow {a : Dy} {n : Nat} (h : a.log2 < n + a.e) : a.m.natAbs < 2 ^ n := by
  have hbits : a.m.natAbs.log2 + 1 ≤ n := by unfold Dy.log2 at h; omega
  exact Nat.lt_log2_self.trans_le (Nat.pow_le_pow_right two_pos hbits)

/-- A number below 2^(u + n) is at most 2^n multiples of 2^u. -/
theorem Dy.natAbs_rne_le {a : Dy} {u : Int} {n : Nat} (h : a.m ≠ 0 → a.log2 < u + n) : (a.rne u).natAbs ≤ 2 ^ n := by
  by_cases hzero : a.m = 0
  · simp [Dy.rne_of_zero hzero]
  have hlog := h hzero
  rcases le_or_gt u a.e with hle | hlt
  · have hfit : (a.e - u).toNat ≤ n := by unfold Dy.log2 at hlog; omega
    have hm : a.m.natAbs < 2 ^ (n - (a.e - u).toNat) := Dy.natAbs_lt_two_pow (by omega)
    rw [Dy.rne_of_le hle, Int.natAbs_mul, Int.natAbs_pow]
    calc a.m.natAbs * 2 ^ (a.e - u).toNat ≤ 2 ^ (n - (a.e - u).toNat) * 2 ^ (a.e - u).toNat := Nat.mul_le_mul_right _ hm.le
      _ = 2 ^ n := by rw [← pow_add, Nat.sub_add_cancel hfit]
  · rw [Dy.rne_of_lt hlt]
    exact natAbs_rneShift_le (Dy.natAbs_lt_two_pow (by omega))

/-! ### Leaf form -/

/-- Leaf form rounds every value to one exponent, at which every mantissa has 15 bits and a sign (R79). -/
theorem leafForm_eq (l : List Dy) :
    ∃ e, leafForm l = (e, l.map (fun d => d.rne e)) ∧ ∀ d ∈ l, (d.rne e).natAbs ≤ 32767 := by
  simp only [leafForm]
  split
  next htops =>
    have hzero : ∀ d ∈ l, d.m = 0 := by simpa using htops
    exact ⟨0, by rw [List.map_congr_left fun d hd => (Dy.rne_of_zero (hzero d hd) 0).symm],
      fun d hd => by simp [Dy.rne_of_zero (hzero d hd)]⟩
  next t ts htops =>
    have htop : ∀ d ∈ l, d.m ≠ 0 → d.log2 ≤ ts.foldl max t := by
      intro d hd hm
      have hmem : d.log2 ∈ t :: ts := htops ▸ List.mem_map_of_mem (List.mem_filter.mpr ⟨hd, by simpa using hm⟩)
      exact (List.max?_eq_some_iff.mp (List.max?_cons' (x := t) (xs := ts))).2 _ hmem
    have hfit : ∀ d ∈ l, (d.rne (ts.foldl max t - 14)).natAbs ≤ 2 ^ 15 := fun d hd =>
      Dy.natAbs_rne_le fun hm => by have := htop d hd hm; push_cast; omega
    split
    next hfull =>
      refine ⟨_, rfl, fun d hd => ?_⟩
      have hhalf : (d.rne (ts.foldl max t - 14 + 1)).natAbs ≤ 2 ^ 14 :=
        Dy.natAbs_rne_le fun hm => by have := htop d hd hm; push_cast; omega
      omega
    next hnone =>
      refine ⟨_, rfl, fun d hd => ?_⟩
      have hne : (d.rne (ts.foldl max t - 14)).natAbs ≠ 32768 := by
        intro heq
        exact hnone (List.any_eq_true.mpr ⟨_, List.mem_map_of_mem hd, by simpa using heq⟩)
      have := hfit d hd
      omega

end Sys2Proof.Machine
end

section
/-!
The accumulators of a leaf and its checks (R90, R91, R96, R97): what an accumulator holds, that the sums of exact products agree,
and where one wrong accumulator shows.
-/

namespace Sys2Proof.Machine

/-! ### Sums over a range, and elements of a list -/

/-- A sum formed by a fold from 0. -/
theorem foldl_add_range (n : Nat) (f : Nat → Int) : (List.range n).foldl (fun t i => t + f i) 0 = ∑ i ∈ Finset.range n, f i := by
  induction n with
  | zero => rfl
  | succ n ih => rw [List.range_succ, List.foldl_append, ih, Finset.sum_range_succ]; rfl

theorem nth_map_range {α : Type} (d : α) (f : Nat → α) {n i : Nat} (h : i < n) : nth d ((List.range n).map f) i = f i := by
  simp [nth, h]

theorem nth_map_zip_range {α β : Type} (d : α) (b : β) (f : Nat × α → β) {l : List α} {n i : Nat} (hl : l.length = n)
    (h : i < n) : nth b (((List.range n).zip l).map f) i = f (i, nth d l i) := by
  subst hl
  simp [nth, h]

/-- A list is its elements by index. -/
theorem map_nth_range {α : Type} (d : α) (l : List α) : (List.range l.length).map (nth d l) = l :=
  List.ext_getElem (by simp) (fun i _ h => by simp [nth, h])

/-- A sum over a list, formed by a fold from 0. -/
theorem foldl_add_list {α : Type} (d : α) {l : List α} {n : Nat} (hl : l.length = n) (f : α → Int) :
    l.foldl (fun t x => t + f x) 0 = ∑ i ∈ Finset.range n, f (nth d l i) := by
  rw [← hl, ← foldl_add_range, ← List.foldl_map (f := nth d l) (g := fun t x => t + f x), map_nth_range]

/-- The first place of a range that meets a condition which only place i meets. -/
theorem find?_range_unique {p : Nat → Bool} {n i : Nat} (h : ∀ a < n, p a = true ↔ a = i) :
    (List.range n).find? p = if i < n then some i else none := by
  split
  next hi =>
    refine List.find?_range_eq_some.mpr ⟨(h i hi).mpr rfl, List.mem_range.mpr hi, fun a ha => ?_⟩
    have hne : ¬ p a = true := fun hp => ha.ne ((h a (ha.trans hi)).mp hp)
    simpa using hne
  next hi =>
    refine List.find?_range_eq_none.mpr fun a ha => ?_
    have hne : ¬ p a = true := fun hp => hi ((h a ha).mp hp ▸ ha)
    simpa using hne

/-! ### Operands of a row or a column -/

/-- Mantissas of operand i of the 64 rows or columns of a leaf; operand 64 is the check operand (R96). -/
def operandMs (l : List Operand) (i : Nat) : List Int := if i = 64 then sums l else match l[i]? with | some o => o.ms | none => []

/-- 64 operands of 64 mantissas in leaf form (R78, R79). -/
structure LeafOperands (l : List Operand) : Prop where
  length : l.length = 64
  operand : ∀ o ∈ l, o.ms.length = 64 ∧ ∀ m ∈ o.ms, m.natAbs ≤ 32767

theorem length_sums (l : List Operand) : (sums l).length = 64 := by simp [sums]

theorem operandMs_check (l : List Operand) : operandMs l 64 = sums l := if_pos rfl

section
variable {l : List Operand} (h : LeafOperands l)
include h

/-- An operand that is no check operand is one of the 64. -/
theorem exists_operandMs {i : Nat} (hi : i < 64) : ∃ o ∈ l, operandMs l i = o.ms ∧ ∀ d, nth d l i = o := by
  have hlt : i < l.length := h.length.symm ▸ hi
  exact ⟨l[i], List.getElem_mem hlt, by simp [operandMs, hi.ne, hlt], fun d => by simp [nth, hlt]⟩

theorem length_operandMs {i : Nat} (hi : i ≤ 64) : (operandMs l i).length = 64 := by
  rcases hi.lt_or_eq with hlt | rfl
  · obtain ⟨o, ho, hms, -⟩ := exists_operandMs h hlt
    rw [hms, (h.operand o ho).1]
  · rw [operandMs_check, length_sums]

/-- The check operand sums the 64 operands, index by index (R96). -/
theorem nth_operandMs_check {k : Nat} (hk : k < 64) :
    nth 0 (operandMs l 64) k = ∑ i ∈ Finset.range 64, nth 0 (operandMs l i) k := by
  rw [operandMs_check, sums, nth_map_range 0 _ hk, foldl_add_list { e := 0, ms := [], nonfin := false } h.length]
  refine Finset.sum_congr rfl fun i hi => ?_
  obtain ⟨o, -, hms, hnth⟩ := exists_operandMs h (Finset.mem_range.mp hi)
  rw [hms, hnth]

/-- A mantissa has 15 bits and a sign; the check operand sums 64 of them. -/
theorem abs_nth_operandMs_le {i k : Nat} (hi : i ≤ 64) (hk : k < 64) :
    |nth 0 (operandMs l i) k| ≤ if i = 64 then 64 * 32767 else 32767 := by
  have hrow : ∀ i < 64, |nth 0 (operandMs l i) k| ≤ 32767 := by
    intro i hi
    obtain ⟨o, ho, hms, -⟩ := exists_operandMs h hi
    obtain ⟨hlen, hbounded⟩ := h.operand o ho
    have hlt : k < o.ms.length := hlen.symm ▸ hk
    have hget : nth 0 o.ms k = o.ms[k] := by simp [nth, hlt]
    rw [hms, hget, Int.abs_eq_natAbs]
    exact_mod_cast hbounded _ (List.getElem_mem hlt)
  rcases hi.lt_or_eq with hlt | rfl
  · simpa [hlt.ne] using hrow i hlt
  · rw [nth_operandMs_check h hk, if_pos rfl]
    refine (Finset.abs_sum_le_sum_abs _ _).trans ?_
    simpa using Finset.sum_le_card_nsmul _ _ _ fun i hi => hrow i (Finset.mem_range.mp hi)

end

/-! ### Exact sums -/

/-- Exact sum of an accumulator; row and column 64 are the check elements (R90, R96). -/
def Leaf.exact (x : Leaf) (i q : Nat) : Int := dot (operandMs x.rows i) (operandMs x.cols q)

theorem dot_eq_sum {a b : List Int} {n : Nat} (ha : a.length = n) (hb : b.length = n) :
    dot a b = ∑ k ∈ Finset.range n, nth 0 a k * nth 0 b k := by
  rw [dot, foldl_add_list (0, 0) (n := n) (by simp [ha, hb]) fun x : Int × Int => x.1 * x.2]
  refine Finset.sum_congr rfl fun k hk => ?_
  have hk := Finset.mem_range.mp hk
  simp [nth, ha, hb, hk]

/-- Every row and every column of a 65 × 65 table, the check ones included, sums to its check element (R97). -/
structure SumsAgree (f : Nat → Nat → Int) : Prop where
  row : ∀ i ≤ 64, ∑ q ∈ Finset.range 64, f i q = f i 64
  col : ∀ q ≤ 64, ∑ i ∈ Finset.range 64, f i q = f 64 q

section
variable {x : Leaf} (hr : LeafOperands x.rows) (hc : LeafOperands x.cols)
include hr hc

theorem Leaf.exact_eq_sum {i q : Nat} (hi : i ≤ 64) (hq : q ≤ 64) :
    x.exact i q = ∑ k ∈ Finset.range 64, nth 0 (operandMs x.rows i) k * nth 0 (operandMs x.cols q) k :=
  dot_eq_sum (length_operandMs hr hi) (length_operandMs hc hq)

/-- Sums of products agree because a product distributes over the sums of its operands (R97). -/
theorem Leaf.sumsAgree_exact : SumsAgree x.exact where
  row i hi := by
    rw [Finset.sum_congr rfl fun q hq => Leaf.exact_eq_sum hr hc hi (Finset.mem_range.mp hq).le, Finset.sum_comm,
      Leaf.exact_eq_sum hr hc hi le_rfl]
    refine Finset.sum_congr rfl fun k hk => ?_
    rw [nth_operandMs_check hc (Finset.mem_range.mp hk), Finset.mul_sum]
  col q hq := by
    rw [Finset.sum_congr rfl fun i hi => Leaf.exact_eq_sum hr hc (Finset.mem_range.mp hi).le hq, Finset.sum_comm,
      Leaf.exact_eq_sum hr hc le_rfl hq]
    refine Finset.sum_congr rfl fun k hk => ?_
    rw [nth_operandMs_check hr (Finset.mem_range.mp hk), Finset.sum_mul]

/-- Exact sums lie within the limits of their accumulators (R91). -/
theorem Leaf.abs_exact_le {i q : Nat} (hi : i ≤ 64) (hq : q ≤ 64) : |x.exact i q| ≤ accLimit i q := by
  rw [Leaf.exact_eq_sum hr hc hi hq]
  have hterm : ∀ k ∈ Finset.range 64, |nth 0 (operandMs x.rows i) k * nth 0 (operandMs x.cols q) k| ≤
      (if i = 64 then 64 * 32767 else 32767) * (if q = 64 then 64 * 32767 else 32767) := fun k hk => by
    rw [abs_mul]
    exact mul_le_mul (abs_nth_operandMs_le hr hi (Finset.mem_range.mp hk)) (abs_nth_operandMs_le hc hq (Finset.mem_range.mp hk))
      (abs_nonneg _) (by split_ifs <;> norm_num)
  refine (Finset.abs_sum_le_sum_abs _ _).trans ((Finset.sum_le_card_nsmul _ _ _ hterm).trans ?_)
  by_cases hci : i = 64 <;> by_cases hcq : q = 64 <;> simp [accLimit, hci, hcq]

end

/-! ### What an accumulator holds -/

/-- What an accumulator would hold without a limit: the exact sum plus its errors. -/
def Leaf.held (x : Leaf) (dev : List (Nat × Nat × Int)) (i q : Nat) : Int :=
  dev.foldl (fun t v => if v.1 = i ∧ v.2.1 = q then t + v.2.2 else t) (x.exact i q)

/-- The same for the 65 × 65 accumulators. -/
def Leaf.heldTable (x : Leaf) (dev : List (Nat × Nat × Int)) : List (List Int) :=
  (List.range 65).map (fun i => (List.range 65).map (x.held dev i))

/-- The element of row i and column q of a table. -/
def elemAt (m : List (List Int)) (i q : Nat) : Int := nth 0 (nth [] m i) q

theorem Leaf.elemAt_heldTable (x : Leaf) (dev : List (Nat × Nat × Int)) {i q : Nat} (hi : i ≤ 64) (hq : q ≤ 64) :
    elemAt (x.heldTable dev) i q = x.held dev i q := by
  rw [elemAt, Leaf.heldTable, nth_map_range _ _ (Nat.lt_succ_of_le hi), nth_map_range _ _ (Nat.lt_succ_of_le hq)]

/-- The accumulators are the table of sums, each within its limit. -/
theorem accum_fst (x : Leaf) (dev : List (Nat × Nat × Int)) :
    (accum x dev).1 = ((List.range 65).zip (x.heldTable dev)).map (fun r => ((List.range 65).zip r.2).map (fun v =>
      max (-(accLimit r.1 v.1)) (min (accLimit r.1 v.1) v.2))) := rfl

theorem accum_snd (x : Leaf) (dev : List (Nat × Nat × Int)) :
    (accum x dev).2 = (((List.range 4225).map (fun n => (n / 65, n % 65))).filter (fun n =>
      decide (accLimit n.1 n.2 < ((elemAt (x.heldTable dev) n.1 n.2).natAbs : Int)))).map (fun n =>
        (n.1, n.2, decide (elemAt (x.heldTable dev) n.1 n.2 < 0))) := by
  simp only [accum]
  rfl

/-- An accumulator holds its sum within its limit (R91). -/
theorem elemAt_accum (x : Leaf) (dev : List (Nat × Nat × Int)) {i q : Nat} (hi : i ≤ 64) (hq : q ≤ 64) :
    elemAt (accum x dev).1 i q = max (-(accLimit i q)) (min (accLimit i q) (x.held dev i q)) := by
  have hrow : (nth [] (x.heldTable dev) i).length = 65 := by
    rw [Leaf.heldTable, nth_map_range _ _ (Nat.lt_succ_of_le hi), List.length_map, List.length_range]
  rw [elemAt, accum_fst, nth_map_zip_range [] _ _ (by simp [Leaf.heldTable]) (Nat.lt_succ_of_le hi),
    nth_map_zip_range 0 _ _ hrow (Nat.lt_succ_of_le hq), ← Leaf.elemAt_heldTable x dev hi hq, elemAt]

/-- No accumulator saturates just when each holds a sum within its limit. -/
theorem accum_snd_eq_nil_iff (x : Leaf) (dev : List (Nat × Nat × Int)) :
    (accum x dev).2 = [] ↔ ∀ i ≤ 64, ∀ q ≤ 64, |x.held dev i q| ≤ accLimit i q := by
  simp only [accum_snd, List.map_eq_nil_iff, List.filter_eq_nil_iff, List.forall_mem_map, List.mem_range, decide_eq_true_eq, not_lt,
    Int.natCast_natAbs]
  constructor
  · intro h i hi q hq
    have hcell := h (65 * i + q) (by omega)
    rwa [show (65 * i + q) / 65 = i by omega, show (65 * i + q) % 65 = q by omega, Leaf.elemAt_heldTable x dev hi hq] at hcell
  · intro h n hn
    have hi : n / 65 ≤ 64 := by omega
    have hq : n % 65 ≤ 64 := by omega
    rw [Leaf.elemAt_heldTable x dev hi hq]
    exact h _ hi _ hq

/-- Where nothing saturates each accumulator holds its sum. -/
theorem elemAt_accum_of_unsaturated {x : Leaf} {dev : List (Nat × Nat × Int)} (h : (accum x dev).2 = []) {i q : Nat} (hi : i ≤ 64)
    (hq : q ≤ 64) : elemAt (accum x dev).1 i q = x.held dev i q := by
  obtain ⟨hlow, hhigh⟩ := abs_le.mp ((accum_snd_eq_nil_iff x dev).mp h i hi q hq)
  rw [elemAt_accum x dev hi hq, min_eq_right hhigh, max_eq_right hlow]

theorem Leaf.held_single (x : Leaf) (i q a b : Nat) (dev : Int) :
    x.held [(i, q, dev)] a b = x.exact a b + if a = i ∧ b = q then dev else 0 := by
  simp only [Leaf.held, List.foldl_cons, List.foldl_nil, eq_comm (a := i), eq_comm (a := q)]
  split_ifs
  · rfl
  · rw [add_zero]

/-! ### The checks -/

/-- The first row that misses its check. -/
def missedRow (m : List (List Int)) : Option Nat :=
  (List.range 64).find? (fun i => ∑ q ∈ Finset.range 64, elemAt m i q != elemAt m i 64)

/-- The first column that misses its check. -/
def missedCol (m : List (List Int)) : Option Nat :=
  (List.range 64).find? (fun q => ∑ i ∈ Finset.range 64, elemAt m i q != elemAt m 64 q)

/-- The sum of the 64 × 64 elements. -/
def cornerSum (m : List (List Int)) : Int := ∑ i ∈ Finset.range 64, ∑ q ∈ Finset.range 64, elemAt m i q

/-- The checks pass where no row, no column and not the corner misses; otherwise they name the first row and column that miss. -/
theorem leafCheck_cases (m : List (List Int)) :
    (missedRow m = none ∧ missedCol m = none ∧ cornerSum m = elemAt m 64 64 ∧ leafCheck m = none) ∨
    (¬ (missedRow m = none ∧ missedCol m = none ∧ cornerSum m = elemAt m 64 64) ∧
      ∃ r, leafCheck m = some r ∧ r.row = missedRow m ∧ r.col = missedCol m) := by
  generalize hrow : missedRow m = row
  generalize hcol : missedCol m = col
  generalize htotal : cornerSum m = total
  simp only [missedRow, missedCol, cornerSum, elemAt] at hrow hcol htotal
  unfold leafCheck
  simp only [foldl_add_range]
  rw [hrow, hcol, htotal]
  cases row with
  | some i => exact .inr ⟨by simp, _, rfl, rfl, rfl⟩
  | none =>
    cases col with
    | some q => exact .inr ⟨by simp, _, rfl, rfl, rfl⟩
    | none =>
      by_cases hcorner : total = elemAt m 64 64
      · exact .inl ⟨rfl, rfl, hcorner, if_pos hcorner⟩
      · exact .inr ⟨fun ⟨_, _, h⟩ => hcorner h, _, if_neg hcorner, rfl, rfl⟩

/-- A line of 64 elements and their check, of which one is wrong where `c` holds, misses just then. -/
theorem sum_ne_check_iff {f g : Nat → Int} {c : Prop} [Decidable c] {n : Nat} {dev : Int}
    (hf : ∑ k ∈ Finset.range 64, f k = f 64) (hg : ∀ k ≤ 64, g k = f k + if c ∧ k = n then dev else 0) (hn : n ≤ 64)
    (hdev : dev ≠ 0) :
    ∑ k ∈ Finset.range 64, g k ≠ g 64 ↔ c := by
  rw [Finset.sum_congr rfl fun k hk => hg k (Finset.mem_range.mp hk).le, hg 64 le_rfl, Finset.sum_add_distrib, hf]
  by_cases hc : c
  · rcases hn.lt_or_eq with hlt | rfl
    · simp [hc, hlt, hlt.ne', hdev]
    · simpa [hc] using hdev
  · simp [hc]

/-- A table that holds f, but for one element that is wrong by dev. -/
def OneWrong (m : List (List Int)) (f : Nat → Nat → Int) (i q : Nat) (dev : Int) : Prop :=
  ∀ a ≤ 64, ∀ b ≤ 64, elemAt m a b = f a b + if a = i ∧ b = q then dev else 0

section
variable {m : List (List Int)} {f : Nat → Nat → Int} (hf : SumsAgree f)
include hf

/-- Sums that agree pass the checks. -/
theorem leafCheck_of_sumsAgree (hm : ∀ a ≤ 64, ∀ b ≤ 64, elemAt m a b = f a b) : leafCheck m = none := by
  have hrow : ∀ a ≤ 64, ∑ b ∈ Finset.range 64, elemAt m a b = elemAt m a 64 := fun a ha => by
    rw [Finset.sum_congr rfl fun b hb => hm a ha b (Finset.mem_range.mp hb).le, hf.row a ha, hm a ha 64 le_rfl]
  have hcol : ∀ b ≤ 64, ∑ a ∈ Finset.range 64, elemAt m a b = elemAt m 64 b := fun b hb => by
    rw [Finset.sum_congr rfl fun a ha => hm a (Finset.mem_range.mp ha).le b hb, hf.col b hb, hm 64 le_rfl b hb]
  have hcorner : cornerSum m = elemAt m 64 64 := by
    rw [cornerSum, Finset.sum_congr rfl fun a ha => hrow a (Finset.mem_range.mp ha).le, hcol 64 le_rfl]
  obtain ⟨-, -, -, hnone⟩ | ⟨hmiss, -⟩ := leafCheck_cases m
  · exact hnone
  · exact absurd ⟨List.find?_range_eq_none.mpr fun a ha => by simp [hrow a ha.le],
      List.find?_range_eq_none.mpr fun b hb => by simp [hcol b hb.le], hcorner⟩ hmiss

variable {i q : Nat} {dev : Int}

theorem row_misses_iff (hq : q ≤ 64) (hdev : dev ≠ 0) (hm : OneWrong m f i q dev) {a : Nat} (ha : a ≤ 64) :
    ∑ b ∈ Finset.range 64, elemAt m a b ≠ elemAt m a 64 ↔ a = i :=
  sum_ne_check_iff (hf.row a ha) (hm a ha) hq hdev

theorem col_misses_iff (hi : i ≤ 64) (hdev : dev ≠ 0) (hm : OneWrong m f i q dev) {b : Nat} (hb : b ≤ 64) :
    ∑ a ∈ Finset.range 64, elemAt m a b ≠ elemAt m 64 b ↔ b = q :=
  sum_ne_check_iff (hf.col b hb) (fun a ha => by simp only [hm a ha b hb, and_comm]) hi hdev

/-- One wrong element is located: by its row where it is in one of the 64, by its column where it is in one of the 64 (R97). -/
theorem leafCheck_of_oneWrong (hi : i ≤ 64) (hq : q ≤ 64) (hdev : dev ≠ 0) (hm : OneWrong m f i q dev) :
    ∃ r, leafCheck m = some r ∧ r.row = (if i < 64 then some i else none) ∧ r.col = (if q < 64 then some q else none) := by
  have hrow : missedRow m = if i < 64 then some i else none :=
    find?_range_unique fun a ha => bne_iff_ne.trans (row_misses_iff hf hq hdev hm (le_of_lt ha))
  have hcol : missedCol m = if q < 64 then some q else none :=
    find?_range_unique fun b hb => bne_iff_ne.trans (col_misses_iff hf hi hdev hm (le_of_lt hb))
  obtain ⟨hnorow, hnocol, hcorner, -⟩ | ⟨-, hlocated⟩ := leafCheck_cases m
  · have hi64 : ¬ i < 64 := fun hlt => by simp [hrow, hlt] at hnorow
    have hq64 : 64 = q := le_antisymm (not_lt.mp fun hlt => by simp [hcol, hlt] at hnocol) hq
    have hrows : ∀ a ∈ Finset.range 64, ∑ b ∈ Finset.range 64, elemAt m a b = elemAt m a 64 := fun a ha => by
      by_contra hmiss
      exact hi64 ((row_misses_iff hf hq hdev hm (Finset.mem_range.mp ha).le).mp hmiss ▸ Finset.mem_range.mp ha)
    rw [cornerSum, Finset.sum_congr rfl hrows] at hcorner
    exact absurd hcorner ((col_misses_iff hf hi hdev hm le_rfl).mpr hq64)
  · rwa [hrow, hcol] at hlocated

end

/-! ### The obligation -/

/-- Settles O60. Leaf form rounds each value to one exponent; sums of products distribute, so that they agree and stay within the
limits; an error moves the one row sum and the one column sum, or the check, that it is in. -/
theorem leafChecks : Obligations.LeafChecks := by
  unfold Obligations.LeafChecks
  refine ⟨?form, ?checks⟩
  case form =>
    intro l
    obtain ⟨e, heq, hbound⟩ := leafForm_eq l
    rw [heq]
    refine ⟨List.length_map _, List.forall_mem_map.mpr hbound, fun n d k hd hk => ?_⟩
    obtain rfl : d.rne e = k := by simpa [hd] using hk
    refine ⟨Dy.rne_of_le, fun hlt => ?_⟩
    rw [Dy.rne_of_lt hlt]
    exact rneShift_nearest _ _
  case checks =>
    intro x hrows hcols hms
    have hr : LeafOperands x.rows := ⟨hrows, fun o ho => hms o (List.mem_append_left _ ho)⟩
    have hc : LeafOperands x.cols := ⟨hcols, fun o ho => hms o (List.mem_append_right _ ho)⟩
    have hagree := Leaf.sumsAgree_exact hr hc
    have hnone : (accum x []).2 = [] := (accum_snd_eq_nil_iff x []).mpr fun a ha b hb => Leaf.abs_exact_le hr hc ha hb
    refine ⟨hnone, leafCheck_of_sumsAgree hagree fun a ha b hb => elemAt_accum_of_unsaturated hnone ha hb, ?_⟩
    intro i q dev hi hq hdev hsat
    have hm : OneWrong (accum x [(i, q, dev)]).1 x.exact i q dev := fun a ha b hb => by
      rw [elemAt_accum_of_unsaturated hsat ha hb, Leaf.held_single]
    exact leafCheck_of_oneWrong hagree hi hq hdev hm

end Sys2Proof.Machine
end

section
/-!
Entries that may launch (R182), and the commands of IDLE and WIDE_OP (R110, R180).
-/

namespace Sys2Proof.Machine

/-! ### Entries that may launch -/

/-- The hoist of an entry that may launch is that of the claim's job. -/
theorem State.hoistFor_eq_some {s : State} {c e act : Nat} {j : Job} {h : HoistE} (hfor : s.hoistFor c e act = some (j, h)) :
    s.job? c = some j ∧ j.entries[e]? = some h := by
  unfold State.hoistFor at hfor
  split at hfor
  · cases hfor
  next i hi =>
    split at hfor
    · cases hfor
    next k hk =>
      split at hfor
      · cases hfor; exact ⟨hi, hk⟩
      · cases hfor

/-- An entry that may launch is the claim's entry of its number. -/
theorem State.entry_of_hoistFor {s : State} {c e act : Nat} {j : Job} {h : HoistE} (hfor : s.hoistFor c e act = some (j, h)) :
    (s.job? c).bind (fun j => j.entries[e]?) = some h := by
  obtain ⟨hj, hh⟩ := State.hoistFor_eq_some hfor
  rw [hj, Option.bind_some, hh]

/-! ### IDLE and WIDE_OP -/

/-- The last unit of a hoist that has started and not completed completes it. -/
theorem State.unitDone_last {s : State} {c e : Nat} {j : Job} (hj : s.job? c = some j) (hstarted : (j.run e).started = true)
    (hcomplete : (j.run e).complete = false) (hleft : (j.run e).left ≤ 1) : s.unitDone c e = s.hoistDone c e := by
  simp [State.unitDone, hj, hstarted, hcomplete, hleft]

/-- An entry that may launch as a WIDE_OP runs for the first time. -/
theorem State.wideFor_of_hoistFor {s : State} {c e : Nat} {j : Job} {h : HoistE} (hfor : s.hoistFor c e 4 = some (j, h)) :
    s.wideFor c e = some (j, h, false) := by
  simp [State.wideFor, hfor]

/-- Settles O17: IDLE and WIDE_OP take the entry that may launch; IDLE_END's unit is the hoist's last; a WIDE_OP that launches runs for
the first time, finds its operand, its unit and its turn, and writes results that are all numbers. -/
theorem wideComplete : Obligations.WideComplete := by
  unfold Obligations.WideComplete
  refine ⟨?idle, ?idleEnd, ?wideOp⟩
  case idle =>
    intro c e j h s hready hfor
    refine (perform_ready hready).trans ?_
    rw [hfor]
  case idleEnd =>
    intro c e j h s hready hj hh haction hstarted hcomplete hleft
    refine (perform_ready hready).trans ?_
    simp only [hj, Option.bind_some, hh, haction, if_true, State.unitDone_last hj hstarted hcomplete hleft]
  case wideOp =>
    intro c e prog j h s hready hfor hoperand hfree hturn u ys hnumbers
    have hfind : ys.findIdx? isNan32 = none := List.findIdx?_eq_none_iff.mpr hnumbers
    refine (perform_ready hready).trans ?_
    simp only [State.wideOp, State.wideFor_of_hoistFor hfor, hoperand, hfree, hturn]
    simp [hfind, u, ys]

end Sys2Proof.Machine
end

section
/-!
The hewers' commands (R94, R97, R100, R109): the launch of a hoist, a tile's start, a leaf's end, parts and the drain.
-/

namespace Sys2Proof.Machine

/-! ### What the commands rest on -/

/-- A hewer hoist whose operands are ready gives its units to the claim's hewers. -/
theorem State.hewHoist_ready {s : State} {c e act grad : Nat} {j : Job} {h : HoistE} {d : LayerD} {g : Geo}
    (hfor : s.hoistFor c e act = some (j, h)) (hd : j.layer? h.layer = some d) (hg : j.geo h = some g)
    (hoperands : s.operandsReady c j e h d = true) :
    s.hewHoist c e act grad = ((s.readsTensor c e grad h.mb h.serve).startRun c e h g.tiles).queueUnits c e g := by
  simp [State.hewHoist, hfor, hd, hg, hoperands]

@[simp] theorem State.each_nil {α : Type} (s : State) (f : State → α → State) : s.each [] f = s := rfl

/-- The governor holds no fixed hoist back, and no free one whose allowance is within the limit (R194). -/
theorem not_free_and_govHolds {h : HoistE} {allow : Int} (hallow : h.free = true → -(65536 * 256) ≤ allow) :
    ¬ (h.free && govHolds allow) = true := by
  simpa [govHolds] using hallow

/-! ### The obligation -/

/-- Settles O40: under each clause's premises one path through the command's branches is left. A leaf has three of them: its sums
miss, an accumulator saturated, or its nodes are pushed; the part that stands at part 0's stope needs no packet. -/
theorem hewersComplete : Obligations.HewersComplete := by
  unfold Obligations.HewersComplete
  refine ⟨?dx, ?dw, ?start, ?leaf, ?root, ?whole, ?part⟩
  case dx =>
    intro c e j h d g s hready hfor hd hg hoperands
    refine (perform_ready hready).trans ?_
    rw [State.entry_of_hoistFor hfor, State.hewHoist_ready hfor hd hg hoperands]
  case dw =>
    intro c e j h d g s hready hfor hd hg hoperands
    refine (perform_ready hready).trans ?_
    rw [State.entry_of_hoistFor hfor, State.hewHoist_ready hfor hd hg hoperands]
  case start =>
    intro p w j h d g s hready hfree hnext hwork hallow t u v
    refine (perform_ready hready).trans ?_
    simp only [State.tileStart, hfree, hnext, hwork, if_neg (not_free_and_govHolds hallow), Bool.not_true, Bool.false_eq_true, if_false]
    rfl
  case leaf =>
    intro p dev t j h d g s hready htile hwork hnext c l x a u after
    refine (perform_ready hready).trans (congrArg _ ?_)
    simp only [State.leafEnd, htile, hwork, if_neg hnext.not_ge, after]
    cases leafCheck a.1 with
    | some m =>
      simp only [Option.isSome_some, if_true]
      rfl
    | none =>
      by_cases hsat : a.2 = []
      · rw [if_pos hsat]
        simp only [a, x, l, c] at hsat
        simp only [hsat, State.each_nil, Option.isSome_none, Bool.not_true, Bool.false_eq_true, if_false, if_true, bne_self_eq_false]
        rfl
      · rw [if_neg hsat]
        simp only [Option.isSome_none, Bool.false_eq_true, if_false, if_true]
        exact if_pos (bne_iff_ne.mpr hsat)
  case root =>
    intro c e part q s hready hq hmay
    refine (perform_ready hready).trans ?_
    simp only [State.rootArrives, hq, hmay, Bool.not_true, Bool.false_eq_true, if_false]
  case whole =>
    intro p t rest j h d g s hready hdrains hwork hsplit u
    refine (perform_ready hready).trans ?_
    simp only [State.tileDrain, hdrains, hwork, hsplit, Bool.not_true, Bool.false_eq_true, if_false, if_true]
    rfl
  case part =>
    intro p t rest j h d g s hready hdrains hwork hsplit hhome hfirst u root
    have hunit : t.unit.unit / 2 ^ (j.run t.unit.entry).split * 2 ^ (j.run t.unit.entry).split = t.unit.unit :=
      Nat.div_mul_cancel (Nat.dvd_of_mod_eq_zero hfirst)
    refine (perform_ready hready).trans ?_
    simp only [State.tileDrain, hdrains, hwork, if_neg hsplit, hunit, beq_self_eq_true, Bool.true_or, Bool.not_true, Bool.false_eq_true,
      if_false, State.on_false]
    rfl

end Sys2Proof.Machine
end

section
/-!
The commands that end or change a job (R145, R177, R178): the probe step, STOP, SWAP, UNLOAD and ABORT, each where it is not ignored.
-/

namespace Sys2Proof.Machine

/-! ### Commands on HOI.JOB_CMD -/

/-- A command of Table 5.3 whose write is open acts on the state that the register's rule sees. -/
theorem State.jobCmd_done {s : State} {src : Source} {cmd : Nat} (f : State → State)
    (h : writeOpen s src Page.HOI Reg.HOI.JOB_CMD cmd) :
    s.jobCmd src cmd f = writeDone (f (ruleSees s src Page.HOI)) src :=
  State.written_done h rfl

/-- A running job runs to a seal: the next one if its window has not begun and no seal is under way (R177, Table 5.10). -/
theorem State.stopJob_running {s : State} {c : Nat} (src : Source) (hrunning : s.jobState c = jsRunning) :
    s.stopJob src c = (s.modJob c (fun j =>
      { j with stopDue := decide ((s.sealW : Int) ≤ s.toSeal) && s.sealing.phase == 0 })).setJobState c jsStopping 3 :=
  if_neg (not_not_intro hrunning)

/-- A job that is READY or REFUSED is unloaded (R177). -/
theorem State.unloadJob_loaded {s : State} {c : Nat} (src : Source) (h : s.jobState c = jsReady ∨ s.jobState c = jsRefused) :
    s.unloadJob src c = s.unload c 5 :=
  if_neg (not_and_or.mpr (h.imp not_not_intro not_not_intro))

/-- A completed pair on HOI.ABORT aborts a job that is STARTING, RUNNING or STOPPING (R178). -/
theorem State.abortAct_active {s : State} {src : Source} {v : Nat} (hbit : bit v 0 = true)
    (hactive : s.jobActive (s.jobClaim src) = true) : s.abortAct src v = (s.abortJob (s.jobClaim src), true) := by
  simp [State.abortAct, hbit, hactive]

/-! ### SWAP (R177, R238) -/

/-- Two collections of as many sets, with every old identity among the new ones, pass SWAP's comparison. -/
theorem sameSets_eq_true {old new : List SetD} (hlength : new.length = old.length)
    (hids : ∀ x ∈ old, (new.map (·.id)).contains x.id = true) :
    ((old.map (·.id)).length == (new.map (·.id)).length && (old.map (·.id)).all (fun t => (new.map (·.id)).contains t)) = true := by
  rw [Bool.and_eq_true, beq_iff_eq, List.length_map, List.length_map, List.all_map]
  exact ⟨hlength.symm, List.all_eq_true.mpr hids⟩

/-- A descriptor that LOAD's checks pass, that differs only in what may differ, with the job's sets, and that comes before the
next seal's window, waits for a seal. -/
theorem State.swapJob_accepted {s : State} {src : Source} {c : Nat} {j : Job} {d : JobDesc} {f : Found} (hj : s.job? c = some j)
    (hrunning : s.jobState c = jsRunning) (hopen : s.hoiOpen = true) (hclaim : s.claimState c = 2)
    (hdesc : descOk (s.staged src Page.HOI) = true) (hd : descOf (s.staged src Page.HOI) = d) (hf : s.findFaults c d = f)
    (hwhy : f.why = []) (hfields : swapFields j.desc d = true) (hlength : f.job.sets.length = j.sets.length)
    (hids : ∀ x ∈ j.sets, (f.job.sets.map (·.id)).contains x.id = true) (htime : (s.sealW : Int) ≤ s.toSeal) :
    s.swapJob src c = f.state.setJob c { j with swap := some (d, f.job.entries) } := by
  have hsame := sameSets_eq_true hlength hids
  have hnotClose : decide (s.toSeal < (s.sealW : Int)) = false := decide_eq_false htime.not_gt
  simp only [State.swapJob, hj, hrunning, hopen, hclaim, hdesc, hd, hf, hwhy, hfields, hsame, hnotClose]
  rfl

/-! ### The obligation -/

/-- Settles O34: each clause's premises are what its command asks for before it acts, so it is not ignored; of HOI's commands the
write, or the guarded pair, reaches the register's rule, which acts on the state that it sees. -/
theorem jobEndComplete : Obligations.JobEndComplete := by
  unfold Obligations.JobEndComplete
  refine ⟨?probe, ?stop, ?swap, ?unload, ?abort⟩
  case probe =>
    intro c j s hready hj hprobe hdone hrunning hseal
    refine (perform_ready hready).trans ?_
    simp only [hj, hprobe, hdone, hrunning, hseal, Bool.not_false, and_self, if_true]
  case stop =>
    intro src s hready hopen b c hrunning
    refine (perform_ready hready).trans (congrArg _ ?_)
    rw [State.jobCmd_done _ hopen, State.stopJob_running src hrunning]
  case swap =>
    intro src j s hready hopen b c hj hrunning hhoi hclaim hdesc d f hwhy hfields hlength hids htime
    refine (perform_ready hready).trans (congrArg _ ?_)
    rw [State.jobCmd_done _ hopen,
      State.swapJob_accepted hj hrunning hhoi hclaim hdesc rfl rfl hwhy hfields hlength hids htime]
  case unload =>
    intro src s hready hopen b c hloaded
    refine (perform_ready hready).trans (congrArg _ ?_)
    rw [State.jobCmd_done _ hopen, State.unloadJob_loaded src hloaded]
  case abort =>
    intro src v s hready hopen hbit b c hactive
    exact (perform_ready hready).trans (congrArg _ (State.guarded_done hopen (State.abortAct_active hbit hactive)))

end Sys2Proof.Machine
end

section
/-!
Transfers of tensors (R183, R308, R329): SEND in blocks, RECV of blocks that have landed, REDUCE with a partner.
-/

namespace Sys2Proof.Machine

/-! ### The hoists that move a tensor -/

/-- A SEND whose tensor is ready and whose role has a holder: to this member itself the blocks land, to another they leave and the
SOUND notice follows. -/
theorem State.sendHoist_ready {s : State} {c e : Nat} {j : Job} {h : HoistE} {r : RoleEntry} (hfor : s.hoistFor c e 5 = some (j, h))
    (hoperand : s.operandReady c j e h h.a h.mb = true) (hrole : s.roleEntry h.b = some r) :
    let blocks := (List.range (ceilDiv (j.viewBytes c h.a h.mb) 4096)).map (fun k =>
      s.rdBytes c ((j.view c h.a h.mb).base + 4096 * k) 4096)
    let u := (s.readsTensor c e h.a h.mb h.serve).startRun c e h (ceilDiv blocks.length 8)
    s.sendHoist c e = if r.member = s.memberNo then (u.landBlocks c h.result j.role 0 blocks).hoistDone c e
      else (u.sendBlocks 7 c r j.role h.result (h.target % 4096) blocks (some (c, e))).sendMsg
        { OutMsg.plain 4 r.member [1, 1, 0, c, h.result, h.mb, 0, blocks.length, s.memberNo * 4096, s.epoch] with
          destRole := r.member * 16 + 1 } := by
  simp only [State.sendHoist, hfor, hoperand, hrole, Bool.not_true, Bool.false_eq_true, if_false]

/-- A RECV whose blocks have all landed and been released completes at its launch. -/
theorem State.recvHoist_released {s : State} {c e : Nat} {j : Job} {h : HoistE} (hfor : s.hoistFor c e 6 = some (j, h))
    (hreleased : (s.recvReady c j e h).2 = true) : s.recvHoist c e = (s.startRun c e h 1).unitDone c e := by
  simp only [State.recvHoist, hfor, hreleased, if_true]

/-- Below the root, and with a partner whose nodes have come, a REDUCE exchanges its nodes and keeps the combined ones. -/
theorem State.reduceHoist_partner {s : State} {c e : Nat} {words : List Nat} {j : Job} {h : HoistE} {d : LayerD} {t res : TensorD}
    {r : RoleEntry} (hfor : s.hoistFor c e 7 = some (j, h)) (hd : j.layer? h.layer = some d) (ht : j.tensor? h.a = some t)
    (hres : j.tensor? h.result = some res) (hoperand : s.operandReady c j e h h.a 0 = true) (hrole : s.roleEntry h.b = some r)
    (hroot : h.root = false) :
    let g := s.gather c j h d t
    (if g.pos % 2 = 0 then g.pos + 1 else g.pos - 1) < g.count → words.length = g.nodes.length →
    let u := (s.readsTensor c e h.a 0 h.serve).startRun c e h 1
    let bytes := g.nodes.flatMap (fun n => leBytes 8 n.word)
    let w := u.sendBlocks 7 c r j.role h.result (h.target % 4096)
      ((List.range (ceilDiv bytes.length 4096)).map (fun k => (bytes.drop (4096 * k)).take 4096)) none
    s.reduceHoist c e words = (w.putNodes c res.addr 0 (g.combined h.level (words.map Node.ofWord))).unitDone c e := by
  intro g hpartner hlength
  have halone : decide (g.count ≤ if g.pos % 2 = 0 then g.pos + 1 else g.pos - 1) = false := decide_eq_false hpartner.not_ge
  simp only [g] at hlength halone
  simp [State.reduceHoist, hfor, hd, ht, hres, hoperand, hrole, hroot, hlength, halone, g]

/-! ### The obligation -/

/-- Settles O18: an entry that may launch, with its operand ready, takes the one path of its action on which nothing waits. -/
theorem transfersComplete : Obligations.TransfersComplete := by
  unfold Obligations.TransfersComplete
  refine ⟨?send, ?recv, ?reduce⟩
  case send =>
    intro c e j h r s hready hfor hoperand hrole
    exact (perform_ready hready).trans (congrArg _ (State.sendHoist_ready hfor hoperand hrole))
  case recv =>
    intro c e j h s hready hfor hreleased
    exact (perform_ready hready).trans (congrArg _ (State.recvHoist_released hfor hreleased))
  case reduce =>
    intro c e words j h d t res r s hready hfor hd ht hres hoperand hrole hroot g hpartner hlength
    exact (perform_ready hready).trans
      (congrArg _ (State.reduceHoist_partner hfor hd ht hres hoperand hrole hroot hpartner hlength))

end Sys2Proof.Machine
end

section
/-!
The commands that begin a job (R175, R176, R331): LOAD, START, the first slot of the run, and the START from a fetched image.
-/

namespace Sys2Proof.Machine

/-! ### LOAD (R176) -/

/-- LOAD of a claim that is OPEN and has no job, or a refused one, with a descriptor in order: its checks decide between READY and
REFUSED with the lowest reason. -/
theorem State.load_descOk {s : State} {src : Source} {c : Nat} (hstate : s.jobState c = jsNone ∨ s.jobState c = jsRefused)
    (hhoi : s.hoiOpen = true) (hclaim : s.claimState c = 2) (hdesc : descOk (s.staged src Page.HOI) = true) :
    let u := (((s.wrStock c Reg.FTC.SPILLS 0).wrStock c Reg.FTC.RECOMPUTES 0).wrStock c Reg.FTC.STOCK_PEAK 0).setJobState c jsLoading 1
    let f := u.findFaults c (descOf (s.staged src Page.HOI))
    let w := f.state.showPlacement c f
    s.load src c = match lowestWhy f.why with
      | some y => ((w.refuseJob c y).setReason c y.1).setJobState c jsRefused 1
      | none => (w.acceptJob c f.job).setJobState c jsReady 1 := by
  have hmay : ¬ ((s.jobState c ≠ jsNone ∧ s.jobState c ≠ jsRefused) ∨ (!s.hoiOpen) = true ∨ s.claimState c ≠ 2) := by
    simp only [hhoi, hclaim, Bool.not_true, Bool.false_eq_true, ne_eq, not_true, or_false]
    exact not_and_or.mpr (hstate.imp not_not_intro not_not_intro)
  have hread : ¬ (!descOk (s.staged src Page.HOI)) = true := by simp [hdesc]
  exact (if_neg hmay).trans (if_neg hread)

/-! ### START (R175) and the START of a restart (R331) -/

/-- START of a READY job that has started before: new keys, and nothing left of the run before. -/
theorem State.startJob_again {s : State} {src : Source} {c : Nat} {j : Job} (hj : s.job? c = some j) (hstate : s.jobState c = jsReady)
    (hhoi : s.hoiOpen = true) (hclaim : s.claimState c = 2) (hfirst : j.first = false) :
    s.startJob src c = (((s.setJobState c jsStarting 2).rekeyAtStart c).modJob c (fun k =>
      { k with first := false, stopDue := false, abortDue := false, lostRun := 0, streak := 0 })).reportStarting := by
  simp [State.startJob, hj, hstate, hhoi, hclaim, hfirst]

/-- A STARTING job with its write lists applied begins with the slot for which every member had reported READY. -/
theorem State.beginsNow_eq_true {s : State} {c : Nat} {j : Job} (hj : s.job? c = some j) (hstate : s.jobState c = jsStarting)
    (hlists : s.listsApplied c = true) (hmembers : s.allReady j.number s.slotOrigin = true) : s.beginsNow c = true := by
  simp [State.beginsNow, hj, hstate, hlists, hmembers]

/-! ### The obligation -/

/-- Settles O33: each clause's premises are what its command asks for before it acts; LOAD and START reach their rule through an
open write of HOI.JOB_CMD. -/
theorem jobStartComplete : Obligations.JobStartComplete := by
  unfold Obligations.JobStartComplete
  refine ⟨?load, ?start, ?runBegin, ?image⟩
  case load =>
    intro src s hready hopen b c hstate hhoi hclaim u hdesc f w
    refine (perform_ready hready).trans (congrArg _ ((State.jobCmd_done _ hopen).trans ?_))
    exact congrArg (writeDone · src) (State.load_descOk hstate hhoi hclaim hdesc)
  case start =>
    intro src j s hready hopen b c hj hstate hhoi hclaim hfirst
    refine (perform_ready hready).trans (congrArg _ ?_)
    rw [State.jobCmd_done _ hopen, State.startJob_again hj hstate hhoi hclaim hfirst]
  case runBegin =>
    intro c j s hready hj hstate hlists hmembers
    exact (perform_ready hready).trans (congrArg _ (if_pos (State.beginsNow_eq_true hj hstate hlists hmembers)))
  case image =>
    intro c base j s hready hj hstate hhoi u k
    refine (perform_ready hready).trans (congrArg _ ?_)
    simp only [hj, hstate, hhoi, ne_eq, not_true, Bool.not_true, Bool.false_eq_true, or_self, if_false]
    rfl

end Sys2Proof.Machine
end

section
/-!
The seal up to the decision (R187, R188): what T+0 finds unfinished, the member's verdict, and the headframe's decision.
-/

namespace Sys2Proof.Machine

/-- A seal under way and not yet decided takes a verdict. -/
theorem not_idle_and_not_decided {phase : Nat} (hbegun : 0 < phase) (hopen : phase < 3) : ¬ (phase = 0 ∨ 3 ≤ phase) := by
  omega

/-- Without a silent member or a lost one, the decision's mask is the verdicts that arrived. -/
theorem or_maskOf_nil_nil (got : Nat) : got ||| maskOf [] ||| maskOf [] = got := by
  simp [maskOf]

/-- Settles O35: the seal's phase admits each command. Where no member is silent and none is lost, the decision's mask is that of the
verdicts that came; where there is no standby, the decision is broadcast at once. -/
theorem verdictComplete : Obligations.VerdictComplete := by
  unfold Obligations.VerdictComplete
  refine ⟨?launch, ?verdict, ?arrival, ?deadline⟩
  case launch =>
    intro s hready hphase hhold u w
    refine (perform_ready hready).trans (congrArg _ ?_)
    simp only [hphase, hhold, ne_eq, not_true, Bool.false_eq_true, or_self, if_false]
    rfl
  case verdict =>
    intro s hready hphase u
    exact (perform_ready hready).trans (congrArg _ (if_neg (not_not_intro hphase)))
  case arrival =>
    intro m mask s hready hbegun hopen u
    exact (perform_ready hready).trans (congrArg _ (if_neg (not_idle_and_not_decided hbegun hopen)))
  case deadline =>
    intro s hready hphase hhead hsilent hlosses hstandby mask after
    refine (perform_ready hready).trans (congrArg _ ?_)
    have hnone : (s.fld Page.CAS Reg.CAS.HEADFRAME 27 16 == 0xFFF) = true := beq_iff_eq.mpr hstandby
    simp only [hphase, hhead, hsilent, hlosses, State.each_nil, List.flatMap_nil, or_maskOf_nil_nil, ne_eq, not_true,
      Bool.not_true, Bool.false_eq_true, or_self, if_false]
    exact if_pos (by rw [Bool.or_assoc]; exact Bool.or_eq_true_iff.mpr (.inl hnone))

end Sys2Proof.Machine
end

section
/-!
The power governor's window (R193) and the markers of the tally (R168, R170).
-/

namespace Sys2Proof.Machine

/-! ### The governor's ratios (R193) -/

/-- Above the budget a giver that stands 4 above its floor gives 4, and the keeper keeps. -/
theorem ratios_giver_gives {giver keeper low est budget : Nat} (hover : budget < est) (hfloor : low + 4 ≤ giver) :
    ratios giver keeper low est budget = (giver - 4, keeper, false) := by
  rw [ratios, if_pos hover, if_pos hfloor]

/-- A window above the budget in which the fields keep their roles and the giver stands 4 above its floor. -/
theorem State.govWindow_giver_gives {s : State} {now : Nat} (hloss : 0 < s.lossRatio.1 * s.lossRatio.2)
    (hover : s.rd Page.PWR Reg.PWR.BUDGET_IN_FORCE < s.estimate now)
    (hkeep : s.seamGives = bit (s.rd Page.HOI Reg.HOI.GOV_STATE) 16) :
    let est := s.estimate now
    let g := s.rd Page.HOI Reg.HOI.GOV_STATE
    let lead := if s.seamGives then bits g 14 8 else bits g 6 0
    s.fld Page.HOI Reg.HOI.GOV_FLOOR 5 0 + 4 ≤ lead →
    let ah := if s.seamGives then bits g 6 0 else bits g 6 0 - 4
    let az := if s.seamGives then bits g 14 8 - 4 else bits g 14 8
    let fixed := decide (16 ≤ s.gov.ovf)
    let word := ah + az * 256 + (if s.seamGives then 2 ^ 16 else 0) + 2 ^ 17 + (if fixed then 2 ^ 18 else 0)
    let u := ({ s with gov := { s.gov with ovf := min 16 s.gov.ovf } }).wr Page.HOI Reg.HOI.GOV_STATE word
    let v := u.on (!bit g 17) (fun x => x.raise Page.HOI 3)
    let x := v.on (fixed && !bit g 18) (fun x => (x.raise Page.HOI 4).record 0x500A Src.deputy none
      (items [est, s.rd Page.PWR Reg.PWR.BUDGET_IN_FORCE]))
    s.govWindow now = (x.limitWindow est (s.rd Page.PWR Reg.PWR.BUDGET_IN_FORCE)).clampWindow := by
  intro est g lead hfloor
  have hnoDraw : (s.lossRatio.1 * s.lossRatio.2 == 0) = false := beq_eq_false_iff_ne.mpr hloss.ne'
  have hnoSwap : (s.seamGives != bit (s.rd Page.HOI Reg.HOI.GOV_STATE) 16) = false := bne_eq_false_iff_eq.mpr hkeep
  simp only [State.govWindow, hnoDraw, State.on_false, hnoSwap, hover, decide_true, Bool.false_eq_true, if_false, if_true]
  cases hgives : s.seamGives with
  | true =>
    simp only [lead, g, hgives, if_true] at hfloor
    simp only [if_true, ratios_giver_gives hover hfloor]
    rfl
  | false =>
    simp only [lead, g, hgives, Bool.false_eq_true, if_false] at hfloor
    simp only [Bool.false_eq_true, if_false, ratios_giver_gives hover hfloor]
    rfl

/-! ### Markers (R168) -/

/-- A marker from the upstream neighbour of an admitted member, of no older headframe epoch, is echoed and followed. -/
theorem State.markerArrives_upstream {s : State} {n value epoch hops delay : Nat} {ref : Bool} (hup : s.portUp n = true) :
    let u := (((s.count64 (Page.DRF n) Reg.DRF.RX_TUBS_LO 4 1).wr (Page.DRF n) Reg.DRF.LINK_DELAY (delay / 2)).sendMarker n
      value epoch hops true)
    (u.port n).follow = true → u.rd Page.CAS Reg.CAS.HEAD_EPOCH ≤ epoch →
    let w := (u.heardHead epoch).modPort n (fun p => { p with hops := min 255 hops })
    w.fld Page.CAS Reg.CAS.STATE 2 0 = 3 → w.upstream = some n →
    s.markerArrives n value epoch hops ref delay true = w.follow n value epoch hops ref delay := by
  intro u hfollow hepoch w hmember hupstream
  have hheard : ¬ ((!(u.port n).follow) = true ∨ epoch < u.rd Page.CAS Reg.CAS.HEAD_EPOCH) := by
    simpa [hfollow] using hepoch
  have hjoined : ¬ (w.fld Page.CAS Reg.CAS.STATE 2 0 = 0 ∨ w.fld Page.CAS Reg.CAS.STATE 2 0 = 1) := by
    simp [hmember]
  simp only [State.markerArrives, hup, Bool.not_true, Bool.false_eq_true, if_false]
  exact (if_neg hheard).trans ((if_neg hjoined).trans (if_pos ⟨.inl hmember, hupstream⟩))

/-! ### The obligation -/

/-- Settles O38: the giver gives in one of the two roles of the fields; the headframe alone sends markers; the upstream neighbour's
marker is followed; only a follower loses its source. -/
theorem tallyComplete : Obligations.TallyComplete := by
  unfold Obligations.TallyComplete
  refine ⟨?gov, ?send, ?marker, ?loss⟩
  case gov =>
    intro vcore icore s hready est hloss hover hkeep g lead hfloor ah az fixed word u v x
    exact (perform_ready hready).trans (congrArg _ (State.govWindow_giver_gives hloss hover hkeep hfloor))
  case send =>
    intro s hready hhead
    refine (perform_ready hready).trans (congrArg _ ?_)
    simp only [hhead, Bool.not_true, Bool.false_eq_true, if_false]
  case marker =>
    intro n value epoch hops delay ref s hready hup u hfollow hepoch w hmember hupstream
    exact (perform_ready hready).trans
      (congrArg _ (State.markerArrives_upstream hup hfollow hepoch hmember hupstream))
  case loss =>
    intro s hready hfollower u v
    exact (perform_ready hready).trans
      (congrArg _ (if_neg (not_and_or.mpr (hfollower.imp not_not_intro not_not_intro))))

end Sys2Proof.Machine
end

section
/-!
The time reference, the calendar and the grid (R165 to R167, R172, R173), as the headframe handles them.
-/

namespace Sys2Proof.Machine

/-! ### Loss of the reference (R165) -/

/-- Out of REF or ACQUIRING the headframe falls to FREE, with its count, event 1 and record 0x5002. -/
theorem State.loseRef_locked {s : State} (ppm err : Int)
    (hlocked : s.fld Page.TAL Reg.TAL.STATUS 2 0 = 1 ∨ s.fld Page.TAL Reg.TAL.STATUS 2 0 = 4) :
    let v := { s with clock := { s.clock with refRun := 0, miss := 0 } }
    s.loseRef ppm err = (((v.setSource 0).count Page.TAL Reg.TAL.REF_FAULTS 1 1).raise Page.TAL 1).record 0x5002 (Src.cascade 0) none
      [itS 1 ppm, itS 2 err] :=
  if_neg (not_and_or.mpr (hlocked.imp not_not_intro not_not_intro))

/-! ### The calendar (R166) -/

/-- While no job runs, a headframe locked to the reference holds the second for the next edge; another takes it at once. -/
theorem State.tallySetAct_idle {s : State} {src : Source} {v : Nat} (hbit : bit v 0 = true) (hhead : s.isHead = true)
    (hidle : s.jobsRun = false) :
    let second := s.rd64 Page.TAL Reg.TAL.SET_SECOND_LO
    let source := s.fld Page.TAL Reg.TAL.STATUS 2 0
    s.tallySetAct src v = (if source = 1 ∨ source = 4 then { s with clock := { s.clock with setPending := some second } }
      else s.setCalendar second, true) := by
  intro second source
  simp only [State.tallySetAct, hbit, hhead, hidle, Bool.not_true, Bool.false_eq_true, or_self, if_false]
  exact (apply_ite (fun u : State => (u, true)) _ _ _).symm

/-! ### The grid (R172, R173) -/

/-- A grid whose origin lies a second ahead and whose P and W are in R172's ranges, staged at the headframe while no job is loaded. -/
theorem State.gridFault_eq_zero {s : State} {o p w : Nat} (hhead : s.isHead = true) (hjobs : s.jobsLoaded = false)
    (horigin : s.tally + 1000000000 ≤ o) (hlow : 100000 ≤ p) (hhigh : p ≤ 60000000000)
    (hwindow : 4000 + 500 * s.fld Page.CAS Reg.CAS.DIAMETER 7 0 ≤ w) (hfit : 2 * w ≤ p) : s.gridFault o p w = 0 := by
  have hlimits : ¬ (p < 100000 ∨ 60000000000 < p ∨ w < 4000 + 500 * s.fld Page.CAS Reg.CAS.DIAMETER 7 0 ∨ p < 2 * w) := by
    omega
  simp only [State.gridFault, hhead, hjobs, if_neg horigin.not_gt, if_neg hlimits, Bool.not_true, Bool.false_eq_true, if_false]

/-- A grid without a fault is recorded, kept until its origin, and told to the members. -/
theorem State.gridSetAct_accepted {s : State} {src : Source} {v : Nat} (hbit : bit v 0 = true) :
    let p := s.rd64 Page.HOI Reg.HOI.GRID_PERIOD_LO
    let o := s.rd64 Page.HOI Reg.HOI.GRID_ORIGIN_LO
    let w := s.rd Page.HOI Reg.HOI.GRID_SEAL_W
    s.gridFault o p w = 0 →
    let u := s.recordBy src 0x5009 (Src.cascade 0) none (items [o, p, w, 0])
    s.gridSetAct src v = (({ u with clock := { u.clock with grid := some (o, p, w) } }).toMembers 5 [11, o, p, w], true) := by
  intro p o w hfault u
  simp only [p, o, w] at hfault
  simp only [State.gridSetAct, hbit, hfault, Bool.not_true, Bool.false_eq_true, ne_eq, not_true, if_false]
  rfl

/-! ### The obligation -/

/-- Settles O39: the headframe's edge is accepted, rejected, or the third that is; a locked headframe loses the reference; guarded
pairs that are open reach the rules of TALLY_SET and GRID_SET, which find nothing to refuse; a grid that waits takes effect. -/
theorem referenceComplete : Obligations.ReferenceComplete := by
  unfold Obligations.ReferenceComplete
  refine ⟨?edge, ?missing, ?clock, ?set, ?store, ?grid, ?takes⟩
  case edge =>
    intro err s hready hhead out
    have hthird : decide (3 ≤ s.clock.miss + 1) = decide (2 ≤ s.clock.miss) := decide_eq_decide.mpr Nat.succ_le_succ_iff
    refine (perform_ready hready).trans (congrArg _ ?_)
    simp only [hhead, Bool.not_true, Bool.false_eq_true, if_false, hthird]
    by_cases hnear : err.natAbs ≤ 100
    · rw [if_pos hnear, if_pos hnear]
    · rw [if_neg hnear, if_neg hnear]
      by_cases htwo : 2 ≤ s.clock.miss
      · rw [if_pos htwo, decide_eq_true htwo, State.on_true]
      · rw [if_neg htwo, decide_eq_false htwo, State.on_false]
  case missing =>
    intro s hready hhead u src hlocked v
    refine (perform_ready hready).trans (congrArg _ ?_)
    simp only [hhead, Bool.not_true, Bool.false_eq_true, if_false]
    exact State.loseRef_locked 0 0 hlocked
  case clock =>
    intro ppm s hready hhead hppm u src hlocked v
    refine (perform_ready hready).trans (congrArg _ ?_)
    simp only [hhead, hppm.not_ge, Bool.not_true, Bool.false_eq_true, or_self, if_false]
    exact State.loseRef_locked ppm 0 hlocked
  case set =>
    intro src v s hready hopen b second from' hbit hhead hidle
    exact (perform_ready hready).trans
      (congrArg _ (State.guarded_done hopen (State.tallySetAct_idle hbit hhead hidle)))
  case store =>
    intro s hready
    exact perform_ready hready
  case grid =>
    intro src v s hready hopen b p o w hbit hhead hjobs horigin hlow hhigh hwindow hfit u
    have hfault : b.gridFault o p w = 0 := State.gridFault_eq_zero hhead hjobs horigin hlow hhigh hwindow hfit
    exact (perform_ready hready).trans
      (congrArg _ (State.guarded_done hopen (State.gridSetAct_accepted hbit hfault)))
  case takes =>
    intro o p w s hready hgrid u
    refine (perform_ready hready).trans (congrArg _ ?_)
    rw [hgrid]

end Sys2Proof.Machine
end

section
/-!
What a step keeps: claim memory and the register file in their one canonical form, whether a command runs or a nanosecond passes.
-/

namespace Sys2Proof.Machine

/-- The part of `Keeps` about the canonical form. -/
theorem Keeps.canonical {s t : State} (k : Keeps s t) (h : s.Canonical) : t.Canonical := k.1 h

/-- A nanosecond writes registers alone, at the end of a whole second. -/
theorem State.canonical_tick {s : State} (h : s.Canonical) : s.tick.Canonical := by
  unfold State.tick
  split
  · exact h
  · refine (Keeps.on (State.growAllow_keeps (Keeps.refl _)) fun _ => State.secondEnds_keeps).canonical ?_
    exact h

/-- Settles O52: a step on an empty queue is a tick; any other runs a command, whose effect `exec_keeps` gives, on a state that
differs in its queue alone. -/
theorem stepKeepsCanonical : Obligations.StepKeepsCanonical := by
  unfold Obligations.StepKeepsCanonical
  intro s t hcanon hstep
  unfold step at hstep
  split at hstep
  next =>
    injection hstep with htick
    exact htick ▸ State.canonical_tick hcanon
  next c rest _ => exact (exec_keeps hstep).canonical hcanon

end Sys2Proof.Machine
end

section
/-!
Where a stream stores (R204, R445, R448): the bytes of its page's claim that a lap commits, and no others.
-/

namespace Sys2Proof.Machine

/-! ### Operations that leave claim memory alone -/

@[simp] theorem State.touch_mem (s : State) (src : Source) : (s.touch src).mem = s.mem := rfl

@[simp] theorem State.touch_streams (s : State) (src : Source) : (s.touch src).streams = s.streams := rfl

@[simp] theorem State.modPros_mem (s : State) (f : Pros → Pros) : (s.modPros f).mem = s.mem := rfl

@[simp] theorem State.count_mem (s : State) (p o b n : Nat) : (s.count p o b n).mem = s.mem := ((Shows.refl s).count p o b n).mem

@[simp] theorem State.count64_mem (s : State) (p o b n : Nat) : (s.count64 p o b n).mem = s.mem := ((Shows.refl s).count64 p o b n).mem

@[simp] theorem State.countWrite_mem (s : State) (slow : Bool) (k n : Nat) : (s.countWrite slow k n).mem = s.mem :=
  State.count64_mem ..

@[simp] theorem State.forbid_mem (s : State) (src : Source) (p o : Nat) (w : Bool) : (s.forbid src p o w).mem = s.mem :=
  ((Shows.refl s).forbid src p o w).mem

@[simp] theorem State.refuseAddr_mem (s : State) (src : Source) (c addr w : Nat) : (s.refuseAddr src c addr w).mem = s.mem :=
  ((Shows.refl s).recordBy _ _ _ _ _).mem

@[simp] theorem State.raiseFor_mem (s : State) (src : Source) (p e : Nat) : (s.raiseFor src p e).mem = s.mem :=
  ((Shows.refl s).raiseFor src p e).mem

@[simp] theorem State.strmError_mem (s : State) (src : Source) (p err mode passed : Nat) :
    (s.strmError src p err mode passed).mem = s.mem :=
  (((Shows.refl s).raiseFor _ _ _).accessRec _ _ _ _ _).mem

@[simp] theorem State.strmShow_mem (s : State) (src : Source) (p mode err : Nat) (dn : Bool) : (s.strmShow src p mode err dn).mem = s.mem := rfl

theorem State.on_mem {s : State} {f : State → State} (b : Bool) (h : ∀ u, (f u).mem = u.mem) : (s.on b f).mem = s.mem := by
  cases b
  · rfl
  · exact h s

@[simp] theorem State.endDrain_mem (s : State) (p : Nat) : (s.endDrain p).mem = s.mem := by
  unfold State.endDrain
  split
  · rfl
  · split
    · exact (((Shows.refl s).setFn p 1).setFn p 2).mem
    · exact ((Shows.refl s).setFn p 0).mem

@[simp] theorem State.strmSettle_mem (s : State) (p : Nat) : (s.strmSettle p).mem = s.mem :=
  State.on_mem _ fun u => u.endDrain_mem p

@[simp] theorem State.breakPair_mem (s : State) (src : Source) (p : Nat) : (s.breakPair src p).mem = s.mem := by
  unfold State.breakPair
  split
  · rfl
  · exact ((Shows.refl _).guardFail _ _ _ _ _).mem

@[simp] theorem State.breakPair_streams (s : State) (src : Source) (p : Nat) : (s.breakPair src p).streams = s.streams := by
  unfold State.breakPair
  split
  · rfl
  · exact ((Shows.refl _).guardFail _ _ _ _ _).streams

@[simp] theorem State.endRecords_mem (s : State) : s.endRecords.mem = s.mem := by
  unfold State.endRecords
  split
  · rfl
  · exact (((Shows.refl s).raise _ _).record _ _ _ _).mem

@[simp] theorem State.takeRecord_mem (s : State) (r : SeriesRec) : (s.takeRecord r).mem = s.mem := by
  unfold State.takeRecord
  split
  · exact (((Shows.refl _).setFld _ _ _ _ _).count64 _ _ _ _).mem
  · simp

@[simp] theorem State.commitSeries_mem (s : State) (b : List Byte) : (s.commitSeries b).mem = s.mem := by
  unfold State.commitSeries State.each
  induction List.range (b.length / 16) generalizing s with
  | nil => rfl
  | cons i l ih => exact (ih _).trans (State.takeRecord_mem _ _)

@[simp] theorem State.strmRefuse_mem (s : State) (src : Source) (p err : Nat) : (s.strmRefuse src p err).mem = s.mem := by
  simp [State.strmRefuse]

@[simp] theorem State.strmEnd_mem (s : State) (src : Source) (p err : Nat) : (s.strmEnd src p err).mem = s.mem := by
  unfold State.strmEnd
  dsimp only
  split
  · rfl
  · rw [State.strmSettle_mem, State.on_mem _ fun u => u.count_mem _ _ _ _]
    simp

@[simp] theorem State.strmFail_mem (s : State) (src : Source) (p err : Nat) : (s.strmFail src p err).mem = s.mem := by
  unfold State.strmFail
  split
  · simp
  · rw [State.on_mem _ State.endRecords_mem, State.strmEnd_mem]

@[simp] theorem State.strmDone_mem (s : State) (src : Source) (p : Nat) : (s.strmDone src p).mem = s.mem := by
  unfold State.strmDone
  dsimp only
  rw [State.on_mem _ State.endRecords_mem]
  simp

@[simp] theorem State.showLost_mem (s : State) (c : Nat) : (s.showLost c).mem = s.mem :=
  ((((Shows.refl s).wrB _ _ _ _).wrB _ _ _ _).wrB _ _ _ _).mem

@[simp] theorem State.clearLost_mem (s : State) (c addr : Nat) : (s.clearLost c addr).mem = s.mem := by
  unfold State.clearLost
  dsimp only
  split
  · rfl
  · simp

/-! ### Stores within a range of a claim -/

theorem State.rdByte_congr {s t : State} (h : t.mem = s.mem) (c a : Nat) : t.rdByte c a = s.rdByte c a :=
  congrArg (fun m => Sparse.get 0 m (memKey c a)) h

/-- From `s` to `t` no byte of claim memory has changed but those of claim `c` from address `lo` up to `hi`. -/
def StoresWithin (c lo hi : Nat) (s t : State) : Prop :=
  ∀ c' < 64, ∀ a < 2 ^ 48, (c' ≠ c % 64 ∨ a < lo ∨ hi ≤ a) → t.rdByte c' a = s.rdByte c' a

theorem StoresWithin.of_mem_eq {c lo hi : Nat} {s t : State} (h : t.mem = s.mem) : StoresWithin c lo hi s t :=
  fun c' _ a _ _ => State.rdByte_congr h c' a

theorem StoresWithin.trans {c lo hi : Nat} {s t u : State} (h : StoresWithin c lo hi s t) (k : StoresWithin c lo hi t u) :
    StoresWithin c lo hi s u :=
  fun c' hc a ha hout => (k c' hc a ha hout).trans (h c' hc a ha hout)

/-- What leaves memory alone after a store does not matter. -/
theorem StoresWithin.congr_mem {c lo hi : Nat} {s t u : State} (h : StoresWithin c lo hi s t) (hmem : u.mem = t.mem) :
    StoresWithin c lo hi s u :=
  h.trans (.of_mem_eq hmem)

theorem StoresWithin.mono {c lo lo' hi hi' : Nat} {s t : State} (h : StoresWithin c lo hi s t) (hlo : lo' ≤ lo) (hhi : hi ≤ hi') :
    StoresWithin c lo' hi' s t :=
  fun c' hc a ha hout => h c' hc a ha (hout.imp_right (Or.imp (·.trans_le hlo) hhi.trans))

/-- Keys of addresses within a claim's 2^48 bytes are distinct where the claim or the address is. -/
theorem memKey_inj {c c' a a' : Nat} (hc : c' < 64) (ha : a < 2 ^ 48) (ha' : a' < 2 ^ 48) :
    memKey c' a' = memKey c a ↔ c' = c % 64 ∧ a' = a := by
  unfold memKey
  omega

theorem StoresWithin.wrByte {c a : Nat} (s : State) (v : Byte) (ha : a < 2 ^ 48) : StoresWithin c a (a + 1) s (s.wrByte c a v) := by
  intro c' hc a' ha' hout
  refine Sparse.get_set_ne _ _ _ fun hkey => ?_
  have := (memKey_inj hc ha ha').mp hkey
  omega

theorem StoresWithin.wrBytes {c a : Nat} (s : State) (b : List Byte) (hend : a + b.length ≤ 2 ^ 48) :
    StoresWithin c a (a + b.length) s (s.wrBytes c a b) := by
  induction b generalizing s a with
  | nil => exact .of_mem_eq rfl
  | cons v l ih =>
    rw [List.length_cons] at hend ⊢
    exact ((StoresWithin.wrByte s v (by omega)).mono le_rfl (by omega)).trans
      ((ih (s.wrByte c a v) (by omega)).mono (by omega) (by omega))

/-! ### The commit of a lap (R448) -/

/-- An address of an allocation lies in the fast or the slow region (R204). -/
theorem State.lt_of_addrOk {s : State} {c addr n : Nat} (h : s.addrOk c addr n = true) : addr < 2 ^ 47 := by
  simp only [State.addrOk, Bool.or_eq_true, Bool.and_eq_true, beq_iff_eq, decide_eq_true_eq] at h
  omega

/-- A commit to one block stores only the bytes that it is given. -/
theorem State.commitBlock_storesWithin (s : State) (src : Source) {c addr : Nat} {b : List Byte} (hblock : b.length ≤ 4096 - addr % 4096) :
    StoresWithin c addr (addr + b.length) s (s.commitBlock src c addr b).1 := by
  unfold State.commitBlock
  split
  · exact .of_mem_eq (State.refuseAddr_mem ..)
  next hok =>
    have haddr : addr < 2 ^ 47 := State.lt_of_addrOk (by simpa using hok)
    split
    · exact .of_mem_eq rfl
    · refine StoresWithin.congr_mem (t := if b.length < 4096 ∧ !s.checkHolds c addr then s.writeWaits c addr b else s.wrBytes c addr b)
        ?_ ?_
      · split
        · exact .of_mem_eq rfl
        · exact .wrBytes s b (by omega)
      · dsimp only
        rw [State.count64_mem, State.on_mem _ fun u => u.clearLost_mem c addr, State.countWrite_mem]

/-- A commit of whole blocks stores only the bytes that it is given. -/
theorem State.commitBytes_storesWithin (src : Source) (c n addr : Nat) (b : List Byte) (s : State) :
    StoresWithin c addr (addr + b.length) s (State.commitBytes src c n addr b s).1 := by
  induction n generalizing addr b s with
  | zero => exact .of_mem_eq rfl
  | succ n ih =>
    unfold State.commitBytes
    split
    · exact .of_mem_eq rfl
    · have hlen : (b.take (min b.length (4096 - addr % 4096))).length = min b.length (4096 - addr % 4096) := by simp
      have hfirst : StoresWithin c addr (addr + b.length) s
          (s.commitBlock src c addr (b.take (min b.length (4096 - addr % 4096)))).1 :=
        (State.commitBlock_storesWithin s src (by omega)).mono le_rfl (by omega)
      dsimp only
      split
      · exact hfirst
      · refine hfirst.trans ((ih _ _ _).mono (by omega) ?_)
        rw [List.length_drop]
        omega

/-- A lap of an STM write stores only the bytes that wait in the context and its own. -/
theorem State.commitStm_storesWithin (s : State) (src : Source) (p : Nat) (x : Stream) (b : List Byte) :
    let first := x.addr + x.passed - x.object.length
    StoresWithin (p - Page.STM 0) first (first + x.object.length + b.length) s (s.commitStm src p x b).1 := by
  intro first
  unfold State.commitStm
  refine StoresWithin.congr_mem ((State.commitBytes_storesWithin _ _ _ _ _ _).mono le_rfl ?_) (State.setStream_mem _ _ _ _)
  simp only [List.length_take, List.length_append, first]
  omega

theorem State.commitLap_stm {s : State} {src : Source} {p : Nat} {x : Stream} {b : List Byte} (hp : pageType p = .stm) :
    s.commitLap src p x b = s.commitStm src p x b := by
  rw [State.commitLap, hp]

/-- A lap for the object of a page that is not an STM page stores nothing. -/
theorem State.commitLap_mem {s : State} {src : Source} {p : Nat} {x : Stream} {b : List Byte} (hp : pageType p ≠ .stm) :
    (s.commitLap src p x b).1.mem = s.mem := by
  unfold State.commitLap
  split
  · exact absurd ‹_› hp
  · simp
  · split <;> rfl
  · rfl
  · rfl

/-- The bytes of a lap are its words. -/
theorem Stream.length_lapBytes_le (x : Stream) : x.lapBytes.length ≤ x.lapLen := by
  have hword (w : Nat) : (leBytes 4 w).length = 4 := rfl
  simp only [Stream.lapBytes, List.length_flatten, List.map_map, Function.comp_def, hword, List.map_const', List.length_range,
    List.sum_replicate, smul_eq_mul]
  omega

/-- The end of a lap changes claim memory as its commit does. -/
theorem State.lapWritten_mem (s : State) (src : Source) (p : Nat) :
    ∃ u : State, u.mem = s.mem ∧
      (s.lapWritten src p).mem = (u.commitLap src p (s.stream src p) (s.stream src p).lapBytes).1.mem := by
  refine ⟨s.wrB src.num p Reg.HDR.STREAM_CHECK (crcMore (s.strm src p Reg.HDR.STREAM_CHECK) (s.stream src p).lapBytes), rfl, ?_⟩
  unfold State.lapWritten
  dsimp only
  split
  · exact State.strmFail_mem ..
  · split
    · exact State.strmDone_mem ..
    · rfl

/-! ### The access (R445, R449) -/

/-- A word written to a window leaves memory alone, but where it is the last of a write transfer's lap: that lap is committed. -/
theorem State.winWrite_mem (s : State) (src : Source) (p x : Nat) (v : Word) (be : Nat) :
    (s.winWrite src p x v be).mem = s.mem ∨
      ∃ seen lap, (s.winWrite src p x v be).mem =
        ((s.setStream src p { s.stream src p with seen := seen, lap := lap }).lapWritten src p).mem := by
  unfold State.winWrite
  dsimp only
  split
  · exact .inl (State.strmFail_mem ..)
  · split
    · exact .inl (State.strmFail_mem ..)
    · split
      · exact .inr ⟨_, _, rfl⟩
      · exact .inl rfl

/-- A write to a window that finds its source admitted is `winWrite` on the state in which the pair on the page is closed; any other
leaves memory alone. -/
theorem State.windowWrite_mem (s : State) (src : Source) (p x : Nat) (v : Word) (be : Nat) :
    (s.windowWrite src p x v be).mem = s.mem ∨
      (s.windowWrite src p x v be).mem = (((s.touch src).breakPair src p).winWrite src p x v be).mem := by
  unfold State.windowWrite
  dsimp only
  split
  · exact .inl rfl
  · split
    · exact .inl (State.forbid_mem ..)
    · exact .inr rfl

/-- What a write to a window does to claim memory: nothing, or the commit of one lap of the transfer that the page's context holds. -/
theorem State.windowWrite_commits (s : State) (src : Source) (p x : Nat) (v : Word) (be : Nat) :
    (s.windowWrite src p x v be).mem = s.mem ∨
      ∃ (y : Stream) (u : State), (∃ seen lap, y = { s.stream src p with seen := seen, lap := lap }) ∧ u.mem = s.mem ∧
        (s.windowWrite src p x v be).mem = (u.commitLap src p y y.lapBytes).1.mem := by
  have hstream : ((s.touch src).breakPair src p).stream src p = s.stream src p := by simp [State.stream]
  obtain hsame | hwin := s.windowWrite_mem src p x v be
  · exact .inl hsame
  · obtain hsame | ⟨seen, lap, hlap⟩ := ((s.touch src).breakPair src p).winWrite_mem src p x v be
    · exact .inl (by simp [hwin, hsame])
    · rw [hstream] at hlap
      obtain ⟨u, hu, hcommit⟩ := State.lapWritten_mem
        (((s.touch src).breakPair src p).setStream src p { s.stream src p with seen := seen, lap := lap }) src p
      rw [State.stream_setStream] at hcommit
      exact .inr ⟨_, u, ⟨seen, lap, rfl⟩, by simp [hu], hwin.trans (hlap.trans hcommit)⟩

/-- On an STM page a write to its window stores only in the page's claim, what waits in the transfer and its lap. -/
theorem State.windowWrite_storesWithin (s : State) (src : Source) {p : Nat} (x : Nat) (v : Word) (be : Nat) (hp : pageType p = .stm) :
    let w := s.stream src p
    let first := w.addr + w.passed - w.object.length
    StoresWithin (p - Page.STM 0) first (first + w.object.length + w.lapLen) s (s.windowWrite src p x v be) := by
  intro w first
  obtain hsame | ⟨y, u, ⟨seen, lap, hy⟩, hu, hcommit⟩ := s.windowWrite_commits src p x v be
  · exact .of_mem_eq hsame
  · rw [State.commitLap_stm hp] at hcommit
    have hfirst : y.addr + y.passed - y.object.length = first := by rw [hy]
    have hend : first + y.object.length + y.lapBytes.length ≤ first + w.object.length + w.lapLen := by
      rw [show w.object = y.object by rw [hy], show w.lapLen = y.lapLen by rw [hy, Stream.lapLen, Stream.lapLen]]
      exact Nat.add_le_add_left y.length_lapBytes_le _
    have hstm := u.commitStm_storesWithin src p y y.lapBytes
    rw [hfirst] at hstm
    exact .congr_mem (.trans (.of_mem_eq hu) (hstm.mono le_rfl hend)) hcommit

/-- On a stream page that is no claim's a write to its window stores nothing. -/
theorem State.windowWrite_mem_of_not_stm (s : State) (src : Source) {p : Nat} (x : Nat) (v : Word) (be : Nat) (hp : pageType p ≠ .stm) :
    (s.windowWrite src p x v be).mem = s.mem := by
  obtain hsame | ⟨y, u, -, hu, hcommit⟩ := s.windowWrite_commits src p x v be
  · exact hsame
  · exact (hcommit.trans (State.commitLap_mem hp)).trans hu

/-! ### The obligation -/

/-- A command that completes without input leaves the state as it is, otherwise it has its effect. -/
theorem perform_eq_next {i : Instr} {s t u : State} (h : perform i s t = .next u) : u = if s.powered then t else s := by
  cases hwf : wellFormed i with
  | true =>
    rw [perform_wf hwf] at h
    injection h with h
    exact h.symm
  | false => simp [perform_notWf hwf] at h

/-- Settles O59: the page is an STM page, whose window stores within the range, or it is not, and memory is as it was. -/
theorem streamStores : Obligations.StreamStores := by
  unfold Obligations.StreamStores
  intro src page x v be s t c a hrun hstream hc ha p w first hout
  have ht : t = if s.powered then s.windowWrite src p (x % 4096) v (be % 16) else s := by
    refine (perform_eq_next hrun).trans ?_
    rw [if_pos hstream]
  rw [ht]
  split
  · by_cases hp : pageType p = .stm
    · exact s.windowWrite_storesWithin src _ v _ hp c hc a ha (hout.resolve_left (not_not_intro hp))
    · exact State.rdByte_congr (s.windowWrite_mem_of_not_stm src _ v _ hp) c a
  · rfl

end Sys2Proof.Machine
end

section
/-!
The memory tiers (R212 to R214): a migration's stripe, a window of queue depths, and the retirement of a channel.
-/

namespace Sys2Proof.Machine

/-! ### Imbalance and retirement (R212, R214) -/

/-- In a window whose depths all stay at or below twice the mean, or whose mean is below 16 requests, no channel is over. -/
theorem filter_over_eq_nil {d : List (Nat × Nat)} {sum n : Nat} (h : ∀ x ∈ d, x.2 * n ≤ 2 * sum ∨ sum < 16 * n) :
    d.filter (fun x => decide (2 * sum < x.2 * n) && decide (16 * n ≤ sum)) = [] := by
  refine List.filter_eq_nil_iff.mpr fun x hx => ?_
  have := h x hx
  simp only [Bool.and_eq_true, decide_eq_true_eq]
  omega

/-- With GO a completed pair on FTC.CHAN_RETIRE retires the channel of its stack (R214). -/
theorem State.chanRetireAct_fast {s : State} {stack v : Nat} (hgo : bit v 8 = true) :
    s.chanRetireAct false stack v = (s.retireChannel false (32 * stack + bits v 4 0) 0, true) := by
  simp [State.chanRetireAct, hgo]

/-- With GO a completed pair on MIL.CHAN_RETIRE retires the stack that it names among the page's six (R214). -/
theorem State.chanRetireAct_slow {s : State} {page v : Nat} (hgo : bit v 8 = true) (hstack : bits v 2 0 < 6) :
    s.chanRetireAct true page v = (s.retireChannel true (6 * page + bits v 2 0) 0, true) := by
  simp [State.chanRetireAct, hgo, hstack]

/-! ### The obligation -/

/-- Settles O31: a migration under way moves its stripe; a window without a channel over leaves no run; with GO the
two retirement pairs, which reach their rule, retire the channel. -/
theorem tiersComplete : Obligations.TiersComplete := by
  unfold Obligations.TiersComplete
  refine ⟨?migrate, ?window, ?fast, ?slow⟩
  case migrate =>
    intro slow c cause s hready hactive u
    refine (perform_ready hready).trans (congrArg _ ?_)
    rw [hactive]
  case window =>
    intro slow depths busiest s hready l d sum n hbelow
    refine (perform_ready hready).trans (congrArg _ ?_)
    have hnone := filter_over_eq_nil hbelow
    simp only [d, sum, n, l] at hnone
    simp only [hnone, List.map_nil, List.filter_nil, List.foldl_nil]
    rfl
  case fast =>
    intro src stack v s hready hopen hgo
    exact (perform_ready hready).trans (congrArg _ (State.guarded_done hopen (State.chanRetireAct_fast hgo)))
  case slow =>
    intro src page v s hready hopen hgo hstack
    exact (perform_ready hready).trans (congrArg _ (State.guarded_done hopen (State.chanRetireAct_slow hgo hstack)))

end Sys2Proof.Machine
end

section
/-!
The blocks of the tiers (R227, R229, R340 to R344): scrub, arrival on the mesh, stashes and recompute runs.
-/

namespace Sys2Proof.Machine

/-! ### Blocks in store and in transit (R340 to R344) -/

@[simp] theorem State.tier_modTier (s : State) (slow : Bool) (f : Tier → Tier) : (s.modTier slow f).tier slow = f (s.tier slow) := by
  cases slow <;> rfl

@[simp] theorem State.modTier_claims (s : State) (slow : Bool) (f : Tier → Tier) : (s.modTier slow f).claims = s.claims := by
  cases slow <;> rfl

@[simp] theorem State.modTier_marks (s : State) (slow : Bool) (f : Tier → Tier) : (s.modTier slow f).marks = s.marks := by
  cases slow <;> rfl

@[simp] theorem State.tier_showScrub (s : State) (slow : Bool) : s.showScrub.tier slow = s.tier slow := rfl
@[simp] theorem State.showScrub_claims (s : State) : s.showScrub.claims = s.claims := rfl
@[simp] theorem State.showScrub_marks (s : State) : s.showScrub.marks = s.marks := rfl

/-- Where no claim has unlisted LOST blocks, no list takes any at the end of a scrub pass (R343). -/
theorem State.filter_lostMore_eq_nil {s : State} (h : ∀ c < 64, (s.claim c).lostMore = false) :
    (List.range 64).filter (fun c => (s.claim c).lostMore) = [] :=
  List.filter_eq_nil_iff.mpr fun c hc => by simp [h c (List.mem_range.mp hc)]

/-! ### Stashes (R227, R229) -/

/-- A stash that fits in what the stockpile has free is held in the fast tier at the first turn of R227's loop. -/
theorem State.placeStash_fits {s : State} {c l mb : Nat} {j : Job} {x : Stash} (fuel : Nat) (hj : s.job? c = some j)
    (hx : j.stash? l mb = some x) (hfits : j.occupancy + x.held ≤ j.usable) :
    s.placeStash c l mb (fuel + 1) =
      ((s.setJob c (j.modStash l mb (fun y => { y with tier := tierFast }))).showStock c).stashDone c l mb := by
  simp only [State.placeStash, hj, hx, if_pos hfits]

/-- A job without a run under way starts one towards its targets (R229). -/
theorem State.startRecompute_cons {s : State} {c mb top : Nat} {rest : List Nat} {j : Job} (hj : s.job? c = some j)
    (hrun : j.recomp = none) :
    let lo := j.segStart (j.segLow top mb) mb
    let way := j.order.filter (fun l => decide (lo ≤ l) && decide (l ≤ top))
    s.startRecompute c mb (top :: rest) = (s.setJob c { j with recomp := some (mb, way, top :: rest), regen := [] }).runLayer c := by
  simp [State.startRecompute, hj, hrun]

/-! ### The obligation -/

/-- Settles O32: each clause's premises leave one path of its command: four failed checks are charged or fewer are counted; a stash
that fits takes the loop's first turn; a scrub pass that ends with no unlisted LOST block only starts its count anew. -/
theorem blocksComplete : Obligations.BlocksComplete := by
  unfold Obligations.BlocksComplete
  refine ⟨?scrub, ?passEnd, ?arrival, ?stash, ?spill, ?recompute⟩
  case scrub =>
    intro c addr fails s hready hok
    refine (perform_ready hready).trans (congrArg _ ?_)
    simp only [hok, Bool.not_true, Bool.false_eq_true, if_false]
  case passEnd =>
    intro slow s hready hlisted
    refine ⟨(s.modTier slow (fun t => { t with scrub := 0 })).showScrub, (perform_ready hready).trans (congrArg _ ?_), ?_, ?_, ?_⟩
    · rw [State.filter_lostMore_eq_nil hlisted, State.each_nil]
    · simp
    · simp
    · simp
  case arrival =>
    intro way c addr fails s hready p u
    refine (perform_ready hready).trans (congrArg _ ?_)
    have hfour : min 4 fails < 4 ↔ fails < 4 := by omega
    simp only [hfour]
    rfl
  case stash =>
    intro c layer mb e j x s hready hj hx he hforming hleft hfits
    refine (perform_ready hready).trans (congrArg _ ?_)
    simp only [hj, hx, he, hforming, hleft, and_self, if_true]
    exact State.placeStash_fits _ hj hx hfits
  case spill =>
    intro c layer mb j x s hready hj hx hspilling
    refine (perform_ready hready).trans (congrArg _ ?_)
    simp only [hj, hx, hspilling, ne_eq, not_true, if_false]
  case recompute =>
    intro c mb top rest j s hready hj hactive hphase hfreed hrun htargets lo way
    refine (perform_ready hready).trans (congrArg _ ?_)
    simp only [hj, hactive, hphase, hfreed, and_self, if_true, htargets]
    exact State.startRecompute_cons hj hrun

end Sys2Proof.Machine
end

section
/-!
Cascade messages and the mill bridge (R236, R309, R326): delivery to a role that is held, the reply to a stale role, and resends.
-/

namespace Sys2Proof.Machine

/-! ### Acceptance of a message (R309) -/

/-- The MSEQs that the module has accepted from a message's source under its key. -/
def State.seenMseqs (s : State) (m : Message) : List Nat := Sparse.get [] s.casc.gotSeq (m.key * 4096 + m.src)

/-- The window of MSEQs once a message has been accepted: those seen and its own, down to 63 below the greatest. -/
def State.rememberMseq (s : State) (m : Message) : State :=
  { s with casc := { s.casc with
    gotSeq := Sparse.set [] s.casc.gotSeq (m.key * 4096 + m.src)
      ((s.seenMseqs m ++ [m.mseq]).filter (fun q => decide (max ((s.seenMseqs m).foldl max 0) m.mseq < q + 64))) } }

/-- The tag and MSEQ checks pass: the tag verifies, and the MSEQ is new and within 64 of the greatest seen. -/
theorem State.seqCheck_passes {s : State} {m : Message} (htag : m.tagOk = true) (hwindow : (s.seenMseqs m).foldl max 0 < m.mseq + 64)
    (hnew : (s.seenMseqs m).contains m.mseq = false) :
    ¬ ((!m.tagOk) = true ∨ m.mseq + 64 ≤ (s.seenMseqs m).foldl max 0 ∨ (s.seenMseqs m).contains m.mseq = true) := by
  rintro (hbad | hold | hagain)
  · simp [htag] at hbad
  · omega
  · exact Bool.false_ne_true (hnew.symm.trans hagain)

/-- A message of a class other than ROLE that passes the checks of R309 has its MSEQ remembered; what then becomes of it turns on
whether the module holds the role that it is for (R326). -/
theorem State.messageReceive_accepted {s : State} {n : Nat} {m : Message} (hpeer : (s.peer m.src).dropped = false) (hlow : 4 ≤ m.cls)
    (hhigh : m.cls ≤ 8) (hrole : m.cls ≠ 5) (htag : m.tagOk = true) (hwindow : (s.seenMseqs m).foldl max 0 < m.mseq + 64)
    (hnew : (s.seenMseqs m).contains m.mseq = false) (hepoch : m.epoch = s.epoch) (hchecks : m.checksOk = true) :
    s.messageReceive n m = if !(s.rememberMseq m).holdsRole m.destRole m.destEpoch then (s.rememberMseq m).staleRole n m
      else (s.rememberMseq m).deliver m := by
  have hcarried : ¬ ((s.peer m.src).dropped = true ∨ m.cls < 4 ∨ 8 < m.cls) := by
    rintro (hdropped | hbelow | habove)
    · simp [hpeer] at hdropped
    · omega
    · omega
  have hhead : ¬ (m.cls = 5 ∧ m.headEpoch < s.casc.heardEpoch) := fun h => hrole h.1
  have hother : (m.cls == 5) = false := beq_false_of_ne hrole
  refine (if_neg hcarried).trans <| (if_neg (State.seqCheck_passes htag hwindow hnew)).trans <| (if_neg (not_not_intro hepoch)).trans ?_
  simp only [hchecks, Bool.not_true, Bool.false_eq_true, if_false, if_neg hhead, hother, State.on_false]
  rfl

/-! ### The reply to a stale role (R326) -/

/-- The module with a role's new holder entered in its role table. -/
def State.enterRole (s : State) (r : RoleEntry) : State :=
  { s with casc := { s.casc with roles := mergeRoles s.casc.roles [r] } }

/-- A message that is still kept, whose hoist is not complete and which has not been sent again yet goes once more to the new holder. -/
theorem State.staleReply_resends {s : State} {r : RoleEntry} {mseq c e : Nat} {m : OutMsg} {j : Job}
    (hsent : s.casc.sent.find? (fun x => x.destRole == r.role && x.mseq == mseq) = some m) (horigin : m.origin = some (c, e))
    (hj : s.job? c = some j) (hopen : (j.run e).complete = false) (honce : s.casc.resent.contains mseq = false) :
    let u := s.enterRole r
    s.staleReply r mseq = ({ u with casc := { u.casc with resent := u.casc.resent ++ [mseq, u.nextMseq m.key r.member] } }).sendMsg
      { m with dest := r.member, destEpoch := r.epoch } := by
  intro u
  have hju : u.job? c = some j := hj
  simp only [u, State.enterRole] at hju
  simp only [State.staleReply, hsent, horigin, hju, hopen, honce, Bool.false_eq_true, or_self, if_false]
  rfl

/-! ### The obligation -/

/-- Settles O19: a message that passes the checks is remembered before its role is looked up, and the role is held; the kept message
meets none of the reasons not to send it again; fewer than four failures of a bridge block are all counted. -/
theorem messagesComplete : Obligations.MessagesComplete := by
  unfold Obligations.MessagesComplete
  refine ⟨?receive, ?stale, ?bridge⟩
  case receive =>
    intro n m s hready hpeer hlow hhigh hrole htag key seen top hwindow hnew hepoch hchecks u hholds
    have hheld : (s.rememberMseq m).holdsRole m.destRole m.destEpoch = true := hholds
    refine (perform_ready hready).trans (congrArg _ ?_)
    rw [State.messageReceive_accepted hpeer hlow hhigh hrole htag hwindow hnew hepoch hchecks, hheld]
    rfl
  case stale =>
    intro n mseq c e r m j s hready hsent horigin hj hopen honce u
    exact (perform_ready hready).trans (congrArg _ (State.staleReply_resends hsent horigin hj hopen honce))
  case bridge =>
    intro c addr fails s hready hfew
    refine (perform_ready hready).trans (congrArg _ ?_)
    rw [if_pos hfew, Nat.min_eq_right (Nat.le_of_lt_succ hfew)]

end Sys2Proof.Machine
end

section
/-!
Writes of the seams (R271 to R277, R282): a row side's pulses, the blocks of a write list, a quiet seam and a relief copy.
-/

namespace Sys2Proof.Machine

/-! ### Row sides (R271, R273, R274) -/

/-- Cells that the last verify read leaves within half a level are none of them stubborn. -/
theorem filter_stubborn_eq_nil {off : List (Nat × Int)} (h : ∀ x ∈ off, x.2.natAbs ≤ 512) :
    off.filter (fun x => decide (512 < x.2.natAbs)) = [] :=
  List.filter_eq_nil_iff.mpr fun x hx => by simpa using h x hx

/-- Without stubborn cells no clearing fails. -/
@[simp] theorem State.clearFails_nil (s : State) (p a rank row : Nat) : s.clearFails p a rank row [] = s :=
  if_pos (.inr (.inl rfl))

/-- None of what holds a row side's write back: a hold, a locked array, a vector that is being read, both channels taken. -/
theorem State.writeHeld_eq_false {s : State} {p a rank : Nat} (hhold : s.holdAll = false) (hlock : s.arrLocked p a = false)
    (hvec : (s.arr p a).vec = none) (hturn : s.channelTakes p a rank = true) :
    (s.holdAll || (rank != 0 && s.arrLocked p a) || (s.arr p a).vec.isSome || !s.channelTakes p a rank) = false := by
  simp [hhold, hlock, hvec, hturn]

/-! ### Write lists (R23, R282) -/

/-- A stope that the bridge reaches takes the first of its seam's blocks once that may arrive. -/
theorem State.listBlock_arrives {s : State} {lp k : Nat} {q : Packet} (hp : s.serving lp < 1056) (hhold : s.holdAll = false)
    (hlock : s.seamsLocked (s.serving lp) = false)
    (hq : s.mesh.find? (fun y => y.kind == 2 && y.dst == s.serving lp && y.tag.headD 31 == k) = some q) (hmay : s.mayArrive q = true) :
    let u := (s.meshLand q).modStope (s.serving lp) (fun x => { x with lists := x.lists.map (fun w =>
      if w.seam == k && w.claim == q.claim && !w.whole then { w with arrived := w.arrived + 1 } else w) })
    s.listBlock lp k = u.settleList (s.serving lp) (u.receiver (s.serving lp) k) := by
  have hopen : ¬ (1056 ≤ s.serving lp ∨ s.holdAll = true ∨ s.seamsLocked (s.serving lp) = true) := by
    simp [hp.not_ge, hhold, hlock]
  simp only [State.listBlock, if_neg hopen, hq, hmay, Bool.not_true, Bool.false_eq_true, if_false]

/-! ### The obligation -/

/-- Settles O29: a row side whose turn it is, with cells to pulse and none left stubborn, is written once and not repeated; each
other clause's premises leave one path of its command. -/
theorem writesComplete : Obligations.WritesComplete := by
  unfold Obligations.WritesComplete
  refine ⟨?side, ?block, ?quiet, ?copy, ?ageing⟩
  case side =>
    intro p k row rank neg before after more s hready hrank hclearing hlists hseam hhold hlock hvec hturn off done hoff hread u w
    refine (perform_ready hready).trans (congrArg _ ?_)
    have hpulsed : (before.filter offTarget != []) = true := bne_iff_ne.mpr hoff
    have hsound := filter_stubborn_eq_nil hread
    have hrelief : (k == 16) = false := beq_false_of_ne hseam.ne
    have hinPlace : (rank == 1) = false := beq_false_of_ne hlists
    simp only [done, off] at hsound
    simp only [State.rowSide, hrank, State.writeHeld_eq_false hhold hlock hvec hturn, List.headD_cons, List.tail_cons, hsound, hpulsed,
      hrelief, hinPlace, if_neg hclearing, State.clearFails_nil, State.on_true, State.on_false, Bool.false_and, Bool.and_false,
      Bool.false_eq_true, ne_eq, not_true, false_and, if_false]
    rfl
  case block =>
    intro lp k q s hready hp hhold hlock p hq hmay u
    exact (perform_ready hready).trans (congrArg _ (State.listBlock_arrives hp hhold hlock hq hmay))
  case quiet =>
    intro lp k s hready hp hpasses hown
    have hquiet : ¬ (1056 ≤ s.serving lp ∨ (!s.passesDone lp k) = true ∨ s.receiver (s.serving lp) k ≠ k) := by
      simp [hp.not_ge, hpasses, hown]
    exact (perform_ready hready).trans (congrArg _ (if_neg hquiet))
  case copy =>
    intro p window s hready hcopying hfitted hholds hsides
    have hwritten : (s.stope p).sides.any (fun q => q.arr == 16) = false :=
      List.any_eq_false.mpr fun q hq => by simpa using hsides q hq
    have hcopied : ¬ (s.cycle p ≠ rsCopying ∨ (!(s.stope p).copyFit) = true ∨ (!s.holdsTarget p 16) = true ∨
        (s.stope p).sides.any (fun q => q.arr == 16) = true) := by
      simp [hcopying, hfitted, hholds, hwritten]
    exact (perform_ready hready).trans (congrArg _ (if_neg hcopied))
  case ageing =>
    intro s hready
    exact perform_ready hready

end Sys2Proof.Machine
end

section
/-!
Drift and assay (R285 to R292, R298, R521): a probe's estimate, the rounds of a stope's assay, the fits of an array, and the re-plan
of its amplitude.
-/

namespace Sys2Proof.Machine

/-! ### Probes (R285) -/

/-- A probe of a group other than the last, neither pulsed nor in a refresh since its baseline, gives the group's estimate. -/
theorem State.probeGroup_estimate {s : State} {p a g : Nat} (sum : Int) (hg : g < 15) (hpulsed : (s.arr p a).pulsed.contains g = false)
    (hrefresh : (s.arr p a).refresh.contains g = false) :
    let e := (sum - Sparse.get 1536 (s.arr p a).base g).natAbs * s.groupLevel p a g * 1024 / 1536
    s.probeGroup p a g sum = s.modArr p a (fun y => { y with probes := Sparse.set 0 y.probes g e }) := by
  have hnotLast : (g == 15) = false := beq_false_of_ne hg.ne
  simp only [State.probeGroup, hpulsed, hrefresh, hnotLast, Bool.false_and, Bool.or_false, Bool.false_eq_true, if_false, State.on_false]

/-! ### Assay (R288, R289) -/

/-- With GO a completed pair on ASSAY_FORCE makes the assay of the stope that it names due (R288). -/
theorem State.assayForceAct_go {s : State} {src : Source} {v : Nat} (hgo : bit v 16 = true) (hstope : bits v 10 0 < 1056) :
    s.assayForceAct src v = (s.modStope (bits v 10 0) (fun x => { x with due := true }), true) := by
  have hnamed : ¬ ((!bit v 16) = true ∨ 1056 ≤ bits v 10 0) := by simp [hgo, hstope]
  exact if_neg hnamed

/-! ### The obligation -/

/-- Settles O30: each clause's premises leave one path of its command. The guarded pair on ASSAY_FORCE reaches its rule; an array
of a stope without a round due begins none; the mean of R298 has pulsed cells to divide by. -/
theorem assayComplete : Obligations.AssayComplete := by
  unfold Obligations.AssayComplete
  refine ⟨?probe, ?due, ?overdue, ?force, ?begins, ?fits, ?replan, ?slot, ?slotEnd⟩
  case probe =>
    intro p k g sum s hready hlock hg hpulsed hrefresh e
    refine (perform_ready hready).trans (congrArg _ ?_)
    rw [hlock, State.probeGroup_estimate sum hg hpulsed hrefresh]
    rfl
  case due =>
    intro p temp s hready x since far
    exact perform_ready hready
  case overdue =>
    intro p s hready honce since hlate
    have hnew : ¬ ((s.stope p).overdue = true ∨ since < s.fld Page.ASY Reg.ASY.MAX_INTERVAL 9 0 + 60) := by
      simp [honce, hlate]
    exact (perform_ready hready).trans (congrArg _ (if_neg hnew))
  case force =>
    intro src v s hready hopen hgo hstope
    exact (perform_ready hready).trans (congrArg _ (State.guarded_done hopen (State.assayForceAct_go hgo hstope)))
  case begins =>
    intro p k s hready hopen hround
    refine (perform_ready hready).trans (congrArg _ ?_)
    simp only [hopen, hround, Bool.not_true, Bool.false_eq_true, if_false, Bool.false_and, State.on_false]
  case fits =>
    intro p k m s hready hassaying f g changed counts u
    refine (perform_ready hready).trans (congrArg _ ?_)
    simp only [State.assayDone, hassaying, Bool.not_true, Bool.false_eq_true, if_false]
    rfl
  case replan =>
    intro p k s hready hfull hcells hmean hamp
    refine (perform_ready hready).trans (congrArg _ ?_)
    simp only [hfull.not_gt, hmean, hcells.ne', hamp.ne, decide_true, if_true, if_false]
  case slot =>
    intro c e j h s hready hfor u
    refine (perform_ready hready).trans (congrArg _ ?_)
    rw [hfor]
  case slotEnd =>
    intro c e j h s hready hj hh haction hstarted hopen
    refine (perform_ready hready).trans (congrArg _ ?_)
    simp only [hj, hh, haction, hstarted, hopen, Bool.not_false, and_self, if_true]

end Sys2Proof.Machine
end

section
/-!
Lanes of the drift ports (R303 to R306): a lane that fails, one whose eye closes, and one that has recovered.
-/

namespace Sys2Proof.Machine

/-- A port in service settles on its lanes again when one of them changes (R306). -/
theorem State.inService_eq_true {s : State} {n : Nat} (hup : s.portState n ≠ 0) (hfree : s.portState n ≠ 6) :
    (decide (s.portState n ≠ 0) && decide (s.portState n ≠ 6)) = true := by
  rw [decide_eq_true hup, decide_eq_true hfree, Bool.and_self]

/-- A lane in use that fails changes places with the first good spare, and its port settles on the lanes that are left (R304). -/
theorem State.failLane_active {s : State} {n lane sp : Nat} {rest : List Nat} (cause : LaneCause)
    (hgood : s.laneFailed n lane = false) (hlane : lane < 5)
    (hactive : ((s.laneOrder n).take (s.activeLanes n)).contains lane = true) (hspare : s.spareLanes n = sp :: rest)
    (hup : s.portState n ≠ 0) (hfree : s.portState n ≠ 6) :
    let u := s.setFld (Page.DRF n) Reg.DRF.LANE_MAP (16 + lane) (16 + lane) 1
    s.failLane n lane cause = ((((u.swapSpare n lane sp).count (Page.DRF n) Reg.DRF.LANE_SWAPS 8 1).raise (Page.DRF n) 1).record
      0x6002 (Src.drift n) none (items [n, lane, laneCauseCode cause])).settleLanes n := by
  intro u
  have hnamed : ¬ (s.laneFailed n lane = true ∨ 5 ≤ lane) := by simp [hgood, hlane]
  simp only [State.failLane, if_neg hnamed, hactive, hspare, State.inService_eq_true hup hfree, State.on_true]
  rfl

/-- With GO a completed pair on LANE_RETIRE fails the lane that it names (R304). -/
theorem State.laneRetireAct_go {s : State} {n v : Nat} (hgo : bit v 8 = true) (hlane : bits v 2 0 < 5) :
    s.laneRetireAct n v = (s.failLane n (bits v 2 0) .retired, true) :=
  if_pos ⟨hgo, hlane⟩

/-- Settles O4: the failed lane has a good spare to change places with, and so has the lane whose eye is between 10 % and 35 %;
a lane that is good again beside four others leaves the order of the lanes; the pair on LANE_RETIRE reaches its rule. -/
theorem lanesComplete : Obligations.LanesComplete := by
  unfold Obligations.LanesComplete
  refine ⟨?fail, ?eye, ?retrain, ?retire⟩
  case fail =>
    intro n lane sp rest cause s hready hgood hlane hactive hspare hup hfree u
    exact (perform_ready hready).trans (congrArg _ (State.failLane_active cause hgood hlane hactive hspare hup hfree))
  case eye =>
    intro n lane eye sp rest s hready hgood hactive hspare hopen hlow u
    refine (perform_ready hready).trans (congrArg _ ?_)
    simp only [hgood, hopen.not_gt, hlow, hactive, hspare, decide_true, Bool.and_self, Bool.false_eq_true, if_false]
    rfl
  case retrain =>
    intro n lane eye held s hready hfailed hwide hlong hfour hup hfree
    refine (perform_ready hready).trans (congrArg _ ?_)
    simp only [hfailed, hwide.not_gt, hlong.not_gt, hfour.not_gt, State.inService_eq_true hup hfree, decide_false, Bool.not_true,
      Bool.or_self, Bool.false_eq_true, if_false, State.on_true, State.on_false]
  case retire =>
    intro src n v s hready hopen hgo hlane
    exact (perform_ready hready).trans (congrArg _ (State.guarded_done hopen (State.laneRetireAct_go hgo hlane)))

end Sys2Proof.Machine
end

section
/-!
Drift ports that leave service and come back (R316, R330): DOWN, DISABLED, QUARANTINED, and the way from trained lanes to AUTH.
-/

namespace Sys2Proof.Machine

/-- A port in service that goes DOWN for less than the fourth time in 10 s is not held: its queues are discarded and routes change
(R330). -/
theorem State.dropPort_notHeld {s : State} {n : Nat} (hup : s.portState n ≠ 0) (hfree : s.portState n ≠ 6) :
    let recent := (s.port n).downs.filter (fun t => decide (s.osc < t + 10000000000)) ++ [s.osc]
    let u := (s.setPort n 0).modPort n (fun p =>
      { p with outq := [], unacked := [], sends := [], ctl := [], buffered := [], flight := [], drr := [], linkKey := [], downs := recent,
               uncorr := 0 })
    recent.length < 4 →
    s.dropPort n = (((u.setFld (Page.DRF n) Reg.DRF.PORT_STATE 6 4 0).setFld (Page.DRF n) Reg.DRF.PORT_STATE 31 16 0xFFF).wr (Page.DRF n)
      Reg.DRF.CREDITS 0).routesChanged n := by
  intro recent u hfew
  simp only [State.dropPort, if_neg (not_or.mpr ⟨hup, hfree⟩), decide_eq_false hfew.not_ge, State.on_false, recent, u]

/-- A completed pair on PORT_DISABLE takes the port DOWN and holds it, or releases it, and always takes effect (R330). -/
theorem State.portDisableAct_eq (s : State) (n v : Nat) :
    s.portDisableAct n v = (if bit v 0 then ((s.dropPort n).setPort n 6).wr (Page.DRF n) Reg.DRF.PORT_DISABLE 1
      else ((s.wr (Page.DRF n) Reg.DRF.PORT_DISABLE 0).on (s.portState n == 6) (fun u => u.setPort n 0)).modPort n
        (fun p => { p with downs := [] }), true) :=
  (apply_ite (fun u : State => (u, true)) _ _ _).symm

/-- A port that fails in AUTH is QUARANTINED; it carried no messages, so no route changes (R316). -/
theorem State.quarantine_auth {s : State} {n : Nat} (identity step : Nat) (hauth : s.portState n = 2) :
    let u := (s.setPort n 5).modPort n (fun p => { p with outq := p.outq.filter (fun m => m.cls == 3) })
    s.quarantine n identity step = (u.raise (Page.DRF n) 3).record 0x6003 (Src.drift n) none
      [it 1 n, { id := 2, kind := 3, size := 48, val := identity }, it 3 step] := by
  intro u
  have hserves : ¬ (s.portState n = 0 ∨ s.portState n = 6) := by simp [hauth]
  have hquiet : s.portUp n = false := by simp [State.portUp, hauth]
  simp only [State.quarantine, if_neg hserves, hquiet, State.on_false, u]

/-- Settles O6: the port that goes DOWN is not held; the window is bad without being the tenth; a pair on PORT_DISABLE always takes
effect; a port that is DOWN trains, one in AUTH times out and one in QUARANTINED tries again. -/
theorem portsComplete : Obligations.PortsComplete := by
  unfold Obligations.PortsComplete
  refine ⟨?down, ?uncorr, ?disable, ?trained, ?timeout, ?again⟩
  case down =>
    intro n s hready hup hfree recent hfew u
    exact (perform_ready hready).trans (congrArg _ (State.dropPort_notHeld hup hfree hfew))
  case uncorr =>
    intro n count s hready hbad hlanes hrun
    refine (perform_ready hready).trans (congrArg _ ?_)
    have hshort : ¬ 10 ≤ (s.port n).uncorr + 1 := by omega
    simp only [hbad, hlanes, hshort, decide_true, decide_false, Bool.and_self, if_true, if_false, State.on_false]
  case disable =>
    intro src n v s hready hopen b
    exact (perform_ready hready).trans (congrArg _ (State.guarded_done hopen (State.portDisableAct_eq b n v.toNat)))
  case trained =>
    intro n lanes s hready hdown hlanes hon u
    have htrains : ¬ (s.portState n ≠ 0 ∨ lanes < 2 ∨ s.fn (Page.DRF n) = 0) :=
      not_or.mpr ⟨not_not_intro hdown, not_or.mpr ⟨hlanes.not_gt, hon⟩⟩
    exact (perform_ready hready).trans (congrArg _ (if_neg htrains))
  case timeout =>
    intro n s hready hauth u
    exact (perform_ready hready).trans (congrArg _ ((if_pos hauth).trans (State.quarantine_auth (s.port n).identity 3 hauth)))
  case again =>
    intro n s hready hquarantined
    exact (perform_ready hready).trans (congrArg _ (if_pos hquarantined))

end Sys2Proof.Machine
end

section
/-!
Rosters that come into force, and the identities that they list (R314, R316).
-/

namespace Sys2Proof.Machine

/-- At the headframe a completed pair on ROSTER_COMMIT puts a staged roster of higher VERSION in force where its signature verifies;
otherwise the write is ignored (R314). -/
theorem State.rosterCommitAct_newer {s : State} {src : Source} {v : Nat} (hbit : bit v 0 = true) (hhead : s.isHead = true)
    (hnewer : rosterVersion s.casc.roster < rosterVersion (s.staged src Page.CAS)) :
    s.rosterCommitAct src v = if rosterValid s.vault.installer (s.staged src Page.CAS)
      then (s.adoptRoster (s.staged src Page.CAS) s.vault.installer, true)
      else (s.ignoreWrite src Page.CAS Reg.CAS.ROSTER_COMMIT v, false) := by
  cases hvalid : rosterValid s.vault.installer (s.staged src Page.CAS) <;>
    simp [State.rosterCommitAct, hbit, hhead, hvalid, hnewer]

/-- A module with an installer adopts a roster of higher VERSION that its installer signed, and quarantines the port of another
(R314, R330). -/
theorem State.rosterArrives_newer {s : State} {n : Nat} {r : List Byte} (henrolled : s.enrolled = true)
    (hnewer : rosterVersion s.casc.roster < rosterVersion r) :
    s.rosterArrives n r = if rosterValid s.vault.installer r then s.adoptRoster r s.vault.installer
      else s.quarantine n (s.port n).identity 3 := by
  cases hvalid : rosterValid s.vault.installer r <;> simp [State.rosterArrives, henrolled, hvalid, hnewer.not_ge]

/-- Settles O7: the roster is newer, so that its signature alone decides; the HELLO verifies and its sender is listed, so that this
module's own entry alone decides. -/
theorem rostersComplete : Obligations.RostersComplete := by
  unfold Obligations.RostersComplete
  refine ⟨?commit, ?receive, ?hello⟩
  case commit =>
    intro src v s hready hopen hbit b r hhead hnewer
    refine (perform_ready hready).trans (congrArg _ ?_)
    have hact := State.rosterCommitAct_newer (src := src) hbit hhead hnewer
    by_cases hvalid : rosterValid b.vault.installer r = true
    · rw [if_pos hvalid]
      exact State.guarded_done hopen (hact.trans (if_pos hvalid))
    · rw [if_neg hvalid]
      exact State.guarded_refused hopen (hact.trans (if_neg hvalid))
  case receive =>
    intro n r s hready henrolled hnewer
    exact (perform_ready hready).trans (congrArg _ (State.rosterArrives_newer henrolled hnewer))
  case hello =>
    intro n h s hready hauth hchain hsig hlisted
    refine (perform_ready hready).trans (congrArg _ ?_)
    simp only [hauth, hchain, hsig, hlisted, ne_eq, not_true, Bool.true_and, if_false]

end Sys2Proof.Machine
end

section
/-!
The headframe: who is elected, who takes over, and an ordered move (R317, R319, R320).
-/

namespace Sys2Proof.Machine

/-- A candidate waits where its HEAD_PREF is 0 or it has heard a better one that may be headframe (R317). -/
theorem State.candidateWaits_iff {s : State} (hcand : s.fld Page.CAS Reg.CAS.STATE 2 0 = 1) :
    (s.fld Page.CAS Reg.CAS.STATE 2 0 ≠ 1 ∨ s.headPref = 0 ∨ s.casc.cands.any (fun k => k.pref != 0 && betterCand k s.selfCand) = true) ↔
      s.headPref = 0 ∨ ∃ k ∈ s.casc.cands, k.pref ≠ 0 ∧ betterCand k s.selfCand = true := by
  simp [hcand]

/-- With GO a completed pair on HEAD_MOVE at the headframe moves it to the standby that it names, whose tally source is the
headframe's (R320). -/
theorem State.headMoveAct_standby {s : State} {src : Source} {v : Nat} (hhead : s.isHead = true) (hgo : bit v 16 = true)
    (hstandby : bits v 11 0 = s.fld Page.CAS Reg.CAS.HEADFRAME 27 16) (hsome : bits v 11 0 ≠ 0xFFF)
    (hlike : s.casc.cands.any (fun k => k.member == bits v 11 0 && k.ref == (s.fld Page.TAL Reg.TAL.STATUS 2 0 == 1)) = true) :
    s.headMoveAct src v = ({ s with casc := { s.casc with headMove := some (bits v 11 0) } }, true) := by
  have hacts : ¬ ((!s.actsOnCascade || !bit v 16) = true) := by simp [State.actsOnCascade, hhead, hgo]
  have hmoves : ¬ (bits v 11 0 ≠ s.fld Page.CAS Reg.CAS.HEADFRAME 27 16 ∨ bits v 11 0 = 0xFFF ∨
      (!s.casc.cands.any (fun k => k.member == bits v 11 0 && k.ref == (s.fld Page.TAL Reg.TAL.STATUS 2 0 == 1))) = true) := by
    rw [hlike]
    simp [hstandby.symm, hsome]
  exact (if_neg hacts).trans (if_neg hmoves)

/-- Settles O8: a candidate is kept; the election turns on the candidates heard; the standby has its majority and no seal is under
way; the move names a standby like the headframe. -/
theorem headframeComplete : Obligations.HeadframeComplete := by
  unfold Obligations.HeadframeComplete
  refine ⟨?candidate, ?elect, ?takeover, ?move⟩
  case candidate =>
    intro k s hready
    exact perform_ready hready
  case elect =>
    intro s hready hcand
    exact (perform_ready hready).trans (congrArg _ (if_congr (State.candidateWaits_iff hcand) rfl rfl))
  case takeover =>
    intro answers s hready hstandby hmajority hidle
    have hwins : ¬ (s.fld Page.CAS Reg.CAS.STATE 2 0 ≠ 5 ∨ 2 * answers ≤ s.rosterActive) := by simp [hstandby, hmajority]
    refine (perform_ready hready).trans (congrArg _ ((if_neg hwins).trans ?_))
    simp only [hidle, ne_eq, not_true, decide_false, Bool.false_and, State.on_false]
  case move =>
    intro src v s hready hopen b m hhead hgo hstandby hsome hlike
    exact (perform_ready hready).trans
      (congrArg _ (State.guarded_done hopen (State.headMoveAct_standby hhead hgo hstandby hsome hlike)))

end Sys2Proof.Machine
end

section
/-!
Route tables, role entries, members that are evicted, and jobs that restart (R323, R325, R331).
-/

namespace Sys2Proof.Machine

/-- A live member that the headframe declares lost reads LOST and is counted, reported and recorded with the cause (R331). -/
theorem State.declareMemberLost_live {s : State} {m : Nat} (cause : Nat) (hlive : s.live m = true) :
    let v := s.modPeer m (fun p => { p with info := 5 })
    let u := (v.setFld Page.CAS Reg.CAS.MEMBERS 12 0 (v.fld Page.CAS Reg.CAS.MEMBERS 12 0 - 1)).count Page.CAS Reg.CAS.LOST_MEMBERS 1 1
    s.declareMemberLost m cause =
      (State.reportMember { u with casc := { u.casc with losses := u.casc.losses.filter (fun (e : Nat × Nat) => e.1 != m) ++ [(m, cause)] } }
        m).record 0x6009 (Src.cascade 0) none (items [m, cause]) :=
  if_neg (by simp [hlive])

/-- With GO a completed pair on MEMBER_EVICT at the headframe declares the live member that it names lost, with cause 4 (R331). -/
theorem State.memberEvictAct_live {s : State} {src : Source} {v : Nat} (hgo : bit v 16 = true) (hhead : s.isHead = true)
    (hlive : s.live (bits v 11 0) = true) : s.memberEvictAct src v = (s.declareMemberLost (bits v 11 0) 4, true) :=
  if_neg (by simp [State.actsOnCascade, hgo, hhead, hlive])

/-- Settles O10: the route table is newer and this member not the headframe; role entries wait unconditionally; the member to be
evicted is live; the restarted job has its claim here, and its role a buddy. -/
theorem rolesComplete : Obligations.RolesComplete := by
  unfold Obligations.RolesComplete
  refine ⟨?routes, ?roles, ?evict, ?restart⟩
  case routes =>
    intro version routes s hready hnewer hmember
    exact (perform_ready hready).trans (congrArg _ (if_neg (not_or.mpr ⟨hnewer.not_ge, hmember⟩)))
  case roles =>
    intro roles tally s hready
    exact perform_ready hready
  case evict =>
    intro src v s hready hopen hgo b m hhead hlive u
    have hact := State.memberEvictAct_live (src := src) hgo hhead hlive
    rw [State.declareMemberLost_live 4 hlive] at hact
    exact (perform_ready hready).trans (congrArg _ (State.guarded_done hopen hact))
  case restart =>
    intro job step s hready b u c hclaim w r j hbuddy hjob
    refine (perform_ready hready).trans (congrArg _ ?_)
    simp only [b, u, w] at hclaim hbuddy hjob
    simp only [hclaim, hbuddy, hjob, b, u, w]

end Sys2Proof.Machine
end

section
/-!
Notices (R349, R350), held reads that abort (R348), and blocks that have been rebuilt (R342).
-/

namespace Sys2Proof.Machine

/-- A job that changes leaves the marks of blocks as they are. -/
@[simp] theorem State.modJob_marks (s : State) (c : Nat) (f : Job → Job) : (s.modJob c f).marks = s.marks := by
  unfold State.modJob
  split <;> rfl

/-- A job that changes leaves the mesh as it is. -/
@[simp] theorem State.modJob_mesh (s : State) (c : Nat) (f : Job → Job) : (s.modJob c f).mesh = s.mesh := by
  unfold State.modJob
  split <;> rfl

/-- An UNSOUND notice that names blocks marks them for their recomputed copies (R350); its job then forgets only what has landed. -/
theorem State.unsoundArrives_noticed {s : State} {n : Notice} (hnamed : s.noticed n ≠ []) :
    ∃ f, s.unsoundArrives n = (s.notice n (some 1)).modJob n.claim f :=
  ⟨_, if_neg (mt List.map_eq_nil_iff.mp hnamed)⟩

/-- Settles O16: the notices name blocks that wait for them, the read is held, and the block is damaged with its rebuild begun. -/
theorem noticesComplete : Obligations.NoticesComplete := by
  unfold Obligations.NoticesComplete
  refine ⟨?sound, ?unsound, ?abort, ?rebuilt⟩
  case sound =>
    intro n s hready hnamed
    exact (perform_ready hready).trans (congrArg _ (if_neg hnamed))
  case unsound =>
    intro n s hready hnamed
    obtain ⟨f, hf⟩ := State.unsoundArrives_noticed hnamed
    exact ⟨_, (perform_ready hready).trans (congrArg _ hf), State.modJob_marks _ _ f, State.modJob_mesh _ _ f⟩
  case abort =>
    intro src s hready hheld a page
    exact (perform_ready hready).trans (congrArg _ (if_neg (not_not_intro hheld)))
  case rebuilt =>
    intro c addr s hready b hdamaged hbegun u
    have hwaits : ¬ (!(s.mark c b).damaged || !(s.mark c b).rebuild) = true := by simp [hdamaged, hbegun]
    exact (perform_ready hready).trans (congrArg _ (if_neg hwaits))

end Sys2Proof.Machine
end

section
/-!
Tests of stopes (R354, R362, R363): one that passes, one that is due, overdue or asked for, and the end of a watch window.
-/

namespace Sys2Proof.Machine

/-- What changes registers, interrupts and records only leaves a stope as it is. -/
theorem Shows.stope {s t : State} (h : Shows s t) (p : Nat) : t.stope p = s.stope p :=
  congrArg (Sparse.get Stope.idle · p) h.stopes

/-- A WATCHED stope with fewer than two failures in its window and a test passed is in service again (R354). -/
def State.endWatch (s : State) (p : Nat) : State :=
  let s1 := (s.modStope p (fun y => { y with integ := igService, fails := 0 })).bumpStates 10 0 false
  (s1.on (s1.fn (Page.STX p) == 5) (fun u => u.setFn (Page.STX p) 2)).record 0x700A (Src.stope p) none
    (items [p, (s.stope p).fails])

/-- Beside the stope itself, the end of its WATCHED state changes registers, interrupts and records only. -/
theorem State.endWatch_shows (s : State) (p : Nat) :
    Shows (s.modStope p (fun y => { y with integ := igService, fails := 0 })) (s.endWatch p) :=
  (Shows.on _ ((Shows.refl _).setFld _ _ _ _ _) (fun u => (Shows.refl u).setFn _ _)).record _ _ _ _

/-- Where none of the 64 jobs is STARTING, RUNNING or STOPPING, FULL_TEST finds no active one. -/
theorem State.any_jobActive_eq_false {s : State} (h : ∀ c < 64, s.jobActive c = false) :
    (0 :: claimNos).any s.jobActive = false := by
  rw [List.any_eq_false]
  intro c hc
  have hlt : c < 64 := by
    simp only [claimNos, List.mem_cons, List.mem_map, List.mem_range] at hc
    omega
  simp [h c hlt]

/-- With GO a completed pair on STOPE_TEST makes the stope that it names due for test (R362). -/
theorem State.stopeTestAct_go {s : State} {src : Source} {v : Nat} (hgo : bit v 16 = true) (hstope : bits v 10 0 < 1056)
    (hserves : (s.stope (bits v 10 0)).integ ≠ 2) :
    s.stopeTestAct src v = (s.modStope (bits v 10 0) (fun x => { x with testDue := true }), true) :=
  if_neg (by simp [hgo, hstope, hserves])

/-- With no job active a completed pair on FULL_TEST makes every stope that is not RETIRED due, and under test at once (R362). -/
theorem State.fullTestAct_idle {s : State} {src : Source} {v : Nat} (hbit : bit v 0 = true)
    (hidle : ∀ c < 64, s.jobActive c = false) :
    s.fullTestAct src v = (s.each (List.range 1056) (fun u p => u.on ((u.stope p).integ != 2) (fun w =>
      w.modStope p (fun x => { x with testDue := true, testing := true }))), true) :=
  if_neg (by simp [hbit, State.any_jobActive_eq_false hidle])

/-- Settles O26: the test runs outside a slot on a stope that no active job works on, or under FULL_TEST; the window ends with the
test passed; the times of R362 have come for the first time; the guarded pairs reach their rules. -/
theorem testsComplete : Obligations.TestsComplete := by
  unfold Obligations.TestsComplete
  refine ⟨?complete, ?window, ?due, ?overdue, ?stopeTest, ?fullTest⟩
  case complete =>
    intro p s hready hserves hslot hfree
    have hruns : ¬ ((s.stope p).integ = 2 ∨ (s.stope p).slotted = true ∨
        ((s.logicalOf p).isSome = true ∧ s.jobActive (s.claimServed p) = true ∧ (!(s.stope p).testing) = true)) := by
      rintro (hretired | hslotted | ⟨hsome, hactive, hcalm⟩)
      · exact hserves hretired
      · simp [hslot] at hslotted
      · rcases hfree with hnone | hidle | htesting
        · simp [hnone] at hsome
        · simp [hidle] at hactive
        · simp [htesting] at hcalm
    exact (perform_ready hready).trans (congrArg _ (if_neg hruns))
  case window =>
    intro p s hready hwatched hproposed hended hfew hpassed
    have hends : ¬ ((s.stope p).integ ≠ 1 ∨ (s.stope p).proposed = true ∨
        s.osc < (s.stope p).windowAt + s.fld Page.INT Reg.INT.WATCH_WINDOW 23 0 * 1000000000) := by
      simp [hwatched, hproposed, hended]
    have hstope := (s.endWatch_shows p).stope p
    rw [State.stope_modStope] at hstope
    refine ⟨s.endWatch p, (perform_ready hready).trans (congrArg _ ((if_neg hends).trans (if_pos ⟨hfew, hpassed⟩))), ?_, ?_⟩ <;>
      rw [hstope]
  case due =>
    intro p s hready hserves htime
    exact (perform_ready hready).trans (congrArg _ (if_neg (not_or.mpr ⟨hserves, htime.not_gt⟩)))
  case overdue =>
    intro p s hready hserves honce htime
    have hlate : ¬ ((s.stope p).integ = 2 ∨ (s.stope p).overTest = true ∨ s.osc ≤ (s.stope p).testAt + 2 * s.testInterval p) := by
      simp [hserves, honce, htime]
    exact (perform_ready hready).trans (congrArg _ (if_neg hlate))
  case stopeTest =>
    intro src v s hready hopen hgo hstope b hserves
    exact (perform_ready hready).trans (congrArg _ (State.guarded_done hopen (State.stopeTestAct_go hgo hstope hserves)))
  case fullTest =>
    intro src v s hready hopen hbit b hidle
    exact (perform_ready hready).trans (congrArg _ (State.guarded_done hopen (State.fullTestAct_idle hbit hidle)))

end Sys2Proof.Machine
end

section
/-!
Test slots and relief stopes that prepare (R360, R361).
-/

namespace Sys2Proof.Machine

/-- Settles O27: the entry that may launch is the slot's; at its end the slot has started and is not complete; the relief stope is idle
and prepares for no stope yet, and its assay is done while its target is not proposed for retirement. -/
theorem testSlotsComplete : Obligations.TestSlotsComplete := by
  unfold Obligations.TestSlotsComplete
  refine ⟨?slot, ?slotEnd, ?prep, ?prepDone⟩
  case slot =>
    intro c e j h s hready hfor
    refine (perform_ready hready).trans (congrArg _ ?_)
    rw [hfor] <;> rfl
  case slotEnd =>
    intro c e ends j h s hready hj hh haction hstarted hopen xs
    refine (perform_ready hready).trans (congrArg _ ?_)
    simp only [hj, hh, haction, hstarted, hopen, Bool.not_false, and_self, if_true, beq_self_eq_true, Bool.and_self, State.on_true, xs]
  case prep =>
    intro p target lp s hready hidle hserves hnone htarget u hlogical
    refine (perform_ready hready).trans (congrArg _ ?_)
    simp only [u] at hlogical
    simp only [hidle, hserves, hnone, htarget, hlogical, Bool.not_true, Bool.false_eq_true, ne_eq, not_true, or_self, if_false, u]
  case prepDone =>
    intro p target s hready hprep htested hnew hassayed hstays
    refine (perform_ready hready).trans (congrArg _ ?_)
    simp only [hprep, htested, hnew, hassayed, hstays, Bool.not_true, Bool.false_eq_true, or_self, if_false, State.on_false]
    split <;> rfl

end Sys2Proof.Machine
end

section
/-!
Retirement (R355), takeovers (R365, R366), canary packs (R359) and released captures (R358).
-/

namespace Sys2Proof.Machine

/-! ### Retirement and takeovers (R355, R365) -/

/-- With GO a completed pair on STOPE_RETIRE proposes the stope that it names, where that is not RETIRED (R355). -/
theorem State.stopeRetireAct_go {s : State} {src : Source} {v : Nat} (hgo : bit v 16 = true) (hstope : bits v 10 0 < 1056)
    (hserves : (s.stope (bits v 10 0)).integ ≠ 2) :
    s.stopeRetireAct src v = (if s.idleRelief (bits v 10 0)
      then s.modStope (bits v 10 0) (fun x => { x with proposed := true, why := 13 }) else s.propose (bits v 10 0) 13, true) :=
  (if_neg (by simp [hgo, hstope, hserves])).trans (apply_ite (fun u : State => (u, true)) _ _ _).symm

/-- Outside a commit of firmware no boot of the standby core is awaited (R413). -/
theorem State.bootTimeout_noCommit {s : State} (h : s.fwState ≠ 4) : s.bootTimeout = s := if_pos (.inl h)

/-! ### Canary packs (R359) -/

/-- The first pack that is accepted takes slot 1; a pack that is refused is recorded with its cause. -/
theorem State.canaryCommitAct_first {s : State} {src : Source} {v : Nat} (hbit : bit v 0 = true) (hempty : s.packs = []) :
    let x := packOf (s.staged src Page.INT)
    let cause := s.packCause (s.staged src Page.INT)
    s.canaryCommitAct src v = if cause = 0
      then (((({ s with packs := [(1, x)] } : State).showPacks).raise Page.INT 8).recordBy src 0x700D Src.deputy none
        [it 1 x.id, it 2 x.ver, itH 3 (BitVec.ofNat 384 x.digest)], true)
      else ((s.raise Page.INT 8).recordBy src 0x700E Src.deputy none (items [x.id, cause]), false) := by
  intro x cause
  by_cases hcause : cause = 0
  · rw [if_pos hcause]
    refine (if_neg (by simp [hbit])).trans ((if_neg (not_not_intro hcause)).trans ?_)
    rw [hempty]
    rfl
  · rw [if_neg hcause]
    exact (if_neg (by simp [hbit])).trans (if_pos hcause)

/-- A completed pair on CANARY_REMOVE empties a slot that holds a pack, other than pack 0's. -/
theorem State.canaryRemoveAct_held {s : State} {src : Source} {v : Nat} (hbit : bit v 8 = true) (hslot : bits v 3 0 ≠ 0)
    (hheld : s.packs.any (fun e => e.1 == bits v 3 0) = true) :
    s.canaryRemoveAct src v = (({ s with packs := Sparse.drop (bits v 3 0) s.packs } : State).showPacks.raise Page.INT 8, true) :=
  if_neg (by rw [hheld]; simp [hbit, hslot])

/-! ### Captures (R358) -/

/-- A completed pair on CAPTURE_RELEASE records the capture's release with the copy sealed to the maker. -/
theorem State.captureReleaseAct_captured {s : State} {src : Source} {v : Nat} {h : Held}
    (hcaptured : s.capturedRec (s.sessClaim src) v = some h) :
    s.captureReleaseAct src v = (s.enqueue
      { code := 0x700F, unit := Src.deputy, role := s.roleOf src, source := src.num, claim := some (s.sessClaim src),
        tai := if s.disciplined then s.tally else 0, items := items [v, s.sessClaim src], hidden := [], maker := h.body.hidden },
      true) := by
  simp only [State.captureReleaseAct, hcaptured, done]

/-! ### The obligation -/

/-- Settles O28: the stope is not RETIRED; the core that is lost has its twin and no commit is under way, and the router's twin still
runs; a pack's cause alone decides where no slot is taken; the slot to be emptied holds a pack; the record has a capture. -/
theorem retirementComplete : Obligations.RetirementComplete := by
  unfold Obligations.RetirementComplete
  refine ⟨?retire, ?heartbeat, ?core, ?router, ?commit, ?remove, ?release⟩
  case retire =>
    intro src v s hready hopen hgo hstope b hserves
    exact (perform_ready hready).trans (congrArg _ (State.guarded_done hopen (State.stopeRetireAct_go hgo hstope hserves)))
  case heartbeat =>
    intro p s hready hserves
    exact (perform_ready hready).trans (congrArg _ (if_neg hserves))
  case core =>
    intro lockstep s hready hcommit htwin cause
    refine (perform_ready hready).trans (congrArg _ ?_)
    simp only [State.bootTimeout_noCommit hcommit, hcommit, htwin, false_and, ne_eq, not_true, if_false]
    rfl
  case router =>
    intro p s hready htwin u
    exact (perform_ready hready).trans (congrArg _ (if_neg (ne_true_of_eq_false htwin)))
  case commit =>
    intro src v s hready hopen hbit b x hempty cause
    refine (perform_ready hready).trans (congrArg _ ?_)
    have hact := State.canaryCommitAct_first (src := src) hbit hempty
    by_cases hcause : cause = 0
    · rw [if_pos hcause]
      exact State.guarded_done hopen (hact.trans (if_pos hcause))
    · rw [if_neg hcause]
      exact State.guarded_refused hopen (hact.trans (if_neg hcause))
  case remove =>
    intro src v s hready hopen hbit b k hslot hheld
    exact (perform_ready hready).trans (congrArg _ (State.guarded_done hopen (State.canaryRemoveAct_held hbit hslot hheld)))
  case release =>
    intro src v h s hready hopen b c hcaptured
    exact (perform_ready hready).trans (congrArg _ (State.guarded_done hopen (State.captureReleaseAct_captured hcaptured)))

end Sys2Proof.Machine
end

section
/-!
Where an offset of BAR0 lands (R423, R425, R427): pages, the regions of a page, and the guarded registers beyond all bit aliases.
-/

namespace Sys2Proof.Machine

/-! ### Pages (R425) -/

theorem landPage_lt (i : Nat) : landPage i < 4096 := by
  unfold landPage
  dsimp only
  split_ifs <;> omega

theorem addrPage_lt (addr : Nat) : addrPage addr < 4096 := landPage_lt _

/-- The pages below the claims' stand where they are. -/
theorem landPage_of_lt {i : Nat} (h : i < 0x2A) : landPage i = i := by
  unfold landPage
  dsimp only
  split_ifs <;> omega

/-! ### The regions of a page (R427, Table 12.3) -/

theorem viewAt_word {off : Nat} (page : Nat) (h : off < 0x400) (h4 : off % 4 = 0) : viewAt page off = .word off := by
  have hkept : off % 0x800 / 4 * 4 = off := by omega
  have hview : wordView off = .word off := by simp [wordView, hkept, h]
  rw [viewAt, if_neg (by omega), if_neg (by omega), hview]

theorem viewAt_comp {off : Nat} (page : Nat) (h : off < 0x400) (h4 : off % 4 = 0) : viewAt page (0x400 + off) = .comp off := by
  have hkept : (0x400 + off) % 0x800 / 4 * 4 = 0x400 + off := by omega
  have hview : wordView (0x400 + off) = .comp off := by simp [wordView, hkept]
  rw [viewAt, if_neg (by omega), if_neg (by omega), hview]

/-- Words and complements repeat every 2 KiB. -/
theorem wordView_mod (off : Nat) : wordView (off % 0x800) = wordView off := by
  simp [wordView]

/-- Below the stream window only the words and complements count. -/
theorem viewAt_low {off : Nat} (page : Nat) (h : off < 0x1000) : viewAt page off = wordView off := by
  rw [viewAt, if_neg (by omega), if_neg (by omega)]

theorem viewAt_window {page x : Nat} (h : x < 0x1000) (hs : streamPage page = true) : viewAt page (0x1000 + x) = .window x := by
  rw [viewAt, if_neg (by omega), if_pos ⟨by omega, hs⟩, Nat.add_sub_cancel_left]

/-- On a page without a stream window its place is one more of the aliases. -/
theorem viewAt_noWindow {page off : Nat} (h : off < 0x2000) (hs : streamPage page = false) : viewAt page off = wordView off := by
  rw [viewAt, if_neg (by omega), if_neg (by simp [hs])]

theorem viewAt_bit {o b : Nat} (page : Nat) (h4 : o % 4 = 0) (hb : b < 32) :
    viewAt page (0x2000 + o / 4 * 128 + b * 4) = .bitOf o b := by
  have hword : (0x2000 + o / 4 * 128 + b * 4 - 0x2000) / 128 * 4 = o := by omega
  have hbit : (0x2000 + o / 4 * 128 + b * 4 - 0x2000) % 128 / 4 = b := by omega
  rw [viewAt, if_pos (by omega), hword, hbit]

theorem wordView_ne_bitOf (off o b : Nat) : wordView off ≠ .bitOf o b := by
  unfold wordView
  dsimp only
  split <;> simp

/-- Bit aliases reach words below 0x100. -/
theorem lt_of_viewAt_bitOf {page off o b : Nat} (hoff : off < 0x4000) (h : viewAt page off = .bitOf o b) : o < 0x100 := by
  unfold viewAt at h
  split at h
  · obtain ⟨rfl, rfl⟩ : (off - 0x2000) / 128 * 4 = o ∧ (off - 0x2000) % 128 / 4 = b := by simpa using h
    omega
  · split at h
    · simp at h
    · exact absurd h (wordView_ne_bitOf off o b)

/-! ### Guarded registers (R427) -/

theorem headerRows_acc : ∀ r ∈ headerRows, r.acc ≠ .rwg := by decide

theorem pageRows_guarded (t : PType) : ∀ r ∈ pageRows t, r.acc = .rwg → 0x100 ≤ r.lo := by
  cases t <;> decide

/-- The row of a guarded register stands at 0x100 or above. -/
theorem le_of_findRow_guarded {t : PType} {off : Nat} {r : RegRow} (h : findRow t off = some r) (hacc : r.acc = .rwg) :
    0x100 ≤ off := by
  unfold findRow at h
  split at h
  · exact absurd hacc (headerRows_acc r (List.mem_of_find?_eq_some h))
  · have hlo := pageRows_guarded t r (List.mem_of_find?_eq_some h) hacc
    have hin : r.lo ≤ off ∧ off ≤ r.hi := by simpa using List.find?_some h
    omega

theorem le_of_accOf_guarded {page off : Nat} (h : accOf page off = .rwg) : 0x100 ≤ off := by
  unfold accOf at h
  split at h
  · simp at h
  · split at h
    case h_1 r hr => exact le_of_findRow_guarded hr h
    case h_2 => simp at h

/-- Settles O55: the regions follow from the arithmetic of an offset, and no row of a guarded register starts below 0x100. -/
theorem pageRegions : Obligations.PageRegions := by
  unfold Obligations.PageRegions
  refine ⟨?word, ?comp, ?again, ?window, ?noWindow, ?bits, ?guarded, ?beyond⟩
  case word => exact fun page off h h4 => viewAt_word page h h4
  case comp =>
    intro page off hlo hhi h4
    have hview := viewAt_comp page (off := off - 0x400) (by omega) (by omega)
    rwa [Nat.add_sub_cancel' hlo] at hview
  case again =>
    intro page off hlo hhi
    rw [Nat.and_two_pow_sub_one_eq_mod off 11, viewAt_low page hhi, viewAt_low page (by omega)]
    exact (wordView_mod off).symm
  case window =>
    intro page off hlo hhi hs
    have hview := viewAt_window (page := page) (x := off - 0x1000) (by omega) hs
    rwa [Nat.add_sub_cancel' hlo] at hview
  case noWindow =>
    intro page off hlo hhi hs
    have hmod : off % 2 ^ 12 % 0x800 = off % 0x800 := by omega
    rw [Nat.and_two_pow_sub_one_eq_mod off 12, viewAt_noWindow hhi hs, viewAt_low page (by omega), ← wordView_mod (off % 2 ^ 12),
      hmod, wordView_mod]
  case bits => exact fun page o b _ h4 hb => viewAt_bit page h4 hb
  case guarded => exact fun page o h => le_of_accOf_guarded h
  case beyond =>
    intro page off o b hoff hview hacc
    have hlow := lt_of_viewAt_bitOf hoff hview
    have hhigh := le_of_accOf_guarded hacc
    omega

end Sys2Proof.Machine
end

section
/-!
Writes to BAR0: the one that reaches its view, the one outside the rights of its session (R433, R438, R449), and the one that
reaches its register's rule.
-/

namespace Sys2Proof.Machine

/-! ### Further parts that showing leaves alone -/

theorem Shows.claims {s t : State} (h : Shows s t) : t.claims = s.claims := by obtain ⟨r, m, q, rfl⟩ := h; rfl
theorem Shows.vault {s t : State} (h : Shows s t) : t.vault = s.vault := by obtain ⟨r, m, q, rfl⟩ := h; rfl
theorem Shows.resp {s t : State} (h : Shows s t) : t.resp = s.resp := by obtain ⟨r, m, q, rfl⟩ := h; rfl

/-! ### A write that reaches a view -/

/-- A write within BAR0 whose port answers is a write at the view of its page. -/
theorem State.tryWrite_within {s : State} {src : Source} {addr : Nat} (v : Word) (be : Nat) (hin : beyondBar0 addr = false)
    (hans : (s.touch src).answers src = true) :
    s.tryWrite src addr v be = (s.touch src).writeAt src (addrPage addr) (viewAt (addrPage addr) (addrOff addr)) v (be % 16) :=
  if_neg (by simp [hin, hans])

/-- A write with no pair open stands alone. -/
theorem State.writeAt_alone {s : State} {src : Source} {page : Nat} {w : Region} {v : Word} (be : Nat)
    (hallowed : s.halfAllowed src page w v = true) (hnone : s.openPair src page = none) :
    s.writeAt src page w v be = s.writeAlone src page w v be := by
  simp [State.writeAt, hallowed, hnone]

/-- A write that reaches its register's rule and takes effect there: the record of R416 where one is due, and the completion. -/
theorem State.tryWritten_done {s : State} {src : Source} {page off v : Nat} {f : Act} {x : State} (rw : Bool)
    (h : writeOpen s src page off v) (hf : f (ruleSees s src page) = (x, true)) :
    let b := ruleSees s src page
    s.tryWritten src page off v rw f =
      ((x.on rw (fun u => u.config b src page off (b.rdB (b.bankFor src page off) page off) v)).respond src 0 0, 0) := by
  obtain ⟨hans, hmay, henc⟩ := h
  unfold ruleSees at hf
  simp [State.tryWritten, hans, hmay, henc, hf, ruleSees]

/-- The same for a write that R416 records. -/
theorem State.written_recorded {s : State} {src : Source} {page off v : Nat} {f : Act} {x : State}
    (h : writeOpen s src page off v) (hf : f (ruleSees s src page) = (x, true)) :
    let b := ruleSees s src page
    s.written src page off v true f =
      (x.config b src page off (b.rdB (b.bankFor src page off) page off) v).respond src 0 0 :=
  congrArg Prod.fst (State.tryWritten_done true h hf)

/-! ### Writes outside the rights (R449) -/

/-- A write outside the session's rights is judged before it reaches a pair or a register. -/
theorem State.writeAt_forbidden {s : State} {src : Source} {page : Nat} {w : Region} {v : Word} (be : Nat)
    (h : s.halfAllowed src page w v = false) : s.writeAt src page w v be = s.forbidHalf src page w :=
  if_pos (by simp [h])

/-- A half outside the session's rights leaves at most the record and event of a forbidden access. -/
theorem State.forbidHalf_cases (s : State) (src : Source) (page : Nat) (w : Region) :
    (s.forbidHalf src page w).1 = s ∨ ∃ off, (s.forbidHalf src page w).1 = s.forbid src page off true := by
  cases w with
  | window x => exact .inr ⟨_, rfl⟩
  | comp o => exact .inr ⟨_, rfl⟩
  | word o =>
    unfold State.forbidHalf
    dsimp only
    split
    · exact .inl rfl
    · exact .inr ⟨_, rfl⟩
  | bitOf o b =>
    unfold State.forbidHalf
    dsimp only
    split
    · exact .inl rfl
    · exact .inr ⟨_, rfl⟩

/-- A forbidden access changes no word outside the recorder's page but the source's own event flags of the page. -/
theorem State.rdB_forbid_ne (s : State) {src : Source} {b page p o : Nat} (off : Nat) (w : Bool) (hpage : page < 4096) (hp : p < 4096)
    (ho : o < 1024) (hrec : p ≠ Page.REC) (hflag : ¬(b = src.num ∧ p = page ∧ o = Reg.HDR.EVT_FLAG)) :
    (s.forbid src page off w).rdB b p o = s.rdB b p o :=
  (State.rdB_latch_ne _ _ hpage hp ho hflag).trans (State.rdB_enqueue_ne _ _ hp ho hrec)

/-- Settles O58: the write is judged before it touches a pair or a register, and what is left of it is one record and one event of
the source's own. -/
theorem forbiddenWrites : Obligations.ForbiddenWrites := by
  unfold Obligations.ForbiddenWrites
  intro src addr v be s hready hin hans hno
  have hwrite : s.busWrite src addr v be =
      ((s.touch src).forbidHalf src (addrPage addr) (viewAt (addrPage addr) (addrOff addr))).1 :=
    congrArg Prod.fst ((State.tryWrite_within v be hin hans).trans (State.writeAt_forbidden _ hno))
  refine ⟨_, (perform_ready hready).trans (congrArg _ hwrite), ?_⟩
  obtain hsame | ⟨off, hforbid⟩ :=
    (s.touch src).forbidHalf_cases src (addrPage addr) (viewAt (addrPage addr) (addrOff addr))
  · rw [hsame]
    exact ⟨rfl, rfl, rfl, rfl, rfl, rfl, rfl, rfl, fun _ _ _ _ _ _ _ => rfl⟩
  · rw [hforbid]
    have hshows := (Shows.refl (s.touch src)).forbid src (addrPage addr) off true
    exact ⟨hshows.mem, hshows.jobs, hshows.stopes, hshows.claims, hshows.vault, hshows.pairs, hshows.streams, hshows.resp,
      fun b p o hp ho hrec hflag => State.rdB_forbid_ne _ off true (addrPage_lt addr) hp ho hrec hflag⟩

end Sys2Proof.Machine
end

section
/-!
Guarded pairs (R437): the half that opens one, the half that completes it; and the enabling and draining of functions (R432).
-/

namespace Sys2Proof.Machine

/-! ### Pairs -/

/-- The state with a pair of the source open on the page. -/
def State.pairOpened (s : State) (src : Source) (page off : Nat) (v : Word) : State :=
  { s with pairs := Sparse.place (srcPage src page) { off := off, val := v, opened := s.osc } s.pairs }

theorem State.openPair_pairOpened {s : State} {src : Source} {page : Nat} (off : Nat) (v : Word) (h : s.openPair src page = none) :
    (s.pairOpened src page off v).openPair src page = some { off := off, val := v, opened := s.osc } :=
  congrArg (Option.map Prod.snd) (Sparse.find_place _ _ _ (State.openPair_none h))

/-- Forgetting the pair just opened leads back. -/
theorem State.dropPair_pairOpened {s : State} {src : Source} {page : Nat} (off : Nat) (v : Word) (h : s.openPair src page = none) :
    (s.pairOpened src page off v).dropPair src page = s :=
  congrArg (fun l => { s with pairs := l }) (Sparse.drop_place _ _ _ (State.openPair_none h))

@[simp] theorem State.openPair_dropPair (s : State) (src : Source) (page : Nat) : (s.dropPair src page).openPair src page = none := by
  simp only [State.openPair, State.dropPair, Option.map_eq_none_iff, List.find?_eq_none, beq_iff_eq]
  rintro ⟨k, x⟩ hx rfl
  exact Sparse.not_mem_drop _ _ _ hx

/-- A value written to a guarded register opens a pair. -/
theorem State.writeAt_opens {s : State} {src : Source} {page off : Nat} {v : Word} (hacc : accOf page off = .rwg)
    (hmay : s.mayGuard src page off v.toNat = true) (hnone : s.openPair src page = none) :
    s.writeAt src page (.word off) v 15 = (s.pairOpened src page off v, 0) := by
  have hallowed : s.halfAllowed src page (.word off) v = true := by simp [State.halfAllowed, hacc, hmay]
  rw [State.writeAt_alone 15 hallowed hnone]
  simp [State.writeAlone, State.writeWord, hacc, hmay, State.pairOpened]

/-- The complement of an open pair's value, at its register's complement and within 1 µs, completes the pair. -/
theorem State.writeAt_closes {s : State} {src : Source} {page : Nat} {p : Pair}
    (hmay : s.mayGuard src page p.off p.val.toNat = true) (hopen : s.openPair src page = some p) (hsoon : s.osc ≤ p.opened + 1000) :
    s.writeAt src page (.comp p.off) (~~~p.val) 15 =
      (s.dropPair src page).tryGuarded src page p.off p.val.toNat (fun u => u.pairAct src page p.off p.val.toNat) := by
  have hallowed : s.halfAllowed src page (.comp p.off) (~~~p.val) = true := by simp [State.halfAllowed, hmay]
  simp [State.writeAt, hallowed, hopen, hsoon]

/-! ### A pair that reaches its register's rule -/

/-- A completed pair that reaches its register's rule, whether that takes effect or not. -/
theorem State.tryGuarded_open {s : State} {src : Source} {page off v : Nat} (f : Act) (h : guardOpen s src page off v) :
    let b := ruleSees s src page
    s.tryGuarded src page off v f =
      (((f b).1.on (f b).2 (fun u => u.config b src page off (b.rd page off) v)).respond src 0 0, if (f b).2 then 0 else 4) := by
  obtain ⟨hans, hmay, henc⟩ := h
  exact (if_neg (by simp [hans])).trans ((if_neg (by simp [hmay])).trans (if_neg (by simp [henc])))

/-- The same where the rule takes effect. -/
theorem State.tryGuarded_done {s : State} {src : Source} {page off v : Nat} {f : Act} {x : State} (h : guardOpen s src page off v)
    (hf : f (ruleSees s src page) = (x, true)) : s.tryGuarded src page off v f = (guardDone s src page off v x, 0) := by
  rw [State.tryGuarded_open f h, hf]
  rfl

/-- The access of a completed pair has restarted the idle time already. -/
theorem State.tryGuarded_touch (s : State) (src : Source) (page off v : Nat) (f : Act) :
    (s.touch src).tryGuarded src page off v f = s.tryGuarded src page off v f := by
  simp [State.tryGuarded]

/-! ### Functions (R432) -/

/-- ENABLE on a function that is OFF: STARTING, then ON. -/
theorem State.controlAct_enable {s : State} {src : Source} {page : Nat} (hcan : bit (pageType page).caps 1 = true)
    (hoff : s.fn page = 0) :
    s.controlAct src page 1 = (((s.wr page Reg.HDR.CONTROL 1).setFn page 1).setFn page 2, true) := by
  have hbit : bit 1 0 = true := rfl
  simp [State.controlAct, hcan, hoff, hbit, done]

/-- ENABLE cleared on a function that is ON: it drains. -/
theorem State.controlAct_disable {s : State} {src : Source} {page : Nat} (hcan : bit (pageType page).caps 1 = true)
    (hon : s.fn page = 2) :
    s.controlAct src page 0 = ((s.wr page Reg.HDR.CONTROL 0).beginDrain src page, true) := by
  have hbit : bit 0 0 = false := rfl
  simp [State.controlAct, hcan, hon, hbit, done]

/-- Settles O44: the first half finds no pair open, the second finds its own within the microsecond; ENABLE takes effect on the pages
that have it, from OFF and from ON; the drain has nothing left to wait for. -/
theorem pairsComplete : Obligations.PairsComplete := by
  unfold Obligations.PairsComplete
  refine ⟨?opens, ?closes, ?timeout, ?enable, ?disable, ?drained⟩
  case opens =>
    intro src addr off v s hready hin hview hacc b hans hmay hnone
    have hwrite : s.tryWrite src addr v 15 = (b.pairOpened src (addrPage addr) off v, 0) := by
      rw [State.tryWrite_within v 15 hin hans, hview]
      exact State.writeAt_opens hacc hmay hnone
    exact (perform_ready hready).trans (congrArg (fun r => Host.Outcome.next r.1) hwrite)
  case closes =>
    intro src addr opened v off s hready hin hview _ hopen hsoon hguard b r
    have hnone : b.openPair src (addrPage addr) = none := State.openPair_dropPair _ _ _
    have htouched : b.touch src = b :=
      congrArg (fun u : State => u.dropPair src (addrPage addr)) (State.touch_touch s src)
    have hwrite : s.tryWrite src addr (~~~v) 15 =
        b.tryGuarded src (addrPage addr) off v.toNat (fun u => u.pairAct src (addrPage addr) off v.toNat) := by
      rw [State.tryWrite_within _ 15 hin hguard.1, hview]
      exact State.writeAt_closes (s := s.touch src) hguard.2.1 hopen hsoon
    have hguard' : guardOpen b src (addrPage addr) off v.toNat := by
      rw [guardOpen, htouched]
      exact hguard
    have hsees : ruleSees b src (addrPage addr) = b := (ruleSees_none hnone).trans htouched
    have hdone := State.tryGuarded_open (fun u => u.pairAct src (addrPage addr) off v.toNat) hguard'
    rw [hsees] at hdone
    exact (perform_ready hready).trans (congrArg (fun x => Host.Outcome.next x.1) (hwrite.trans hdone))
  case timeout =>
    intro src page p s hready hopen
    refine (perform_ready hready).trans (congrArg _ ?_)
    simp only [hopen]
  case enable =>
    intro src page s hready hopen hcan b hoff
    exact (perform_ready hready).trans (congrArg _ (State.written_recorded hopen (State.controlAct_enable hcan hoff)))
  case disable =>
    intro src page s hready hopen hcan b hon
    exact (perform_ready hready).trans (congrArg _ (State.written_recorded hopen (State.controlAct_disable hcan hon)))
  case drained =>
    intro page s hready hdraining hdrained
    exact (perform_ready hready).trans (congrArg _ (if_pos ⟨hdraining, hdrained⟩))

end Sys2Proof.Machine
end

section
/-!
Actions of the console (R548, R549): the two halves of a guarded pair, written one after the other as source 2.
-/

namespace Sys2Proof.Machine

/-! ### Addresses of words -/

theorem beyondBar0_wordAddr {page off : Nat} (hp : page < 0x2A) (ho : off < 0x4000) : beyondBar0 (wordAddr page off) = false := by
  refine decide_eq_false ?_
  unfold wordAddr
  omega

theorem addrPage_wordAddr {page off : Nat} (hp : page < 0x2A) (ho : off < 0x4000) : addrPage (wordAddr page off) = page := by
  have hindex : wordAddr page off / 16384 % 4096 = page := by
    unfold wordAddr
    omega
  rw [addrPage, hindex, landPage_of_lt hp]

theorem addrOff_wordAddr {off : Nat} (page : Nat) (ho : off < 0x4000) : addrOff (wordAddr page off) = off := by
  unfold addrOff wordAddr
  omega

/-- A write to a word's address is a write at that word. -/
theorem State.tryWrite_wordAddr {s : State} {src : Source} {page off : Nat} (v : Word) (hp : page < 0x2A) (ho : off < 0x4000)
    (hans : (s.touch src).answers src = true) :
    s.tryWrite src (wordAddr page off) v 15 = (s.touch src).writeAt src page (viewAt page off) v 15 := by
  rw [State.tryWrite_within v 15 (beyondBar0_wordAddr hp ho) hans, addrPage_wordAddr hp ho, addrOff_wordAddr page ho]

/-! ### Both halves of a pair -/

/-- Both halves of a pair as consecutive writes, where the register's rule takes effect (R548). -/
theorem State.monPair_done {s x : State} {page off v : Nat} (hp : page < 0x2A) (ho : off < 0x400) (h4 : off % 4 = 0)
    (hacc : accOf page off = .rwg) (hnone : s.openPair .monitor page = none) (hv : v < 2 ^ 32) (hopen : guardOpen s .monitor page off v)
    (hact : (s.touch .monitor).pairAct .monitor page off v = (x, true)) :
    s.monPair page off v = (guardDone s .monitor page off v x, 0) := by
  have hval : (BitVec.ofNat 32 v).toNat = v := by rw [BitVec.toNat_ofNat, Nat.mod_eq_of_lt hv]
  have hfirst : s.tryWrite .monitor (wordAddr page off) (BitVec.ofNat 32 v) 15 =
      ((s.touch .monitor).pairOpened .monitor page off (BitVec.ofNat 32 v), 0) := by
    rw [State.tryWrite_wordAddr _ hp (by omega) hopen.1, viewAt_word page ho h4]
    exact State.writeAt_opens hacc (by rw [hval]; exact hopen.2.1) hnone
  have htouched : ((s.touch .monitor).pairOpened .monitor page off (BitVec.ofNat 32 v)).touch .monitor =
      (s.touch .monitor).pairOpened .monitor page off (BitVec.ofNat 32 v) :=
    congrArg (fun u : State => u.pairOpened .monitor page off (BitVec.ofNat 32 v)) (State.touch_touch s .monitor)
  have hsecond : ((s.touch .monitor).pairOpened .monitor page off (BitVec.ofNat 32 v)).tryWrite .monitor
      (wordAddr page (0x400 + off)) (~~~BitVec.ofNat 32 v) 15 = (guardDone s .monitor page off v x, 0) := by
    rw [State.tryWrite_wordAddr _ hp (by omega) (by rw [htouched]; exact hopen.1), viewAt_comp page ho h4, htouched]
    refine (State.writeAt_closes (p := ⟨off, BitVec.ofNat 32 v, s.osc⟩) (by rw [hval]; exact hopen.2.1)
      (State.openPair_pairOpened (s := s.touch .monitor) off _ hnone) (Nat.le_add_right _ _)).trans ?_
    rw [State.dropPair_pairOpened (s := s.touch .monitor) off _ hnone, State.tryGuarded_touch, hval]
    exact State.tryGuarded_done hopen (by rw [ruleSees_none hnone]; exact hact)
  simp only [State.monPair, hfirst, ne_eq, not_true, if_false, hsecond]

/-- An action of a service session whose pair takes effect: the pair, and `ok` (R549). -/
theorem State.action_done {s x : State} {page off v : Nat} {ok : Bool} (hservice : s.monService = true) (hok : ok = true)
    (hp : page < 0x2A) (ho : off < 0x400) (h4 : off % 4 = 0)
    (hacc : accOf page off = .rwg) (hnone : s.openPair .monitor page = none) (hv : v < 2 ^ 32) (hopen : guardOpen s .monitor page off v)
    (hact : (s.touch .monitor).pairAct .monitor page off v = (x, true)) :
    s.action ok page off v = (guardDone s .monitor page off v x).reply [] 0 := by
  simp only [State.action, State.service, State.typed, hservice, hok, if_true,
    State.monPair_done hp ho h4 hacc hnone hv hopen hact]

/-! ### The obligation -/

theorem bits_stope_go {p : Nat} (h : p < 1056) : bits (p + 65536) 10 0 = p := by
  rw [bits_eq]
  omega

theorem bit_stope_go {p : Nat} (h : p < 1056) : bit (p + 65536) 16 = true := by
  rw [bit, Nat.testBit_eq_decide_div_mod_eq, decide_eq_true_eq]
  omega

theorem pageType_drf {n : Nat} (h : n < 12) : pageType (Page.DRF n) = .drf := by
  interval_cases n <;> rfl

theorem drf_lt {n : Nat} (h : n < 12) : Page.DRF n < 0x2A := by
  unfold Page.DRF
  omega

theorem accOf_portDisable {n : Nat} (h : n < 12) : accOf (Page.DRF n) Reg.DRF.PORT_DISABLE = .rwg := by
  unfold accOf
  rw [pageType_drf h]
  rfl

/-- A completed pair on the assay page's one guarded register. -/
theorem State.pairAct_assayForce (s : State) (src : Source) (v : Nat) :
    s.pairAct src Page.ASY Reg.ASY.ASSAY_FORCE v = s.assayForceAct src v := rfl

theorem State.pairAct_stopeTest (s : State) (src : Source) (v : Nat) :
    s.pairAct src Page.INT Reg.INT.STOPE_TEST v = s.stopeTestAct src v := rfl

theorem State.pairAct_stopeRetire (s : State) (src : Source) (v : Nat) :
    s.pairAct src Page.INT Reg.INT.STOPE_RETIRE v = s.stopeRetireAct src v := rfl

theorem State.pairAct_govBudget (s : State) (src : Source) (v : Nat) :
    s.pairAct src Page.PWR Reg.PWR.GOV_BUDGET v = ((s.wr Page.PWR Reg.PWR.GOV_BUDGET (bits v 11 0)).recompute, true) := rfl

/-- A completed pair on PORT_DISABLE of a drift port. -/
theorem State.pairAct_portDisable (s : State) (src : Source) {n : Nat} (v : Nat) (h : n < 12) :
    s.pairAct src (Page.DRF n) Reg.DRF.PORT_DISABLE v = s.portDisableAct n v := by
  have hport : Page.DRF n - PType.drf.base = n := Nat.add_sub_cancel_left _ _
  simp only [State.pairAct, pageType_drf h, hport, if_true]

/-- Settles O49: no pair is open on the page, so the first half opens one and the second, in the same step, completes it; each
register's rule takes effect on the value that the action writes. -/
theorem actionsComplete : Obligations.ActionsComplete := by
  unfold Obligations.ActionsComplete
  refine ⟨?assay, ?test, ?retire, ?disable, ?enable, ?budget⟩
  case assay =>
    intro p s hready hservice hnone hp hopen
    have hacc : accOf Page.ASY Reg.ASY.ASSAY_FORCE = .rwg := rfl
    have hact := State.assayForceAct_go (s := s.touch .monitor) (src := .monitor) (bit_stope_go hp) (by rwa [bits_stope_go hp])
    rw [bits_stope_go hp, ← State.pairAct_assayForce] at hact
    have hdone := State.action_done hservice (decide_eq_true hp) (by decide) (by decide) (by decide) hacc hnone (by omega) hopen hact
    exact (perform_ready hready).trans (congrArg _ hdone)
  case test =>
    intro p s hready hservice hnone hp hopen hserves
    have hacc : accOf Page.INT Reg.INT.STOPE_TEST = .rwg := rfl
    have hact := State.stopeTestAct_go (s := s.touch .monitor) (src := .monitor) (bit_stope_go hp) (by rwa [bits_stope_go hp])
      (by rwa [bits_stope_go hp])
    rw [bits_stope_go hp, ← State.pairAct_stopeTest] at hact
    have hdone := State.action_done hservice (decide_eq_true hp) (by decide) (by decide) (by decide) hacc hnone (by omega) hopen hact
    exact (perform_ready hready).trans (congrArg _ hdone)
  case retire =>
    intro p s hready hservice hnone hp hopen hserves b
    have hacc : accOf Page.INT Reg.INT.STOPE_RETIRE = .rwg := rfl
    have hact := State.stopeRetireAct_go (s := s.touch .monitor) (src := .monitor) (bit_stope_go hp) (by rwa [bits_stope_go hp])
      (by rwa [bits_stope_go hp])
    rw [bits_stope_go hp, ← State.pairAct_stopeRetire] at hact
    have hdone := State.action_done hservice (decide_eq_true hp) (by decide) (by decide) (by decide) hacc hnone (by omega) hopen hact
    exact (perform_ready hready).trans (congrArg _ hdone)
  case disable =>
    intro n s hready hn hservice hnone hopen
    have hact := (State.pairAct_portDisable (s.touch .monitor) .monitor 1 hn).trans (State.portDisableAct_eq _ n 1)
    have hdone := State.action_done hservice (decide_eq_true hn) (drf_lt hn) (by decide) (by decide) (accOf_portDisable hn) hnone
      (by decide) hopen hact
    exact (perform_ready hready).trans (congrArg _ hdone)
  case enable =>
    intro n s hready hn hservice hnone hopen
    have hact := (State.pairAct_portDisable (s.touch .monitor) .monitor 0 hn).trans (State.portDisableAct_eq _ n 0)
    have hdone := State.action_done hservice (decide_eq_true hn) (drf_lt hn) (by decide) (by decide) (accOf_portDisable hn) hnone
      (by decide) hopen hact
    exact (perform_ready hready).trans (congrArg _ hdone)
  case budget =>
    intro w s hready hservice hnone hw hopen
    have hacc : accOf Page.PWR Reg.PWR.GOV_BUDGET = .rwg := rfl
    have hdone := State.action_done hservice (decide_eq_true hw) (by decide) (by decide) (by decide) hacc hnone hw hopen
      (State.pairAct_govBudget (s.touch .monitor) .monitor w)
    exact (perform_ready hready).trans (congrArg _ hdone)

end Sys2Proof.Machine
end

section
/-!
Enrolment and signed reports (R373, R409); the maker gate, diagnostics and link keys (R394, R395, R405 to R408).
-/

namespace Sys2Proof.Machine

/-! ### Enrolment (R373) -/

/-- A pair of value 1 on INST_ENROL enrols the staged key, or records that it is no point of the curve. -/
theorem State.instEnrolAct_enrol {s : State} {src : Source} {v : Nat} (hv : v = 1) :
    let k := (s.stagedKind src 1).take 97
    let old := s.vault.installer
    let u := ({ s with vault := { s.vault with installer := k } }).showInstaller false
    s.instEnrolAct src v = if keyOk k
      then (((u.raise (Page.ROL 3) 1).recordEnrol src old k 1 0).endSessions 5 (fun _ r _ => r == 2), true)
      else (s.recordEnrol src old k 1 2, false) := by
  intro k old u
  refine (if_pos hv).trans ?_
  cases hkey : keyOk k with
  | true => exact if_neg (show ¬ (!keyOk k) = true by simp [hkey])
  | false => exact if_pos (show (!keyOk k) = true by simp [hkey])

/-- A pair of value 2 withdraws an enrolment while claims 1 to 63 are all EMPTY. -/
theorem State.instEnrolAct_withdraw {s : State} {src : Source} {v : Nat} (hv : v = 2) (hempty : s.noOperatorClaim = true)
    (hheld : s.vault.installer ≠ []) :
    s.instEnrolAct src v = ((((({ s with vault := { s.vault with installer := [] } }).showInstaller false).raise (Page.ROL 3)
      1).recordEnrol src s.vault.installer [] 1 1).endSessions 5 (fun _ r _ => r == 2), true) := by
  have hnot : ¬ ((!s.noOperatorClaim) = true ∨ s.vault.installer = []) := by simp [hempty, hheld]
  refine (if_neg (by omega)).trans ((if_pos hv).trans (if_neg ?_))
  simpa using hnot

/-! ### Reports (R409) -/

/-- A write of ATTEST_REQ empties the source's report, which reads PENDING until it is signed. -/
theorem State.attestReqAct_starts {s : State} {src : Source} {v : Nat} (hbit : bit v 0 = true) :
    ∃ x, s.attestReqAct src v = (x, true) ∧ x.rdB src.num (Page.ROL 3) Reg.ROL3.ATTEST_STATE = 0 ∧
      x.vault.reports = Sparse.place src.num [] (Sparse.drop src.num s.vault.reports) := by
  refine ⟨_, if_neg (by simp [hbit]), ?_, rfl⟩
  exact State.rdB_wrB s src.num (Page.ROL 3) Reg.ROL3.ATTEST_STATE 0

/-- The signed report takes the place of what the source's held. -/
theorem State.attestSign_reports (s : State) (src : Source) :
    (s.attestSign src).vault.reports =
      Sparse.place src.num (s.attestBody src ++ Config.identitySign (s.attestBody src)) (Sparse.drop src.num s.vault.reports) :=
  congrArg Vault.reports ((((Shows.refl _).wrB _ _ _ _).raise _ _).recordBy _ _ _ _ _).vault

/-- Settles O21: a staged point of the curve enrols, another is recorded as refused; the withdrawal finds all claims EMPTY; the report
that is asked for is empty until it is signed. -/
theorem enrolmentComplete : Obligations.EnrolmentComplete := by
  unfold Obligations.EnrolmentComplete
  refine ⟨?enrol, ?withdraw, ?request, ?signed⟩
  case enrol =>
    intro src v s hready hopen hv b k old u
    refine (perform_ready hready).trans (congrArg _ ?_)
    have hact := State.instEnrolAct_enrol (s := b) (src := src) hv
    by_cases hkey : keyOk k = true
    · exact (State.guarded_done hopen (hact.trans (if_pos hkey))).trans (if_pos hkey).symm
    · exact (State.guarded_refused hopen (hact.trans (if_neg hkey))).trans (if_neg hkey).symm
  case withdraw =>
    intro src v s hready hopen hv b old hempty hheld
    exact (perform_ready hready).trans (congrArg _ (State.guarded_done hopen (State.instEnrolAct_withdraw hv hempty hheld)))
  case request =>
    intro src v s hready hopen hbit
    obtain ⟨x, hact, hstate, hreports⟩ := State.attestReqAct_starts (s := ruleSees s src (Page.ROL 3)) (src := src) hbit
    refine ⟨writeDone x src, (perform_ready hready).trans (congrArg _ (State.written_done hopen hact)), hstate, ?_⟩
    have hmem : (src.num, []) ∈ x.vault.reports := by
      rw [hreports]
      exact (Sparse.mem_place _ _ _ _).mpr (.inl rfl)
    exact hmem
  case signed =>
    intro src s hready hasked
    have hany : s.vault.reports.any (fun e => e.1 == src.num && e.2.isEmpty) = true :=
      List.any_eq_true.mpr ⟨_, hasked, by simp⟩
    refine ⟨_, (perform_ready hready).trans (congrArg _ (if_pos hany)), ?_⟩
    rw [State.attestSign_reports]
    exact (Sparse.mem_place _ _ _ _).mpr (.inl rfl)

/-! ### The maker gate, diagnostics and link keys -/

theorem Shows.setDiag {s t : State} (h : Shows s t) (fns cause : Nat) : Shows s (t.setDiag fns cause) := by
  unfold State.setDiag
  dsimp only
  split
  · exact h
  · exact (((h.wr _ _ _).setFld _ _ _ _ _).raise _ _).record _ _ _ _

theorem Shows.reviewDiag {s t : State} (h : Shows s t) (cause : Nat) : Shows s (t.reviewDiag cause) := h.setDiag _ _

/-- The record and the completion of a pair leave the secrets as its rule gave them. -/
theorem guardDone_vault (s : State) (src : Source) (page off v : Nat) (x : State) :
    (guardDone s src page off v x).vault = x.vault :=
  ((Shows.refl x).config _ src page off _ v).vault

/-- A pair on MAKER_GATE sets the gate; a closed one ends every maker session (R405). -/
theorem State.makerGateAct_eq (s : State) (v : Nat) :
    let u := (((s.wr (Page.ROL 3) Reg.ROL3.MAKER_GATE (v % 2)).setFld (Page.ROL 3) Reg.ROL3.ENROL_STATE 2 2 v).raise
      (Page.ROL 3) 4).record 0x800A Src.deputy none (items [s.fld (Page.ROL 3) Reg.ROL3.DIAG_OPEN 7 0, 0, 1])
    s.makerGateAct v = (if bit v 0 then u else u.endSessions 6 (fun _ r _ => r == 3), true) := by
  intro u
  cases hbit : bit v 0 <;> simp only [State.makerGateAct, hbit] <;> rfl

/-- A staged key of 40 bytes is programmed at the place that IDE_SELECT names (R394). -/
theorem State.ideCommitAct_key {s : State} {src : Source} {v : Nat} (hbit : bit v 0 = true)
    (hlength : ((s.stagedKind src 2).take 40).length = 40) :
    let sel := s.fld (Page.ROL 3) Reg.ROL3.IDE_SELECT 4 0
    ∃ x, s.ideCommitAct src v = (x, true) ∧
      x.vault.ideKeys = Sparse.place sel ((s.stagedKind src 2).take 40) (Sparse.drop sel s.vault.ideKeys) := by
  refine ⟨_, if_neg (by simp [hbit, hlength]), ?_⟩
  exact congrArg Vault.ideKeys (((Shows.on _ (Shows.refl _) fun u =>
    (((Shows.refl u).setFld _ _ _ _ _).setFld _ _ _ _ _).setFld _ _ _ _ _).raise _ _).recordBy _ _ _ _ _).vault

/-- Settles O22: the gate's rule, the review of the functions and IDE_REQUIRE take effect on every value; a staged key of the right
length is programmed; what follows a consent's end or a programmed key leaves the secrets as they are. -/
theorem rolesOfDeviceComplete : Obligations.RolesOfDeviceComplete := by
  unfold Obligations.RolesOfDeviceComplete
  refine ⟨?gate, ?diag, ?expiry, ?key, ?require⟩
  case gate =>
    intro src v s hready hopen b u
    exact (perform_ready hready).trans (congrArg _ (State.guarded_done hopen (State.makerGateAct_eq b v.toNat)))
  case diag =>
    intro src v s hready hopen u
    exact (perform_ready hready).trans (congrArg _ (State.guarded_done hopen rfl))
  case expiry =>
    intro c s hready
    refine ⟨_, perform_ready hready, fun e he => ?_⟩
    rw [((Shows.refl _).reviewDiag 5).vault] at he
    simpa using (List.mem_filter.mp he).2
  case key =>
    intro src v s hready hopen hbit b hlength
    obtain ⟨x, hact, hkeys⟩ := State.ideCommitAct_key hbit hlength
    refine ⟨_, (perform_ready hready).trans (congrArg _ (State.guarded_done hopen hact)), ?_⟩
    rw [guardDone_vault, hkeys]
    exact (Sparse.mem_place _ _ _ _).mpr (.inl rfl)
  case require =>
    intro src v s hready hopen
    exact (perform_ready hready).trans (congrArg _ (State.guarded_done hopen rfl))

end Sys2Proof.Machine
end

section
/-!
Claims (R377 to R380, R396, R398): the rule of each guarded register, and what is left of a claim when its clearing is complete.
-/

namespace Sys2Proof.Machine

/-! ### Visible words that showing leaves alone -/

theorem State.rd_raise_ne (s : State) {p p' o : Nat} (e : Nat) (hp : p < 4096) (hp' : p' < 4096) (ho : o < 1024)
    (h : p' ≠ p ∨ (o ≠ Reg.HDR.EVT_FLAG ∧ o ≠ Reg.HDR.EVT_RAW)) : (s.raise p e).rd p' o = s.rd p' o :=
  State.rdB_raise_ne s (b' := 0) e hp hp' ho (by tauto)

theorem State.rd_record_ne (s : State) {p o : Nat} (c u : Nat) (k : Option Nat) (l : List Item) (hp : p < 4096) (ho : o < 1024)
    (h : p ≠ Page.REC) : (s.record c u k l).rd p o = s.rd p o :=
  State.rdB_enqueue_ne s (b := 0) _ hp ho h

/-- The functions open show on page ROL 3 alone. -/
theorem State.rd_setDiag_ne (s : State) {p o : Nat} (fns cause : Nat) (hp : p < 4096) (ho : o < 1024) (hrol : p ≠ Page.ROL 3)
    (hrec : p ≠ Page.REC) : (s.setDiag fns cause).rd p o = s.rd p o := by
  have hpage : Page.ROL 3 < 4096 := by decide
  unfold State.setDiag
  dsimp only
  split
  · rfl
  · rw [State.rd_record_ne _ _ _ _ _ hp ho hrec, State.rd_raise_ne _ _ hpage hp ho (.inl hrol),
      State.rd_setFld_ne _ _ _ _ hpage hp (by decide) ho (.inl hrol), State.rd_wr_ne _ _ hpage hp (by decide) ho (.inl hrol)]

/-! ### Rules of the guarded registers -/

/-- Asks that nothing refuses, on a claim that is not EMPTY, are staged for the next commit tally (R377). -/
theorem State.applyAct_staged {s : State} {n v : Nat} (hbit : bit v 0 = true) (hok : s.applyRefusal n = 0) (hheld : s.claimState n ≠ 0) :
    let page := Page.CLM n
    let asked := s.stopeMap n Reg.CLM.STOPES_ASK
    let owned := s.stopeMap n Reg.CLM.STOPES_OWNED
    let fast := s.roundAsk false (s.rd64 page Reg.CLM.FAST_ASK_LO)
    let slow := s.roundAsk true (s.rd64 page Reg.CLM.SLOW_ASK_LO)
    let more := decide (s.rd64 page Reg.CLM.FAST_GRANT_LO < fast) || decide (s.rd64 page Reg.CLM.SLOW_GRANT_LO < slow)
    s.applyAct n v = (((s.setFld page Reg.CLM.CLAIM_STATE 23 16 0).modClaim n (fun x => { x with
      applied := some [fast, slow, s.rd page Reg.CLM.DRIFT_ASK, s.rd page Reg.CLM.HOIST_ASK], filling := more
      added := asked.filter (fun l => !owned.contains l), removed := owned.filter (fun l => !asked.contains l) })).setFld
        page Reg.CLM.CLAIM_STATE 6 6 (if more then 1 else 0), true) := by
  intro page asked owned fast slow more
  have hkeys : (s.claimState n == 0) = false := beq_false_of_ne hheld
  refine (if_neg (by simp [hbit])).trans ((if_neg (not_not_intro hok)).trans ?_)
  rw [hkeys]
  rfl

/-- A RESERVED claim takes the staged key where that is a point of the curve (R378). -/
theorem State.bindAct_reserved {s : State} {src : Source} {n v : Nat} (hbit : bit v 0 = true) (hreserved : s.claimState n = 1) :
    let page := Page.CLM n
    let k := (s.staged src page).take 97
    let u := (s.drawn.modClaim n (fun x => { x with opKey := k, keyDraw := s.fresh })).drawInterleave n
    s.bindAct src n v = if keyOk k
      then (((u.wr page Reg.CLM.BIND_COUNT (u.rd page Reg.CLM.BIND_COUNT + 1)).wrWords 0 page Reg.CLM.OP_KEY_HASH
        (Config.sha384 k).toNat 12).setClaimState n 2 0, true)
      else (s.record 0x8005 Src.deputy (some n) (items [n, 1, 1, 0, s.rd page Reg.CLM.BIND_COUNT]), false) := by
  intro page k u
  refine (if_neg (by simp [hbit])).trans ?_
  cases hkey : keyOk k with
  | true =>
    refine if_neg (not_or.mpr ⟨not_not_intro hreserved, ?_⟩)
    exact show ¬ (!keyOk k) = true by simp [hkey]
  | false =>
    refine (if_pos (.inr (show (!keyOk k) = true by simp [hkey]))).trans ?_
    rw [hreserved]
    rfl

/-- A command of Table 11.2 on a claim that has what it clears, none being under way (R379). -/
theorem State.claimCmdAct_begins {s : State} {n v cmd : Nat} (hcmd : bits v 3 0 = cmd) (hclearing : s.claimState n ≠ 4)
    (hempty : s.claimState n ≠ 0) (hbound : cmd = 1 ∨ s.claimState n ≠ 1) (hfree : s.fld (Page.CLM n) Reg.CLM.CLAIM_STATE 4 4 = 0) :
    s.claimCmdAct n v = (s.startClearing n cmd, true) := by
  subst hcmd
  refine if_neg ?_
  rintro (h | h | ⟨hother, h⟩ | h)
  · exact hclearing h
  · exact hempty h
  · exact hbound.elim hother (· h)
  · omega

/-! ### The end of a clearing (R398) -/

/-- What changes registers, interrupts and records only leaves a claim as it is. -/
theorem Shows.claim {s t : State} (h : Shows s t) (c : Nat) : t.claim c = s.claim c :=
  congrArg (Sparse.get Claim.empty · c) h.claims

theorem Shows.setClaimState {s t : State} (h : Shows s t) (c st cmd : Nat) : Shows s (t.setClaimState c st cmd) :=
  ((((h.setFld _ _ _ _ _).raise _ _).raise _ _).record _ _ _ _).reviewDiag _

/-- The state that a claim of 1 to 63 changes to is the one that it shows. -/
theorem State.claimState_setClaimState (s : State) {n st : Nat} (cmd : Nat) (hn : n ≠ 0) (hlt : n < 64) (hst : st < 8) :
    (s.setClaimState n st cmd).claimState n = st := by
  have hpage : Page.CLM n < 4096 := by unfold Page.CLM; omega
  have hzero : Page.CLM 0 < 4096 := by decide
  have hrec : Page.CLM n ≠ Page.REC := by unfold Page.CLM Page.REC; omega
  have hrol : Page.CLM n ≠ Page.ROL 3 := by unfold Page.CLM Page.ROL; omega
  have hword : (s.setClaimState n st cmd).rd (Page.CLM n) Reg.CLM.CLAIM_STATE =
      (s.setFld (Page.CLM n) Reg.CLM.CLAIM_STATE 2 0 st).rd (Page.CLM n) Reg.CLM.CLAIM_STATE := by
    rw [State.setClaimState, State.reviewDiag, State.rd_setDiag_ne _ _ _ hpage (by decide) hrol hrec,
      State.rd_record_ne _ _ _ _ _ hpage (by decide) hrec, State.rd_raise_ne _ _ hzero hpage (by decide) (.inr (by decide)),
      State.rd_raise_ne _ _ hpage hpage (by decide) (.inr (by decide))]
  have hfield := State.fld_setFld s (Page.CLM n) Reg.CLM.CLAIM_STATE 2 0 st (by decide) (by decide)
  rw [State.claimState, if_neg hn, State.fld, hword]
  exact hfield.trans (Nat.mod_eq_of_lt hst)

/-- The state code that a claim reads when the clearing of a command is complete (Table 11.2). -/
def clearedState (cmd : Nat) : Nat := match cmd with | 1 => 0 | 2 => 1 | _ => 2

theorem clearedState_lt (cmd : Nat) : clearedState cmd < 8 := by
  unfold clearedState
  split <;> decide

/-- A clearing ends with the claim's new state shown, on a state in which no command waits in the claim. -/
theorem State.finishClearing_eq (s : State) (n : Nat) :
    ∃ u : State, s.finishClearing n = u.setClaimState n (clearedState (s.claim n).command) (s.claim n).command ∧
      (u.claim n).command = 0 := by
  refine ⟨_, rfl, ?_⟩
  exact congrArg Claim.command ((((Shows.refl _).raise (Page.CLM n) 3).claim n).trans (State.claim_modClaim _ _ _))

/-- Settles O23: each guarded register reaches its rule; the claim that a clearing leaves shows its new state last, after its command
is gone. -/
theorem claimsComplete : Obligations.ClaimsComplete := by
  unfold Obligations.ClaimsComplete
  refine ⟨?apply, ?fill, ?bind, ?volatile, ?destroy, ?unbind, ?wipe, ?cleared⟩
  case apply =>
    intro src n v s hready hopen hbit b hok hheld page asked owned fast slow more
    exact (perform_ready hready).trans (congrArg _ (State.guarded_done hopen (State.applyAct_staged hbit hok hheld)))
  case fill =>
    intro n s hready
    refine ⟨_, perform_ready hready, ?_, ?_⟩
    · exact congrArg Claim.filling (s.claim_modClaim n (fun x => { x with filling := false }))
    · exact State.fld_setFld _ _ _ _ _ _ (by decide) (by decide)
  case bind =>
    intro src n v s hready hopen hbit b k hreserved u
    refine (perform_ready hready).trans (congrArg _ ?_)
    have hact := State.bindAct_reserved (src := src) hbit hreserved
    by_cases hkey : keyOk k = true
    · exact (State.guarded_done hopen (hact.trans (if_pos hkey))).trans (if_pos hkey).symm
    · exact (State.guarded_refused hopen (hact.trans (if_neg hkey))).trans (if_neg hkey).symm
  case volatile =>
    intro src n v s hready hopen
    exact (perform_ready hready).trans (congrArg _ (State.guarded_done hopen rfl))
  case destroy =>
    intro src n v s hready hcmd hopen b hempty hclearing hfree
    exact (perform_ready hready).trans (congrArg _ (State.guarded_done hopen
      (State.claimCmdAct_begins hcmd hclearing hempty (.inl rfl) hfree)))
  case unbind =>
    intro src n v s hready hcmd hopen b hbound hfree
    have hact := State.claimCmdAct_begins (s := b) hcmd (by omega) (by omega) (.inr (by omega)) hfree
    exact (perform_ready hready).trans (congrArg _ (State.guarded_done hopen hact))
  case wipe =>
    intro src n v s hready hcmd hopen b hbound hfree
    have hact := State.claimCmdAct_begins (s := b) hcmd (by omega) (by omega) (.inr (by omega)) hfree
    exact (perform_ready hready).trans (congrArg _ (State.guarded_done hopen hact))
  case cleared =>
    intro n s hready hclearing
    have hlt : n < 64 := of_decide_eq_true hready.2
    have hn : n ≠ 0 := by
      rintro rfl
      simp [State.claimState] at hclearing
    obtain ⟨u, hfinish, hcommand⟩ := s.finishClearing_eq n
    refine ⟨_, (perform_ready hready).trans (congrArg _ ((if_pos hclearing).trans hfinish)), ?_, ?_⟩
    · exact State.claimState_setClaimState u _ hn hlt (clearedState_lt _)
    · exact (congrArg Claim.command (((Shows.refl u).setClaimState n _ _).claim n)).trans hcommand

end Sys2Proof.Machine
end

section
/-!
Firmware: the staging store and its image (R411), the phases of a commit (R412, R413), flash and the floor (R414, R415).
-/

namespace Sys2Proof.Machine

/-! ### Staging (R411) -/

/-- A write of STAGE_CMD empties the store for a new image (1) or discards the one that it holds. -/
theorem State.stageCmdAct_free {s : State} {v cmd : Nat} (hcmd : bits v 1 0 = cmd) (hfree : s.stagingFree = true) :
    s.stageCmdAct v = ((((s.wr Page.DEP Reg.DEP.STAGE_BYTES 0).wr64 Page.DEP Reg.DEP.STAGED_VERSION_LO 0).modFw (fun x =>
      { x with store := [], staging := cmd == 1, staged := none })).setFw (if cmd = 1 then 1 else 0), true) := by
  subst hcmd
  exact if_neg (by simp [hfree])

/-- A whole image is verified: it is STAGED, or refused with its cause. Neither recovery nor a stale flash takes it. -/
theorem State.verifyStaged_whole {s : State} (hstaging : s.fw.staging = true) (hwhole : (imageOf s.fw.store).bytes ≤ s.fw.store.length)
    (hheader : 256 ≤ s.fw.store.length) (hrecovery : s.boot.recovery = false)
    (hflash : s.fw.flashOk = true ∨ (imageOf s.fw.store).digest ≠ s.fw.running.digest) :
    let im := imageOf s.fw.store
    let cause := s.imageCause s.fw.store
    s.verifyStaged = if cause = 0
      then (((((s.setFw 2).modFw (fun x => { x with staging := false, staged := some im })).wr64 Page.DEP
        Reg.DEP.STAGED_VERSION_LO im.ver).raise Page.DEP 0).record 0x800C Src.deputy none
          [it 1 im.ver, itH 2 (BitVec.ofNat 384 im.digest)])
      else ((((s.setFw 3).setFld Page.DEP Reg.DEP.FW_STATE 23 16 cause).modFw (fun x => { x with staging := false })).raise
        Page.DEP 1).record 0x800F Src.deputy none (items [cause]) := by
  intro im cause
  have hnotStale : ¬ (!s.fw.flashOk && im.digest == s.fw.running.digest) = true := by
    rcases hflash with hflash | hother
    · simp [hflash]
    · simp [im, hother]
  have hcomplete : ¬ (!s.fw.staging || decide (s.fw.store.length < im.bytes) || decide (s.fw.store.length < 256)) = true := by
    simp [hstaging, hwhole, hheader, im]
  refine (if_neg hcomplete).trans ?_
  by_cases hcause : cause = 0
  · exact (if_neg (not_not_intro hcause)).trans ((if_neg (by simp [hrecovery])).trans
      ((if_neg hnotStale).trans (if_pos hcause).symm))
  · exact (if_pos hcause).trans (if_neg hcause).symm

/-- Settles O24: the staging store is free; the image is whole, and no recovery and no stale flash takes it instead. -/
theorem stagingComplete : Obligations.StagingComplete := by
  unfold Obligations.StagingComplete
  refine ⟨?begins, ?discard, ?verify⟩
  case begins =>
    intro src v s hready hopen hcmd b hfree
    exact (perform_ready hready).trans (congrArg _ (State.written_done hopen (State.stageCmdAct_free hcmd hfree)))
  case discard =>
    intro src v s hready hopen hcmd b hfree
    exact (perform_ready hready).trans (congrArg _ (State.written_done hopen (State.stageCmdAct_free hcmd hfree)))
  case verify =>
    intro s hready hstaging hwhole hheader hrecovery hflash im cause
    exact (perform_ready hready).trans (congrArg _ (State.verifyStaged_whole hstaging hwhole hheader hrecovery hflash))

/-! ### A commit (R412, R413) -/

theorem Shows.fw {s t : State} (h : Shows s t) : t.fw = s.fw := by obtain ⟨r, m, q, rfl⟩ := h; rfl

/-- A 64-bit quantity reads as it was written. -/
theorem State.rd64_wr64 (s : State) {p o : Nat} (v : Nat) (hp : p < 4096) (ho : o + 4 < 1024) :
    (s.wr64 p o v).rd64 p o = v % 2 ^ 64 := by
  have hlow : (s.wr64 p o v).rd p o = v % 2 ^ 32 := by
    rw [State.wr64, State.rd_wr_ne _ _ hp hp ho (by omega) (.inr (by omega)), State.rd_wr]
  rw [State.rd64, hlow, State.wr64, State.rd_wr]
  omega

theorem State.fwCommitAct_staged {s : State} {v : Nat} {im : Image} (hbit : bit v 0 = true) (hstaged : s.fw.staged = some im)
    (hstate : s.fwState = 2) :
    s.fwCommitAct v =
      (((s.setFw 4).modFw (fun x => { x with reverting := false, phase := 1 })).recordSwitch s.fw.running.ver im.ver 1, true) := by
  simp [State.fwCommitAct, hstaged, hbit, hstate, done]

theorem State.fwRevertAct_probation {s : State} {v : Nat} {old : Image} (hbit : bit v 0 = true) (hold : s.fw.old = some old)
    (hstate : s.fwState = 5) :
    s.fwRevertAct v =
      (((s.setFw 4).modFw (fun x => { x with reverting := true, phase := 1 })).recordSwitch s.fw.running.ver old.ver 4, true) := by
  simp [State.fwRevertAct, hold, hbit, hstate, done]

/-- The floor is burned outside SWITCHING and PROBATION, and never decreases (R415). -/
theorem State.fuseBurnAct_burns {s : State} {v : Nat} (hbit : bit v 0 = true) (hswitching : s.fwState ≠ 4) (hprobation : s.fwState ≠ 5) :
    let floor := max (s.rd64 Page.DEP Reg.DEP.FW_FLOOR_LO) s.fw.running.ver
    s.fuseBurnAct v = ((s.wr64 Page.DEP Reg.DEP.FW_FLOOR_LO floor).record 0x8013 Src.deputy none (items [floor]), true) :=
  if_neg (by simp [hbit, hswitching, hprobation])

/-- Takeover 1 of a commit: the standby serves alone with the staged image. -/
theorem State.takeover1_commit {s : State} {im : Image} (hstate : s.fwState = 4) (hphase : s.fw.phase = 1)
    (hcommit : s.fw.reverting = false) (hstaged : s.fw.staged = some im) :
    s.takeover1 = (((s.modFw (fun x => { x with running := im, old := some s.fw.running, phase := 2 })).showFw.setFld Page.DEP
      Reg.DEP.FW_STATE 6 6 0).recordSwitch s.fw.running.ver im.ver 2) := by
  simp only [State.takeover1, hcommit, Bool.false_eq_true, if_false, hstaged, hstate, hphase, ne_eq, not_true, or_self,
    State.modFw]

/-- The image in service shows in FW_VERSION, whatever else of page DEP and of the recorder changes. -/
theorem State.fwVersion_switched (s : State) (b old new phase : Nat) :
    ((s.showFw.setFld Page.DEP Reg.DEP.FW_STATE 6 6 b).recordSwitch old new phase).rd64 Page.DEP Reg.DEP.FW_VERSION_LO =
      s.fw.running.ver % 2 ^ 64 := by
  have hdep : Page.DEP < 4096 := by decide
  have hword {o : Nat} (ho : o < 1024) (hne : o ≠ Reg.DEP.FW_STATE) :
      ((s.showFw.setFld Page.DEP Reg.DEP.FW_STATE 6 6 b).recordSwitch old new phase).rd Page.DEP o = s.showFw.rd Page.DEP o := by
    rw [State.recordSwitch, State.rd_record_ne _ _ _ _ _ hdep ho (by decide),
      State.rd_setFld_ne _ _ _ _ hdep hdep (by decide) ho (.inr hne)]
  rw [State.rd64, hword (by decide) (by decide), hword (by decide) (by decide)]
  exact State.rd64_wr64 s _ hdep (by decide)

/-- Settles O25: each command finds the commit in the phase that it ends. -/
theorem firmwareComplete : Obligations.FirmwareComplete := by
  unfold Obligations.FirmwareComplete
  refine ⟨?commit, ?booted, ?bootTimeout, ?current, ?probation, ?flash, ?revert, ?burn⟩
  case commit =>
    intro src v im s hready hopen hbit b hstaged hstate
    exact (perform_ready hready).trans (congrArg _ (State.guarded_done hopen (State.fwCommitAct_staged hbit hstaged hstate)))
  case booted =>
    intro im s hready hstate hphase hcommit hstaged
    have htakes := State.takeover1_commit hstate hphase hcommit hstaged
    refine ⟨_, (perform_ready hready).trans (congrArg _ htakes), ?_⟩
    have hfw := (((Shows.refl (s.modFw (fun x => { x with running := im, old := some s.fw.running, phase := 2 }))).wr64 Page.DEP
      Reg.DEP.FW_VERSION_LO im.ver).setFld Page.DEP Reg.DEP.FW_STATE 6 6 0).record 0x800D Src.deputy none
        (items [s.fw.running.ver, im.ver, 2]) |>.fw
    exact ⟨congrArg Fw.running hfw, congrArg Fw.old hfw, congrArg Fw.phase hfw, State.fwVersion_switched _ _ _ _ _⟩
  case bootTimeout =>
    intro s hready hstate hphase
    exact (perform_ready hready).trans (congrArg _ (if_neg (by simp [hstate, hphase])))
  case current =>
    intro old s hready hstate hphase hcommit hold
    refine (perform_ready hready).trans (congrArg _ ?_)
    simp only [State.takeover2, hstate, hphase, hcommit, hold, ne_eq, not_true, or_self, if_false, Bool.false_eq_true]
  case probation =>
    intro s hready hstate
    exact (perform_ready hready).trans (congrArg _ (if_pos hstate))
  case flash =>
    intro retries s hready hstate hretries
    exact (perform_ready hready).trans (congrArg _ ((if_neg (not_not_intro hstate)).trans (if_pos hretries)))
  case revert =>
    intro src v old s hready hopen hbit b hold hstate
    exact (perform_ready hready).trans (congrArg _ (State.guarded_done hopen (State.fwRevertAct_probation hbit hold hstate)))
  case burn =>
    intro src v s hready hopen hbit b hswitching hprobation floor
    exact (perform_ready hready).trans (congrArg _ (State.guarded_done hopen (State.fuseBurnAct_burns hbit hswitching hprobation)))

end Sys2Proof.Machine
end

section
/-!
Host ports (R455, R458, R460, R462, R465) and the event recorder (R474, R476, R478).
-/

namespace Sys2Proof.Machine

/-! ### Transfers and sessions that end -/

/-- `t` is what showing makes of `s` with other transfers. -/
def EndsTransfers (s t : State) : Prop := ∃ l, Shows { s with streams := l } t

theorem EndsTransfers.of_shows {s t : State} (h : Shows s t) : EndsTransfers s t := ⟨s.streams, h⟩

theorem EndsTransfers.trans {s t u : State} (h : EndsTransfers s t) (k : EndsTransfers t u) : EndsTransfers s u := by
  obtain ⟨l, r, m, q, rfl⟩ := h
  obtain ⟨l', r', m', q', rfl⟩ := k
  exact ⟨l', r', m', q', rfl⟩

theorem Shows.endDrain {s t : State} (h : Shows s t) (page : Nat) : Shows s (t.endDrain page) := by
  unfold State.endDrain
  split
  · exact h
  · split
    · exact (h.setFn _ _).setFn _ _
    · exact h.setFn _ _

theorem State.strmEnd_ends (s : State) (src : Source) (page err : Nat) : EndsTransfers s (s.strmEnd src page err) := by
  unfold State.strmEnd
  dsimp only
  split
  · exact .of_shows (.refl s)
  · exact ⟨_, Shows.on _ (Shows.on _ ((((Shows.refl _).wrB _ _ _ _).raiseFor _ _ _).accessRec _ _ _ _ _)
      fun u => (Shows.refl u).count _ _ _ _) fun u => (Shows.refl u).endDrain _⟩

theorem State.eachStrmEnd_ends (s : State) (src : Source) (err : Nat) (l : List Nat) :
    EndsTransfers s (s.each l (fun u p => u.strmEnd src p err)) := by
  induction l generalizing s with
  | nil => exact .of_shows (.refl s)
  | cons p l ih => exact (s.strmEnd_ends src p err).trans (ih _)

/-- A session that ends changes transfers, consents, and what is shown. -/
theorem State.endSession_shows (s : State) (src : Source) (cause : Nat) :
    ∃ l c, Shows { s with streams := l, vault := { s.vault with consents := c } } (s.endSession src cause) := by
  unfold State.endSession
  dsimp only
  split
  · exact ⟨s.streams, s.vault.consents, .refl s⟩
  · obtain ⟨l, hends⟩ := (EndsTransfers.of_shows (((((Shows.refl s).recordBy src _ _ _ _).wr _ _ _).wr _ _ _).raise _ 2)).trans
      (State.eachStrmEnd_ends _ src 7 _)
    obtain ⟨r, m, q, hstate⟩ := hends
    rw [hstate]
    cases bits (s.rd (Page.ROL src.num) Reg.ROL.SESS_STATE) 5 4 == 3 with
    | false => exact ⟨l, s.vault.consents, r, m, q, rfl⟩
    | true => exact ⟨l, [], Shows.setDiag ⟨r, m, q, rfl⟩ _ _⟩

theorem State.endSession_ideKeys (s : State) (src : Source) (cause : Nat) :
    (s.endSession src cause).vault.ideKeys = s.vault.ideKeys := by
  obtain ⟨l, c, h⟩ := s.endSession_shows src cause
  have hkeys := congrArg Vault.ideKeys h.vault
  exact hkeys

/-! ### Host ports -/

/-- A bit is the field of its own place. -/
theorem bit_eq_bits (w n : Nat) : bit w n = (bits w n n == 1) := by
  rw [bit, bits_eq, Nat.testBit_eq_decide_div_mod_eq, Nat.add_sub_cancel_left]
  rfl

/-- A bit reads as it was set. -/
theorem State.bit_setFld (s : State) (p o v : Nat) {n : Nat} (hn : n < 32) : bit ((s.setFld p o n n v).rd p o) n = (v % 2 == 1) := by
  have hfield := s.fld_setFld p o n n v (by omega) hn
  rw [Nat.add_sub_cancel_left] at hfield
  rw [bit_eq_bits]
  exact congrArg (· == 1) hfield

/-- A host port answers memory requests unless its power state is D3hot (R460). -/
theorem State.answers_portSource (s : State) {n : Nat} (h : n < 2) :
    s.answers (portSource n) = !(bit (s.rd (Page.HP n) Reg.HP.LINK_STATE) 17) := by
  interval_cases n <;> rfl

/-- A binding of one of the claims 0 to 31, which ends no session (R462). -/
theorem State.bindSetAct_binds {s : State} {n v : Nat} (hgo : bit v 16 = true) (hlow : bits v 5 0 < 32) (hbinds : bits v 8 8 = 1) :
    let c := bits v 5 0
    s.bindSetAct n v = (((s.setFld (Page.HP n) Reg.HP.BOUND_A c c 1).raise (Page.HP n) 4).record 0xA005 (Src.host n) (some c)
      (items [n, c, 1, 0]), true) := by
  intro c
  have hstays : (bits v 8 8 == 0 && s.roleOf (portSource n) == 1 && s.sessClaim (portSource n) == c) = false := by simp [hbinds]
  refine (if_neg (by simp [hgo])).trans ?_
  rw [hstays, if_pos hlow, hbinds]
  rfl

/-- A failure of IDE takes the keys of its port, and no others (R465). -/
theorem State.ideFailure_ideKeys (s : State) (n sub : Nat) :
    (s.ideFailure n sub).vault.ideKeys = s.vault.ideKeys.filter (fun e => e.1 % 2 != n) := by
  have hkept (u : State) (must : Bool) : (u.on must (fun w => w.endSession (portSource n) 7)).vault.ideKeys = u.vault.ideKeys := by
    cases must
    · rfl
    · exact u.endSession_ideKeys _ _
  have hshows := fun u : State => ((((Shows.refl u).count (Page.HP n) Reg.HP.IDE_FAILS 6 1).count (Page.HP n) Reg.HP.UNCORR_ERRORS 4
    1).raise (Page.HP n) 3).record 0xA004 (Src.host n) none (items [n, sub, s.fld (Page.ROL 3) Reg.ROL3.IDE_STATE (8 * n + 1) (8 * n + 1)])
  exact (congrArg Vault.ideKeys (hshows _).vault).trans (hkept _ _)

/-- Settles O14: bit 17 of LINK_STATE alone decides whether a port answers; the vector waits and its group holds an event; the binding
is of a claim below 32 and ends no session; the session that a failure of IDE ends leaves the keys alone. -/
theorem hostPortsComplete : Obligations.HostPortsComplete := by
  unfold Obligations.HostPortsComplete
  refine ⟨?d3hot, ?d0, ?unsupported, ?holdoff, ?binds, ?ide⟩
  case d3hot =>
    intro n s hready
    have hbit := s.bit_setFld (Page.HP n) Reg.HP.LINK_STATE 1 (n := 17) (by decide)
    refine ⟨_, perform_ready hready, hbit, ?_⟩
    rw [State.answers_portSource _ (of_decide_eq_true hready.2), hbit]
    rfl
  case d0 =>
    intro n s hready
    have hbit := s.bit_setFld (Page.HP n) Reg.HP.LINK_STATE 0 (n := 17) (by decide)
    refine ⟨_, perform_ready hready, hbit, ?_⟩
    rw [State.answers_portSource _ (of_decide_eq_true hready.2), hbit]
    rfl
  case unsupported =>
    intro n kind addr s hready
    refine (perform_ready hready).trans (congrArg _ ?_)
    cases kind <;> rfl
  case holdoff =>
    intro n vec s hready hwaits hpending hopen
    have hgroup : ((vec == 63 || s.groupPending n vec) && s.msiOpen n) = true := by simpa [hopen] using hpending
    exact (perform_ready hready).trans (congrArg _ ((if_neg (by simp [hwaits])).trans (if_pos hgroup)))
  case binds =>
    intro src n v s hready hopen hgo hlow hbinds b c
    exact (perform_ready hready).trans (congrArg _ (State.guarded_done hopen (State.bindSetAct_binds hgo hlow hbinds)))
  case ide =>
    intro n sub s hready
    exact ⟨_, perform_ready hready, s.ideFailure_ideKeys n sub⟩

/-! ### The event recorder -/

theorem State.sendMsi_recorder (s : State) (p v : Nat) : (s.sendMsi p v).recorder = s.recorder := by
  unfold State.sendMsi
  dsimp only
  split
  · rfl
  · split <;> rfl

theorem State.latch_recorder (s : State) (b p e : Nat) : (s.latch b p e).recorder = s.recorder := by
  unfold State.latch State.on
  dsimp only
  split
  · exact State.sendMsi_recorder _ _ _
  · rfl

theorem State.raise_recorder (s : State) (p e : Nat) : (s.raise p e).recorder = s.recorder := by
  unfold State.raise State.noteLive
  rw [State.wr_recorder, State.latch_recorder, State.latch_recorder, State.latch_recorder]

/-- A record that waits for admission leaves the stores alone. -/
theorem State.enqueue_stores (s : State) (r : Rec) :
    (s.enqueue r).recorder.archive = s.recorder.archive ∧ (s.enqueue r).recorder.region = s.recorder.region ∧
      (s.enqueue r).recorder.ring = s.recorder.ring ∧ (s.enqueue r).recorder.damaged = s.recorder.damaged := by
  unfold State.enqueue
  dsimp only
  split <;> exact ⟨rfl, rfl, rfl, rfl⟩

/-- A region above three quarters gives its oldest records to a segment; an archive that is not full discards none (R478). -/
theorem State.archiveMove_stores {s : State} (hfull : 3 * 2 ^ 20 < storeBytes s.recorder.region)
    (hroom : s.recorder.archive.length < 2048) :
    s.archiveMove.recorder.archive = s.recorder.archive ++ [segmentOf (2 ^ 20) s.recorder.region] ∧
      s.archiveMove.recorder.region = s.recorder.region.drop (segmentOf (2 ^ 20) s.recorder.region).length := by
  have hkept : decide (2048 ≤ s.recorder.archive.length) = false := decide_eq_false (not_le.mpr hroom)
  simp only [State.archiveMove, if_neg (not_le.mpr hfull), hkept, State.on_false, State.record, State.enqueue_stores,
    State.raise_recorder, Bool.false_eq_true, if_false]
  exact ⟨rfl, rfl⟩

/-- Settles O15: the record at the front is unlimited, or its bucket is empty; the region is above three quarters and the archive has
room. -/
theorem recorderComplete : Obligations.RecorderComplete := by
  unfold Obligations.RecorderComplete
  refine ⟨?unlimited, ?withheld, ?archived⟩
  case unlimited =>
    intro r rest s hready hqueue hrate u
    refine (perform_ready hready).trans (congrArg _ ?_)
    simp only [State.admitFront, hqueue, hrate, u]
  case withheld =>
    intro r rest rate burst s hready hqueue hrate u hempty drawn
    refine (perform_ready hready).trans (congrArg _ ?_)
    have hlow : ¬ 1000000 ≤ u.bucket r.code rate burst := not_le.mpr hempty
    simp only [u] at hlow
    simp only [State.admitFront, hqueue, hrate, if_neg hlow, u, drawn]
  case archived =>
    intro s hready hfull hroom
    exact ⟨_, perform_ready hready, State.archiveMove_stores hfull hroom⟩

end Sys2Proof.Machine
end

section
/-!
Power, sensing and thermal limits (R489 to R509), and bring-up (R518 to R525).
-/

namespace Sys2Proof.Machine

/-! ### The input -/

/-- Settles O1: the voltage lies in a state other than the one shown, and POWER_FAIL is not past; the input that comes back finds
stage 1 off or the module without power. -/
theorem inputComplete : Obligations.InputComplete := by
  unfold Obligations.InputComplete
  refine ⟨?change, ?fail, ?tooHigh, ?overEnd, ?on, ?window⟩
  case change =>
    intro mv new s hready hstate old hnew hfinal
    have hchanges : ¬ (new = s.fld Page.PWR Reg.PWR.INPUT_STATE 2 0 ∨ s.fld Page.PWR Reg.PWR.INPUT_STATE 2 0 = 3) :=
      not_or.mpr ⟨Ne.symm hnew, hfinal⟩
    refine (perform_ready hready).trans (congrArg _ ?_)
    simp only [hstate, if_neg hchanges]
    rfl
  case fail =>
    intro mv draw s hready hfirst
    exact (perform_ready hready).trans (congrArg _ (if_neg (by simp [hfirst])))
  case tooHigh =>
    intro mv s hready
    exact ⟨_, perform_ready hready, rfl, rfl, rfl⟩
  case overEnd =>
    intro s hoff
    exact (performAlways_wf (i := .inputOverEnd) rfl).trans (congrArg _ (if_pos hoff))
  case on =>
    intro s hpower
    have hnone : ¬ (s.powered = true ∧ (!s.pwr.failed) = true) := by simp [hpower]
    exact ⟨s.applyInput 72000, (performAlways_wf (i := .powerOn) rfl).trans (congrArg _ (if_neg hnone)), rfl, rfl, rfl⟩
  case window =>
    intro r s hready
    exact perform_ready hready

/-! ### Converters and phases -/

/-- A loaded converter that fails gives its load to the spare (R493). -/
theorem State.convFails_loaded {s : State} {k : Nat} (cause : StageCause) (hworks : bit (s.rd Page.PWR Reg.PWR.CONV_MAP) k = false)
    (hloaded : bit (s.rd Page.PWR Reg.PWR.CONV_MAP) (12 + k) = true)
    (hspare : bits (s.rd Page.PWR Reg.PWR.CONV_MAP) 27 24 < 12) :
    let m := s.rd Page.PWR Reg.PWR.CONV_MAP
    let sp := bits m 27 24
    let m2 := putBits (putBits (putBits (putBits m k k 1) (12 + k) (12 + k) 0) (12 + sp) (12 + sp) 1) 27 24 15
    let u := ((((s.wr Page.PWR Reg.PWR.CONV_MAP m2).count Page.PWR Reg.PWR.STAGE_FAULTS 1 1).raise Page.PWR 2).record 0x9004
      (Src.power k) none (items [k, causeNo cause, sp])).recompute
    s.convFails k cause = u.on (decide (u.working < 8)) (fun w => (w.setFn Page.PWR 4).clampOn clampCapacity) := by
  intro m sp m2 u
  have htakes : (bit m (12 + k) && decide (sp < 12)) = true := by simp [m, sp, hloaded, hspare]
  refine (if_neg (by simp [hworks])).trans ?_
  simp only [m, sp] at htakes
  simp only [htakes, if_true]
  rfl

theorem State.convRetireAct_go {s : State} {v : Nat} (hgo : bit v 8 = true) (hnamed : bits v 3 0 ≤ 11) :
    s.convRetireAct v = ((s.convFails (bits v 3 0) .retired).lostBelow s, true) :=
  if_neg (by simp [hgo, hnamed])

theorem State.phaseRetireAct_go {s : State} {v : Nat} (hgo : bit v 8 = true) (hnamed : bits v 6 0 ≤ 101) :
    s.phaseRetireAct v = (s.phaseFails (bits v 6 0) .retired, true) :=
  if_neg (by simp [hgo, hnamed])

/-- Settles O2: the converter that fails works and carries load, and a spare stands by; the one that becomes the spare does so by its
hours or its efficiency; each pair names a stage with GO. -/
theorem stagesComplete : Obligations.StagesComplete := by
  unfold Obligations.StagesComplete
  refine ⟨?conv, ?convRetire, ?rotate, ?phase, ?phaseRetire⟩
  case conv =>
    intro k cause s hready m sp hworks hloaded hspare m2 u
    exact (perform_ready hready).trans (congrArg (fun t : State => Host.Outcome.next (t.lostBelow s))
      (State.convFails_loaded cause hworks hloaded hspare))
  case convRetire =>
    intro src v s hready hopen hgo hnamed
    exact (perform_ready hready).trans (congrArg _ (State.guarded_done hopen (State.convRetireAct_go hgo hnamed)))
  case rotate =>
    intro k low s hready m sp hworks hloaded heleven hspare hchosen
    have hrotates : ¬ (bit m k || !bit m (12 + k) || decide (s.working < 11) || decide (11 < sp) || !(low || s.mostHours k)) = true := by
      rcases hchosen with hlow | hhours
      · simp [hworks, hloaded, heleven, hspare, hlow]
      · simp [hworks, hloaded, heleven, hspare, hhours]
    exact (perform_ready hready).trans (congrArg _ (if_neg hrotates))
  case phase =>
    intro k cause s hready _
    exact perform_ready hready
  case phaseRetire =>
    intro src v s hready hopen hgo hnamed
    exact (perform_ready hready).trans (congrArg _ (State.guarded_done hopen (State.phaseRetireAct_go hgo hnamed)))

/-! ### Sensors -/

/-- A clamp that ends leaves the validity of the sensors as it is. -/
theorem State.invalid_setClamped_false (s : State) (p : Nat) : ((s.setClamped p false).stope p).invalid = (s.stope p).invalid := by
  unfold State.setClamped
  dsimp only
  split
  · rfl
  · have hstope := s.stope_modStope p (fun x => { x with clamped := false })
    exact (congrArg Stope.invalid hstope :)

/-- An accepted pair ends the trip: the rails return, and bring-up goes on from step 3 (R509). -/
theorem State.tripClearAct_cool {s : State} {v : Nat} (hbit : bit v 0 = true) (htrip : bit (s.rd Page.PWR Reg.PWR.INPUT_STATE) 12 = true)
    (hcool : ∀ e ∈ s.pwr.sensors, e.2.1 ≤ s.warnAt (e.1 / 2048) - 160) :
    let u := ((s.setFld Page.PWR Reg.PWR.INPUT_STATE 12 12 0).modPwr (fun x => { x with tripped := false })).each
      trippedPages (fun w p => w.setFn p 1)
    s.tripClearAct v =
      ({ u.setFld Page.DEV Reg.DEV.BRINGUP 7 0 2 with boot := { State.reset.boot with began := s.osc } }, true) := by
  have hall : s.pwr.sensors.all (fun e => decide (e.2.1 ≤ s.warnAt (e.1 / 2048) - 160)) = true :=
    List.all_eq_true.mpr fun e he => decide_eq_true (hcool e he)
  exact if_neg (by simp [hbit, htrip, hall])

/-- Settles O3: the channel's bit changes and the stope keeps another temperature; the sensor passes its threshold or falls 5 °C below
it; classes below 6 trip the module; every sensor has cooled. -/
theorem thermalComplete : Obligations.ThermalComplete := by
  unfold Obligations.ThermalComplete
  refine ⟨?invalid, ?valid, ?warn, ?clamp, ?clampEnd, ?trip, ?tripClear, ?budget, ?limit⟩
  case invalid =>
    intro p ch s hready hvalid hother
    let s1 := s.modStope p (fun x => { x with invalid := x.invalid + 2 ^ ch })
    let s2 := ((s1.count Page.SNS Reg.SNS.SENSOR_FAULTS 0 1).raise Page.SNS 2).record 0x9009 (Src.stope p) none (items [p, ch, 0])
    have hstope : (s2.stope p).invalid = (s.stope p).invalid + 2 ^ ch :=
      congrArg Stope.invalid (((((Shows.refl s1).count _ _ _ _).raise _ _).record _ _ _ _).stope p |>.trans (s.stope_modStope p _))
    have hone : ¬ bits (s2.stope p).invalid 1 0 = 3 := by rwa [hstope]
    exact ⟨s2, (perform_ready hready).trans (congrArg _ ((if_neg (by simp [hvalid])).trans (if_neg hone))), hstope⟩
  case valid =>
    intro p ch s hready hinvalid
    let s1 := s.modStope p (fun x => { x with invalid := x.invalid - 2 ^ ch })
    let s2 := (s1.raise Page.SNS 2).record 0x9009 (Src.stope p) none (items [p, ch, 1])
    have hstope : (s2.stope p).invalid = (s.stope p).invalid - 2 ^ ch :=
      congrArg Stope.invalid ((((Shows.refl s1).raise _ _).record _ _ _ _).stope p |>.trans (s.stope_modStope p _))
    refine ⟨_, (perform_ready hready).trans (congrArg _ (if_neg (by simp [hinvalid]))), ?_⟩
    split
    · exact (State.invalid_setClamped_false _ p).trans hstope
    · exact hstope
  case warn =>
    intro cls inst temp s hready hnormal hwarm
    have hbelow : ¬ 2 ≤ (s.sensor cls inst).2.1 := by omega
    exact (perform_ready hready).trans (congrArg _ ((if_neg hbelow).trans (if_pos ⟨hnormal, hwarm⟩)))
  case clamp =>
    intro cls inst c temp s hready hthreshold hbelow hhot u
    refine (perform_ready hready).trans (congrArg _ ?_)
    have hclamps : ¬ (2 ≤ (s.sensor cls inst).2.1 ∨ temp ≤ (c : Int) * 16) := by omega
    simp only [hthreshold, if_neg hclamps]
    rfl
  case clampEnd =>
    intro inst temp s hready hclamped hcool hlow hchannel
    have hends : ¬ ((s.sensor 0 inst).2.1 ≠ 2 ∨ ((105 : Nat) : Int) * 16 - 80 < temp) := by omega
    have hnormal : ¬ s.warnAt 0 - 80 < temp := by omega
    refine (perform_ready hready).trans (congrArg _ ((if_neg hends).trans ?_))
    simp only [if_neg hnormal, if_neg hchannel, if_true]
  case trip =>
    intro cls inst temp s hready hcls
    exact (perform_ready hready).trans (congrArg _ ((if_neg (by omega)).trans (if_neg (by omega))))
  case tripClear =>
    intro src v s hready hopen b hbit htrip hcool u
    exact (perform_ready hready).trans (congrArg _ (State.guarded_done hopen (State.tripClearAct_cool hbit htrip hcool)))
  case budget =>
    intro src v s hready hopen
    exact (perform_ready hready).trans (congrArg _ (State.guarded_done hopen rfl))
  case limit =>
    intro src v s hready hopen
    exact (perform_ready hready).trans (congrArg _ (State.guarded_done hopen rfl))

/-! ### Bring-up -/

/-- With no job loaded the device reset loses what loss of the input loses, and runs bring-up from step 2 (R525). -/
theorem State.deviceResetAct_idle {s : State} {src : Source} {v : Nat} (hbit : bit v 0 = true)
    (hidle : ∀ c ∈ claimNos, s.jobState c = 0 ∨ s.jobState c = 6) :
    let u := ((s.config s src Page.DEV Reg.DEV.RESET 0 v).recordBy src 0x0003 Src.deputy none (items [src.num])).count
      Page.DEV Reg.DEV.DEV_RESETS 0 1
    s.deviceResetAct src v = (((u.each u.recorder.queue (fun w _ => w.admitFront)).losePower).bootFrom2 2, false) := by
  have hnone : claimNos.filter (fun c => s.jobState c != 0 && s.jobState c != 6) = [] := by
    rw [List.filter_eq_nil_iff]
    intro c hc
    rcases hidle c hc with h | h <;> simp [h]
  exact (if_neg (by simp [hbit])).trans (if_neg (not_not_intro hnone))

/-- Settles O12: nothing holds bring-up, and at step 2 the image verifies; a late unit is no rail; the ROM is in recovery, and a
partner's port is next; no job is loaded. -/
theorem bringupComplete : Obligations.BringupComplete := by
  unfold Obligations.BringupComplete
  refine ⟨?step, ?late, ?ask, ?image, ?reset⟩
  case step =>
    intro ms ok s hready n hlast himage hrecovery hhold hpower htrip
    have hgoes : ¬ (9 < n ∨ s.boot.recovery = true ∨ bit (s.rd Page.DEV Reg.DEV.BRINGUP) 6 = true ∨ s.pwr.failed = true ∨
        (s.pwr.tripped = true ∧ 2 < n)) := by
      rintro (h | h | h | h | ⟨htripped, h⟩)
      · omega
      · simp [hrecovery] at h
      · simp [hhold] at h
      · simp [hpower] at h
      · exact absurd (htrip htripped) (by omega)
    have hverifies : ¬ (n = 2 ∧ (!(ok && s.fw.flashOk)) = true) := by
      rintro ⟨h2, hbad⟩
      obtain ⟨hok, hflash⟩ := himage h2
      simp [hok, hflash] at hbad
    exact (perform_ready hready).trans (congrArg _ ((if_neg hgoes).trans (if_neg hverifies)))
  case late =>
    intro unit p s hready n hfirst hlast hfive hrecovery hhold hpage hrail u
    have hgoes : ¬ (9 < n ∨ s.boot.recovery = true ∨ bit (s.rd Page.DEV Reg.DEV.BRINGUP) 6 = true) := by
      rintro (h | h | h)
      · omega
      · simp [hrecovery] at h
      · simp [hhold] at h
    have hstope : (decide (n = 5) && decide (unit / 0x1000 = 1)) = false := by simp [hfive]
    have hnext : ¬ (unit / 0x1000 = 6 ∨ n ≤ 2) := by omega
    refine (perform_ready hready).trans (congrArg _ ((if_neg hgoes).trans ?_))
    simp only [n] at hstope hnext
    simp only [hpage, hstope, State.on_false, if_neg hnext, u, n]
  case ask =>
    intro n s hready hrecovery hnext u
    have hasks : ¬ ((!s.boot.recovery) = true ∧ s.fwState ≠ 7) := by simp [hrecovery]
    refine (perform_ready hready).trans (congrArg _ ((if_neg hasks).trans ?_))
    simp only [hnext, Option.orElse_some, u]
  case image =>
    intro image s hready hrecovery
    refine (perform_ready hready).trans (congrArg _ ?_)
    by_cases hcause : s.imageCause image = 0
    · exact (if_neg (not_not_intro hcause)).trans ((if_pos hrecovery).trans (if_pos hcause).symm)
    · exact (if_pos hcause).trans (if_neg hcause).symm
  case reset =>
    intro src v s hready hopen b hbit hidle u
    exact (perform_ready hready).trans (congrArg _ (State.guarded_refused hopen (State.deviceResetAct_idle hbit hidle)))

end Sys2Proof.Machine
end

section
/-!
Words of BAR0: writes of words and bits (R433, R434, R440), and reads of words, complements and bits (R436, R439, R441).
-/

namespace Sys2Proof.Machine

/-! ### Writes of words and bits -/

/-- A word without behaviour of its own takes the writable bits of what is written (R434). -/
theorem State.wordAct_plain {s : State} {src : Source} {page off : Nat} (v : Nat) (hacc : accOf page off = .rw) (hbody : 0x40 ≤ off)
    (hplain : [PType.hoi, .pro, .rol, .rol3, .dep, .mon].contains (pageType page) = false) :
    let k := s.bankFor src page off
    let m := writeMask page off
    let w := s.rdB k (keptOn page off) off
    s.wordAct src page off v = (s.wrB k (keptOn page off) off (w - (w &&& m) + (v &&& m)), true) := by
  intro k m w
  have hclear : ¬ accOf page off = .w1c := by simp [hacc]
  have hcontrol : off ≠ Reg.HDR.CONTROL := (lt_of_lt_of_le (by decide) hbody).ne'
  have henable : off ≠ Reg.HDR.EVT_ENABLE := (lt_of_lt_of_le (by decide) hbody).ne'
  have hstream : off ≠ Reg.HDR.STREAM_CTL := (lt_of_lt_of_le (by decide) hbody).ne'
  refine (if_neg hclear).trans ((if_neg hcontrol).trans ((if_neg henable).trans ((if_neg hstream).trans
    ((if_neg (not_lt.mpr hbody)).trans ?_))))
  cases htype : pageType page with
  | hoi | pro | rol | rol3 | dep | mon => exact absurd (htype ▸ hplain) (by decide)
  | _ => rfl

theorem writeOpen_touch {s : State} {src : Source} {page off v : Nat} (h : writeOpen s src page off v) :
    writeOpen (s.touch src) src page off v := by
  rwa [writeOpen, State.touch_touch]

/-- A whole-word write that finds no pair open and takes effect by its word's rule. -/
theorem State.busWrite_word {s x : State} {src : Source} {addr off : Nat} {v : Word} (hin : beyondBar0 addr = false)
    (hview : viewAt (addrPage addr) (addrOff addr) = .word off) (hacc : accOf (addrPage addr) off = .rw)
    (hnone : s.openPair src (addrPage addr) = none) (hopen : writeOpen s src (addrPage addr) off v.toNat)
    (hact : (s.touch src).wordAct src (addrPage addr) off v.toNat = (x, true)) :
    let b := s.touch src
    s.busWrite src addr v 15 = (x.config b src (addrPage addr) off (b.rdB (b.bankFor src (addrPage addr) off) (addrPage addr) off)
      v.toNat).respond src 0 0 := by
  intro b
  have hsees : ruleSees b src (addrPage addr) = b := (ruleSees_none (s := b) hnone).trans (State.touch_touch s src)
  have hallowed : b.halfAllowed src (addrPage addr) (.word off) v = true := by simp [State.halfAllowed, hacc, b, hopen.2.1]
  have hdone := State.tryWritten_done (f := fun u => u.wordAct src (addrPage addr) off v.toNat) true (writeOpen_touch hopen)
    (by rw [hsees]; exact hact)
  rw [hsees] at hdone
  refine (congrArg Prod.fst (State.tryWrite_within v 15 hin hopen.1)).trans ?_
  rw [hview, State.writeAt_alone (s := b) 15 hallowed hnone]
  refine Eq.trans ?_ (congrArg Prod.fst hdone)
  simp only [State.writeAlone, State.writeWord, hacc, ne_eq, not_true, if_false, b]

/-- A write to one of the bit aliases that finds no pair open and takes effect by its word's rule (R440). -/
theorem State.busWrite_bit {s x : State} {src : Source} {addr off i : Nat} {v : Word} (hin : beyondBar0 addr = false)
    (hview : viewAt (addrPage addr) (addrOff addr) = .bitOf off i) (hacc : accOf (addrPage addr) off = .rw) (hbody : 0x40 ≤ off)
    (hmask : bit (writeMask (addrPage addr) off) i = true) (hnone : s.openPair src (addrPage addr) = none) :
    let b := s.touch src
    let k := b.bankFor src (addrPage addr) off
    let y := putBits (b.rdB k (keptOn (addrPage addr) off) off) i i (v.toNat % 2)
    writeOpen s src (addrPage addr) off y → b.mayWrite src (addrPage addr) off (b.rdB k (addrPage addr) off) = true →
    b.wordAct src (addrPage addr) off y = (x, true) →
    s.busWrite src addr v 15 = (x.config b src (addrPage addr) off (b.rdB k (addrPage addr) off) y).respond src 0 0 := by
  intro b k y hopen hmay hact
  have hsees : ruleSees b src (addrPage addr) = b := (ruleSees_none (s := b) hnone).trans (State.touch_touch s src)
  have hallowed : b.halfAllowed src (addrPage addr) (.bitOf off i) v = true := by
    simp only [State.halfAllowed, hacc]
    exact hmay
  have hdone := State.tryWritten_done (f := fun u => u.wordAct src (addrPage addr) off y) true (writeOpen_touch hopen)
    (by rw [hsees]; exact hact)
  rw [hsees] at hdone
  have hstream : off ≠ Reg.HDR.STREAM_CTL := (lt_of_lt_of_le (by decide) hbody).ne'
  refine (congrArg Prod.fst (State.tryWrite_within v 15 hin hopen.1)).trans ?_
  rw [hview, State.writeAt_alone (s := b) 15 hallowed hnone]
  refine Eq.trans ?_ (congrArg Prod.fst hdone)
  simp only [State.writeAlone, State.writeBit, hacc, hstream, hmask, false_and, ne_eq, not_true, if_false, Bool.not_true,
    Bool.false_eq_true, b, k, y]

/-! ### Reads -/

@[simp] theorem State.resp_respond (s : State) (src : Source) (st : Nat) (d : Word) :
    Sparse.get Resp.none (s.respond src st d).resp src.num = { status := st, data := d, addr := 0 } :=
  Sparse.get_set_same _ _ _ _

/-- A permitted read of a register word, of a complement or of a bit (R436, R439). -/
theorem State.busRead_may {s : State} {src : Source} {addr : Nat} {w : Region} (hin : beyondBar0 addr = false)
    (hview : viewAt (addrPage addr) (addrOff addr) = w) (hregister : ∀ x, w ≠ .window x) (hans : (s.touch src).answers src = true)
    (hmay : (s.touch src).mayRead src (addrPage addr) w.off = true) :
    let r := (s.touch src).readAt src (addrPage addr) w
    s.busRead src addr = r.1.respond src 0 (BitVec.ofNat 32 r.2) := by
  intro r
  have hread : (s.touch src).tryRead src addr = (r.1, some r.2) := by
    simp only [State.tryRead, hview]
    exact if_neg (by simp [hmay])
  refine (if_neg (by simp [hin])).trans ?_
  rw [hview]
  cases w with
  | window x => exact absurd rfl (hregister x)
  | _ =>
    refine (if_neg (by simp [hans])).trans ?_
    rw [hread]
    rfl

theorem State.liveWord_lt (s : State) (src : Source) (page off : Nat) : s.liveWord src page off < 2 ^ 32 := by
  unfold State.liveWord
  dsimp only
  split
  · exact Nat.two_pow_pos 32
  · exact Nat.two_pow_pos 32
  · split
    · exact Nat.two_pow_pos 32
    · exact (Nat.sub_le _ _).trans_lt (Nat.mod_lt _ (Nat.two_pow_pos 32))

/-- Only the high half of a 64-bit quantity reads a captured value (R441). -/
theorem State.readValue_live {s : State} {src : Source} {page off : Nat} (h : accOf page off ≠ .rl) :
    s.readValue src page off = s.liveWord src page off := by
  unfold State.readValue
  split
  · exact if_neg (fun hcaptured => h hcaptured.1)
  · rfl

/-- Drawing a free value leaves the capture buffers alone. -/
theorem State.on_drawn_caps (s : State) (c : Bool) : (s.on c (fun u => u.drawn)).caps = s.caps := by
  cases c <;> rfl

/-- A read of a low word captures the quantity in the source's own buffer (R441). -/
theorem State.capture_low {s : State} {src : Source} {page off : Nat} (hlow : accOf page off ≠ .rl) (hhigh : accOf page (off + 4) = .rl) :
    s.capture src page off =
      { s with caps := Sparse.place src.num ⟨page, off, s.live64 src page off⟩ (Sparse.drop src.num s.caps) } :=
  if_pos ⟨hlow, hhigh⟩

/-- A read of a low word returns it as it is, and captures both halves. -/
theorem State.readAt_low {s : State} {src : Source} {page off : Nat} (hlow : accOf page off ≠ .rl) (hhigh : accOf page (off + 4) = .rl) :
    s.readAt src page (.word off) =
      (({ s with caps := Sparse.place src.num ⟨page, off, s.live64 src page off⟩ (Sparse.drop src.num s.caps) } : State).on
        (freeWord page off) (fun u => u.drawn), s.liveWord src page off) := by
  simp only [State.readAt, State.capture_low hlow hhigh, State.readValue_live hlow, Nat.mod_eq_of_lt (s.liveWord_lt src page off)]

/-! ### The obligations -/

/-- Settles O43: the write finds no pair open and a word without behaviour of its own; the read is permitted and its word is the low
one of a pair; the flags that are cleared are the source's own. -/
theorem wordsComplete : Obligations.WordsComplete := by
  unfold Obligations.WordsComplete
  refine ⟨?word, ?bitAlias, ?captures, ?flags⟩
  case word =>
    intro src addr off v s hready hin hview hacc hbody hplain hnone hopen b k m w
    exact (perform_ready hready).trans (congrArg _ (State.busWrite_word hin hview hacc hnone hopen
      (State.wordAct_plain v.toNat hacc hbody hplain)))
  case bitAlias =>
    intro src addr off i v s hready hin hview hacc hbody hplain hmask b k m w x hnone hopen hmay
    exact (perform_ready hready).trans (congrArg _ (State.busWrite_bit hin hview hacc hbody hmask hnone hopen hmay
      (State.wordAct_plain x hacc hbody hplain)))
  case captures =>
    intro src addr off s hready hin hview hacc hhigh b hans hmay
    have hlow : accOf (addrPage addr) off ≠ .rl := by simp [hacc]
    have hread := State.busRead_may hin hview (fun x => by simp) hans hmay
    simp only [State.readAt_low hlow hhigh] at hread
    refine ⟨_, (perform_ready hready).trans (congrArg _ hread), State.resp_respond _ _ _ _, ?_, ?_, ?_⟩
    · refine (congrArg (fun l : List (Nat × Capture) => (l.find? (fun e => e.1 == src.num)).map (·.2))
        (State.on_drawn_caps _ _)).trans ?_
      exact congrArg (Option.map Prod.snd) (Sparse.find_place _ _ _ (Sparse.not_mem_drop _ _))
    · cases freeWord (addrPage addr) off <;> rfl
    · cases freeWord (addrPage addr) off <;> rfl
  case flags =>
    intro src page v s hready hopen b f
    exact (perform_ready hready).trans (congrArg _ (State.written_done hopen rfl))

/-- What a permitted read returns fits its 32 bits. -/
theorem toNat_ofNat_bits (w b : Nat) : (BitVec.ofNat 32 (bits w b b)).toNat = bits w b b := by
  have hlt := bits_lt w b b
  rw [Nat.add_sub_cancel_left] at hlt
  rw [BitVec.toNat_ofNat, Nat.mod_eq_of_lt (by omega)]

/-- Settles O56: a read of one of the bit aliases gives one bit of the live word, which but for the high half of a 64-bit quantity is what a read of the
word returns. -/
theorem bitAliasReads : Obligations.BitAliasReads := by
  unfold Obligations.BitAliasReads
  intro src addr o b s hready hin hview hans hmay
  have hread := State.busRead_may hin hview (fun x => by simp) hans hmay
  have hdata := toNat_ofNat_bits ((s.touch src).liveWord src (addrPage addr) o) b
  refine ⟨_, (perform_ready hready).trans (congrArg _ hread), State.on_drawn_caps _ _, ?_, ?_, ?_⟩
  · rw [State.resp_respond]
    exact hdata
  · rw [State.resp_respond]
    have hlt := bits_lt ((s.touch src).liveWord src (addrPage addr) o) b b
    rw [Nat.add_sub_cancel_left] at hlt
    exact (hdata.trans_le (Nat.le_of_lt_succ hlt))
  · intro hlive addr' u hin' hpage hview' hrun
    have hready' : ready (.captureRead src addr') s := ⟨hready.1, rfl⟩
    have hmay' : (s.touch src).mayRead src (addrPage addr') o = true := by rwa [hpage]
    have hread' := State.busRead_may hin' hview' (fun x => by simp) hans hmay'
    obtain rfl := Host.Outcome.next.inj (((perform_ready hready').trans (congrArg _ hread')).symm.trans hrun)
    have hlt := (s.touch src).liveWord_lt src (addrPage addr) o
    rw [State.resp_respond, State.resp_respond]
    simp only [State.readAt, hpage, State.readValue_live hlive, Nat.mod_eq_of_lt hlt, BitVec.toNat_ofNat]
    exact hdata

/-- The word that a complement reads is the bitwise complement of its word's value. -/
theorem ofNat_complement (r : Nat) : BitVec.ofNat 32 (2 ^ 32 - 1 - r % 2 ^ 32) = ~~~BitVec.ofNat 32 (r % 2 ^ 32) := by
  apply BitVec.eq_of_toNat_eq
  rw [BitVec.toNat_not, BitVec.toNat_ofNat, BitVec.toNat_ofNat]
  omega

/-- Settles O57: both reads are of the same word at the same moment; the write closes no pair and its register is not guarded. -/
theorem complementAccesses : Obligations.ComplementAccesses := by
  unfold Obligations.ComplementAccesses
  refine ⟨?read, ?write⟩
  case read =>
    intro src addr addr' o s hready hready' hin hin' hview hpage hview' hans hmay
    have hmay' : (s.touch src).mayRead src (addrPage addr') o = true := by rwa [hpage]
    have hread := State.busRead_may hin hview (fun x => by simp) hans hmay
    have hread' := State.busRead_may hin' hview' (fun x => by simp) hans hmay'
    have hdata := ofNat_complement ((s.touch src).readValue src (addrPage addr) o)
    refine ⟨_, _, (perform_ready hready).trans (congrArg _ hread), (perform_ready hready').trans (congrArg _ hread'),
      State.on_drawn_caps _ _, ?_, ?_⟩
    · rw [State.resp_respond, State.resp_respond]
      simp only [State.readAt, hpage]
      exact hdata
    · rw [State.resp_respond, State.resp_respond]
      simp only [State.readAt, hpage]
      rintro ⟨hcomp, hword⟩
      rw [hcomp, hword] at hdata
      exact absurd hdata (by decide)
  case write =>
    intro src addr o v s hready hin hview hacc hans hnone
    have hallowed : (s.touch src).halfAllowed src (addrPage addr) (.comp o) v = true := by simp [State.halfAllowed, hacc]
    have halone := State.writeAt_alone (s := s.touch src) 15 hallowed hnone
    have hwrite : s.busWrite src addr v 15 =
        (s.touch src).accessRec src 0x0102 (addrPage addr) (0x400 + o) (items [v.toNat]) := by
      refine (congrArg Prod.fst (State.tryWrite_within v 15 hin hans)).trans ?_
      rw [hview, halone]
      simp only [State.writeAlone, hacc, ne_eq, not_true, if_false]
    exact (perform_ready hready).trans (congrArg _ hwrite)

end Sys2Proof.Machine
end

section
/-!
Stream windows (R444 to R447): the start of a transfer, its end by MODE 0 or without data, and the words of a lap.
-/

namespace Sys2Proof.Machine

/-! ### Starts and ends -/

/-- A transfer of the stream registers' address and length starts with an object, and with nothing passed. -/
def State.transferStarted (s : State) (src : Source) (page mode : Nat) (object : List Byte) : State :=
  let x : Stream := { mode := mode, addr := s.strmAddr src page, len := s.strmLen src page, passed := 0, seen := [], lap := []
                      object := object }
  ((s.setStream src page x).wrB src.num page Reg.HDR.STREAM_CHECK 0).strmShow src page mode 0 false

/-- The object that a transfer starts with: what its page holds, or nothing yet. -/
def startObject (mode addr : Nat) (t : PType) (held : List Byte) : List Byte :=
  if (mode == 2 && t != .stm && t != .recorder) || !(mode == 2 || addr == 0 || t == .stm) then held else []

theorem startObject_write (addr : Nat) (t : PType) (held : List Byte) :
    startObject 1 addr t held = if addr = 0 ∨ t = .stm then [] else held := by
  by_cases hzero : addr = 0
  · simp [startObject, hzero]
  · by_cases hstm : t = .stm
    · simp [startObject, hstm]
    · simp [startObject, hzero, hstm]

theorem startObject_read (addr : Nat) (t : PType) (held : List Byte) :
    startObject 2 addr t held = if t = .stm ∨ t = .recorder then [] else held := by
  by_cases hstm : t = .stm
  · simp [startObject, hstm]
  · by_cases hrec : t = .recorder
    · simp [startObject, hrec]
    · simp [startObject, hstm, hrec]

/-- MODE 1 or 2 on a page without a transfer, where nothing ends it at its start (R444). -/
theorem State.strmCtl_starts {s : State} {src : Source} {page mode : Nat} {object : List Byte} (hmode : mode = 1 ∨ mode = 2)
    (hidle : (s.stream src page).mode = 0) (htakes : pageType page = .stm → s.fn page ≠ 0 ∧ s.fn page ≠ 3)
    (hobject : startObject mode (s.strmAddr src page) (pageType page) (s.stream src page).object = object)
    (hruns : (s.transferStarted src page mode object).startErr src page mode = 0) :
    s.strmCtl src page mode = s.transferStarted src page mode object := by
  subst hobject
  have hbits : bits mode 1 0 = mode := by rcases hmode with rfl | rfl <;> rfl
  have hserves : ¬ (pageType page = .stm ∧ (s.fn page = 0 ∨ s.fn page = 3)) := by
    rintro ⟨hstm, hstate⟩
    exact hstate.elim (htakes hstm).1 (htakes hstm).2
  have hstart : s.strmCtl src page mode = s.strmStart src page mode :=
    (if_neg (by omega)).trans (congrArg (s.strmStart src page) hbits)
  exact hstart.trans ((if_neg (not_not_intro hidle)).trans ((if_neg hserves).trans (if_pos hruns)))

/-- A write of STREAM_CTL on a page that has a stream window, which takes effect and is recorded (R416). -/
theorem State.modeWrite_done {s x : State} {src : Source} {page mode : Nat} (hstream : streamPage page = true)
    (hopen : writeOpen s src page Reg.HDR.STREAM_CTL mode) (hctl : (ruleSees s src page).strmCtl src page mode = x) :
    let b := ruleSees s src page
    s.modeWrite src page mode = (x.config b src page Reg.HDR.STREAM_CTL
      (b.rdB (b.bankFor src page Reg.HDR.STREAM_CTL) page Reg.HDR.STREAM_CTL) mode).respond src 0 0 :=
  (if_pos hstream).trans (State.written_recorded hopen (congrArg (fun u : State => (u, true)) hctl))

/-- MODE 0 on a page other than the prospector's ends the transfer under way with ERROR 9. -/
theorem State.strmCtl_abandon (s : State) (src : Source) {page : Nat} (h : page ≠ Page.PRO) :
    s.strmCtl src page 0 = s.strmEnd src page 9 := by
  have hreports : (page == Page.PRO && (s.stream src page).mode == 1) = false := by simp [h]
  refine (if_pos (by decide)).trans ?_
  rw [State.strmAbandon, hreports]
  rfl

/-! ### The words of a lap -/

/-- A whole word written to a free place of the lap under way fills it, and the last one commits the lap (R445). -/
theorem State.winWrite_fills {s : State} {src : Source} {page x : Nat} (v : Word) (hmode : (s.stream src page).mode = 1)
    (hplace : x / 4 * 4 + 4 ≤ (s.stream src page).lapLen) (hfree : (s.stream src page).seen.contains (x / 4 * 4) = false) :
    let place := x / 4 * 4
    let t := s.stream src page
    let u := s.setStream src page { t with seen := place :: t.seen, lap := Sparse.place place v (Sparse.drop place t.lap) }
    s.winWrite src page x v 15 = if 4 * (t.seen.length + 1) = t.lapLen then u.lapWritten src page else u := by
  have hfills : ¬ ((s.stream src page).mode ≠ 1 ∨ (s.stream src page).lapLen < x / 4 * 4 + 4 ∨
      (s.stream src page).seen.contains (x / 4 * 4) = true) := by
    rw [hfree]
    simp [hmode, hplace]
  have hwhole : ¬ (15 : Nat) ≠ 15 := by decide
  intro place t u
  unfold State.winWrite
  dsimp only
  rw [if_neg hwhole, if_neg hfills]
  rfl

/-- A word of the lap under way that is not there yet is fetched with what comes with it, and given (R445). -/
theorem State.winRead_fetches {s : State} {src : Source} {page x : Nat} {l : List (Nat × Word)} (hmode : (s.stream src page).mode = 2)
    (hplace : x / 4 * 4 + 4 ≤ (s.stream src page).lapLen)
    (hnew : (s.stream src page).lap.find? (fun e => e.1 == x / 4 * 4) = none)
    (hfetch : s.fetch src page (s.stream src page) (x / 4 * 4) = .words l) :
    let place := x / 4 * 4
    let t := s.stream src page
    let lap := l.foldl (fun m e => Sparse.place e.1 e.2 (Sparse.drop e.1 m)) t.lap
    s.winRead src page x = ((s.fetchEffects src page t place).setStream src page { t with lap := lap }).giveWord src page place
      (Sparse.get (0 : Word) lap place) := by
  have hreads : ¬ ((s.stream src page).mode ≠ 2 ∨ (s.stream src page).lapLen < x / 4 * 4 + 4) := by simp [hmode, hplace]
  refine (if_neg hreads).trans ?_
  simp only [hnew, hfetch]

/-- Settles O45: no transfer is under way where one starts, and the object that it starts with follows from its address and page; the
word's place is free, or its data can be fetched at once. -/
theorem streamsComplete : Obligations.StreamsComplete := by
  unfold Obligations.StreamsComplete
  refine ⟨?writes, ?reads, ?abandon, ?write, ?read, ?timeout⟩
  case writes =>
    intro src page s hready hstream hopen p b hidle htakes x u hruns
    exact (perform_ready hready).trans (congrArg _ (State.modeWrite_done hstream hopen
      (State.strmCtl_starts (.inl rfl) hidle htakes (startObject_write _ _ _) hruns)))
  case reads =>
    intro src page s hready hstream hopen p b hidle htakes x u hruns
    exact (perform_ready hready).trans (congrArg _ (State.modeWrite_done hstream hopen
      (State.strmCtl_starts (.inr rfl) hidle htakes (startObject_read _ _ _) hruns)))
  case abandon =>
    intro src page s hready hstream hpro hopen p b
    exact (perform_ready hready).trans (congrArg _ (State.modeWrite_done hstream hopen (State.strmCtl_abandon b src hpro)))
  case write =>
    intro src page x v s hready hstream p place hans hmay b t hmode hplace hfree u
    exact (perform_ready hready).trans (congrArg _ ((if_pos hstream).trans ((if_neg (by simp [hans])).trans
      ((if_neg (by simp [p, hmay])).trans (State.winWrite_fills v hmode hplace hfree)))))
  case read =>
    intro src page x l s hready hstream p place b hans hmay t hmode hplace hnew hfetch lap
    exact (perform_ready hready).trans (congrArg _ ((if_pos hstream).trans ((if_neg (by simp [b, hans])).trans
      ((if_neg (by simp [b, p, hmay])).trans (State.winRead_fetches hmode hplace hnew hfetch)))))
  case timeout =>
    intro src page s hready hmode
    exact (perform_ready hready).trans (congrArg _ (if_pos hmode))

end Sys2Proof.Machine
end

section
/-!
Bobel, the monitor's command program (R541 to R551): responses, the console, login and the accesses of source 2, inspection; and the
machine's step (log 1).
-/

namespace Sys2Proof.Machine

/-! ### Commands for service sessions -/

theorem State.service_done {s : State} (f : State → State) (h : s.monService = true) : s.service f = f s := if_pos h

theorem State.typed_named {s : State} {ok : Bool} (f : State → State) (h : ok = true) : s.typed ok f = f s := if_pos h

/-- A command for service sessions, whose numbers name units. -/
theorem State.service_typed {s : State} {ok : Bool} (f : State → State) (hservice : s.monService = true) (hok : ok = true) :
    s.service (fun u => u.typed ok f) = f s :=
  (State.service_done _ hservice).trans (State.typed_named f hok)

/-! ### The console -/

/-- A good line only counts (R543). -/
theorem State.line_good {s : State} {chars : Nat} (h : chars ≤ 200) :
    s.line chars false false = s.count Page.MON Reg.MON.LINES 0 1 := by
  simp only [State.line, State.on_false, Bool.false_eq_true, if_false, if_neg (not_lt.mpr h), if_true]

theorem Shows.setBaud {s t : State} (h : Shows s t) (src : Source) (rate : Nat) : Shows s (t.setBaud src rate) := by
  unfold State.setBaud
  dsimp only
  split
  · exact h
  · exact ((h.wr _ _ _).raise _ _).record _ _ _ _

/-- The end of a session is no business of the monitor's own state. -/
theorem State.endSession_mon (s : State) (src : Source) (cause : Nat) : (s.endSession src cause).mon = s.mon := by
  obtain ⟨l, c, h⟩ := s.endSession_shows src cause
  have hmon := h.mon
  exact hmon

theorem State.ruleSees_mon (s : State) (src : Source) (page : Nat) : (ruleSees s src page).mon = s.mon := by
  unfold ruleSees State.breakPair
  split
  · rfl
  · exact ((Shows.refl _).guardFail _ _ _ _ _).mon

/-- A rate that another source writes while no command waits takes effect at once (R541). -/
theorem State.baudAct_now {s : State} {src : Source} (v : Nat) (hsource : src ≠ .monitor) (hlogin : s.mon.login = none) :
    s.baudAct src v = (s.setBaud src (bits v 21 0), true) :=
  if_neg (by simp [hlogin, hsource])

/-- Enabled events of a page that has announced none for a second, and that is not in FAULT, are announced (R551). -/
theorem State.announcePage_events {s : State} {page : Nat}
    (hevents : s.rdB 2 page Reg.HDR.EVT_FLAG &&& s.rdB 2 page Reg.HDR.EVT_ENABLE ≠ 0)
    (hfirst : s.mon.alerts.find? (fun e => e.1 == page) = none) (hworks : s.fn page ≠ 4) :
    let u : State := { s with mon := { s.mon with alerts := Sparse.place page s.osc (Sparse.drop page s.mon.alerts) } }
    let w := u.print [page, s.rdB 2 page Reg.HDR.EVT_FLAG]
    s.announcePage page = { w with mon := { w.mon with shown := Sparse.drop page w.mon.shown } } := by
  intro u w
  have hannounced : (s.rdB 2 page Reg.HDR.EVT_FLAG &&& s.rdB 2 page Reg.HDR.EVT_ENABLE) != 0 := by simpa using hevents
  have hfault : (s.fn page == 4) = false := by simpa using hworks
  have hstill : (w.fn page != 4) = true := by
    have hfn : w.fn page = s.fn page := rfl
    simpa [hfn] using hworks
  simp only [State.announcePage, hfirst, hannounced, hfault, Bool.not_false, Bool.and_self, Bool.false_and, State.on_true,
    State.on_false]
  exact congrArg (fun c => w.on c _) hstill

/-- Settles O46: the line is good and the command one of the thirteen; a break ends login and session; the rate comes from another
source while no command waits; the page has enabled events and has announced none for a second. -/
theorem consoleComplete : Obligations.ConsoleComplete := by
  unfold Obligations.ConsoleComplete
  refine ⟨?line, ?help, ?ver, ?who, ?break_, ?baud, ?alert⟩
  case line =>
    intro chars s hready hshort
    exact (perform_ready hready).trans (congrArg _ (State.line_good hshort))
  case help =>
    intro k s hready hk
    refine (perform_ready hready).trans (congrArg _ ?_)
    by_cases hall : k = 0
    · rw [if_pos hall, if_pos hall]
      rfl
    · rw [if_neg hall, if_neg hall, if_pos hk]
  case ver =>
    intro s hready u f
    exact perform_ready hready
  case who =>
    intro s hready
    exact perform_ready hready
  case break_ =>
    intro s hready u
    have hmon : ((u.raise Page.MON 2).record 0xB012 Src.monitor none (items [if s.roleOf .monitor = 0 then 0 else 1])).mon =
        { s.mon with login := none, baudNext := none } :=
      ((((Shows.refl _).setBaud .monitor 115200).raise _ _).record _ _ _ _).mon.trans (State.endSession_mon _ _ _)
    exact ⟨_, perform_ready hready, congrArg Mon.login hmon, congrArg Mon.baudNext hmon, rfl⟩
  case baud =>
    intro src v s hready hopen hsource hlogin b
    have hact : b.baudAct src v.toNat = (b.setBaud src (bits v.toNat 21 0), true) :=
      State.baudAct_now _ hsource ((congrArg Mon.login (State.ruleSees_mon s src _)).trans hlogin)
    have hwritten := State.written_recorded (f := fun u => u.baudAct src v.toNat) hopen hact
    refine (perform_ready hready).trans (congrArg _ ?_)
    have hother : (src == .monitor) = false := beq_false_of_ne hsource
    rw [hwritten, hother]
    rfl
  case alert =>
    intro page s hready hlogin hconfig p flag hevents hfirst hworks
    have halerts : ¬ (s.mon.login.isSome = true ∨ (!bit (s.rd Page.MON Reg.MON.CONFIG) 1) = true) := by simp [hlogin, hconfig]
    exact ⟨_, (perform_ready hready).trans (congrArg _ ((if_neg halerts).trans (State.announcePage_events hevents hfirst hworks))),
      rfl, rfl⟩

end Sys2Proof.Machine
end

section
/-!
Login and the accesses of source 2 (R545 to R548), inspection (R547, R550), and the machine's step (log 1).
-/

namespace Sys2Proof.Machine

/-! ### Offsets that showing leaves alone -/

/-- An offset at which no page shows events, and the recorder neither its queue nor what it withheld. -/
abbrev QuietOffset (o : Nat) : Prop :=
  o < 1024 ∧ o ∉ [Reg.HDR.EVT_FLAG, Reg.HDR.EVT_RAW, Reg.REC.QUEUE, Reg.REC.SUPPRESSED_LO, Reg.REC.SUPPRESSED_LO + 4]

/-- The words at an offset are the same on every page. -/
def SameAt (o : Nat) (s t : State) : Prop := ∀ p, t.rd p o = s.rd p o

theorem SameAt.refl (o : Nat) (s : State) : SameAt o s s := fun _ => rfl

theorem SameAt.trans {o : Nat} {s t u : State} (h : SameAt o s t) (k : SameAt o t u) : SameAt o s u := fun p => (k p).trans (h p)

theorem SameAt.on {o : Nat} {s t : State} {f : State → State} (c : Bool) (h : SameAt o s t) (k : ∀ u, SameAt o u (f u)) :
    SameAt o s (t.on c f) := by
  cases c
  · exact h
  · exact h.trans (k t)

theorem SameAt.wrB {o : Nat} {s t : State} (h : SameAt o s t) (b p v : Nat) {o' : Nat} (ho : o < 1024) (ho' : o' < 1024)
    (hne : o ≠ o') : SameAt o s (t.wrB b p o' v) := by
  refine h.trans fun p' => ?_
  unfold State.rd State.wrB
  rw [State.reg_setReg_ne]
  unfold regKey
  omega

theorem SameAt.wr {o : Nat} {s t : State} (h : SameAt o s t) (p v : Nat) {o' : Nat} (ho : o < 1024) (ho' : o' < 1024)
    (hne : o ≠ o') : SameAt o s (t.wr p o' v) := h.wrB 0 p v ho ho' hne

theorem SameAt.sendMsi {o : Nat} {s t : State} (h : SameAt o s t) (p v : Nat) : SameAt o s (t.sendMsi p v) :=
  h.trans fun _ => congrArg BitVec.toNat (congrArg (Sparse.get _ · _) (State.regs_sendMsi t p v))

section
variable {o : Nat} {s t : State} (hquiet : QuietOffset o) (h : SameAt o s t)
include hquiet h

theorem SameAt.latch (b p e : Nat) : SameAt o s (t.latch b p e) := by
  obtain ⟨hlt, hshown⟩ := hquiet
  exact SameAt.on _ (h.wrB _ _ _ hlt (by decide) (by simp_all)) fun u => (SameAt.refl o u).sendMsi _ _

theorem SameAt.raise (p e : Nat) : SameAt o s (t.raise p e) :=
  have hraw : o ≠ Reg.HDR.EVT_RAW := fun heq => hquiet.2 (by simp [heq])
  (((h.latch hquiet _ _ _).latch hquiet _ _ _).latch hquiet _ _ _).wr _ _ hquiet.1 (by decide) hraw

theorem SameAt.enqueue (r : Rec) : SameAt o s (t.enqueue r) := by
  obtain ⟨hlt, hshown⟩ := hquiet
  unfold State.enqueue
  dsimp only
  split
  · exact SameAt.wr (t := { t with recorder := _ }) h _ _ hlt (by decide) (by simp_all)
  · exact (SameAt.wr (t := { t with recorder := _ }) h _ _ hlt (by decide) (by simp_all)).wr _ _ hlt (by decide) (by simp_all)

theorem SameAt.guardFail (src : Source) (p off c v : Nat) : SameAt o s (t.guardFail src p off c v) :=
  (h.latch hquiet _ _ _).enqueue hquiet _

theorem SameAt.forbid (src : Source) (p off : Nat) (w : Bool) : SameAt o s (t.forbid src p off w) :=
  (h.enqueue hquiet _).latch hquiet _ _ _

theorem SameAt.breakPair (src : Source) (p : Nat) : SameAt o s (t.breakPair src p) := by
  unfold State.breakPair
  split
  · exact h
  · exact SameAt.guardFail hquiet (t := t.dropPair src p) h _ _ _ _ _

theorem SameAt.config (b : State) (src : Source) (p off x y : Nat) : SameAt o s (t.config b src p off x y) :=
  SameAt.on _ h fun u => (SameAt.refl o u).enqueue hquiet _

/-- A register write leaves an offset alone that its rule leaves alone. -/
theorem SameAt.tryWritten (src : Source) (page off v : Nat) (rw : Bool) {f : Act} (hf : ∀ u, SameAt o u (f u).1) :
    SameAt o s (t.tryWritten src page off v rw f).1 := by
  unfold State.tryWritten
  dsimp only
  have htouch : SameAt o s (t.touch src) := h
  split
  · exact htouch
  · split
    · split
      · exact htouch
      · exact htouch.forbid hquiet _ _ _ _
    · split
      · exact (htouch.breakPair hquiet _ _).enqueue hquiet _
      · exact SameAt.on _ ((htouch.breakPair hquiet _ _).trans (hf _)) fun u => (SameAt.refl o u).config hquiet _ _ _ _ _ _

end

/-- A write to an RW word leaves an offset alone that the word's rule leaves alone, whatever becomes of the write. -/
theorem SameAt.tryWrite {o : Nat} (hquiet : QuietOffset o) (s : State) {src : Source} {addr off : Nat} (v : Word)
    (hview : viewAt (addrPage addr) (addrOff addr) = .word off) (hacc : accOf (addrPage addr) off = .rw)
    (hact : ∀ u, SameAt o u (u.wordAct src (addrPage addr) off v.toNat).1) : SameAt o s (s.tryWrite src addr v 15).1 := by
  have htouch : SameAt o s (s.touch src) := SameAt.refl o s
  have halone (u : State) : SameAt o u (u.writeAlone src (addrPage addr) (.word off) v 15).1 := by
    simp only [State.writeAlone, State.writeWord, hacc, ne_eq, not_true, if_false]
    exact SameAt.tryWritten hquiet (.refl o u) _ _ _ _ _ hact
  unfold State.tryWrite
  dsimp only
  split
  · exact htouch
  · rw [hview]
    unfold State.writeAt
    split
    · rcases (s.touch src).forbidHalf_cases src (addrPage addr) (.word off) with hsame | ⟨x, hforbid⟩
      · rw [hsame]
        exact htouch
      · rw [hforbid]
        exact htouch.forbid hquiet _ _ _ _
    · split
      · exact htouch.trans (halone _)
      · rename_i p hopen
        dsimp only
        rw [if_neg (by simp)]
        exact (SameAt.guardFail hquiet (t := (s.touch src).dropPair src _) htouch _ _ _ _ _).trans (halone _)

/-! ### What a reader of the recorder is given -/

/-- The stores of the recorder, and the words that decide what a source may read of them, are the same. -/
structure ReadsSame (s t : State) : Prop where
  ring : t.recorder.ring = s.recorder.ring
  region : t.recorder.region = s.recorder.region
  archive : t.recorder.archive = s.recorder.archive
  damaged : t.recorder.damaged = s.recorder.damaged
  states : SameAt Reg.CLM.CLAIM_STATE s t
  binds : SameAt Reg.CLM.BIND_COUNT s t

theorem ReadsSame.refl (s : State) : ReadsSame s s := ⟨rfl, rfl, rfl, rfl, .refl _ s, .refl _ s⟩

theorem ReadsSame.trans {s t u : State} (h : ReadsSame s t) (k : ReadsSame t u) : ReadsSame s u :=
  ⟨k.ring.trans h.ring, k.region.trans h.region, k.archive.trans h.archive, k.damaged.trans h.damaged, h.states.trans k.states,
    h.binds.trans k.binds⟩

theorem ReadsSame.roleOf {s t : State} (h : ReadsSame s t) (src : Source) : t.roleOf src = s.roleOf src := by
  have hword : t.rd (Page.ROL src.num) Reg.ROL.SESS_STATE = s.rd (Page.ROL src.num) Reg.ROL.SESS_STATE := h.states _
  rw [State.roleOf, State.roleOf, hword]

theorem ReadsSame.sessClaim {s t : State} (h : ReadsSame s t) (src : Source) : t.sessClaim src = s.sessClaim src := by
  have hword : t.rd (Page.ROL src.num) Reg.ROL.SESS_STATE = s.rd (Page.ROL src.num) Reg.ROL.SESS_STATE := h.states _
  rw [State.sessClaim, State.sessClaim, hword]

theorem ReadsSame.holdsContent {s t : State} (h : ReadsSame s t) (c : Nat) : t.holdsContent c = s.holdsContent c := by
  have hpro : t.rd Page.PRO Reg.PRO.PRO_STATE = s.rd Page.PRO Reg.PRO.PRO_STATE := h.states _
  have hclaim : t.claimState c = s.claimState c := by
    rw [State.claimState, State.claimState, State.fld, State.fld, h.states]
  rw [State.holdsContent, State.holdsContent, State.prospectorHeld, State.prospectorHeld, hpro, hclaim]

/-- A reader of the same stores with the same rights is given the same record. -/
theorem ReadsSame.logged {s t : State} (h : ReadsSame s t) (sec : Bool) (q : Nat) : t.logged sec q = s.logged sec q := by
  have hbind (c : Nat) : t.rd (Page.CLM c) Reg.CLM.BIND_COUNT = s.rd (Page.CLM c) Reg.CLM.BIND_COUNT := h.binds _
  have hslot : t.slotBytes .monitor sec q = s.slotBytes .monitor sec q := by
    simp only [State.slotBytes, State.viewRecords, h.roleOf, h.sessClaim, h.ring, h.region, h.archive, h.damaged, h.holdsContent, hbind]
  rw [State.logged, State.logged, hslot]

/-- A damaged record that a reader meets is counted and recorded, and stays as it is (R479). -/
theorem State.meetDamaged_reads (s : State) (sec : Bool) (q : Nat) : ReadsSame s (s.meetDamaged sec q) := by
  have hsame {o : Nat} (hquiet : QuietOffset o) (hlow : o ≠ Reg.REC.DAMAGED_LO) (hhigh : o ≠ Reg.REC.DAMAGED_LO + 4) (v : Nat)
      (r : Rec) : SameAt o s (((s.wr64 Page.REC Reg.REC.DAMAGED_LO v).raise Page.REC 4).enqueue r) :=
    ((((SameAt.refl o s).wr _ _ hquiet.1 (by decide) hlow).wr _ _ hquiet.1 (by decide) hhigh).raise hquiet _ _).enqueue hquiet _
  unfold State.meetDamaged
  dsimp only
  generalize (if !sec then 0 else _ : Nat) = store
  split
  · refine ⟨?_, ?_, ?_, ?_, hsame (o := Reg.CLM.CLAIM_STATE) (by decide) (by decide) (by decide) _ _,
      hsame (o := Reg.CLM.BIND_COUNT) (by decide) (by decide) (by decide) _ _⟩ <;>
      simp only [State.record, State.enqueue_stores, State.raise_recorder, State.wr64_recorder]
  · exact .refl s

theorem State.eachMeetDamaged_reads (s : State) (sec : Bool) (l : List Nat) :
    ReadsSame s (s.each l (fun w q => w.meetDamaged sec q)) := by
  induction l generalizing s with
  | nil => exact .refl s
  | cons q l ih => exact (s.meetDamaged_reads sec q).trans (ih _)

/-! ### Login and the accesses of source 2 -/

/-- A login whose request is written prints its nonce and waits for the signature (R545). -/
theorem State.loginAs_written {s : State} {role : Role} {claim : Nat} {chain : List Byte} (hrole : role ≠ .none) :
    let r := s.tryWrite .monitor (wordAddr (Page.ROL 2) Reg.ROL.SESS_REQ)
      (BitVec.ofNat 32 (role.code + (if role = .operator then claim * 256 else 0))) 15
    let u := r.1.setStream .monitor (Page.ROL 2) { Stream.idle with object := if role = .maker then chain else [] }
    let w := { u with mon := { u.mon with login := some (role.code, claim, u.osc) } }
    r.2 = 0 → s.loginAs role claim chain = w.print ((List.range 12).map (fun i => w.rd (Page.ROL 2) (Reg.ROL.NONCE + 4 * i))) :=
  fun hwritten => (if_neg hrole).trans (if_neg (not_not_intro hwritten))

/-- The words of a `peek` lie within BAR0 where the last one does. -/
theorem peek_within {addr n : Nat} (h : addr / 4 * 4 + 4 * n ≤ 0x4000000) :
    ((List.range n).map (fun i => addr / 4 * 4 + 4 * i)).all (fun a => decide (a < 0x4000000)) = true := by
  rw [List.all_eq_true]
  intro a ha
  obtain ⟨i, hi, rfl⟩ := List.mem_map.mp ha
  have hlt := List.mem_range.mp hi
  exact decide_eq_true (by omega)

/-- `poke` of two tokens, of a register that is not guarded, is one write (R548). -/
theorem State.pokeWord_plain {s : State} {addr off : Nat} {v : Word} (hview : viewAt (addrPage addr) (addrOff addr) = .word off)
    (hacc : accOf (addrPage addr) off ≠ .rwg) :
    let r := s.tryWrite .monitor addr v 15
    s.pokeWord addr v none = r.1.replyErr r.2 := by
  simp only [State.pokeWord, hview, if_neg hacc]

/-- `poke` of a value and its complement, of a guarded register, is the register's pair (R548). -/
theorem State.pokeWord_guarded {s : State} {addr off : Nat} {v : Word} (hview : viewAt (addrPage addr) (addrOff addr) = .word off)
    (hacc : accOf (addrPage addr) off = .rwg) :
    let r := s.monPair (addrPage addr) off v.toNat
    s.pokeWord addr v (some (~~~v)) = r.1.replyErr r.2 := by
  simp only [State.pokeWord, hview, hacc, ne_eq, not_true, or_self, if_false]

/-- Settles O47: the command's numbers name what there is, and the writes that it makes take effect. -/
theorem loginComplete : Obligations.LoginComplete := by
  unfold Obligations.LoginComplete
  refine ⟨?login, ?signature, ?timeout, ?loginEnd, ?peek, ?poke, ?pokePair, ?log⟩
  case login =>
    intro role claim chain s hready hrole hclaim r hwritten u w
    have hnamed : (role != .operator || decide (claim < 64)) = true := by
      by_cases hop : role = .operator
      · simp [hclaim hop]
      · simp [hop]
    exact (perform_ready hready).trans (congrArg _ ((State.typed_named _ hnamed).trans (State.loginAs_written hrole hwritten)))
  case signature =>
    intro sig s hready hlogin hwhole x u w t
    have hwaits : ¬ (s.mon.login.isNone = true ∨ sig.length < 96) :=
      not_or.mpr ⟨fun h => hlogin (Option.isNone_iff_eq_none.mp h), not_lt.mpr hwhole⟩
    exact (perform_ready hready).trans (congrArg _ (if_neg hwaits))
  case timeout =>
    intro s hready hlogin
    exact (perform_ready hready).trans (congrArg _ (if_neg fun h => hlogin (Option.isNone_iff_eq_none.mp h)))
  case loginEnd =>
    intro s hready r hwritten
    exact (perform_ready hready).trans (congrArg (fun err => Host.Outcome.next (r.1.reply [] err)) hwritten)
  case peek =>
    intro addr n s hready hone hmany hwithin
    have hnamed : (decide (1 ≤ n) && decide (n ≤ 64)) = true := by simp [hone, hmany]
    exact (perform_ready hready).trans (congrArg _ ((State.typed_named _ hnamed).trans (if_pos (peek_within hwithin))))
  case poke =>
    intro addr off v s hready hrole hin hview hacc r hwritten
    have hpoke : s.pokeWord addr v none = r.1.replyErr 0 :=
      (State.pokeWord_plain hview hacc).trans (congrArg r.1.replyErr hwritten)
    exact (perform_ready hready).trans (congrArg _ ((if_neg hrole).trans
      ((State.typed_named (fun u => u.pokeWord addr v none) (decide_eq_true hin)).trans hpoke)))
  case pokePair =>
    intro addr off v s hready hrole hin hview hacc r hwritten
    have hpoke : s.pokeWord addr v (some (~~~v)) = r.1.replyErr 0 :=
      (State.pokeWord_guarded hview hacc).trans (congrArg r.1.replyErr hwritten)
    exact (perform_ready hready).trans (congrArg _ ((if_neg hrole).trans
      ((State.typed_named (fun u => u.pokeWord addr v (some (~~~v))) (decide_eq_true hin)).trans hpoke)))
  case log =>
    intro seq n sec s hready hservice hone hmany hseq first seqs u
    have hnamed : (decide (1 ≤ n) && decide (n ≤ 64) && decide (seq.getD 0 < 2 ^ 32)) = true := by
      rw [decide_eq_true hone, decide_eq_true hmany, decide_eq_true hseq]
      rfl
    have hlogged : (fun q => u.logged sec q) = fun q => s.logged sec q :=
      funext fun q => (s.eachMeetDamaged_reads sec seqs).logged sec q
    refine (perform_ready hready).trans (congrArg _ ((State.service_typed _ hservice hnamed).trans ?_))
    rw [hlogged]

/-! ### Inspection -/

/-- A piece of an effect under a decided condition. -/
theorem State.on_decide (s : State) (f : State → State) (P : Prop) [Decidable P] : s.on (decide P) f = if P then f s else s := by
  by_cases h : P
  · rw [if_pos h, decide_eq_true h, State.on_true]
  · rw [if_neg h, decide_eq_false h, State.on_false]

theorem accOf_stopeSelect : accOf Page.INT Reg.INT.STOPE_SELECT = .rw := rfl

/-- The selection of a stope leaves the session as it is. -/
theorem State.roleOf_selectStope (s : State) (p : Nat) :
    (s.monSelect Page.INT Reg.INT.STOPE_SELECT p).roleOf .monitor = s.roleOf .monitor := by
  have hpage : addrPage (wordAddr Page.INT Reg.INT.STOPE_SELECT) = Page.INT := addrPage_wordAddr (by decide) (by decide)
  have hview : viewAt Page.INT (addrOff (wordAddr Page.INT Reg.INT.STOPE_SELECT)) = .word Reg.INT.STOPE_SELECT := by
    rw [addrOff_wordAddr _ (by decide)]
    exact viewAt_word _ (by decide) (by decide)
  have hact (u : State) (v : Nat) :
      SameAt Reg.ROL.SESS_STATE u (u.wordAct .monitor Page.INT Reg.INT.STOPE_SELECT v).1 := by
    rw [State.wordAct_plain v accOf_stopeSelect (by decide) (by decide)]
    exact (SameAt.refl _ u).wrB _ _ _ (by decide) (by decide) (by decide)
  have hsame : SameAt Reg.ROL.SESS_STATE s (s.monSelect Page.INT Reg.INT.STOPE_SELECT p) :=
    SameAt.tryWrite (by decide) s _ (by rw [hpage]; exact hview) (by rw [hpage]; exact accOf_stopeSelect)
      (fun u => by rw [hpage]; exact hact u _)
  rw [State.roleOf, State.roleOf, hsame]

/-- Settles O48: the session is an installer's or a maker's, and the command's numbers name units. -/
theorem inspectionComplete : Obligations.InspectionComplete := by
  unfold Obligations.InspectionComplete
  refine ⟨?tally, ?assay, ?canary, ?stope, ?drift, ?power⟩
  case tally =>
    intro s hready hservice
    exact (perform_ready hready).trans (congrArg _ (State.service_done _ hservice))
  case assay =>
    intro p k s hready hservice hp hk
    have hnamed : (decide (p < 1056) && decide (k < 17)) = true := by simp [hp, hk]
    exact (perform_ready hready).trans (congrArg _ (State.service_typed _ hservice hnamed))
  case canary =>
    intro s hready hservice r
    exact (perform_ready hready).trans (congrArg _ (State.service_done _ hservice))
  case stope =>
    intro p s hready hservice hp u w
    have hselect : u.on (s.roleOf .monitor == 2) (fun x => x.monSelect Page.SNS Reg.SNS.STOPE_SELECT p) = w := by
      rw [← State.roleOf_selectStope s p]
      exact State.on_decide u _ (u.roleOf .monitor = 2)
    exact (perform_ready hready).trans (congrArg _ ((State.service_typed _ hservice (decide_eq_true hp)).trans
      (congrArg (fun x : State => x.replyWords [wordAddr (Page.STX p) Reg.HDR.STATUS, wordAddr (Page.STX p) Reg.STX.STOPE_ROLE,
        wordAddr Page.INT Reg.INT.STOPE_INTEG, wordAddr Page.INT Reg.INT.STOPE_LAST_FAIL, wordAddr Page.SNS Reg.SNS.STOPE_AVG])
        hselect)))
  case drift =>
    intro port s hready hservice hport ports
    exact (perform_ready hready).trans (congrArg _ (State.service_typed _ hservice (decide_eq_true hport)))
  case power =>
    intro s hready hservice
    exact (perform_ready hready).trans (congrArg _ (State.service_done _ hservice))

/-! ### The step -/

/-- With power a nanosecond advances the tally by the corrected rate, and what grows or counts by the second (R163, R194, R470). -/
theorem State.tick_powered {s : State} (p : s.powered = true) :
    ∃ u b, s.tick = State.on u b State.secondEnds ∧ u.osc = s.osc + 1 ∧ u.pending = s.pending ∧ u.mem = s.mem ∧ u.jobs = s.jobs ∧
      u.recorder = s.recorder ∧
      u.tally = s.tally + (((s.clock.frac : Int) + 1000000000 + s.clock.rate) / 1000000000).toNat :=
  ⟨_, _, if_neg (by simp [p]), rfl, rfl, rfl, rfl, rfl, rfl⟩

/-- The end of a second leaves time, queue, memory, jobs and recorder alone. -/
theorem State.on_secondEnds (u : State) (b : Bool) :
    let t := u.on b State.secondEnds
    t.osc = u.osc ∧ t.pending = u.pending ∧ t.mem = u.mem ∧ t.jobs = u.jobs ∧ t.recorder = u.recorder ∧ t.tally = u.tally := by
  cases b <;> exact ⟨rfl, rfl, rfl, rfl, rfl, rfl⟩

/-- Settles O50: the step is its own case distinction on the queue; a nanosecond with power grows allowances and ends a second, which
touch neither memory, jobs nor recorder. -/
theorem stepRunsCommand : Obligations.StepRunsCommand := by
  unfold Obligations.StepRunsCommand
  refine ⟨?front, ?passes⟩
  case front =>
    intro c rest s hpending
    simp only [step, hpending]
  case passes =>
    intro s hpending
    refine ⟨_, step_of_pending_nil hpending, ?_⟩
    cases hpower : s.powered with
    | false =>
      rw [State.tick_unpowered hpower]
      exact ⟨rfl, hpending, rfl, rfl, rfl, fun _ => ⟨rfl, rfl⟩, fun h => absurd h (by simp)⟩
    | true =>
      obtain ⟨u, b, htick, hosc, hqueue, hmem, hjobs, hrecorder, htally⟩ := State.tick_powered hpower
      obtain ⟨hosc', hqueue', hmem', hjobs', hrecorder', htally'⟩ := u.on_secondEnds b
      rw [htick]
      refine ⟨hosc'.trans hosc, hqueue'.trans (hqueue.trans hpending), hmem'.trans hmem, hjobs'.trans hjobs, hrecorder'.trans hrecorder,
        fun h => absurd h (by simp), fun _ hrate hfrac => ?_⟩
      rw [htally', htally, hrate, hfrac]
      rfl

end Sys2Proof.Machine
end
